-- ==== Sys2Proof/Word.lean ====
section
/-!
DEFINITION. Word.lean: the word types of the model and nothing else.
The manual numbers bits from 0, the least significant (R8). Values the manual adds, compares or counts are Nat;
what it treats as bits in a register or a byte of memory is a bit vector.
-/

namespace Sys2Proof

/-- One byte of memory, of a record or of a packet. -/
abbrev Byte := BitVec 8

/-- One set-up register (R507). -/
abbrev U32 := BitVec 32

end Sys2Proof
end

