-- ==== Sys2Proof/Syntax.lean ====
section
/-!
DEFINITION. Syntax.lean: the commands of the block, one constructor per row of spec/opcode_table.json, with their operands.
An operand names the object a command acts on and carries what only the outside world can supply (a written value, a measured
temperature, that a check mismatched). Everything else a command does is computed from State.
-/

namespace Sys2Proof

/-- Who makes a register access: function `f` of PCIe port `q` (0 is the PF, R500), the manager logic through space 0x8
(R64), or the SMBus master (R519). -/
inductive Src where
  | port (q f : Nat)
  | manager
  | smbus
  deriving DecidableEq, Repr

/-- The outcome of decoding one line's Reed-Solomon codeword (R232), or one SECDED word of loom SRAM (R84). -/
inductive Decoded where
  | clean
  | corrected
  | uncorrectable
  deriving DecidableEq, Repr

/-- What the row check finds for a result row (R81, R83). -/
inductive RowCheck where
  | matches
  | mismatch
  | parity
  deriving DecidableEq, Repr

/-- One fabric packet (R279): type, length in lines, virtual channel, DETOURED, destination module, space, source module and
partition, domain, tag, offset, and its data lines. -/
structure Packet where
  ty : Nat
  len : Nat
  vc : Nat
  detoured : Bool
  dst : Nat
  space : Nat
  src : Nat
  srcPart : Nat
  domain : Nat
  tag : Nat
  offset : Nat
  data : List Byte
  deriving DecidableEq, Repr

/-- Who issued an access whose refusal or failure ends the issuer: a node of a draft, an accepted entry, move entry `i` of partition `p`'s
shed change, entry `i` of the prefetch schedule of draft `d` (R261), or nobody that the module completes (a host's BAR4 access, a remote
request). -/
inductive Issuer where
  | node (draft node : Nat)
  | entry (e : Nat)
  | shed (p i : Nat)
  | fetch (d i : Nat)
  | outside
  deriving DecidableEq, Repr

/-- A word of loom SRAM that the scrub reads: the loom, and what its first and its second read decode as (R84, R85). -/
structure LoomScrub where
  loom : Nat
  first : Decoded
  second : Decoded
  deriving DecidableEq, Repr

/-- An external read of loom SRAM: its 64-bit words, and who issued it (R75). -/
structure WordRead where
  words : Nat
  issuer : Issuer
  deriving DecidableEq, Repr

/-- A window of the link-mode temple that ends: the link, and the FEC symbols corrected and not corrected in it (R276, R278). -/
structure FecWindow where
  link : Nat
  corrected : Nat
  uncorrected : Nat
  deriving DecidableEq, Repr

/-- A PCIe configuration request as far as the manual describes configuration space (R500, R501, R505). -/
inductive CfgOp where
  | readIds
  | powerState (d3hot : Bool)
  | numVfs (n : Nat)
  | bar4Size (log2GiB : Nat)
  | msixEnable (on : Bool)
  /-- Device Control: the maximum payload, 128 * 2^payload bytes, and the maximum read request, 128 * 2^request (R241, R501). -/
  | deviceControl (payload request : Nat)
  deriving DecidableEq, Repr

/-- A transport that carries MCTP (R497). -/
inductive Transport where
  | pcie (q : Nat)
  | smbus
  deriving DecidableEq, Repr

/-- One knot event (R435, R440): source, class, unit fields, address, detail, and the way or unit that decides the affected
partitions is `unit`. -/
structure FaultEv where
  source : Nat
  cls : Nat
  unit : Nat
  unit2 : Nat
  address : Nat
  detail : Nat
  island : Nat
  part : Option Nat
  deriving DecidableEq, Repr

/-- The commands of the block. The comment of each names the row's mnemonic and its rule. -/
inductive Instr where
  -- submission commands: `e` is the acceptance number of the entry (R182, R191)
  | draftRun (e : Nat)                    -- DRAFT_RUN R206
  | copy (e : Nat)                        -- COPY R191
  | fence (e : Nat)                       -- FENCE R194
  | signal (e : Nat)                      -- SIGNAL R195
  | serveLoopConfig (e : Nat)             -- SERVE_LOOP_CONFIG R401
  | seqAdmit (e : Nat)                    -- SEQ_ADMIT R404
  | seqCancel (e : Nat)                   -- SEQ_CANCEL R420
  | prefixRegister (e : Nat)              -- PREFIX_REGISTER R418
  | prefixRelease (e : Nat)               -- PREFIX_RELEASE R419
  | adapterLoad (e : Nat)                 -- ADAPTER_LOAD R425
  | adapterReplace (e : Nat)              -- ADAPTER_REPLACE R426
  | weightVersionPublish (e : Nat)        -- WEIGHT_VERSION_PUBLISH R29
  | weightVersionSwitch (e : Nat)         -- WEIGHT_VERSION_SWITCH R32
  | shedChange (e : Nat)                  -- SHED_CHANGE R353
  | stepSizeWrite (e : Nat)               -- STEP_SIZE_WRITE R384
  | freezeSet (e : Nat)                   -- FREEZE_SET R391
  | swapAreaRegister (e : Nat)            -- SWAP_AREA_REGISTER R423
  | preempt (e : Nat)                     -- PREEMPT R222
  | resume (e : Nat)                      -- RESUME R225
  | query (e : Nat)                       -- QUERY R192
  | faultInject (e : Nat)                 -- FAULT_INJECT R441
  -- doorbells: port, function, ring pair, value (R179)
  | sqTail (q f k v : Nat)                -- SQ_TAIL R181
  | cqHead (q f k v : Nat)                -- CQ_HEAD R181
  | waitKick (q f k v : Nat)              -- WAIT_KICK R207
  | inlineEntry (q f k off : Nat) (data : List Byte) -- INLINE_ENTRY R180
  -- rings
  | submissionEntryAccept (q k : Nat)     -- SUBMISSION_ENTRY_ACCEPT R182
  | waitSatisfied (e : Nat)               -- WAIT_SATISFIED R188
  | completionWrite (q k : Nat)           -- COMPLETION_WRITE R184
  -- drafts and partitions: `d` draft instance, `n` node id, `p` partition
  | nodeDispatch (d n : Nat)              -- NODE_DISPATCH R211
  | nodeComplete (d n : Nat)              -- NODE_COMPLETE R210
  | pickAdvance (p : Nat)                 -- PICK_ADVANCE R59
  | hostWaitPoll (d n : Nat)              -- HOST_WAIT_POLL R207
  | preemptSaveComplete (p : Nat)         -- PREEMPT_SAVE_COMPLETE R222
  | resumeRestoreComplete (p : Nat) (readOk : Bool) -- RESUME_RESTORE_COMPLETE R225
  | partitionConfigure (src : Src) (p v : Nat)      -- PARTITION_CONFIGURE R516
  | partitionEnable (src : Src) (p : Nat) -- PARTITION_ENABLE R516
  | partitionEnablingEnd (p : Nat)        -- PARTITION_ENABLING_END R220
  | partitionDisable (src : Src) (p : Nat)          -- PARTITION_DISABLE R220
  | partitionDisablingEnd (p : Nat)       -- PARTITION_DISABLING_END R220
  | partitionOwnerChange (src : Src) (p v : Nat)    -- PARTITION_OWNER_CHANGE R518
  -- looms: `l` physical loom
  | arrayRowComplete (l : Nat) (check : RowCheck)   -- ARRAY_ROW_COMPLETE R145
  | rowCheckRetryComplete (l : Nat) (again : Bool) (column : Nat) -- ROW_CHECK_RETRY_COMPLETE R82
  | loomSramUncorrectable (l addr : Nat) (second : Decoded) (issuer : Issuer) -- LOOM_SRAM_UNCORRECTABLE R84
  | loomScrubRead (read : LoomScrub)      -- LOOM_SCRUB_READ R85
  | warpShadowLoadComplete (l : Nat)      -- WARP_SHADOW_LOAD_COMPLETE R77
  | imageLoadComplete (l slot : Nat)      -- IMAGE_LOAD_COMPLETE R91
  | imageSwitch (l slot : Nat)            -- IMAGE_SWITCH R96
  | weftSwap (l : Nat)                    -- WEFT_SWAP R98
  | swapTimeout (l : Nat)                 -- SWAP_TIMEOUT R100
  | readyTimeout (l row : Nat)            -- READY_TIMEOUT R148
  | externalWrite (addr : Nat) (data : List Byte) (issuer : Issuer) -- EXTERNAL_WRITE R74
  | externalRead (addr : Nat) (read : WordRead) -- EXTERNAL_READ R75
  | crossingDeliver (src dst : Nat)       -- CROSSING_DELIVER R50
  | handshakeTimeout (src dst : Nat)      -- HANDSHAKE_TIMEOUT R53
  -- memory
  | memoryRead (addr : Nat) (first second : Decoded) (issuer : Issuer) -- MEMORY_READ R232
  | memoryWrite (addr : Nat) (data : List Byte) (first second : Decoded) (issuer : Issuer) -- MEMORY_WRITE R233
  | scrubReadDue (tier2 : Bool) (channel : Nat) (first second : Decoded) -- SCRUB_READ_DUE R234
  | cacheWayChange (src : Src) (off v : Nat)        -- CACHE_WAY_CHANGE R238
  | poolAllocate (p cls key blocks : Nat) -- POOL_ALLOCATE R247
  | poolAgeTempleUpdate (p : Nat)         -- POOL_AGE_TEMPLE_UPDATE R251
  | shuttleRequest (p descriptor : Nat) (issuer : Issuer) -- SHUTTLE_REQUEST R254
  | prefetchIssue (d : Nat)               -- PREFETCH_ISSUE R261
  | prefetchLeadTempleUpdate (p slot stall : Nat)   -- PREFETCH_LEAD_TEMPLE_UPDATE R262
  -- links: `l` link 0 to 95
  | linkEnable (src : Src) (port lane : Nat)        -- LINK_ENABLE R267
  | linkDisable (src : Src) (port lane : Nat)       -- LINK_DISABLE R267
  | linkDetect (l : Nat) (present receiver : Bool)  -- LINK_DETECT R267
  | cableMemoryTimeout (port : Nat)       -- CABLE_MEMORY_TIMEOUT R531
  | linkEqualiseDone (l loss : Nat)       -- LINK_EQUALISE_DONE R267
  | linkEqualiseTimeout (l : Nat)         -- LINK_EQUALISE_TIMEOUT R267
  | identBlock (l : Nat) (block : List Byte)        -- IDENT_BLOCK R268
  | linkIdentifyTimeout (l : Nat)         -- LINK_IDENTIFY_TIMEOUT R267
  | linkLossOfLock (l : Nat)              -- LINK_LOSS_OF_LOCK R267
  | linkDrainComplete (l : Nat)           -- LINK_DRAIN_COMPLETE R267
  | flitReceive (l : Nat) (flit : List Byte)        -- FLIT_RECEIVE R272
  | nak (l seq : Nat)                     -- NAK R272
  | modeReq (l mode : Nat)                -- MODE_REQ R278
  | modeAck (l mode : Nat)                -- MODE_ACK R278
  | idleEnter (l : Nat)                   -- IDLE_ENTER R464
  | linkModeTempleWindow (w : FecWindow)  -- LINK_MODE_TEMPLE_WINDOW R278
  -- packets that a whole arrival (R275) hands to the module
  | rdReq (pkt : Packet)                  -- RD_REQ R295
  | rdRsp (pkt : Packet)                  -- RD_RSP R288
  | wr (pkt : Packet)                     -- WR R295
  | wrAck (pkt : Packet)                  -- WR_ACK R288
  | atomic (pkt : Packet)                 -- ATOMIC R295
  | atomicRsp (pkt : Packet)              -- ATOMIC_RSP R288
  | nack (pkt : Packet)                   -- NACK R295
  | redAdd (pkt : Packet)                 -- RED_ADD R291
  | redMax8 (pkt : Packet)                -- RED_MAX8 R291
  | redOr (pkt : Packet)                  -- RED_OR R291
  | requestTimeout (dst tag : Nat)        -- REQUEST_TIMEOUT R289
  | requestRetryTimer (dst tag : Nat)     -- REQUEST_RETRY_TIMER R295
  | redRetryTimer                         -- RED_RETRY_TIMER R292
  | fabricPageTimer                       -- FABRIC_PAGE_TIMER R298
  -- manager messages are MGR packets (R340)
  | heartbeat (pkt : Packet)              -- HEARTBEAT R347
  | heartbeatPeriod                       -- HEARTBEAT_PERIOD R340
  | heartbeatMiss (slot member : Nat)     -- HEARTBEAT_MISS R347
  | join (pkt : Packet)                   -- JOIN R341
  | joinAck (pkt : Packet)                -- JOIN_ACK R341
  | stepReport (pkt : Packet)             -- STEP_REPORT R343
  | stepDecide (pkt : Packet)             -- STEP_DECIDE R325
  | shedReport (pkt : Packet)             -- SHED_REPORT R353
  | shedDecide (pkt : Packet)             -- SHED_DECIDE R354
  | shedEntryComplete (p i : Nat) (failed : Bool)   -- SHED_ENTRY_COMPLETE R357
  | shedClear (pkt : Packet)              -- SHED_CLEAR R356
  | lost (pkt : Packet)                   -- LOST R348
  | takeover (pkt : Packet)               -- TAKEOVER R349
  | standbyTakeover                       -- STANDBY_TAKEOVER R349
  | barrierReport (pkt : Packet)          -- BARRIER_REPORT R344
  | barrierGo (pkt : Packet)              -- BARRIER_GO R344
  | memberDeclareLost (src : Src) (v : Nat)         -- MEMBER_DECLARE_LOST R347
  | jobSlotEnable (src : Src) (slot v : Nat)        -- JOB_SLOT_ENABLE R337
  | jobJoinEnable (src : Src) (p v : Nat) -- JOB_JOIN_ENABLE R341
  -- gradient reduction
  | boltEmit (p stream element value loom : Nat)    -- BOLT_EMIT R302
  | boltLaunch (p stream bolt : Nat)      -- BOLT_LAUNCH R303
  | orthoComplete (p stream : Nat)        -- ORTHO_COMPLETE R322
  | boltSizeTempleUpdate (p slot stream : Nat)      -- BOLT_SIZE_TEMPLE_UPDATE R329
  -- serving
  | serveStepBoundary (p loop : Nat)      -- SERVE_STEP_BOUNDARY R409
  | serveStepComplete (p loop cycles : Nat)         -- SERVE_STEP_COMPLETE R409
  | promptChunkTempleUpdate (p loop : Nat)          -- PROMPT_CHUNK_TEMPLE_UPDATE R413
  | swapOutComplete (p loop slot : Nat)   -- SWAP_OUT_COMPLETE R423
  | adapterCopyComplete (p adapter : Nat) -- ADAPTER_COPY_COMPLETE R426
  | ringBlockArrive (p loop block round : Nat) (visible : Bool) -- RING_BLOCK_ARRIVE R429
  -- faults
  | knotEvent (ev : FaultEv)              -- KNOT_EVENT R435
  | blockResetReturn (source : Nat)       -- BLOCK_RESET_RETURN R477
  | handlingWindowClose (src : Src) (v : Nat) (mergedNow : Bool) -- HANDLING_WINDOW_CLOSE R438
  | knotWordClear (src : Src) (hi : Bool) (v setNow : Nat)       -- KNOT_WORD_CLEAR R438
  | force (src : Src) (source : Nat)      -- FORCE R441
  | knotLogHead (src : Src) (v : Nat)     -- KNOT_LOG_HEAD R439
  | retirementClear (src : Src) (v : Nat) -- RETIREMENT_CLEAR R453
  | classifierWindowEnd (cls unit : Nat)  -- CLASSIFIER_WINDOW_END R444
  -- supplies and power
  | railSample (vmain vside vstby : Nat)  -- RAIL_SAMPLE R457 (mV)
  | vstbyLoss                             -- VSTBY_LOSS R457
  | domainPowerGoodLost (domain mv : Nat) -- DOMAIN_POWER_GOOD_LOST R473
  | trdReq (src : Src) (v : Nat)          -- TRD_REQ R468
  | powerStateEntryComplete               -- POWER_STATE_ENTRY_COMPLETE R461
  | powerStateExitComplete                -- POWER_STATE_EXIT_COMPLETE R460
  | exitStepTimeout (domain mv : Nat)     -- EXIT_STEP_TIMEOUT R460
  | wakeNAssert                           -- WAKE_N_ASSERT R469
  | portWakeAssert (port : Nat)           -- PORT_WAKE_ASSERT R530
  | portWakeDriveEnd (ignoreToo : Bool)   -- PORT_WAKE_DRIVE_END R530
  | thermalReading (eighths : List Nat)   -- THERMAL_READING R470 (1/8 degC, 16 sensors)
  | pwrBrakeAssert                        -- PWR_BRAKE_ASSERT R475
  | pwrBrakeRelease                       -- PWR_BRAKE_RELEASE R475
  | powerCapInterval (watts : Nat)        -- POWER_CAP_INTERVAL R474
  | dvfsRelockComplete (cluster : Nat)    -- DVFS_RELOCK_COMPLETE R474
  -- boot, fuses, trust
  | bootStart                             -- BOOT_START R486
  | bootFusesDone (straps : Nat)          -- BOOT_FUSES_DONE R486
  | bootVerifyDone                        -- BOOT_VERIFY_DONE R485
  | bootMeasureDone                       -- BOOT_MEASURE_DONE R485
  | bootIdentityDone                      -- BOOT_IDENTITY_DONE R495
  | stagingBufferWrite (src : Src) (off : Nat) (data : List Byte) -- STAGING_BUFFER_WRITE R489
  | stageWrite (src : Src) (unit : Nat)   -- STAGE_WRITE R489
  | stageCommit (src : Src)               -- STAGE_COMMIT R489
  | stageOperationComplete                -- STAGE_OPERATION_COMPLETE R489
  | activationGo (src : Src) (v : Nat)    -- ACTIVATION_GO R490
  | activationVerifyComplete              -- ACTIVATION_VERIFY_COMPLETE R490
  | activationSwitchComplete              -- ACTIVATION_SWITCH_COMPLETE R490
  | activationHoldTimeout                 -- ACTIVATION_HOLD_TIMEOUT R491
  | rollbackCommit (src : Src) (v : Nat)  -- ROLLBACK_COMMIT R494
  | keyRevoke (src : Src) (v : Nat)       -- KEY_REVOKE R494
  | debugLock (src : Src) (v : Nat)       -- DEBUG_LOCK R494
  | fuseProgramComplete (failedBit : Option Nat)    -- FUSE_PROGRAM_COMPLETE R494
  | getIdentity (t : Transport) (body : List Byte)  -- GET_IDENTITY R497
  | getReport (t : Transport) (body : List Byte)    -- GET_REPORT R498
  | reportSignComplete                    -- REPORT_SIGN_COMPLETE R498
  | setEndpointId (t : Transport) (eid : Nat)       -- SET_ENDPOINT_ID R497
  | getEndpointId (t : Transport)         -- GET_ENDPOINT_ID R497
  | getMctpVersionSupport (t : Transport) -- GET_MCTP_VERSION_SUPPORT R497
  | getMessageTypeSupport (t : Transport) -- GET_MESSAGE_TYPE_SUPPORT R497
  -- SMBus; `pecOk`: the transaction carries a right PEC byte (R519)
  | regRead (off : Nat) (pecOk : Bool)    -- REG_READ R520
  | regWrite (off v : Nat) (pecOk : Bool) -- REG_WRITE R520
  | status (pecOk : Bool)                 -- STATUS R520
  | mctp (message : List Byte) (pecOk : Bool)       -- MCTP R520
  -- PCIe
  | perstAssert (q : Nat) (pin : Bool)    -- PERST_ASSERT R504
  | perstRelease (q : Nat)                -- PERST_RELEASE R505
  | configRequest (q f : Nat) (op : CfgOp)          -- CONFIG_REQUEST R505
  | functionLevelReset (q f : Nat)        -- FUNCTION_LEVEL_RESET R504
  | bar4Access (q f off len : Nat) (data : Option (List Byte)) -- BAR4_ACCESS R509
  | msixUnmask (q f vector : Nat)         -- MSIX_UNMASK R502
  | ringPairEnable (src : Src) (q k v : Nat)        -- RING_PAIR_ENABLE R513
  | ringPairDisable (src : Src) (q k : Nat)         -- RING_PAIR_DISABLE R513
  | adopt (src : Src) (v : Nat) (downLongEnough : Bool) -- ADOPT R517
  | selfAliasLock (src : Src) (v : Nat)   -- SELF_ALIAS_LOCK R69
  | sharedRegionSeal (src : Src) (region v : Nat)   -- SHARED_REGION_SEAL R243
  | registerWrite (src : Src) (off v : Nat)         -- REGISTER_WRITE R507
  | hostReadCompletion (issuer : Issuer) (addr : Nat) (data : List Byte) (ok : Bool) -- HOST_READ_COMPLETION R241
  | completionTimeout (issuer : Issuer)   -- COMPLETION_TIMEOUT R241
  | correctableAerError (q : Nat)         -- CORRECTABLE_AER_ERROR R503
  | cacheWritebackComplete                -- CACHE_WRITEBACK_COMPLETE R238
  | relocationComplete (tier2 : Bool) (group : Nat) (badLines : List Nat) -- RELOCATION_COMPLETE R235
  | cableMemoryReadComplete (port cableType lengthDm : Nat) -- CABLE_MEMORY_READ_COMPLETE R531
  | wakeFromIdle (l : Nat)                -- WAKE_FROM_IDLE R267
  | jtagSession                           -- JTAG_SESSION R493
  deriving DecidableEq, Repr

end Sys2Proof
end

