-- ==== Sys2Proof/Config.lean ====
section
/-!
DEFINITION. Config.lean: what is fixed for the part, and the free values: constants without a body, so that nothing in
Lean can evaluate them and no proof can lean on a value the manual does not give.
-/

namespace Sys2Proof.Config

/-- Looms built (ID block, R2, R44). -/
def looms : Nat := 256

/-- Clusters built (R44). -/
def clusters : Nat := 32

/-- Partitions the module can hold (R217). -/
def partitions : Nat := 16

/-- Islands of the table of R49 (ids 0x00 to 0x31). -/
def islands : Nat := 50

/-- Fabric links (R47). -/
def links : Nat := 96

/-- HBM capacity in bytes, space 0x0 (R64). -/
def hbmBytes : Nat := 0x6000000000

/-- Tier-2 capacity in bytes, space 0x1 (R64). -/
def tier2Bytes : Nat := 0xF000000000

/-- FREE VALUE (log 3): how many cycles island `i` counts at the `n`-th idle step (R9, R54: the manual gives no relation
between the islands' clocks and the events). -/
opaque freeCycles (n i : Nat) : Nat

/-- FREE VALUE (log 4): which of the neighbours inside the fast-mode bound of R89 RCP (op 0) or RSQRT (op 1) gives. -/
opaque freeUlp (op x : Nat) : Nat

/-- FREE VALUE (log 4): the FP32 bits that EXP2 (op 0) or LOG2 (op 1) gives for the FP32 operand `x` (R89 bounds the
error and gives no function). -/
opaque freeTranscendental (op x : Nat) : Nat

/-- FREE VALUE (log 5): the pair (hi in the low 32 bits, lo above) a double-word addition proposes for two FP32x2
operands (R127 bounds the result and gives no algorithm). -/
opaque freeDwAdd (a b : Nat) : Nat

/-- FREE VALUE (log 6): at the `n`-th draw, whether byte `i` of an overlapping copy reads the source's original value
(R257). -/
opaque freeOverlap (n i : Nat) : Bool

/-- FREE VALUE (log 7): SHAKE256 with an output of `n` bytes (R485, FIPS 202). -/
opaque shake256 (n : Nat) (message : List Byte) : List Byte

/-- FREE VALUE (log 7): ML-DSA.Verify of FIPS 204 (R485): key, message, signature. -/
opaque mldsaVerify (key message signature : List Byte) : Bool

/-- FREE VALUE (log 7): the public key ML-DSA.KeyGen_internal derives from a seed (R495). -/
opaque mldsaPublicKey (seed : Nat) : List Byte

/-- FREE VALUE (log 7): the deterministic ML-DSA-65 signature under the key derived from the seed (R496). -/
opaque mldsaSign (seed : Nat) (message : List Byte) : List Byte

/-- FREE VALUE (log 8): whether the microcode tables of a numeric version know an attention image of this IMAGE_ID with
this IMG_CRC (R427). -/
opaque attentionImageKnown (numericVersion imageId imageCrc : Nat) : Bool

/-- FREE VALUE (log 9): the token and the FP32 log-probability a step draft writes for a row (R410: TOKEN_OUT and
LOGP_OUT come from the model's sampler, which is Tretas's, not the module's) are read from memory; this constant stands
only for a value the manual does not state at draw `n`. -/
opaque freeNat (n : Nat) : Nat

/-- FREE VALUE (log 176): the set of the memory-side cache in which a memory line lies (R237 names sets and gives no index). -/
opaque cacheSet (line : Nat) : Nat

/-- FREE VALUE (log 35): the member table a manager holds after a shed change whose plan it has not seen (R354 gives the list effect, R340
gives no message that carries it), at draw `n`. -/
opaque freeMembers (n : Nat) : List Nat

end Sys2Proof.Config
end

