-- ==== Sys2Proof/Machine/Bits.lean ====
section
/-!
DEFINITION. Machine/Bits.lean: bit fields, little-endian byte strings and the two CRCs of the manual.
-/

namespace Sys2Proof.Machine

/-- Bits [lo + n - 1 : lo] of a number. -/
def field (w lo n : Nat) : Nat := w / 2 ^ lo % 2 ^ n

/-- One bit of a number. -/
def bitAt (w i : Nat) : Bool := w / 2 ^ i % 2 == 1

/-- A number with bits [lo + n - 1 : lo] replaced by the low bits of `v`. -/
def setField (w lo n v : Nat) : Nat :=
  w % 2 ^ lo + (v % 2 ^ n) * 2 ^ lo + w / 2 ^ (lo + n) * 2 ^ (lo + n)

/-- The number a Boolean stands for in a one-bit field. -/
def b2n (b : Bool) : Nat := if b then 1 else 0

/-- The value of a little-endian byte string (R8). -/
def ofLe : List Byte → Nat
  | [] => 0
  | b :: bs => b.toNat + 256 * ofLe bs

/-- The `n` little-endian bytes of a number (R8). -/
def leBytes : Nat → Nat → List Byte
  | 0, _ => []
  | n + 1, v => BitVec.ofNat 8 v :: leBytes n (v / 256)

/-- Bytes off to off + n - 1 of a byte string. -/
def slice (bs : List Byte) (off n : Nat) : List Byte := (bs.drop off).take n

/-- The little-endian field of `n` bytes at `off`. -/
def le (bs : List Byte) (off n : Nat) : Nat := ofLe (slice bs off n)

/-- Whether bytes off to off + n - 1 are all zero (a reserved field, R12). -/
def zeroAt (bs : List Byte) (off n : Nat) : Bool := (slice bs off n).all (· == 0)

/-- `n` zero bytes. -/
def zeros (n : Nat) : List Byte := List.replicate n 0

/-- A byte string with the bytes from `off` on replaced by `v`. -/
def patch (bs : List Byte) (off : Nat) (v : List Byte) : List Byte :=
  bs.take off ++ v ++ bs.drop (off + v.length)

/-- An element at its place in a sorted list, before its equals. -/
def insertBy {α : Type} (le : α → α → Bool) (x : α) : List α → List α
  | [] => [x]
  | y :: r => if le x y then x :: y :: r else y :: insertBy le x r

/-- A list sorted by `le`; equal elements keep their order. -/
def sortBy {α : Type} (le : α → α → Bool) (l : List α) : List α := l.foldr (insertBy le) []

/-- The two's-complement value of the low `n` bits. -/
def toSigned (n v : Nat) : Int :=
  if v % 2 ^ n < 2 ^ (n - 1) then (v % 2 ^ n : Nat) else (v % 2 ^ n : Nat) - (2 ^ n : Nat)

/-- The low `n` bits of an integer in two's complement. -/
def ofSigned (n : Nat) (v : Int) : Nat := (v % (2 ^ n : Nat)).toNat

/-- One byte of the CRC-16 of R183 (polynomial 0x1021, no reflection): eight shifts. -/
def crc16Shift : Nat → Nat → Nat
  | 0, c => c
  | k + 1, c => crc16Shift k (if c / 32768 % 2 == 1 then (c * 2 % 65536) ^^^ 0x1021 else c * 2 % 65536)

/-- CRC-16 of a byte string from the initial value 0xFFFF (R183). -/
def crc16 (bs : List Byte) : Nat :=
  bs.foldl (fun c b => crc16Shift 8 (c ^^^ (b.toNat * 256))) 0xFFFF

/-- Eight shifts of the reflected CRC-32 with the IEEE 802.3 polynomial. -/
def crc32Shift : Nat → Nat → Nat
  | 0, c => c
  | k + 1, c => crc32Shift k (if c % 2 == 1 then (c / 2) ^^^ 0xEDB88320 else c / 2)

/-- CRC-32 with the IEEE 802.3 polynomial in that standard's form: reflected, initial value and final exclusive-or all
ones (R90, R223, R268, R270, R308, R351, R481; log 10). -/
def crc32 (bs : List Byte) : Nat :=
  (bs.foldl (fun c b => crc32Shift 8 (c ^^^ b.toNat)) 0xFFFFFFFF) ^^^ 0xFFFFFFFF

/-- The number of one bits among the low `n` bits. -/
def popCount : Nat → Nat → Nat
  | 0, _ => 0
  | n + 1, w => b2n (bitAt w n) + popCount n w

/-- The indices below `n` of the one bits, ascending. -/
def bitList (n w : Nat) : List Nat := (List.range n).filter (fun i => bitAt w i)

/-- The quotient rounded up. -/
def ceilDiv (a b : Nat) : Nat := (a + b - 1) / b

/-- Saturating increment of a counter of `n` bits (R133). -/
def satInc (n c k : Nat) : Nat := min (2 ^ n - 1) (c + k)

/-- A value limited to a range (a register value that "acts as the nearer bound"). -/
def clampTo (lo hi v : Nat) : Nat := max lo (min hi v)

/-- The first index at which the predicate holds, below `n`. -/
def firstIdx (n : Nat) (p : Nat → Bool) : Option Nat := (List.range n).find? p

end Sys2Proof.Machine
end

