-- ==== Sys2Proof/Machine/Sparse.lean ====
section
/-!
DEFINITION. Machine/Sparse.lean: a table of many like things as a list of key and value pairs in ONE canonical form: keys
strictly rising and no entry equal to what an unlisted key reads as. Equal tables are equal lists.
-/

namespace Sys2Proof.Machine

variable {α : Type}

/-- What key `k` reads as: the listed value, or the default. -/
def tget (d : α) : List (Nat × α) → Nat → α
  | [], _ => d
  | (k', v) :: r, k => if k' = k then v else tget d r k

/-- The table with every entry of key `k` taken out. -/
def terase (l : List (Nat × α)) (k : Nat) : List (Nat × α) := l.filter (fun p => p.1 != k)

/-- The table with an entry put in at its place by key. -/
def tinsert (k : Nat) (v : α) : List (Nat × α) → List (Nat × α)
  | [] => [(k, v)]
  | (k', v') :: r => if k < k' then (k, v) :: (k', v') :: r else (k', v') :: tinsert k v r

/-- The table after a write of `v` at `k`; writing the default removes the entry. -/
def tset [DecidableEq α] (d : α) (l : List (Nat × α)) (k : Nat) (v : α) : List (Nat × α) :=
  if v = d then terase l k else tinsert k v (terase l k)

/-- Strictly rising keys, all above `k`. -/
def risingFrom : Option Nat → List (Nat × α) → Bool
  | _, [] => true
  | lo, (k, _) :: r =>
    (match lo with
     | none => true
     | some b => decide (b < k)) && risingFrom (some k) r

/-- The canonical form: keys strictly rising, no entry equal to the default. -/
def twf [DecidableEq α] (d : α) (l : List (Nat × α)) : Bool :=
  risingFrom none l && l.all (fun p => decide (p.2 ≠ d))

/-- The canonical form of any list of pairs; where a key stands twice, the first entry counts. -/
def tcanon [DecidableEq α] (d : α) (l : List (Nat × α)) : List (Nat × α) :=
  l.foldr (fun p acc => tset d acc p.1 p.2) []

/-- The table with every key from `lo` up to but not including `hi` at the default. -/
def tclear (l : List (Nat × α)) (lo hi : Nat) : List (Nat × α) :=
  l.filter (fun p => decide (p.1 < lo ∨ hi ≤ p.1))

/-- The listed entries with keys from `lo` up to but not including `hi`. -/
def tslice (l : List (Nat × α)) (lo hi : Nat) : List (Nat × α) :=
  l.filter (fun p => decide (lo ≤ p.1 ∧ p.1 < hi))

end Sys2Proof.Machine
end

