-- ==== Sys2Proof/Machine/Float.lean ====
section
/-!
DEFINITION. Machine/Float.lean: exact values and one rounding. Every floating operation of the manual is formed exactly as a
dyadic number and rounded once (R89, R129, R137), so carry, overflow and inexact fall out of the comparison of the exact
value with the rounded one.
-/

namespace Sys2Proof.Machine

/-- A floating-point format (R109): total bits, exponent bits, fraction bits, bias, whether the top exponent holds
infinities and NaNs as in IEEE 754 (`ieee`), and whether it holds a NaN only at all ones (`e4m3`). -/
structure FFmt where
  bits : Nat
  ebits : Nat
  mbits : Nat
  bias : Nat
  ieee : Bool
  e4m3 : Bool
  deriving DecidableEq, Repr

/-- FP32 (R109). -/
def fp32F : FFmt := ⟨32, 8, 23, 127, true, false⟩
/-- BF16 (R109). -/
def bf16F : FFmt := ⟨16, 8, 7, 127, true, false⟩
/-- FP16 (R109). -/
def fp16F : FFmt := ⟨16, 5, 10, 15, true, false⟩
/-- MXFP8-E4M3 element (R109). -/
def e4m3F : FFmt := ⟨8, 4, 3, 7, false, true⟩
/-- MXFP8-E5M2 element (R109). -/
def e5m2F : FFmt := ⟨8, 5, 2, 15, true, false⟩
/-- MXFP6-E3M2 element (R109). -/
def e3m2F : FFmt := ⟨6, 3, 2, 3, false, false⟩
/-- MXFP6-E2M3 element (R109). -/
def e2m3F : FFmt := ⟨6, 2, 3, 1, false, false⟩
/-- MXFP4-E2M1 element (R109). -/
def e2m1F : FFmt := ⟨4, 2, 1, 1, false, false⟩

/-- A decoded value: NaN with sign and payload as an FP32 pattern holds them, the payload left-aligned, an infinity, or (-1)^neg * m * 2^e. -/
inductive FVal where
  | nan (signalling : Bool) (payload : Nat)
  | inf (neg : Bool)
  | fin (neg : Bool) (m : Nat) (e : Int)
  deriving DecidableEq, Repr

/-- The value a bit pattern encodes (R109). -/
def FFmt.decode (f : FFmt) (w : Nat) : FVal :=
  let neg := bitAt w (f.bits - 1)
  let ex := field w f.mbits f.ebits
  let fr := field w 0 f.mbits
  if f.ieee && ex == 2 ^ f.ebits - 1 then
    (if fr == 0 then .inf neg else .nan (!bitAt fr (f.mbits - 1)) (b2n neg * 2 ^ 31 + 0x7F800000 + fr * 2 ^ (23 - f.mbits)))
  else if f.e4m3 && ex == 2 ^ f.ebits - 1 && fr == 2 ^ f.mbits - 1 then .nan false (b2n neg * 2 ^ 31 + 0x7FC00000)
  else if ex == 0 then .fin neg fr (1 - (f.bias : Int) - f.mbits)
  else .fin neg (fr + 2 ^ f.mbits) ((ex : Int) - f.bias - f.mbits)

/-- The largest finite magnitude pattern (R109). -/
def FFmt.maxFinite (f : FFmt) : Nat :=
  if f.ieee then (2 ^ f.ebits - 1) * 2 ^ f.mbits - 1
  else if f.e4m3 then 2 ^ (f.bits - 1) - 2 else 2 ^ (f.bits - 1) - 1

/-- The infinity pattern of a format that has one (R109). -/
def FFmt.infinity (f : FFmt) : Nat := (2 ^ f.ebits - 1) * 2 ^ f.mbits

/-- The canonical NaN (R109). -/
def FFmt.canonicalNan (f : FFmt) : Nat :=
  if f.ieee then (2 ^ f.ebits - 1) * 2 ^ f.mbits + 2 ^ (f.mbits - 1) else 2 ^ (f.bits - 1) - 1

/-- A magnitude pattern with a sign. -/
def FFmt.withSign (f : FFmt) (neg : Bool) (w : Nat) : Nat := w + b2n neg * 2 ^ (f.bits - 1)

/-- Rounding attributes, coded as ARITH[4:3] (R90): 0 nearest even, 1 toward zero, 2 toward +inf, 3 toward -inf. -/
def roundsUp (rm : Nat) (neg odd : Bool) (rem half : Nat) (sticky : Bool) : Bool :=
  match rm with
  | 0 => decide (half < rem) || (rem == half && half != 0 && (sticky || odd))
  | 1 => false
  | 2 => !neg && (rem != 0 || sticky)
  | _ => neg && (rem != 0 || sticky)

/-- One rounding of the magnitude m * 2^e (plus an infinitesimal when `sticky`) to `p` significant bits with no bit below
2^emin: the rounded integer, its exponent, and whether it was inexact (R124, R129). -/
def roundMag (p : Nat) (emin : Int) (rm : Nat) (neg : Bool) (m : Nat) (e : Int) (sticky : Bool) : Nat × Int × Bool :=
  let q := max (e + (Nat.log2 m : Int) + 1 - p) emin
  if q ≤ e then
    let k := m * 2 ^ (e - q).toNat
    (k + b2n (roundsUp rm neg (k % 2 == 1) 0 0 sticky), q, sticky)
  else
    let d := (q - e).toNat
    let k := m / 2 ^ d
    let r := m % 2 ^ d
    (k + b2n (roundsUp rm neg (k % 2 == 1) r (2 ^ (d - 1)) sticky), q, r != 0 || sticky)

/-- What an overflow gives: the IEEE result for the attribute (R135), max finite (SATURATE) or infinity (INF) (R125). -/
inductive Ovf where
  | ieee | saturate | infinity
  deriving DecidableEq, Repr

/-- OVF_MODE of an image or shuttle descriptor (R90, R253). -/
def ovfOf (b : Bool) : Ovf := if b then .infinity else .saturate

/-- A result: its bits, the IEEE flags it raises (R138: 1 invalid, 2 division by zero, 4 overflow, 8 underflow, 16
inexact), and whether it overflowed (R133). -/
structure FRes where
  bits : Nat
  flags : Nat
  ovf : Bool
  deriving DecidableEq, Repr

/-- The pattern of a magnitude k * 2^q that the format represents exactly. -/
def FFmt.encodeMag (f : FFmt) (k : Nat) (q : Int) : Nat :=
  if k == 0 then 0
  else
    let l := Nat.log2 k
    let ex := q + l + f.bias
    if ex ≤ 0 then k * 2 ^ (q - (1 - (f.bias : Int) - f.mbits)).toNat
    else
      ex.toNat * 2 ^ f.mbits +
        ((if l ≤ f.mbits then k * 2 ^ (f.mbits - l) else k / 2 ^ (l - f.mbits)) - 2 ^ f.mbits)

/-- Whether the magnitude k * 2^q exceeds the format's largest finite one. -/
def FFmt.exceeds (f : FFmt) (k : Nat) (q : Int) : Bool :=
  match f.decode f.maxFinite with
  | .fin _ m e =>
    let lo := min q e
    decide (m * 2 ^ (e - lo).toNat < k * 2 ^ (q - lo).toNat)
  | _ => false

/-- The overflow result (R125, R130, R135). -/
def FFmt.overflowBits (f : FFmt) (o : Ovf) (rm : Nat) (neg : Bool) : Nat :=
  let toInf := match o with
    | .saturate => false
    | .infinity => true
    | .ieee => rm == 0 || (rm == 2 && !neg) || (rm == 3 && neg)
  f.withSign neg (if toInf && f.ieee then f.infinity else f.maxFinite)

/-- One rounding of (-1)^neg * m * 2^e to the format; tininess is detected after rounding (R135). -/
def FFmt.round (f : FFmt) (o : Ovf) (rm : Nat) (neg : Bool) (m : Nat) (e : Int) (sticky : Bool) : FRes :=
  if m == 0 && !sticky then ⟨f.withSign neg 0, 0, false⟩
  else
    let (k, q, inexact) := roundMag (f.mbits + 1) (1 - (f.bias : Int) - f.mbits) rm neg m e sticky
    if f.exceeds k q then ⟨f.overflowBits o rm neg, 4 + 16, true⟩
    else
      let w := f.encodeMag k q
      let (k', q', _) := roundMag (f.mbits + 1) (e - 4096) rm neg m e sticky
      let tiny := decide (q' + Nat.log2 k' < 1 - (f.bias : Int))
      ⟨f.withSign neg w, (if inexact then 16 else 0) + (if inexact && tiny then 8 else 0), false⟩

/-- The arithmetic context of an operation: STRICT, the rounding attribute, what overflow gives. -/
structure FCtx where
  strict : Bool
  rm : Nat
  o : Ovf
  deriving DecidableEq, Repr

/-- Strict binary32 rounded to nearest with overflow to infinity: the context of R375 and R386. -/
def strictRne : FCtx := ⟨true, 0, .ieee⟩

/-- A NaN of the format from a sign and payload held as FP32 holds them, quieted (R135). -/
def FFmt.quieted (f : FFmt) (p : Nat) : Nat :=
  f.withSign (bitAt p 31) (f.infinity + (field p 0 23 / 2 ^ (23 - f.mbits) ||| 2 ^ (f.mbits - 1)))

/-- The NaN result of an operation on NaN operands, in operand order: the canonical NaN in fast mode (R134), the first
NaN quieted in strict mode, a signalling one raising invalid (R135). -/
def FFmt.nanOf (f : FFmt) (c : FCtx) (vs : List FVal) : Option FRes :=
  match vs.find? (fun v => match v with | .nan .. => true | _ => false) with
  | some (.nan _ pl) =>
    if c.strict then
      let sig := vs.any (fun v => match v with | .nan s _ => s | _ => false)
      some ⟨f.quieted pl, b2n sig, false⟩
    else some ⟨f.canonicalNan, 0, false⟩
  | _ => none

/-- The result of an invalid operation (R134, R135). -/
def FFmt.invalid (f : FFmt) (c : FCtx) : FRes := ⟨f.canonicalNan, b2n c.strict, false⟩

/-- A signed dyadic sum: exact, with the sign of an exact zero left to the caller. -/
def dyAdd (a : Int) (ea : Int) (b : Int) (eb : Int) : Int × Int :=
  let e := min ea eb
  (a * (2 ^ (ea - e).toNat : Nat) + b * (2 ^ (eb - e).toNat : Nat), e)

/-- The signed integer of a magnitude. -/
def signedMag (neg : Bool) (m : Nat) : Int := if neg then -(m : Int) else m

/-- One rounding of a signed dyadic; `zneg` is the sign of an exact zero. -/
def FFmt.roundInt (f : FFmt) (c : FCtx) (v : Int) (e : Int) (zneg : Bool) : FRes :=
  if v == 0 then ⟨f.withSign zneg 0, 0, false⟩ else f.round c.o c.rm (decide (v < 0)) v.natAbs e false

/-- IEEE addition, one rounding (R134, R137). -/
def FFmt.add (f : FFmt) (c : FCtx) (a b : Nat) : FRes :=
  let va := f.decode a
  let vb := f.decode b
  match f.nanOf c [va, vb] with
  | some r => r
  | none =>
    match va, vb with
    | .inf n, .inf n' => if n == n' then ⟨f.withSign n f.infinity, 0, false⟩ else f.invalid c
    | .inf n, _ => ⟨f.withSign n f.infinity, 0, false⟩
    | _, .inf n => ⟨f.withSign n f.infinity, 0, false⟩
    | .fin na ma ea, .fin nb mb eb =>
      let (v, e) := dyAdd (signedMag na ma) ea (signedMag nb mb) eb
      let zneg := if ma == 0 && mb == 0 && na == nb then na else c.rm == 3
      f.roundInt c v e zneg
    | _, _ => f.invalid c

/-- Multiplication, one rounding. -/
def FFmt.mul (f : FFmt) (c : FCtx) (a b : Nat) : FRes :=
  let va := f.decode a
  let vb := f.decode b
  match f.nanOf c [va, vb] with
  | some r => r
  | none =>
    match va, vb with
    | .fin na ma ea, .fin nb mb eb => f.round c.o c.rm (na != nb) (ma * mb) (ea + eb) false
    | .inf n, .inf n' => ⟨f.withSign (n != n') f.infinity, 0, false⟩
    | .inf n, .fin n' m _ => if m == 0 then f.invalid c else ⟨f.withSign (n != n') f.infinity, 0, false⟩
    | .fin n' m _, .inf n => if m == 0 then f.invalid c else ⟨f.withSign (n != n') f.infinity, 0, false⟩
    | _, _ => f.invalid c

/-- Fused multiply-add a * b + c, one rounding (R87, R137). -/
def FFmt.fma (f : FFmt) (c : FCtx) (x y z : Nat) : FRes :=
  let vx := f.decode x
  let vy := f.decode y
  let vz := f.decode z
  match f.nanOf c [vx, vy, vz] with
  | some r => r
  | none =>
    match vx, vy, vz with
    | .fin nx mx ex, .fin ny my ey, .fin nz mz ez =>
      let np := nx != ny
      let (v, e) := dyAdd (signedMag np (mx * my)) (ex + ey) (signedMag nz mz) ez
      let zneg := if mx * my == 0 && mz == 0 && np == nz then np else c.rm == 3
      f.roundInt c v e zneg
    | .fin _ _ _, .fin _ _ _, .inf n => ⟨f.withSign n f.infinity, 0, false⟩
    | vx, vy, vz =>
      let prod : Option Bool := match vx, vy with
        | .inf n, .inf n' => some (n != n')
        | .inf n, .fin n' m _ => if m == 0 then none else some (n != n')
        | .fin n' m _, .inf n => if m == 0 then none else some (n != n')
        | _, _ => none
      match prod, vz with
      | none, _ => f.invalid c
      | some n, .inf n' => if n == n' then ⟨f.withSign n f.infinity, 0, false⟩ else f.invalid c
      | some n, _ => ⟨f.withSign n f.infinity, 0, false⟩

/-- The integer square root by trial bits from bit `k - 1` down. -/
def isqrtFrom : Nat → Nat → Nat → Nat
  | 0, acc, _ => acc
  | k + 1, acc, n => isqrtFrom k (if (acc + 2 ^ k) * (acc + 2 ^ k) ≤ n then acc + 2 ^ k else acc) n

/-- The integer square root. -/
def isqrt (n : Nat) : Nat := isqrtFrom (Nat.log2 n / 2 + 1) 0 n

/-- The quotient 2^t / m truncated, with its exponent and sticky, for a correctly rounded reciprocal. -/
def rcpParts (m : Nat) (e : Int) : Nat × Int × Bool :=
  let t := 64 + Nat.log2 m
  (2 ^ t / m, -e - t, 2 ^ t % m != 0)

/-- 1 / sqrt(m * 2^e) truncated, with its exponent and sticky. -/
def rsqrtParts (m : Nat) (e : Int) : Nat × Int × Bool :=
  let m' := if e % 2 == 0 then m else 2 * m
  let e' := if e % 2 == 0 then e else e - 1
  let t := 64 + Nat.log2 m'
  let q := isqrt (2 ^ (2 * t) / m')
  (q, -(e' / 2) - t, q * q * m' != 2 ^ (2 * t))

/-- A fast-mode neighbour inside the 1 ulp bound of R89: the free value takes the truncated or the next pattern, or, of an
exact result, either neighbour. -/
def ulpChoice (op x trunc : Nat) (exact : Bool) : Nat :=
  let k := Config.freeUlp op x
  if exact then (if k % 3 == 0 then trunc else if k % 3 == 1 then trunc + 1 else trunc - 1)
  else if k % 2 == 0 then trunc else trunc + 1

/-- RCP: correctly rounded in strict mode, within 1 ulp in fast mode (R89). -/
def FFmt.rcp (f : FFmt) (c : FCtx) (a : Nat) : FRes :=
  let va := f.decode a
  match f.nanOf c [va] with
  | some r => r
  | none =>
    match va with
    | .inf n => ⟨f.withSign n 0, 0, false⟩
    | .fin n m e =>
      if m == 0 then ⟨f.withSign n f.infinity, if c.strict then 2 else 0, false⟩
      else
        let (k, q, st) := rcpParts m e
        let r := f.round c.o c.rm n k q st
        if c.strict || r.ovf then r
        else
          let t := f.round c.o 1 n k q st
          ⟨ulpChoice 0 (a % 2 ^ f.bits) t.bits (t.flags / 16 == 0), r.flags, r.ovf⟩
    | _ => f.invalid c

/-- RSQRT: correctly rounded in strict mode, within 1 ulp in fast mode (R89). -/
def FFmt.rsqrt (f : FFmt) (c : FCtx) (a : Nat) : FRes :=
  let va := f.decode a
  match f.nanOf c [va] with
  | some r => r
  | none =>
    match va with
    | .inf n => if n then f.invalid c else ⟨0, 0, false⟩
    | .fin n m e =>
      if m == 0 then ⟨f.withSign n f.infinity, if c.strict then 2 else 0, false⟩
      else if n then f.invalid c
      else
        let (k, q, st) := rsqrtParts m e
        let r := f.round c.o c.rm false k q st
        if c.strict then r
        else
          let t := f.round c.o 1 false k q st
          ⟨ulpChoice 1 (a % 2 ^ f.bits) t.bits (t.flags / 16 == 0), r.flags, r.ovf⟩
    | _ => f.invalid c

/-- `k` square roots of 2 in a row, 2^(1/2), 2^(1/4) and so on, each in units of 2^-80. -/
def rootsOfTwo (k : Nat) : List Nat :=
  ((List.range k).foldl (fun (z : List Nat × Nat) _ => let r := isqrt (z.2 * 2 ^ 80); (z.1 ++ [r], r)) ([], 2 ^ 81)).1

/-- 2^(f / 2^80) for f below 2^80, in units of 2^-80, less than 2^10 units from the exact value. -/
def exp2Frac (f : Nat) : Nat :=
  ((rootsOfTwo 80).zipIdx).foldl (fun v ri => if bitAt f (79 - ri.2) then v * ri.1 / 2 ^ 80 else v) (2 ^ 80)

/-- log2(t / 2^160) for t from 2^160 up to 2^161, in units of 2^-90, less than 2^10 units from the exact value. -/
def log2Frac (t : Nat) : Nat :=
  ((List.range 90).foldl (fun (z : Nat × Nat) _ =>
    let q := z.2 * z.2 / 2 ^ 160
    if 2 ^ 161 ≤ q then (2 * z.1 + 1, q / 2) else (2 * z.1, q)) (0, t)).1

/-- A result within 2 ulp of the exact one (R89): `m` * 2^`e` approximates the exact result to less than 2^10 units of 2^`e`, or is it where
`exact`. The free value stands where it keeps the bound, else the approximation rounded once. An overflow is that of the mode (R134);
strict mode raises inexact on a result that is not the exact one, and no other flag (R137). -/
def near2ulp (c : FCtx) (op a : Nat) (neg : Bool) (m : Nat) (e : Int) (exact : Bool) : FRes :=
  let r := fp32F.round c.o c.rm neg m e (!exact)
  if r.ovf then ⟨r.bits, if c.strict then 16 else 0, true⟩
  else
    let cand := Config.freeTranscendental op a % 2 ^ 32
    let off (w : Nat) : Option (Int × Int) := match fp32F.decode w with
      | .fin n k q => some (dyAdd (signedMag n k) q (signedMag (!neg) m) e)
      | _ => none
    let ulp : Int := if m == 0 then -149 else max (e + Nat.log2 m - 23) (-149)
    let bound := dyAdd 2 ulp (if exact then 0 else 1024) e
    let w := match off cand with
      | some d =>
        let lo := min d.2 bound.2
        if d.1.natAbs * 2 ^ (d.2 - lo).toNat ≤ bound.1.natAbs * 2 ^ (bound.2 - lo).toNat then cand else r.bits
      | none => r.bits
    let same := exact && (match off w with | some d => d.1 == 0 | none => false)
    ⟨w, if c.strict && !same then 16 else 0, false⟩

/-- A value the manual states no result for: free, but no NaN other than the canonical one in fast mode (R134, log 4). -/
def unstated (c : FCtx) (op a : Nat) : FRes :=
  let w := Config.freeTranscendental op a % 2 ^ 32
  ⟨match fp32F.decode w with | .nan .. => if c.strict then w else fp32F.canonicalNan | _ => w, 0, false⟩

/-- EXP2: within 2 ulp of 2^a (R89). -/
def fexp2 (c : FCtx) (a : Nat) : FRes :=
  match fp32F.nanOf c [fp32F.decode a], fp32F.decode a with
  | some r, _ => r
  | none, .fin n m e =>
    let x : Int := signedMag n m * (2 ^ (e + 213).toNat : Nat)
    let i := x / (2 ^ 213 : Nat)
    let f := (x % (2 ^ 213 : Nat)).toNat
    if 1024 ≤ i then near2ulp c 0 (a % 2 ^ 32) false 1 1024 true
    else if i < -1024 then near2ulp c 0 (a % 2 ^ 32) false 1 (-1024) false
    else near2ulp c 0 (a % 2 ^ 32) false (exp2Frac (f / 2 ^ 133)) (i - 80) (f == 0)
  | none, _ => unstated c 0 (a % 2 ^ 32)

/-- LOG2: within 2 ulp of log2(a) (R89); the manual states no result for zero, a negative number or an infinity. -/
def flog2 (c : FCtx) (a : Nat) : FRes :=
  match fp32F.nanOf c [fp32F.decode a], fp32F.decode a with
  | some r, _ => r
  | none, .fin n m e =>
    if n ∨ m = 0 then unstated c 1 (a % 2 ^ 32)
    else
      let k := Nat.log2 m
      let v : Int := (e + k) * (2 ^ 90 : Nat) + (log2Frac (m * 2 ^ (160 - k)) : Int)
      near2ulp c 1 (a % 2 ^ 32) (decide (v < 0)) v.natAbs (-90) (m == 2 ^ k)
  | none, _ => unstated c 1 (a % 2 ^ 32)

/-- The order of two FP32 patterns that are not NaN, with -0 below +0 (R134): a key that rises with the value. -/
def ordKey (w : Nat) : Int := if bitAt w 31 then -(w % 2 ^ 31 : Nat) - 1 else (w % 2 ^ 31 : Nat)

/-- MAX: the canonical NaN when either input is NaN in fast mode, IEEE maximum (NaN propagating) in strict mode (R134,
R137). -/
def fmax (c : FCtx) (a b : Nat) : FRes :=
  match fp32F.nanOf c [fp32F.decode a, fp32F.decode b] with
  | some r => r
  | none => ⟨if ordKey a < ordKey b then b else a, 0, false⟩

/-- MIN, as MAX. -/
def fmin (c : FCtx) (a b : Nat) : FRes :=
  match fp32F.nanOf c [fp32F.decode a, fp32F.decode b] with
  | some r => r
  | none => ⟨if ordKey b < ordKey a then b else a, 0, false⟩

/-- SEL: a where c >= +0 under IEEE comparison (so -0 chooses a and a NaN chooses b), in both modes (R134). -/
def fsel (a b c : Nat) : Nat :=
  match fp32F.decode c with
  | .nan .. => b
  | .inf n => if n then b else a
  | .fin n m _ => if n && m != 0 then b else a

end Sys2Proof.Machine
end

