-- ==== Sys2Proof/Machine/Formats.lean ====
section
/-!
DEFINITION. Machine/Formats.lean: the format codes, packing, block scales, compensated pairs, integer grids and the
conversions of Number formats and arithmetic modes (R107 to R132), and the block results of the array.
-/

namespace Sys2Proof.Machine

/-- Whether a format code is one of R108 (0x5 to 0x7 are reserved). -/
def fmtKnown (c : Nat) : Bool := decide (c < 5) || (decide (8 ≤ c) && decide (c < 16))
/-- The MX formats (R108). -/
def fmtMx (c : Nat) : Bool := decide (8 ≤ c ∧ c ≤ 13)
/-- Bits per element, scales apart (R108). -/
def fmtBits (c : Nat) : Nat :=
  match c with
  | 0 => 32 | 1 => 16 | 2 => 16 | 3 => 32 | 4 => 64 | 8 => 8 | 9 => 8 | 10 => 6 | 11 => 6 | 12 => 4 | 13 => 8
  | 14 => 40 | 15 => 32 | _ => 0
/-- The array-operand column of R108 (FP32 in strict mode only). -/
def fmtOperand (c : Nat) : Bool := decide (c ≤ 3) || fmtMx c
/-- The shuttle column of R108. -/
def fmtShuttle (c : Nat) : Bool := decide (c ≤ 4) || fmtMx c
/-- The element format of an MX code that is a floating format. -/
def mxElem (c : Nat) : FFmt :=
  match c with
  | 8 => e4m3F | 9 => e5m2F | 10 => e3m2F | 11 => e2m3F | _ => e2m1F
/-- emax of R131. -/
def mxEmax (c : Nat) : Int :=
  match c with
  | 8 => 8 | 9 => 15 | 10 => 4 | 11 => 2 | 12 => 2 | _ => 0

/-- Element `i` of a packed run of bytes in the format (R110: MXFP6 four elements in three bytes, MXFP4 two in one). -/
def unpackElem (c : Nat) (bs : List Byte) (i : Nat) : Nat :=
  match c with
  | 10 | 11 => field (le bs (3 * (i / 4)) 3) (6 * (i % 4)) 6
  | 12 => field (le bs (i / 2) 1) (4 * (i % 2)) 4
  | _ => le bs (i * (fmtBits c / 8)) (fmtBits c / 8)

/-- Elements packed into bytes in the format (R110). -/
def packElems (c : Nat) (es : List Nat) : List Byte :=
  match c with
  | 10 | 11 => leBytes (ceilDiv (es.length * 6) 8) (es.foldr (fun x acc => x % 64 + 64 * acc) 0)
  | 12 => leBytes (ceilDiv (es.length * 4) 8) (es.foldr (fun x acc => x % 16 + 16 * acc) 0)
  | _ => es.flatMap (leBytes (fmtBits c / 8))

/-- The exact value of an MX element before its scale: floating, or q * 2^-6 for MXINT8 (R113). -/
def mxElemVal (c w : Nat) : FVal :=
  if c == 13 then
    let q := toSigned 8 w
    .fin (decide (q < 0)) q.natAbs (-6)
  else (mxElem c).decode w

/-- The value of an MX element under its E8M0 scale byte (R112: 0xFF is NaN). -/
def mxScaled (c w scale : Nat) : FVal :=
  if scale == 255 then .nan false 0
  else match mxElemVal c w with
    | .fin n m e => .fin n m (e + (scale : Int) - 127)
    | v => v

/-- A subnormal operand read as zero with its sign when FLUSH_SUBNORMAL is set (R128; FP32, BF16 and FP16 only). -/
def FFmt.flush (f : FFmt) (flush : Bool) (w : Nat) : Nat :=
  if flush && field w f.mbits f.ebits == 0 then f.withSign (bitAt w (f.bits - 1)) 0 else w

/-- The exact value of a sum of two decoded components, as the pair value hi + lo (R114, R115). -/
def pairVal (hi lo : FVal) : FVal :=
  match hi, lo with
  | .nan s p, _ => .nan s p
  | _, .nan s p => .nan s p
  | .inf n, .inf n' => if n == n' then .inf n else .nan false 0
  | .inf n, _ => .inf n
  | _, .inf n => .inf n
  | .fin n m e, .fin n' m' e' =>
    let (v, q) := dyAdd (signedMag n m) e (signedMag n' m') e'
    .fin (if v == 0 then n else decide (v < 0)) v.natAbs q

/-- A pair's two components, hi below lo: those stored, or, where the stored pair is not canonical, those of the canonical pair of equal
value (R114, R116). -/
def pairParts (f : FFmt) (w : Nat) : Nat × Nat :=
  let hi := field w 0 f.bits
  let lo := field w f.bits f.bits
  match pairVal (f.decode hi) (f.decode lo) with
  | .fin n m e =>
    let h := f.round .infinity 0 n m e false
    if h.ovf ∨ h.bits = hi ∨ (m = 0 ∧ lo = 0) then (hi, lo)
    else match f.decode h.bits with
      | .fin nh mh eh =>
        let d := dyAdd (signedMag n m) e (signedMag (!nh) mh) eh
        (h.bits, if mh = 0 then 0 else (f.roundInt ⟨false, 0, .infinity⟩ d.1 d.2 false).bits)
      | _ => (hi, lo)
  | _ => (hi, lo)

/-- The value of a pair, each component of its canonical form flushed (R116, R128). -/
def pairElem (f : FFmt) (flush : Bool) (w : Nat) : FVal :=
  let p := pairParts f w
  pairVal (f.decode (f.flush flush p.1)) (f.decode (f.flush flush p.2))

/-- The exact value of an element without block scale, as a shuttle or the graph reads it (R255). -/
def elemVal (c : Nat) (flush : Bool) (w : Nat) : FVal :=
  match c with
  | 0 => fp32F.decode (fp32F.flush flush w)
  | 1 => bf16F.decode (bf16F.flush flush w)
  | 2 => fp16F.decode (fp16F.flush flush w)
  | 3 => pairElem bf16F flush w
  | 4 => pairElem fp32F flush w
  | 15 => let q := toSigned 32 w
          .fin (decide (q < 0)) q.natAbs 0
  | _ => mxElemVal c w

/-- A value converted to FP32, BF16 or FP16 with one rounding (R130); a strict NaN keeps the upper payload bits of its
source, quieted, and a signalling one raises invalid (R135). -/
def FFmt.ofVal (f : FFmt) (c : FCtx) (v : FVal) : FRes :=
  match v with
  | .nan s p => if c.strict then ⟨f.quieted p, b2n s, false⟩
    else ⟨f.canonicalNan, 0, false⟩
  | .inf n => ⟨f.withSign n f.infinity, 0, false⟩
  | .fin n m e => f.round c.o c.rm n m e false

/-- The lo component for a finite value and its rounded hi: RNE of the exact difference, +0 when hi is zero, infinite or
NaN (R114, R118). -/
def pairLo (f : FFmt) (n : Bool) (m : Nat) (e : Int) (hi : Nat) : Nat :=
  match f.decode hi with
  | .fin nh mh eh =>
    if mh == 0 then 0
    else
      let (v, q) := dyAdd (signedMag n m) e (signedMag (!nh) mh) eh
      (f.roundInt ⟨false, 0, .infinity⟩ v q false).bits
  | _ => 0

/-- A value converted to a pair by R118: hi = RNE(x), lo = RNE(x - hi), always to nearest even; an overflowed hi takes OVF_MODE and lo is +0.
The pair's bits are hi below lo; the flag counts ARITH_OVERFLOW. Where lo rounds up to half an ulp of an odd hi, this is not the canonical pair
that R114 asks for: the model keeps R118's recipe (DESIGN CHOICE, log 161). -/
def pairOfVal (f : FFmt) (o : Ovf) (v : FVal) : Nat × Bool :=
  match v with
  | .nan .. => (f.canonicalNan, false)
  | .inf n => (f.withSign n f.infinity, false)
  | .fin n m e =>
    let hi := f.round o 0 n m e false
    if hi.ovf then (hi.bits, true) else (hi.bits + 2 ^ f.bits * pairLo f n m e hi.bits, false)

/-- The canonical pair nearest to a value, rounded once (R115, R124, R127): `sticky` stands for a quantity below every bit of `m` that adds to
the magnitude (R123). An overflowed hi takes OVF_MODE and lo is +0. -/
def nearestPair (f : FFmt) (o : Ovf) (n : Bool) (m : Nat) (e : Int) (sticky : Bool) : Nat × Bool :=
  let hi := f.round o 0 n m e sticky
  if hi.ovf then (hi.bits, true)
  else match f.decode hi.bits with
    | .fin nh mh eh =>
      let d := dyAdd (signedMag n m) e (signedMag (!nh) mh) eh
      let out := d.1 == 0 || decide (d.1 < 0) == n
      let lo := if mh = 0 then 0
        else if d.1 == 0 then 0
        else if sticky && !out then (f.round o 0 (decide (d.1 < 0)) (d.1.natAbs * 2 ^ 64 - 1) (d.2 - 64) true).bits
        else (f.round o 0 (decide (d.1 < 0)) d.1.natAbs d.2 sticky).bits
      let p := pairParts f (hi.bits + 2 ^ f.bits * lo)
      (p.1 + 2 ^ f.bits * p.2, false)
    | _ => (hi.bits, false)

/-- Counts of R133 that one conversion or product adds: overflow, scale underflow, saturation, non-finite blocks. -/
structure ArithCount where
  overflow : Nat
  scaleUnder : Nat
  saturate : Nat
  nonfinite : Nat
  deriving DecidableEq, Repr

/-- No event. -/
def ArithCount.zero : ArithCount := ⟨0, 0, 0, 0⟩
/-- Counts added up. -/
def ArithCount.plus (a b : ArithCount) : ArithCount :=
  ⟨a.overflow + b.overflow, a.scaleUnder + b.scaleUnder, a.saturate + b.saturate, a.nonfinite + b.nonfinite⟩
/-- One overflow when the flag is set. -/
def ArithCount.ofOvf (b : Bool) : ArithCount := ⟨b2n b, 0, 0, 0⟩

/-- floor(log2 |x|) of a finite FP32 value, exact for subnormals too (R131); none for zero. -/
def flog2Exact (v : FVal) : Option Int :=
  match v with
  | .fin _ m e => if m == 0 then none else some (e + Nat.log2 m)
  | _ => none

/-- Whether a value is NaN or infinite. -/
def nonFinite (v : FVal) : Bool :=
  match v with
  | .fin .. => false
  | _ => true

/-- The largest exponent among finite values, if any is non-zero. -/
def maxLog2 (vs : List FVal) : Option Int :=
  vs.foldl (fun acc v => match acc, flog2Exact v with
    | some a, some b => some (max a b)
    | none, x => x
    | a, none => a) none

/-- The scale byte of a set of values: 0xFF when any is non-finite, 0x00 when all are zero, else clamped (R131). -/
def mxScaleOf (c : Nat) (vs : List FVal) : Nat :=
  if vs.any nonFinite then 255
  else match maxLog2 vs with
    | none => 0
    | some m => (max 0 (min 254 (m - mxEmax c + 127))).toNat

/-- One element under a scale byte below 0xFF: rounded to the element format and saturated (R131); an MXINT8 zero is 0x00
and its limits are 0x7F and 0x81. The flag says that it saturated. -/
def mxEncodeElem (c rm scale : Nat) (v : FVal) : Nat × Bool :=
  match v with
  | .fin n m e =>
    let e' := e - ((scale : Int) - 127)
    if c == 13 then
      let (k, q, _) := roundMag 64 (-6) rm n m e' false
      let k := if m == 0 then 0 else k * 2 ^ (q + 6).toNat
      if 127 < k then (if n then 0x81 else 0x7F, true) else (ofSigned 8 (signedMag n k), false)
    else
      let f := mxElem c
      let r := f.round .saturate rm n m e' false
      if r.ovf then (f.withSign n f.maxFinite, true) else (r.bits, false)
  | _ => (0, false)

/-- 32 values into one MX block under a given scale byte (R131, R132): scale 0xFF makes every element 0 and counts. -/
def mxBlockWith (c rm scale : Nat) (vs : List FVal) : List Nat × ArithCount :=
  if scale == 255 then (vs.map (fun _ => 0), ⟨0, 0, 0, 1⟩)
  else
    let rs := vs.map (mxEncodeElem c rm scale)
    (rs.map (·.1), ⟨0, 0, (rs.filter (·.2)).length, 0⟩)

/-- 32 values into one MX block (R131): the scale byte, the elements and the counts. -/
def mxBlock (c rm : Nat) (vs : List FVal) : Nat × List Nat × ArithCount :=
  let s := mxScaleOf c vs
  let (es, n) := mxBlockWith c rm s vs
  (s, es, n)

/-- INT40Q of a finite FP32 value on exponent byte X: RNE(x * 2^(165 - X)) as an integer (R120). -/
def int40q (x : Nat) (v : FVal) : Int :=
  match v with
  | .fin n m e =>
    if m == 0 then 0
    else
      let (k, q, _) := roundMag (Nat.log2 m + 400) 0 0 n m (e + 165 - x) false
      signedMag n (k * 2 ^ q.toNat)
  | _ => 0

/-- Whether an INT40Q value is out of range (R120). -/
def int40qOut (q : Int) : Bool := decide (2 ^ 39 ≤ q.natAbs)

/-- The value S * 2^(X - 165) of a combined sum, rounded once to nearest even, as FP32 or a canonical FP32x2 pair (R315). -/
def gridValue (outPair : Bool) (o : Ovf) (s : Int) (x : Nat) : Nat × Bool :=
  let v := FVal.fin (decide (s < 0)) s.natAbs ((x : Int) - 165)
  if outPair then pairOfVal fp32F o v
  else
    let r := fp32F.ofVal ⟨false, 0, o⟩ v
    (r.bits, r.ovf)

/-! ## Array products (R117, R123 to R127) -/

/-- What a list of exact products sums to: NaN, an infinity, or an exact window sum with its sticky bit. -/
inductive BlockSum where
  | nan
  | inf (neg : Bool)
  | sum (v : Int) (e : Int) (sticky : Bool)
  deriving DecidableEq, Repr

/-- One exact product: NaN for NaN or 0 * inf (R125). -/
def exactMul (a b : FVal) : FVal :=
  match a, b with
  | .fin n m e, .fin n' m' e' => .fin (n != n') (m * m') (e + e')
  | .inf n, .inf n' => .inf (n != n')
  | .inf n, .fin n' m _ => if m == 0 then .nan false 0 else .inf (n != n')
  | .fin n' m _, .inf n => if m == 0 then .nan false 0 else .inf (n != n')
  | _, _ => .nan false 0

/-- The block window (R123): lowest bit 2^(E - 63) with E the leading exponent of the largest product; each product enters
truncated toward zero, and the sticky bit says that a truncated bit was non-zero. Infinities of one sign sum to it, of both
to NaN (R125). -/
def blockSum (ps : List FVal) : BlockSum :=
  if ps.any (fun p => match p with | .nan .. => true | _ => false) then .nan
  else
    let pos := ps.any (fun p => p == .inf false)
    let neg := ps.any (fun p => p == .inf true)
    if pos && neg then .nan else if pos then .inf false else if neg then .inf true
    else match maxLog2 ps with
      | none => .sum 0 0 false
      | some top =>
        let lo := top - 63
        let terms := ps.map (fun p => match p with
          | .fin n m e =>
            if lo ≤ e then (signedMag n (m * 2 ^ (e - lo).toNat), false)
            else (signedMag n (m / 2 ^ (lo - e).toNat), m % 2 ^ (lo - e).toNat != 0)
          | _ => (0, false))
        .sum ((terms.map (·.1)).foldl (· + ·) 0) lo (terms.any (·.2))

/-- The scaled block sum rounded once and checked against the FP32 range, in the order of R125, for FP32 accumulation: the
FP32 bits and what they count. `nanScale`: a scale byte was 0xFF. `sx`: the combined scale exponent of R124. -/
def blockResult (c : FCtx) (nanScale : Bool) (sx : Int) (b : BlockSum) : Nat × ArithCount :=
  if nanScale then (fp32F.canonicalNan, .zero)
  else match b with
    | .nan => (fp32F.canonicalNan, .zero)
    | .inf n => (fp32F.withSign n fp32F.infinity, .zero)
    | .sum v e st =>
      if v == 0 then (0, .zero)
      else
        let n := decide (v < 0)
        let r := fp32F.round c.o c.rm n v.natAbs (e + sx) st
        if r.ovf then (r.bits, ⟨1, 0, 0, 0⟩)
        else if e + sx + Nat.log2 v.natAbs < -149 then (fp32F.withSign n 0, ⟨0, 1, 0, 0⟩)
        else (r.bits, .zero)

/-- The scaled block sum as the nearest canonical FP32x2 pair (R124), range-checked as in R125. -/
def blockResultPair (c : FCtx) (nanScale : Bool) (sx : Int) (b : BlockSum) : Nat × ArithCount :=
  if nanScale then (fp32F.canonicalNan, .zero)
  else match b with
    | .nan => (fp32F.canonicalNan, .zero)
    | .inf n => (fp32F.withSign n fp32F.infinity, .zero)
    | .sum v e st =>
      if v == 0 then (0, .zero)
      else
        let n := decide (v < 0)
        if e + sx + Nat.log2 v.natAbs < -149 then (fp32F.withSign n 0, ⟨0, 1, 0, 0⟩)
        else
          let r := nearestPair fp32F c.o n v.natAbs (e + sx) st
          (r.1, .ofOvf r.2)

/-- Whether a pair is canonical (R114, R115). -/
def pairCanonical (f : FFmt) (w : Nat) : Bool :=
  let p := pairParts f w
  w == p.1 + 2 ^ f.bits * p.2 && (match f.decode p.1 with | .fin _ m _ => m != 0 || p.2 == 0 | _ => p.2 == 0)

/-- The double-word sum of two FP32x2 operands as a canonical pair: the free value of R127 when it is canonical and inside the
bound 2^-47 (|a| + |t|) + 2^-150 of the exact sum, otherwise the nearest canonical pair. It depends on the operands' values alone (R116);
an exact zero sum is +0, or -0 under rounding toward minus infinity. -/
def dwAdd (c : FCtx) (a t : Nat) : Nat × Bool :=
  let va := elemVal 4 false a
  let vt := elemVal 4 false t
  match va, vt, pairVal va vt with
  | .fin _ ma ea, .fin _ mt et, .fin ns ms es =>
    let near := nearestPair fp32F c.o ns ms es false
    if ms = 0 then (fp32F.withSign (c.rm == 3) 0, false)
    else if near.2 then near
    else
      let key (w : Nat) : Nat := let p := pairParts fp32F w; p.1 + 2 ^ 32 * p.2
      let cand := Config.freeDwAdd (key a) (key t) % 2 ^ 64
      match elemVal 4 false cand with
      | .fin nc mc ec =>
        let (d, ed) := dyAdd (signedMag nc mc) ec (signedMag (!ns) ms) es
        let (mag, em) := dyAdd ma ea mt et
        let (bd, eb) := dyAdd mag (em - 47) 1 (-150)
        let lo := min ed eb
        if pairCanonical fp32F cand &&
            decide (d.natAbs * 2 ^ (ed - lo).toNat ≤ bd.natAbs * 2 ^ (eb - lo).toNat) then (cand, false)
        else near
      | _ => near
  | _, _, vs => pairOfVal fp32F c.o vs

end Sys2Proof.Machine
end

