-- ==== Sys2Proof/Machine/Records.lean ====
section
/-!
DEFINITION. Machine/Records.lean: the parts State is made of, one structure per object the manual gives the module, plain data
only. A field's docstring names its rule; a default is its reset value (State.reset takes every default).
-/

namespace Sys2Proof.Machine

/-- One island (R49, R54, R55): its 48-bit cycle counter, 8-bit epoch, whether its power domain has come up since module power-up, and whether
it is up, its clock gated, its PLL relocking; the clock code of a cluster island (F_NOW, R479); and the pick each partition's job was last
delivered (R59). -/
structure Island where
  cycle : Nat := 0
  epoch : Nat := 0
  risen : Bool := false
  on : Bool := false
  gated : Bool := false
  relocking : Bool := false
  freq : Nat := 0x1A
  picks : List (Nat × Nat) := []
  deriving DecidableEq, Repr

/-- One transfer waiting in a handshake channel (R50): the pick delivered to a receiving island for a partition (R59), or a
transfer without a payload the manual describes. -/
inductive Transfer where
  | pick (p n : Nat)
  | plain (issuer : Issuer)
  /-- An external write of loom `l` at a local address, held while the loom's cluster relocks its PLL (R104). -/
  | store (l a : Nat) (bytes : List Byte) (issuer : Issuer)
  deriving DecidableEq, Repr

/-- What a command leaves to its own end (the model's own list, empty between commands): a write of set-up registers through space 0x8
(R64); a line or a loom word that an access of a partition met and that reads uncorrectable (R84, R233). -/
inductive Deferred where
  | reg (src : Src) (off : Nat) (bytes : List Byte)
  | line (key : Nat) (part : Option Nat)
  | word (l a : Nat) (part : Option Nat)
  deriving DecidableEq, Repr

/-- A completion entry before its phase bit is known (R190): `acc` is the acceptance number of its submission entry, `origin` the port and
ring pair that submitted it. -/
structure Compl where
  acc : Nat
  origin : Nat × Nat
  part : Nat
  opcode : Nat
  status : Nat
  tag : Nat
  pick : Nat
  cookie : Nat
  result : Nat
  irq : Bool
  deriving DecidableEq, Repr

/-- One ring pair's own state (R178 to R185, R513); the RW fields of its registers are in `regs`. -/
structure Ring where
  /-- ACTIVE of HIF_RQ_CTL. -/
  active : Bool := false
  /-- A shutdown under R477 runs. -/
  closing : Bool := false
  /-- Enables (true) and disables (false) held under R477, oldest first. -/
  ops : List Bool := []
  /-- SQ_HEAD, the last SQ_TAIL, the first slot not freed and the next slot to write (R181, R184). -/
  sqHead : Nat := 0
  sqTail : Nat := 0
  cqHead : Nat := 0
  cqTail : Nat := 0
  /-- Completion slots written and not freed. -/
  cqUsed : Nat := 0
  /-- The phase bit of the pass in progress (R184). -/
  phase : Bool := true
  /-- DOORBELL_ERRORS (R185). -/
  errors : Nat := 0
  /-- Bytes of the inline window written since the previous SQ_TAIL write (R180), by offset. -/
  window : List (Nat × Byte) := []
  /-- Captured inline entries, each in place of the ring slot at its index (R180). -/
  inlined : List (Nat × List Byte) := []
  /-- Completions not yet written, oldest first (R184). -/
  held : List Compl := []
  /-- Tag and status of the last 256 completed entries, newest first (R188). -/
  history : List (Nat × Nat) := []
  deriving DecidableEq, Repr

/-- How far an accepted entry has come: held by its wait condition (R188), free to start, held to a step boundary (R189),
held by the enable-during-shutdown rule (R477) or by a running draft (R209, R214), or at work. -/
inductive EntrySt where
  | waiting
  | ready
  | boundary
  | held
  | running
  deriving DecidableEq, Repr

/-- An accepted, uncompleted submission entry (R186): its 64 bytes, where it came from, and where its completion goes (a re-homed
entry's ring differs, R518). `acc` numbers acceptances from 1. -/
structure Entry where
  acc : Nat
  port : Nat
  ring : Nat
  func : Nat
  admin : Bool
  bytes : List Byte
  st : EntrySt
  home : Nat × Nat
  /-- Status of the entry waited for, once it has completed (R188). -/
  waitDone : Option Nat := none
  /-- Pick of the boundary at which it took effect (R189). -/
  pick : Nat := 0
  /-- Result bytes gathered so far, as one number of 6 bytes (R192). -/
  result : Nat := 0
  /-- Acknowledgements still missing, the first failure among them, and whether the entry's own work has been done. -/
  acks : Nat := 0
  failing : Option Nat := none
  worked : Bool := false
  /-- Status, pick and result of an entry that has come to its end while 256 completions of its ring pair are held: it waits in its
  engine (R184). -/
  parked : Option (Nat × Nat × Nat) := none
  deriving DecidableEq, Repr

/-- Where a node stands (R210, R211): waiting for predecessors, ready, dispatched, stopped by a pre-emption with its position
kept (R222), or completed with a status. -/
inductive NodeSt where
  | blocked
  | ready
  | running
  | stopped
  | done (status : Nat)
  deriving DecidableEq, Repr

/-- One node of a draft in the Heddle: its 128-byte record (R201), its successors, the predecessors still missing, its state, the
acknowledgements of its writes still missing, the last value a HOST_WAIT read, whether a deferred status waits for its end
(R197). -/
structure Node where
  bytes : List Byte
  succ : List Nat
  deps : Nat
  st : NodeSt := .blocked
  acks : Nat := 0
  seen : Option Nat := none
  failing : Option Nat := none
  /-- The node's own work has been done, and it waits for acknowledgements only. -/
  worked : Bool := false
  /-- Pool entries the node uses (R246). -/
  pins : List Nat := []
  deriving DecidableEq, Repr

/-- One draft in flight (R206, R209, R214), or the step draft of a serving loop (R410). -/
structure Draft where
  id : Nat
  part : Nat
  /-- Acceptance number of its DRAFT_RUN; none for a serving batch step. -/
  acc : Option Nat
  /-- Serving loop of a step draft. -/
  loop : Option Nat := none
  /-- Resident slot whose draft this is. -/
  slot : Option Nat := none
  /-- Area of the draft store (R515), the port whose host submitted it, and whether that is an administrative
  host (R243). -/
  area : Nat := 0
  port : Nat := 0
  admin : Bool := false
  noStep : Bool := false
  /-- The draft's own step has begun (R206); false while its PRE_STEP nodes run. -/
  begun : Bool := false
  nodes : List Node := []
  /-- Informational statuses seen (RESULT byte 29, R197). -/
  info : Nat := 0
  /-- Strict flags (RESULT byte 28, R138). -/
  strict : Nat := 0
  /-- A node has failed: nothing more is dispatched (R197). -/
  failed : Bool := false
  /-- Prefetch entries: issued and completed (R261), by entry index; acknowledgements missing, and entries whose copy has been made. -/
  issued : List Nat := []
  fetched : List (Nat × Nat) := []
  fetchAcks : List (Nat × Nat) := []
  fetchWorked : List Nat := []
  /-- Staging blocks by entry index. -/
  staged : List (Nat × Nat) := []
  deriving DecidableEq, Repr

/-- States of a partition (R220). -/
inductive PartState where
  | unconfigured
  | configured
  | enabling
  | active
  | preempting
  | preempted
  | resuming
  | disabling
  | halted
  deriving DecidableEq, Repr

/-- The code STATE carries (R220). -/
def PartState.code : PartState → Nat
  | .unconfigured => 0
  | .configured => 1
  | .enabling => 2
  | .active => 3
  | .preempting => 4
  | .preempted => 5
  | .resuming => 6
  | .disabling => 7
  | .halted => 8

/-- Enables and disables of a partition kept in order of arrival (R221, R477); a PREEMPT or RESUME names its entry. -/
inductive PartOp where
  | enable
  | disable
  | preempt (acc : Nat)
  | resume (acc : Nat)
  deriving DecidableEq, Repr

/-- States of a weight version (R41). -/
inductive VerState where
  | published
  | current
  | held
  deriving DecidableEq, Repr

/-- One weight version (R27 to R41): number, state, forms (bit 0 replicated, bit 1 warp-stationary), latched units, whether its
publish hold stands (R40), and the update generation of the working weights it was published from (R31). -/
structure Version where
  number : Nat
  st : VerState
  forms : Nat := 0
  latched : Nat := 0
  hold : Bool := true
  gen : Nat := 0
  /-- Address of each built form, by form bit. -/
  formAt : List (Nat × Nat) := []
  deriving DecidableEq, Repr

/-- JOB_STATE of the job status page (R200); code 3 is RUNNING with a HOST_WAIT node that waits. -/
inductive JobState where
  | none
  | running
  | boundary
  | preempted
  | halted
  deriving DecidableEq, Repr

def JobState.code : JobState → Nat
  | .none => 0
  | .running => 1
  | .boundary => 2
  | .preempted => 4
  | .halted => 5

/-- The job of a partition as this member sees it (R21, R58, R200, R341 to R348). -/
structure Job where
  st : JobState := .none
  /-- Current pick; 0 before the first step (R58). -/
  pick : Nat := 0
  /-- Attempt counter of the current pick (R326). -/
  attempt : Nat := 0
  /-- MEMBER_GEN of the manager's last word (R341, R348). -/
  memberGen : Nat := 0
  /-- The manager has acknowledged the JOIN with status OK (R341). -/
  joined : Bool := false
  /-- A JOIN has been sent and not answered. -/
  joining : Bool := false
  /-- Status of the manager's refusal (R341). -/
  refusal : Option Nat := none
  /-- Versions not FREED, ascending (R28). -/
  versions : List Version := []
  /-- Greatest number ever published (R27). -/
  maxVersion : Nat := 0
  /-- How many parameter updates have changed the working weights (R31). -/
  weightGen : Nat := 0
  /-- An UPDATE of the pick wrote held values (R325, R372). -/
  updated : Bool := false
  /-- The pick's verdict reported to the manager and not yet decided (R324, R343), and whether it has been reported. -/
  verdict : Nat := 0
  reported : Bool := false
  decided : Option Nat := none
  /-- Locator bytes 40 to 51 of R331 of the first poison of the pick. -/
  locator : List Byte := []
  /-- Modules declared lost to this member (R348). -/
  lost : List Nat := []
  /-- Barrier nodes of scope 1 reported and not released (R344). -/
  barriers : List (Nat × Nat) := []
  /-- The pick was a training step run by a DRAFT_RUN (R206); the draft's id. -/
  step : Option Nat := none
  /-- The step was aborted and reruns (R326): its drafts report MEMBERSHIP_CHANGED. -/
  rerun : Bool := false
  /-- The pick's batch step, or a step that no node of began, has ended with a verdict that is not reported yet (R343, R387). -/
  ended : Option Nat := none
  /-- Number, state and publish hold of each version before the switch already made at this boundary (R34). -/
  unswitched : List (Nat × VerState × Bool) := []
  deriving DecidableEq, Repr

/-- One parked loom (R447, R452): the retired physical loom, the host loom its state runs on, its logical id, its partition, the
parking slot, and whether the guest's state is the one resident on the host (R448). -/
structure Guest where
  retired : Nat
  host : Nat
  logical : Nat
  part : Nat
  slot : Nat
  resident : Bool := false
  deriving DecidableEq, Repr

/-- A unit the classifier watches (R443, R444): hard and soft events of the open window, corrected events not yet worth a soft
event, and the score; `fails` counts power-good losses of a cluster in the window (R473). -/
structure Unit where
  hard : Nat := 0
  soft : Nat := 0
  raw : Nat := 0
  score : Nat := 0
  fails : Nat := 0
  deriving DecidableEq, Repr

/-- The knot collector (R432 to R439), lost only with VSTBY (R433). Source bits are numbered as in R432. -/
structure Knot where
  /-- Knot bits 0 to 61. -/
  word : Nat := 0
  /-- Knot bit 62. -/
  mergedBit : Bool := false
  /-- A handling window is open; the source and class that opened it. -/
  windowOpen : Bool := false
  firstSource : Nat := 0
  firstClass : Nat := 0
  /-- Sources merged into the open window; events merged since power-up. -/
  merged : Nat := 0
  mergeCount : Nat := 0
  /-- Sequence number of the latest event; fault-log tail, head and dropped count. -/
  seq : Nat := 0
  tail : Nat := 0
  head : Nat := 0
  dropped : Nat := 0
  /-- LAST_CLASS and EVENTS by source. -/
  lastClass : List (Nat × Nat) := []
  events : List (Nat × Nat) := []
  deriving DecidableEq, Repr

/-- What the treadle is doing: entering a deeper state, or leaving for T0 by the steps of R460. -/
inductive Move where
  | entry (target : Nat)
  | exit (source : Nat)
  deriving DecidableEq, Repr

/-- The treadle (R457 to R478). -/
structure Treadle where
  state : Nat := 4
  moving : Option Move := none
  /-- The pending request, with the wake source and port of a pending wake (R468, R469). -/
  pending : Option Nat := none
  pendingWake : Nat × Nat := (5, 0)
  hold : Nat := 0
  /-- The exit waits for VMAIN and VSIDE: cold start or return from the emergency path (R457, R460). -/
  awaiting : Bool := false
  /-- The first exit from T4 since reset has ended its step 8 (R505). -/
  served : Bool := false
  /-- FAULT_N is asserted for the emergency path or a step-9 failure, and for a trip temperature (R457, R460, R472). -/
  pinSupply : Bool := false
  pinTrip : Bool := false
  refused : Bool := false
  /-- PWR_BRAKE_N throttle, and the throttle of a pinned cap (R474, R475). -/
  brake : Bool := false
  capThrottle : Bool := false
  blocked : Nat := 0
  wakeSource : Nat := 0
  wakeFrom : Nat := 0
  wakePort : Nat := 0
  wakeEpoch : Nat := 0
  wakeCycle : Nat := 0
  /-- P of the last interval in watts, and intervals in a row above the cap while pinned. -/
  power : Nat := 0
  overCap : Nat := 0
  vmainGood : Bool := false
  vsideGood : Bool := false
  vstbyGood : Bool := true
  /-- Domains that are on, by id (R458). -/
  domains : List Nat := [0]
  /-- Latest reading of each sensor in eighths of a degree; sensors not read are absent. -/
  temps : List (Nat × Nat) := []
  /-- Last threshold level of the hottest sensor (R470), and readings in a row at T_HOT, at T_CRIT and below T_WARN - 5. -/
  level : Nat := 0
  hotRun : Nat := 0
  critRun : Nat := 0
  coolRun : Nat := 0
  /-- THERM_N is asserted. -/
  warm : Bool := false
  /-- Partitions the treadle pre-empted (R471). -/
  preempted : List Nat := []
  /-- PORT_WAKE is driven, and ignored, by this module (R530). -/
  driving : Bool := false
  ignoring : Bool := false
  deriving DecidableEq, Repr

/-- The boot states of R486. -/
inductive BootState where
  | reset
  | fuses
  | straps
  | select
  | verify
  | measure
  | identity
  | retire
  | ready
  | recovery
  | fail
  deriving DecidableEq, Repr

def BootState.code : BootState → Nat
  | .reset => 0
  | .fuses => 1
  | .straps => 2
  | .select => 3
  | .verify => 4
  | .measure => 5
  | .identity => 6
  | .retire => 7
  | .ready => 8
  | .recovery => 9
  | .fail => 10

/-- BOOT_SLOT of one image slot (R499). -/
structure SlotInfo where
  version : Nat := 0
  svn : Nat := 0
  cause : Nat := 0
  verified : Bool := false
  deriving DecidableEq, Repr

/-- What the module keeps of the active image (R4, R483, R496): header fields and measured digests by component id. -/
structure Image where
  slot : Nat := 0
  keySlot : Nat := 0
  version : Nat := 0
  numeric : Nat := 0
  protoMin : Nat := 0
  protoMax : Nat := 0
  svn : Nat := 0
  digests : List (Nat × List Byte) := []
  deriving DecidableEq, Repr

/-- What staging is doing (R489). -/
inductive Stage where
  | idle
  | write (unit : Nat)
  | commit
  deriving DecidableEq, Repr

/-- Phases of a live activation (R490). -/
inductive ActPhase where
  | idle
  | verifying
  | holding
  | switching
  | releasing
  deriving DecidableEq, Repr

def ActPhase.code : ActPhase → Nat
  | .idle => 0
  | .verifying => 1
  | .holding => 2
  | .switching => 3
  | .releasing => 4

/-- The boot state machine, staging and activation (R486 to R491). -/
structure Boot where
  state : BootState := .reset
  failCause : Nat := 0
  /-- ACTIVE_SLOT of the governing boot record, the slot being tried, and whether the other has failed. -/
  recordSlot : Nat := 0
  trying : Nat := 0
  tried : Nat := 0
  slots : List (Nat × SlotInfo) := []
  image : Image := {}
  /-- NUMERIC_VERSION and FABRIC_PROTO_MAX of the ID block: those of the image activated last, kept through every reset (R2, R4); 0 before the
  first image, where R4 names none (log 157). -/
  idNumeric : Nat := 0
  idProtoMax : Nat := 0
  /-- The staging buffer (R489), by offset. -/
  buffer : List (Nat × Byte) := []
  stage : Stage := .idle
  stageErr : Bool := false
  phase : ActPhase := .idle
  result : Nat := 0
  /-- Partitions held by an activation (bit p). -/
  held : Nat := 0
  /-- A slot was booted that the record does not name, or RECOVERY took over at SELECT. -/
  recovered : Bool := false
  deriving DecidableEq, Repr

/-- One request waiting at the trust engine (R498): GET_IDENTITY, or GET_REPORT with its nonce and the body, made when the engine
begins the report (R496). -/
inductive Request where
  | identity
  | report (nonce : List Byte) (body : Option (List Byte))
  deriving DecidableEq, Repr

/-- The trust engine and the fuse programmer (R494 to R499). -/
structure Trust where
  /-- Requests in order of arrival, the first at work. -/
  queue : List (Transport × Request) := []
  attested : Nat := 0
  reports : Nat := 0
  debugSeen : Bool := false
  /-- Endpoint id by transport: PCIe port 0, port 1, SMBus. -/
  eids : List (Nat × Nat) := []
  /-- The identity key has been derived since the last reset (R495). -/
  ready : Bool := false
  /-- DEBUG_LOCK as it held at the last reset (JTAG closes at the next reset, R494). -/
  jtagClosed : Bool := false
  /-- Fuse bits still to blow, whether they may be retried, and RESULT. -/
  blowing : List Nat := []
  blowBusy : Bool := false
  progResult : Nat := 0
  deriving DecidableEq, Repr

/-- A write or message of a function in D3hot that waits for D0 (R501). -/
inductive PortMsg where
  | write (key : Nat) (bytes : List Byte)
  | msix (vector : Nat)
  deriving DecidableEq, Repr

/-- One PCIe port (R503 to R504, R512). -/
structure Port where
  linkUp : Bool := false
  width : Nat := 0
  speed : Nat := 0
  /-- Width a retirement left (R446); 16 as built. -/
  maxWidth : Nat := 16
  perst : Bool := false
  lost : Nat := 0
  refused : Nat := 0
  numVfs : Nat := 0
  /-- Writes and messages held while a function is in D3hot (R501), by function. -/
  waiting : List (Nat × PortMsg) := []
  deriving DecidableEq, Repr

/-- One function of a port (R500 to R504): power state, MSI-X enable, table (key 4 * vector + word) and pending bits, BAR4 size,
and a function level reset in progress. -/
structure Func where
  d3 : Bool := false
  msixOn : Bool := false
  table : List (Nat × Nat) := []
  pendingBits : Nat := 0
  bar4 : Nat := 0
  flr : Bool := false
  /-- Codes of the maximum payload and the maximum read request, 128 * 2^code bytes (R241, R501): 128 and 512 bytes at reset (PRESUMED of PCI Express,
  log 183). -/
  payload : Nat := 0
  request : Nat := 2
  deriving DecidableEq, Repr

/-- What leaves the module: an MSI-X message, a packet or a control message on a link, the answer to a read or to an SMBus or
MCTP exchange, a configuration completion, a block of ring attention on its way to the next position (R429). -/
inductive Out where
  | msix (port func vector : Nat)
  | flit (link : Nat) (bytes : List Byte)
  | loop (pkt : Packet)
  | control (link kind arg : Nat)
  | ident (link : Nat) (block : List Byte)
  | ring (dst block round : Nat)
  | data (bytes : List Byte) (ok : Bool)
  | smbus (bytes : List Byte)
  | smbusNack
  | mctp (t : Transport) (cmd status : Nat) (payload : List Byte)
  | mctpControl (t : Transport) (cmd : Nat) (payload : List Byte)
  | config (port func value : Nat) (retry : Bool)
  | cableRead (port : Nat)
  | hostRead (port func addr len : Nat)
  deriving DecidableEq, Repr

/-- What the bolt-size temple keeps of one stream (R329). -/
structure BoltSize where
  size : Nat
  /-- SIZE_MIN and SIZE_MAX of the stream's block. -/
  lo : Nat
  hi : Nat
  /-- TAIL sum and TAIL count of the interval, and its picks. -/
  sum : Nat := 0
  count : Nat := 0
  picks : Nat := 0
  deriving DecidableEq, Repr

/-- One resident-draft slot of a partition (R209) with its prefetch schedule and temples (R259 to R262, R329). -/
structure Slot where
  loaded : Bool := false
  nodeCount : Nat := 0
  succCount : Nat := 0
  /-- The records kept on die: the first 64 nodes whose DEP_COUNT is 0, by node id (R209). -/
  onDie : List (Nat × List Byte) := []
  /-- The schedule read at MAKE_RESIDENT: header bytes and entry records; empty where there is none (R258). -/
  schedule : List (List Byte) := []
  leadMin : Nat := 0
  leadMax : Nat := 0
  interval : Nat := 0
  stallHi : Nat := 0
  /-- L of R262, the S of the last raise while that raise was the last change, intervals without a raise, picks of the interval. -/
  lead : Nat := 0
  prevS : Option Nat := none
  noRaise : Nat := 0
  picks : Nat := 0
  /-- STAGING_EVICTIONS when the interval began. -/
  evBase : Nat := 0
  /-- Bolt-size temple by stream (R329). -/
  bolts : List (Nat × BoltSize) := []
  deriving DecidableEq, Repr

/-- A partition's pool beyond its directory in memory (R247 to R251). -/
structure Pool where
  /-- A of R251. -/
  age : Nat := 0
  /-- Class, KEY and pick of the last 256 evictions of classes 1 and 2, newest first. -/
  evicted : List (Nat × Nat × Nat) := []
  evictions : List (Nat × Nat) := []
  exhausted : Nat := 0
  refaults : Nat := 0
  keepDeclined : Nat := 0
  highWater : Nat := 0
  stagingEvictions : Nat := 0
  /-- Since the interval began: a protected failure, a refault, picks. -/
  failure : Bool := false
  refault : Bool := false
  picks : Nat := 0
  gen : Nat := 0
  deriving DecidableEq, Repr

/-- A change of a cache way mask or policy register that waits for its write-back (R238). -/
structure CacheChange where
  off : Nat
  value : Nat
  deriving DecidableEq, Repr

/-- One line of the memory-side cache (R237): the key of the memory line it holds, its way, and whether it is dirty. -/
structure CacheLine where
  key : Nat
  way : Nat
  dirty : Bool
  deriving DecidableEq, Repr

/-- The memory controllers and the memory-side cache (R232 to R239). -/
structure MemCtl where
  /-- Poisoned lines, as the key of the line's first byte, ascending (R233). -/
  poison : List Nat := []
  /-- Groups whose relocation runs: key 256 * space + group (R235). -/
  relocating : List Nat := []
  /-- Units whose lines have been relocated: key 65536 * class + unit. -/
  relocated : List Nat := []
  /-- Next line a scrub read takes, and whether one waits, by 256 * space + channel (R234). -/
  scrubNext : List (Nat × Nat) := []
  /-- Channels in which a scrub read waits to be issued (R234). -/
  scrubWait : List Nat := []
  /-- Lines of the memory-side cache, the most recently used first (R237). What a line holds is what `mem` holds at its key: every access to a
  cached group passes the cache (R237), so that no access can tell the two apart. -/
  cache : List CacheLine := []
  /-- Single-bit errors the cache has corrected (R239). -/
  cacheFixed : Nat := 0
  /-- Check lines in the buffer of each tier-2 channel, the most recently used first (R231). -/
  checkBuf : List (Nat × List Nat) := []
  /-- Check lines read from tier 2, and written there. -/
  checkReads : Nat := 0
  checkWrites : Nat := 0
  /-- Cache changes held for write-back, oldest first (R238); a partition's disable stands as a change of its PART_CTL. -/
  changes : List CacheChange := []
  /-- A controller of a stack (0 to 7) or package group (8 to 11) in reset (R436). -/
  resetting : List Nat := []
  /-- Armed line writes by unit (65536 * class + unit), and lines stored uncorrectable, as the key of the first byte (R442). -/
  armed : List (Nat × Nat) := []
  corrupt : List Nat := []
  deriving DecidableEq, Repr

/-- An output-stationary tile in formation (R165 to R167, R174): tile-row start, frozen rows, whether it is skipped, whether its first
block is still to be added, and the row pairs of the open block. -/
structure Tile where
  base : Nat
  frozen : List Nat := []
  skip : Bool := false
  fresh : Bool := true
  pairs : List (List Byte × List Byte) := []
  deriving DecidableEq, Repr

/-- Where the node dispatched on a loom stands: array steps entered, rows read by the output path, output-stationary tiles begun, swap-table
position and rows since the last swap (R98), rows entered against the active warp, the tile in formation, rows that R174 keeps back, rows whose
sums the output path has still to read (R102), rows its FETCH stages have brought (R101), whether a row has entered the array, the draft of the
node, and the mask bitmaps read at dispatch with ROWS and COLS (R175). -/
structure Run where
  step : Nat := 0
  out : Nat := 0
  tiles : Nat := 0
  swapPos : Nat := 0
  feedRows : Nat := 0
  onWarp : Nat := 0
  tile : Option Tile := none
  withheld : List Nat := []
  unread : List Nat := []
  fetched : Nat := 0
  entered : Bool := false
  draft : Nat := 0
  mask : Option (List Byte × List Byte × Nat × Nat) := none
  /-- Rank in the loom set and its size (R541). -/
  rank : Nat := 0
  looms : Nat := 1
  deriving DecidableEq, Repr

/-- An image load in progress (R95): slot, image id, table length, address. -/
structure Load where
  slot : Nat
  id : Nat
  length : Nat
  addr : Nat
  deriving DecidableEq, Repr

/-- One loom (chapters 03 to 06). Its four SRAMs are in `mem`, space 0x2, by physical half. -/
structure Loom where
  /-- H1 holds the FEED role; after reset H0 does (R97). -/
  feedH1 : Bool := false
  /-- The node dispatched on the loom: draft and node id. -/
  node : Option (Nat × Nat) := none
  /-- Image bytes by slot, the active slot, the dispatch count at which each slot was last dispatched, and that count (R95). -/
  images : List (Nat × List Byte) := []
  active : Option Nat := none
  used : List (Nat × Nat) := []
  tick : Nat := 0
  loading : List Load := []
  /-- Active and shadow warp: warp-store address and bytes (R77). -/
  warp : Option (Nat × List Byte) := none
  shadow : Option (Nat × List Byte) := none
  /-- A shadow load that was under way when its node ended: warp-store address and length (R169, R223). -/
  loadingWarp : Option (Nat × Nat) := none
  /-- FILL byte counter, and the FILL_BYTES of a swap left pending (R98). -/
  fillBytes : Nat := 0
  pendingSwap : Option Nat := none
  /-- Accumulator rows whose row-ready bit is 0, by tile-row start (R147). -/
  notReady : List Nat := []
  run : Run := {}
  /-- A row check has mismatched and the row is entered again (R82). -/
  retry : Bool := false
  /-- The check that began the retry found parity (R83). -/
  retryParity : Bool := false
  /-- Corrected checksum and SECDED events (R82, R84). -/
  corrected : Nat := 0
  /-- Next 64-bit word of the idle scrub (R85). -/
  scrubAt : Nat := 0
  /-- Armed faults by class: operations left (R442), and words stored uncorrectable, by local
  address with the weft buffer by physical half (R97, R223). -/
  armed : List (Nat × Nat) := []
  bad : List Nat := []
  deriving DecidableEq, Repr

-- ## Reduction (chapter 10)

/-- A bolt's control result (R313): the RANGE, POISON, FROZEN and LIVE words of the OR line, and the MAX8 line as one number. -/
structure Ctl where
  range : Nat
  poison : Nat
  frozen : Nat
  live : Nat
  max8 : Nat
  deriving DecidableEq, Repr

/-- One bolt that has a slot (R303, R304): index, slot, state code, elements emitted, control result. -/
structure Bolt where
  index : Nat
  slot : Nat
  st : Nat := 1
  emitted : List Nat := []
  ctl : Option Ctl := none
  deriving DecidableEq, Repr

/-- Partial combination of one element (R290, R291): `kind` is PART + 4 * DIST + 8 * RERUN, `elem` the element, or the bolt for a
control line; the sum, and the sources it holds (4096 is the module itself). -/
structure Cell where
  kind : Nat
  elem : Nat
  sum : Nat
  srcs : List Nat
  deriving DecidableEq, Repr

/-- One installed stream of a REDUCE node, or the collective of a GATHER node (R300, R306, R359). -/
structure Stream where
  draft : Nat
  node : Nat
  gather : Bool := false
  /-- Parameter block, and the plan's entries of 40 bytes. -/
  block : List Byte
  plan : List (List Byte) := []
  size : Nat := 0
  pick : Nat := 0
  attempt : Nat := 0
  bolts : List Bolt := []
  cells : List Cell := []
  /-- Plan entries combined, each with its RERUN bit. -/
  made : List (Nat × Nat) := []
  /-- Row and block bitmaps of the mask with ROWS and COLS, read at installation. -/
  mask : Option (List Byte × List Byte × Nat × Nat) := none
  /-- Where a gather lands. -/
  landing : Nat := 0
  rerunGranules : Nat := 0
  poisonGranules : Nat := 0
  zeroed : Nat := 0
  duplicate : Nat := 0
  late : Nat := 0
  unfilled : Nat := 0
  /-- Packets sent, for R292's resend. -/
  sent : List Packet := []
  rounds : Nat := 0
  replaced : Nat := 0
  locator : Option (Nat × Nat) := none
  poisoned : Bool := false
  mismatch : Bool := false
  lastDone : Bool := false
  orthoDone : Bool := false
  tail : Nat := 0
  /-- Status the node completed with. -/
  status : Option Nat := none
  deriving DecidableEq, Repr

-- ## Serving (chapter 13)

/-- States of a prefix handle (R419). -/
inductive HandleSt where
  | filling
  | ready
  | evicted
  | released
  deriving DecidableEq, Repr

/-- One prefix handle (R418, R419): its descriptor's fields, pool entries of its pages, positions filled. -/
structure Handle where
  id : Nat
  st : HandleSt := .filling
  tokens : Nat
  queue : Nat
  addr : Nat
  adapter : Nat
  adapterGen : Nat
  /-- Pool entry of that generation. -/
  adapterAt : Nat := 0
  version : Nat
  pages : List Nat := []
  pos : Nat := 0
  deriving DecidableEq, Repr

/-- What the module keeps of a sequence beside its table entry (R406, R407): slot, the entry of its SEQ_ADMIT, pick of admission, swaps,
the state before a swap, whether a swap-out (1) or a swap-in (2) is under way, and the pool entries a swap-out frees or a swap-in fills (R423,
R424). -/
structure SeqX where
  slot : Nat
  acc : Nat
  admitPick : Nat
  swaps : Nat := 0
  before : Nat := 2
  moving : Nat := 0
  pages : List Nat := []
  /-- Pool entry of the adapter generation latched. -/
  adapterAt : Nat := 0
  deriving DecidableEq, Repr

/-- One row of a batch step (R410): slot, or handle for a prefix fill; kind; first position; tokens. -/
structure BatchRow where
  who : Nat
  kind : Nat
  pos : Nat
  count : Nat
  deriving DecidableEq, Repr

/-- States of a serving loop (R401). -/
inductive LoopSt where
  | disabled
  | running
  | disabling
  deriving DecidableEq, Repr

def LoopSt.code : LoopSt → Nat
  | .disabled => 0
  | .running => 1
  | .disabling => 2

/-- One serving loop of a partition (R399 to R402, R412, R413, R423). -/
structure Loop where
  st : LoopSt := .disabled
  /-- Configuration block as read (R399). -/
  cfg : List Byte := []
  bound : Bool := false
  prio : Nat := 0
  /-- Own pick of an unbound loop (R21). -/
  pick : Nat := 0
  budget : Nat := 0
  /-- Deficits by queue, and the queue last granted in the previous step. -/
  deficits : List (Nat × Nat) := []
  lastQueue : Option Nat := none
  admitOrder : Nat := 0
  swapOrder : Nat := 0
  nextHandle : Nat := 1
  handles : List Handle := []
  seqs : List SeqX := []
  /-- SERVE_LOOP_CONFIG entries held or running under R477, oldest first, each with its ENABLE. -/
  ops : List (Nat × Bool) := []
  /-- The batch step in flight: its draft and rows, and the pool entries it pins. -/
  step : Option Nat := none
  rows : List BatchRow := []
  pins : List Nat := []
  bubble : Bool := false
  /-- Step of R409 at which a boundary under way stands: 0 for none, 3, 4 or 6 while swaps are awaited, 8 while its looms are (R216). -/
  stage : Nat := 0
  /-- The version the batch step in flight, or the boundary under way, has latched (R35); 0 for none. -/
  version : Nat := 0
  /-- Blocks of ring attention that have landed (R429): 65536 × round + block, and the pool entry with 1 added, 0 for none. -/
  ring : List (Nat × Nat) := []
  lastStep : Nat := 0
  sumSteps : Nat := 0
  steps : Nat := 0
  cut : Bool := false
  /-- Swap area: base and bytes, and swap slots in use (R423). -/
  swapBase : Nat := 0
  swapBytes : Nat := 0
  swapUsed : List Nat := []
  deriving DecidableEq, Repr

/-- One generation of an adapter (R425, R426): pool entry, whose REFS counts its references, whether it is the current one, and the
ADAPTER_LOAD or ADAPTER_REPLACE whose copy is under way. -/
structure Adapter where
  id : Nat
  gen : Nat
  entry : Nat
  current : Bool := true
  loading : Option Nat := none
  /-- The copy has ended. -/
  copied : Bool := false
  deriving DecidableEq, Repr

-- ## Shed change (chapter 11)

/-- A shed change under way on a member (R353 to R358): who asked, the plan, the status of its validation, whether `go` has come. -/
structure Shed where
  issuer : Issuer
  plan : List Byte
  version : Nat := 0
  status : Nat := 0
  go : Bool := false
  /-- The plan comes from the recovery directory after a loss (R348). -/
  recovery : Bool := false
  /-- Pool entries by tensor index, and the landing area. -/
  allocs : List (Nat × Nat) := []
  landing : Option Nat := none
  /-- Move entries issued and completed, acknowledgements missing by entry, bytes that came by peer, SHED_CLEAR indices received. -/
  issued : List Nat := []
  done : List Nat := []
  acks : List (Nat × Nat) := []
  arrived : List (Nat × Nat) := []
  cleared : List Nat := []
  /-- Status of the first failure here, or of a loss: nothing more is issued. -/
  failing : Option Nat := none
  /-- Status of a failure on another member: the entries that can still run are finished (R357). -/
  peerFailing : Option Nat := none
  /-- Phase 1 has been reported. -/
  reported : Bool := false
  deriving DecidableEq, Repr

/-- One partition (R217, R220): state and enables held (R477), what a save or resume under way answers, the job, the counters of
its status page by index from byte 32 and the stall counters by cause (R199), page GENs, resident slots, pool. -/
structure Part where
  st : PartState := .unconfigured
  cfgRefused : Bool := false
  fail : Nat := 0
  /-- Flip regions on which the last enable failed (ENABLE_FAILED, R398). -/
  flipFailed : List Nat := []
  ops : List PartOp := []
  /-- The PREEMPT entries the save in progress completes, and the RESUME entries the restore completes. -/
  saving : List Nat := []
  restoring : List Nat := []
  /-- The job state a save keeps (R225), and its code of R200 (R542). -/
  savedJob : JobState := .none
  savedCode : Nat := 0
  /-- Of the save, by logical loom, what R223 does not list for the control state; and the clusters saved in bank 0. -/
  savedLooms : List (Nat × Loom) := []
  savedN : Nat := 0
  /-- The same of displaced bubble-fill work in bank 1 (R227). -/
  savedBubble : List (Nat × Loom) := []
  job : Job := {}
  counters : List (Nat × Nat) := []
  stall : List (Nat × Nat) := []
  genPage : Nat := 0
  genJob : Nat := 0
  slots : List (Nat × Slot) := []
  pool : Pool := {}
  /-- STRICT_FREEZE in force (R398: a write takes effect at the job's next step boundary). -/
  strictFreeze : Bool := false
  streams : List Stream := []
  /-- Step-size snapshot of the pick by group, values other than 0 (R384). -/
  lr : List (Nat × Nat) := []
  loops : List (Nat × Loop) := []
  adapters : List Adapter := []
  shed : Option Shed := none
  /-- Slot aliases of KIND 3 bind entries, and the image-table address of KIND 1 (R351). -/
  slotAlias : List (Nat × Nat) := []
  imageTable : Option Nat := none
  /-- Member list of the job as a plan left it (R354): modules. -/
  members : List Nat := []
  deriving DecidableEq, Repr

/-- One data flit of a replay buffer (R272): its sequence number and body, and the packet that ends in it, as it came to this module, with
the link it came by plus one, or 0. -/
structure Sent where
  seq : Nat
  body : List Byte
  pkt : Option (Nat × Packet)
  /-- Times it has been sent again (R273). -/
  tries : Nat := 0
  deriving DecidableEq, Repr

/-- What a shuttle has in its queue of one request, or of requests it has merged (R256): who issued them, their partition, whether it is a COPY
that may merge, its source, destination and length, and whether it has been merged. -/
structure ShPart where
  issuers : List Issuer
  part : Nat
  copy : Bool
  src : Nat
  dst : Nat
  len : Nat
  merged : Bool := false
  deriving DecidableEq, Repr

/-- One fabric link (R265 to R278, R298). -/
structure Link where
  /-- State code of R267. -/
  st : Nat := 0
  /-- Low-latency mode, LL_QUALIFIED, cause code (R299), negotiated version. -/
  ll : Bool := false
  llq : Bool := false
  cause : Nat := 0
  proto : Nat := 0
  /-- Partner recorded by IDENTIFY: module, PORT_LANE byte and DOMAIN; CAPS, PROTO_MIN and PROTO_MAX (R267, R268). -/
  partner : Option (Nat × Nat × Nat) := none
  peerLlq : Bool := false
  peerMin : Nat := 0
  peerMax : Nat := 0
  /-- Insertion loss in 0.1 dB. -/
  loss : Nat := 0
  resends : Nat := 0
  crcErrors : Nat := 0
  fecCorrected : Nat := 0
  fecUncorrected : Nat := 0
  retrains : Nat := 0
  /-- Windows in a row that counted as clean, at most 8 (R278). -/
  clean : Nat := 0
  /-- This end's request and the partner's request for a mode: 0 FEC, 1 low-latency (R278). -/
  want : Option Nat := none
  peerWant : Option Nat := none
  /-- The mode both ends agreed on, taken when the replay buffer is empty. -/
  switching : Option Nat := none
  /-- Flits sent since the last idle flit (R266). -/
  sinceIdle : Nat := 0
  /-- Transmitter: next SEQ, unacknowledged flits (R272, R273), credits used by channel (R282). -/
  txSeq : Nat := 0
  replay : List Sent := []
  used : List (Nat × Nat) := []
  /-- A packet that comes by another link in part has begun to leave by this one, which carries nothing else until then: that link (R274). -/
  busy : Option Nat := none
  /-- Receiver: SEQ expected, a NAK is out for it, bytes of a packet begun and not complete, whether that packet is to be discarded (R285), and the
  link by which it has begun to be forwarded (R274). -/
  rxSeq : Nat := 0
  naked : Bool := false
  rxBuf : List Byte := []
  rxDrop : Bool := false
  fwd : Option Nat := none
  /-- LINK_EN was set while the link drains (R267). -/
  heldEnable : Bool := false
  /-- Armed data flits with a bad CRC (R442). -/
  armed : Nat := 0
  /-- The partner's MODE_ACK has come while flits here are unacknowledged (R278). -/
  acked : Bool := false
  /-- An image activation has still to retrain the link (R269). -/
  retrainDue : Bool := false
  deriving DecidableEq, Repr

/-- One outstanding request of this module (R288): who issued it, whether a NACK RETRY makes it wait, and the read's line count. -/
structure Req where
  dst : Nat
  tag : Nat
  pkt : Packet
  issuer : Issuer
  waiting : Bool := false
  deriving DecidableEq, Repr

/-- One request applied for a source (R288): its TAG and the response sent. -/
structure Applied where
  src : Nat
  tag : Nat
  resp : Packet
  deriving DecidableEq, Repr

/-- The fabric endpoint and router (R284 to R298). -/
structure Fabric where
  /-- Packets that wait for a link with credits and replay room, oldest first, each with the link it came by plus one, or 0. -/
  queue : List (Nat × Packet) := []
  requests : List Req := []
  /-- Next TAG by destination module. -/
  tags : List (Nat × Nat) := []
  /-- Applied WR and ATOMIC packets, newest first, at most 4,096 by source. -/
  applied : List Applied := []
  /-- Requests of other modules for a host window that wait for the host's answers (R241): port, packet, and answers missing. -/
  hostWaits : List (Nat × Packet × Nat) := []
  /-- RED packets answered NACK RETRY, to be sent again (R292). -/
  redRetry : List Packet := []
  /-- Credits of channels 4 and 5 kept back while the staging is full (R293): link, channel, credits. -/
  owed : List (Nat × Nat × Nat) := []
  domainDrops : Nat := 0
  dupDrops : Nat := 0
  redRefused : Nat := 0
  redStale : Nat := 0
  nackSent : Nat := 0
  nackReceived : Nat := 0
  timeouts : Nat := 0
  badPackets : Nat := 0
  /-- GEN of the fabric page (R298). -/
  gen : Nat := 0
  deriving DecidableEq, Repr

-- ## The manager logic (chapter 11)

/-- A member's report of a step (R340, R343): pick, attempt, verdict, locator. Members are numbered as their entry of the member table has
them in bits [15:0] (R338): module, and partition in [15:12]. -/
structure StepRep where
  member : Nat
  pick : Nat
  attempt : Nat
  verdict : Nat
  locator : List Byte
  deriving DecidableEq, Repr

/-- A member's report of a shed change: plan, status, phase. -/
structure ShedRep where
  member : Nat
  plan : Nat
  status : Nat
  phase : Nat
  deriving DecidableEq, Repr

/-- One active job-table slot (R337, R345, R346). -/
structure MgrJob where
  /-- Members of the table and present, those that have joined, and those that asked to join the running job and wait for its boundary
  (R338, R341, R342). -/
  members : List Nat := []
  joined : List Nat := []
  waiting : List Nat := []
  /-- Image version plus 2^16 * numeric version of each member's JOIN. -/
  versions : List (Nat × Nat) := []
  /-- The last decision (R345): pick, attempt, verdict; the attempt that reports must carry now (R326). -/
  pick : Nat := 0
  attempt : Nat := 0
  verdict : Nat := 0
  current : Nat := 0
  /-- 0 forming, 1 running, 2 in a shed change, 3 halted. -/
  st : Nat := 0
  /-- MEMBER_GEN, and the generation the members have last been told (R346). -/
  gen : Nat := 1
  told : Nat := 1
  lostCount : Nat := 0
  lastLost : Nat := 0
  skipped : Nat := 0
  locators : List (Nat × List Byte) := []
  reports : List StepRep := []
  sheds : List ShedRep := []
  /-- `go` has been sent for the plan. -/
  going : Option Nat := none
  /-- Barrier reports: member, pick, node. -/
  barriers : List (Nat × Nat × Nat) := []
  /-- A recovery shed change has not committed yet (R348). -/
  recovering : Bool := false
  /-- Heartbeat periods missed by member (R347). -/
  missed : List (Nat × Nat) := []
  /-- Reports sent upward and not yet decided (R340), as their data lines by message. -/
  upward : List (Nat × List Byte) := []
  /-- GEN of the job page. -/
  page : Nat := 0
  deriving DecidableEq, Repr

/-- The manager logic (R333 to R349): active slots, TOOK_OVER, the manager a standby mirrors as it last heard from it, and the heartbeat periods
since then. -/
structure Manager where
  jobs : List (Nat × MgrJob) := []
  tookOver : Bool := false
  mirrors : Option Nat := none
  silent : Nat := 0
  /-- Managers replaced by their standby, as this member heard (R349): the new one by the old. -/
  replaced : List (Nat × Nat) := []
  deriving DecidableEq, Repr

end Sys2Proof.Machine
end

