-- ==== Sys2Proof/Machine/State.lean ====
section
/-!
DEFINITION. Machine/State.lean: the whole state of the module as plain data, the reasons a step can stop, and the state after
reset: VSTBY has just come within range, the boot machine stands in RESET (R486) and nothing else is powered (R458).
-/

namespace Sys2Proof.Machine

/-- Faults of the model. -/
inductive Fault where
  /-- Raised by no meaning of this model: every fault the manual describes is an event on State (14, R432) or a completion status
  (R196), which are next states. Safe. -/
  | unreachable
  deriving DecidableEq, Repr

/-- Refusals of the model. -/
inductive Refusal where
  /-- Raised by a command whose meaning is not written; no meaning answers with it. Safe. -/
  | notModelled (mnemonic : String)
  deriving DecidableEq, Repr

/-- The module. Every table is a sparse table in canonical form (Sparse.lean). -/
structure State where
  /-- Memory: byte of key SPACE * 2^48 + OFFSET (R63, R64), and the flash at space 0x10 (R480). -/
  mem : List Host.Cell := []
  /-- Set-up registers that hold a value other than their reset value, by BAR0 offset (R507, R510). -/
  regs : List (Nat × U32) := []
  /-- The 1,024 logical fuse bits as one number (R492). -/
  fuses : Nat := 0
  /-- Sampled POS_X, POS_Y, POS_Z and ROLE, 14 bits as in HIF_MODULE: POS in [11:0], ROLE in [13:12] (R68). -/
  straps : Nat := 0
  islands : List (Nat × Island) := []
  /-- Transfers waiting in each channel, oldest first; key 256 * sender + receiver (R50). -/
  channels : List (Nat × List Transfer) := []
  ports : List (Nat × Port) := []
  /-- ADOPTED and ADOPT_REFUSED of HIF_ADMIN (R512, R517). -/
  adopted : Bool := false
  adoptRefused : Bool := false
  /-- CFG_REFUSED of the four shared regions (bit i, R242). -/
  shrRefused : Nat := 0
  funcs : List (Nat × Func) := []
  rings : List (Nat × Ring) := []
  /-- Acceptances so far, and the accepted uncompleted entries in order of acceptance (R182). -/
  accepted : Nat := 0
  entries : List Entry := []
  /-- Draft ids given so far, and the drafts in flight, oldest first. -/
  draftIds : Nat := 0
  drafts : List Draft := []
  parts : List (Nat × Part) := []
  looms : List (Nat × Loom) := []
  /-- PCIe reads not yet answered: port and who asked (R241). -/
  hostReads : List (Nat × Issuer) := []
  memCtl : MemCtl := {}
  /-- Queue of each shuttle: selvage shuttles 0 to 15, then the two of each cluster (R252, R256); and requests that were merged and complete
  together. -/
  shuttles : List (Nat × List ShPart) := []
  mates : List (List Issuer) := []
  /-- The partition each engine of the selvage die served last, plus one: 0 the selvage shuttles, 1 the reduction engine, 2 the fabric (R213). -/
  served : List (Nat × Nat) := []
  links : List (Nat × Link) := []
  fabric : Fabric := {}
  manager : Manager := {}
  knot : Knot := {}
  /-- Classifier units, key 65536 * class + unit (R443). -/
  units : List (Nat × Unit) := []
  /-- Retired units in order, as keys of `units` (the retirement map and log of R452, R453). -/
  retired : List Nat := []
  guests : List Guest := []
  /-- Vacant logical looms, key 256 * partition + logical id (R447). -/
  vacant : List Nat := []
  /-- GEN of the retirement page (R452). -/
  genRetire : Nat := 0
  treadle : Treadle := {}
  boot : Boot := {}
  trust : Trust := {}
  /-- FAULT_N, THERM_N and PG_OUT are asserted (R437, R457, R470, R467). -/
  faultN : Bool := false
  thermN : Bool := false
  pgOut : Bool := false
  /-- What the command at work leaves to its own end, oldest first. -/
  deferred : List Deferred := []
  /-- What the module has sent out, newest last. -/
  out : List Out := []
  /-- Draws made from the free values of Config (the model's own field). -/
  draws : Nat := 0
  /-- The commands waiting, first in, first out. -/
  pending : List Instr := []
  deriving DecidableEq, Repr

/-- Fuses as delivered, profile 0000 of R539: MGR_CAP, PART_MAX 15, PORT_PART 0b11 for each partition, DOMAIN 1, and their MFG_CRC; the
seed and the key digests, which the profile does not state, are 0 (log 11). -/
def deliveredFuses : Nat := 2 ^ 901 + 15 * 2 ^ 902 + 0xFFFFFFFF * 2 ^ 906 + 2 ^ 938 + 0xF059BF36 * 2 ^ 992

/-- The module when VSTBY comes within range for the first time (R457, R486). -/
def State.reset : State := { fuses := deliveredFuses, islands := [(0x31, { on := true, risen := true })] }

end Sys2Proof.Machine
end

