-- ==== Sys2Proof/Machine/Regs.lean ====
section
/-!
DEFINITION. Machine/Regs.lean: the set-up register map (17, R507 to R515, with the blocks of the other chapters): every register by
name, its BAR0 offset, which of its bits are RW, its reset value, and the accessors of the RW fields.
-/

namespace Sys2Proof.Machine

/-- The set-up registers of the module. Index names follow the manual: q port, k ring pair, f function, p partition, i region, source
or entry, l link, w window; `j` numbers the LO and HI registers of the address pairs in the order of the manual. -/
inductive Reg where
  | id (i : Nat)
  | hifModule
  | hifAdmin
  | hifAdopt
  | hifPortStat (q : Nat)
  | hifPortErr (q : Nat)
  | hifAdoptDelay
  | rqCtl (q k : Nat)
  | rqVec (q k : Nat)
  | rqAddr (q k j : Nat)
  | fnBar4 (q f : Nat)
  | fnStat (q f : Nat)
  | partCtl (p : Nat)
  | partOwner (p : Nat)
  | partClusters (p : Nat)
  | partGroups (p : Nat)
  | partT2Ways (p : Nat)
  | partAddr (p j : Nat)
  | partItabCount (p : Nat)
  | poolBase (p : Nat)
  | poolSize (p : Nat)
  | poolPage (p j : Nat)
  | shrGroups (i : Nat)
  | shrCtl (i : Nat)
  | hdlPfs (p s j : Nat)
  | lmCfg
  | lmSwapWdog
  | accReadyWdog
  | mscPolicy (i : Nat)
  | scrub (tier2 : Bool)
  | scrubInterval (tier2 : Bool)
  | wflTorus
  | wflCtl
  | wflPage (j : Nat)
  | wflTemple
  | wflPortCfg (port : Nat)
  | wflLinkStat (l : Nat)
  | expBase (p w : Nat)
  | expLimit (p w : Nat)
  | expCtl (p w : Nat)
  | expSrc (p w : Nat)
  | updCfg (p : Nat)
  | updFreeze (p j : Nat)
  | updStep (p j : Nat)
  | flipAddr (p i j : Nat)
  | flipCtl (p i : Nat)
  | flipStat (p i : Nat)
  | mgrCfg
  | mgrHb
  | mgrStat
  | mgrDeclare
  | mgrList (i : Nat)
  | jtCtl (i : Nat)
  | jtVer (i : Nat)
  | jtAddr (i j : Nat)
  | jobCtl (p : Nat)
  | jobMgr (p : Nat)
  | jobRec (p j : Nat)
  | knotWord (hi : Bool)
  | knotFirst
  | knotMerged (hi : Bool)
  | knotMergeCount
  | knotIrq
  | knotLog (j : Nat)
  | knotLogCtl
  | knotLogHead
  | knotLogStat
  | knotRetire (j : Nat)
  | knotRetireClr
  | knotSrc (i : Nat)
  | knotTrap (p j : Nat)
  | knotPark (p j : Nat)
  | knotParkCtl (p : Nat)
  | tmpPfl (p : Nat)
  | tmpPool (p : Nat)
  | tmpPoolBounds (p : Nat)
  | tmpBolt (p : Nat)
  | tmpBoltTail (p : Nat)
  | tmpChunkCtl (p : Nat)
  | tmpChunkPin (p j : Nat)
  | tmpClassCtl
  | tmpClassT (c : Nat)
  | tmpCapCtl
  | tmpFreq (i : Nat)
  | trdReq
  | trdStat
  | trdLastWake
  | trdWakeCyc (j : Nat)
  | trdWakeEn
  | trdCap
  | trdPower
  | trdTherm
  | trdBrake
  | bootStat
  | bootSlot (s : Nat)
  | bootStageCtl
  | bootStageStat
  | bootAct
  | bootActStat
  | fusMap (i : Nat)
  | fusProg
  | fusProgStat
  | truStat
  deriving DecidableEq, Repr

/-- BAR0 offset of a register (R510 and the tables of its chapter). -/
def Reg.offset : Reg → Nat
  | .id i => 8 * i
  | .hifModule => 0x080100
  | .hifAdmin => 0x080000
  | .hifAdopt => 0x080008
  | .hifPortStat q => 0x080010 + 8 * q
  | .hifPortErr q => 0x080020 + 8 * q
  | .hifAdoptDelay => 0x080030
  | .rqCtl q k => 0x090000 + 0x4000 * q + 0x40 * k
  | .rqVec q k => 0x090008 + 0x4000 * q + 0x40 * k
  | .rqAddr q k j => 0x090010 + 0x4000 * q + 0x40 * k + 8 * j
  | .fnBar4 q f => 0x0A0000 + 0x1000 * q + 0x40 * f
  | .fnStat q f => 0x0A0008 + 0x1000 * q + 0x40 * f
  | .partCtl p => 0x100000 + 0x1000 * p
  | .partOwner p => 0x100008 + 0x1000 * p
  | .partClusters p => 0x100010 + 0x1000 * p
  | .partGroups p => 0x100018 + 0x1000 * p
  | .partT2Ways p => 0x100020 + 0x1000 * p
  | .partAddr p j => 0x100028 + 0x1000 * p + 8 * j
  | .partItabCount p => 0x100078 + 0x1000 * p
  | .poolBase p => 0x100200 + 0x1000 * p
  | .poolSize p => 0x100208 + 0x1000 * p
  | .poolPage p j => 0x100210 + 0x1000 * p + 8 * j
  | .shrGroups i => 0x120000 + 0x10 * i
  | .shrCtl i => 0x120008 + 0x10 * i
  | .hdlPfs p s j => 0x182000 + 0x100 * p + 0x10 * s + 8 * j
  | .lmCfg => 0x280000
  | .lmSwapWdog => 0x280008
  | .accReadyWdog => 0x300000
  | .mscPolicy i => if i = 2 then 0x480000 else 0x400000 + 8 * i
  | .scrub tier2 => if tier2 then 0x480008 else 0x400010
  | .scrubInterval tier2 => if tier2 then 0x480010 else 0x400018
  | .wflTorus => 0x500000
  | .wflCtl => 0x500008
  | .wflPage j => 0x500010 + 8 * j
  | .wflTemple => 0x500020
  | .wflPortCfg port => 0x500100 + 8 * port
  | .wflLinkStat l => 0x500400 + 8 * l
  | .expBase p w => 0x510000 + 0x200 * p + 0x20 * w
  | .expLimit p w => 0x510008 + 0x200 * p + 0x20 * w
  | .expCtl p w => 0x510010 + 0x200 * p + 0x20 * w
  | .expSrc p w => 0x510018 + 0x200 * p + 0x20 * w
  | .updCfg p => 0x600000 + 0x400 * p
  | .updFreeze p j => 0x600008 + 0x400 * p + 8 * j
  | .updStep p j => 0x600018 + 0x400 * p + 8 * j
  | .flipAddr p i j => 0x600040 + 0x400 * p + 0x40 * i + 8 * j
  | .flipCtl p i => 0x600060 + 0x400 * p + 0x40 * i
  | .flipStat p i => 0x600068 + 0x400 * p + 0x40 * i
  | .mgrCfg => 0x680000
  | .mgrHb => 0x680008
  | .mgrStat => 0x680010
  | .mgrDeclare => 0x680018
  | .mgrList i => 0x680100 + 8 * i
  | .jtCtl i => 0x684000 + 0x40 * i
  | .jtVer i => 0x684008 + 0x40 * i
  | .jtAddr i j => 0x684010 + 0x40 * i + 8 * j
  | .jobCtl p => 0x681000 + 0x40 * p
  | .jobMgr p => 0x681008 + 0x40 * p
  | .jobRec p j => 0x681010 + 0x40 * p + 8 * j
  | .knotWord hi => if hi then 0x700008 else 0x700000
  | .knotFirst => 0x700010
  | .knotMerged hi => if hi then 0x700020 else 0x700018
  | .knotMergeCount => 0x700028
  | .knotIrq => 0x700030
  | .knotLog j => 0x700038 + 8 * j
  | .knotLogCtl => 0x700048
  | .knotLogHead => 0x700050
  | .knotLogStat => 0x700058
  | .knotRetire j => 0x700060 + 8 * j
  | .knotRetireClr => 0x700070
  | .knotSrc i => 0x700100 + 8 * i
  | .knotTrap p j => 0x700400 + 0x10 * p + 8 * j
  | .knotPark p j => 0x700500 + 0x20 * p + 8 * j
  | .knotParkCtl p => 0x700510 + 0x20 * p
  | .tmpPfl p => 0x780000 + 0x40 * p
  | .tmpPool p => 0x780008 + 0x40 * p
  | .tmpPoolBounds p => 0x780010 + 0x40 * p
  | .tmpBolt p => 0x780018 + 0x40 * p
  | .tmpBoltTail p => 0x780020 + 0x40 * p
  | .tmpChunkCtl p => 0x780028 + 0x40 * p
  | .tmpChunkPin p j => 0x780030 + 0x40 * p + 8 * j
  | .tmpClassCtl => 0x781000
  | .tmpClassT c => 0x781008 + 8 * c
  | .tmpCapCtl => 0x781100
  | .tmpFreq i => 0x781200 + 8 * i
  | .trdReq => 0x800000
  | .trdStat => 0x800008
  | .trdLastWake => 0x800010
  | .trdWakeCyc j => 0x800018 + 8 * j
  | .trdWakeEn => 0x800028
  | .trdCap => 0x800030
  | .trdPower => 0x800038
  | .trdTherm => 0x800040
  | .trdBrake => 0x800048
  | .bootStat => 0x880000
  | .bootSlot s => 0x880008 + 8 * s
  | .bootStageCtl => 0x880020
  | .bootStageStat => 0x880028
  | .bootAct => 0x880030
  | .bootActStat => 0x880038
  | .fusMap i => 0x900000 + 8 * i
  | .fusProg => 0x900100
  | .fusProgStat => 0x900108
  | .truStat => 0x980000

/-- The registers of the HIF block at an offset of the block (R512 to R514). -/
def hifReg (o : Nat) : Option Reg :=
  if o = 0x100 then some .hifModule
  else if o = 0x000 then some .hifAdmin
  else if o = 0x008 then some .hifAdopt
  else if o = 0x010 ∨ o = 0x018 then some (.hifPortStat ((o - 0x10) / 8))
  else if o = 0x020 ∨ o = 0x028 then some (.hifPortErr ((o - 0x20) / 8))
  else if o = 0x030 then some .hifAdoptDelay
  else if 0x10000 ≤ o ∧ o < 0x18000 then
    let q := (o - 0x10000) / 0x4000
    let k := (o - 0x10000) % 0x4000 / 0x40
    let r := o % 0x40
    if r = 0 then some (.rqCtl q k)
    else if r = 8 then some (.rqVec q k)
    else some (.rqAddr q k ((r - 0x10) / 8))
  else if 0x20000 ≤ o ∧ o < 0x22000 then
    let q := (o - 0x20000) / 0x1000
    let f := (o - 0x20000) % 0x1000 / 0x40
    let r := o % 0x40
    if r = 0 then some (.fnBar4 q f) else if r = 8 then some (.fnStat q f) else none
  else none

/-- The registers of the PART block (R242, R244, R515). -/
def partReg (o : Nat) : Option Reg :=
  if o < 0x10000 then
    let p := o / 0x1000
    let r := o % 0x1000
    if r = 0x000 then some (.partCtl p)
    else if r = 0x008 then some (.partOwner p)
    else if r = 0x010 then some (.partClusters p)
    else if r = 0x018 then some (.partGroups p)
    else if r = 0x020 then some (.partT2Ways p)
    else if r < 0x078 then some (.partAddr p ((r - 0x28) / 8))
    else if r = 0x078 then some (.partItabCount p)
    else if r = 0x200 then some (.poolBase p)
    else if r = 0x208 then some (.poolSize p)
    else if r = 0x210 ∨ r = 0x218 then some (.poolPage p ((r - 0x210) / 8))
    else none
  else if 0x20000 ≤ o ∧ o < 0x20040 then
    if o % 0x10 = 0 then some (.shrGroups ((o - 0x20000) / 0x10)) else some (.shrCtl ((o - 0x20000) / 0x10))
  else none

/-- The registers of the WFL block (R299). -/
def wflReg (o : Nat) : Option Reg :=
  if o = 0x000 then some .wflTorus
  else if o = 0x008 then some .wflCtl
  else if o = 0x010 ∨ o = 0x018 then some (.wflPage ((o - 0x10) / 8))
  else if o = 0x020 then some .wflTemple
  else if 0x100 ≤ o ∧ o < 0x130 then some (.wflPortCfg ((o - 0x100) / 8))
  else if 0x400 ≤ o ∧ o < 0x700 then some (.wflLinkStat ((o - 0x400) / 8))
  else if 0x10000 ≤ o ∧ o < 0x12000 then
    let p := (o - 0x10000) / 0x200
    let w := (o - 0x10000) % 0x200 / 0x20
    let r := o % 0x20
    if r = 0 then some (.expBase p w) else if r = 8 then some (.expLimit p w)
    else if r = 0x10 then some (.expCtl p w) else some (.expSrc p w)
  else none

/-- The registers of the UPD block (R398). -/
def updReg (o : Nat) : Option Reg :=
  if o < 0x4000 then
    let p := o / 0x400
    let r := o % 0x400
    if r = 0 then some (.updCfg p)
    else if r = 0x08 ∨ r = 0x10 then some (.updFreeze p ((r - 8) / 8))
    else if r = 0x18 ∨ r = 0x20 then some (.updStep p ((r - 0x18) / 8))
    else if 0x40 ≤ r ∧ r < 0x240 then
      let i := (r - 0x40) / 0x40
      let n := r % 0x40
      if n < 0x20 then some (.flipAddr p i (n / 8))
      else if n = 0x20 then some (.flipCtl p i)
      else if n = 0x28 then some (.flipStat p i)
      else none
    else none
  else none

/-- The registers of the MGR block (R336 to R339). -/
def mgrReg (o : Nat) : Option Reg :=
  if o = 0x000 then some .mgrCfg
  else if o = 0x008 then some .mgrHb
  else if o = 0x010 then some .mgrStat
  else if o = 0x018 then some .mgrDeclare
  else if 0x100 ≤ o ∧ o < 0x140 then some (.mgrList ((o - 0x100) / 8))
  else if 0x1000 ≤ o ∧ o < 0x1400 then
    let p := (o - 0x1000) / 0x40
    let r := o % 0x40
    if r = 0 then some (.jobCtl p) else if r = 8 then some (.jobMgr p)
    else if r < 0x20 then some (.jobRec p ((r - 0x10) / 8)) else none
  else if 0x4000 ≤ o ∧ o < 0x5000 then
    let i := (o - 0x4000) / 0x40
    let r := o % 0x40
    if r = 0 then some (.jtCtl i) else if r = 8 then some (.jtVer i)
    else if r < 0x30 then some (.jtAddr i ((r - 0x10) / 8)) else none
  else none

/-- The registers of the KNOT block (R434). -/
def knotReg (o : Nat) : Option Reg :=
  if o = 0x000 then some (.knotWord false)
  else if o = 0x008 then some (.knotWord true)
  else if o = 0x010 then some .knotFirst
  else if o = 0x018 then some (.knotMerged false)
  else if o = 0x020 then some (.knotMerged true)
  else if o = 0x028 then some .knotMergeCount
  else if o = 0x030 then some .knotIrq
  else if o = 0x038 ∨ o = 0x040 then some (.knotLog ((o - 0x38) / 8))
  else if o = 0x048 then some .knotLogCtl
  else if o = 0x050 then some .knotLogHead
  else if o = 0x058 then some .knotLogStat
  else if o = 0x060 ∨ o = 0x068 then some (.knotRetire ((o - 0x60) / 8))
  else if o = 0x070 then some .knotRetireClr
  else if 0x100 ≤ o ∧ o < 0x2F0 then some (.knotSrc ((o - 0x100) / 8))
  else if 0x400 ≤ o ∧ o < 0x500 then some (.knotTrap ((o - 0x400) / 0x10) (o % 0x10 / 8))
  else if 0x500 ≤ o ∧ o < 0x700 then
    let p := (o - 0x500) / 0x20
    let r := o % 0x20
    if r < 0x10 then some (.knotPark p (r / 8)) else if r = 0x10 then some (.knotParkCtl p) else none
  else none

/-- The registers of the TMP block (R263, R330, R414, R445, R479). -/
def tmpReg (o : Nat) : Option Reg :=
  if o < 0x400 then
    let p := o / 0x40
    let r := o % 0x40
    if r = 0x00 then some (.tmpPfl p)
    else if r = 0x08 then some (.tmpPool p)
    else if r = 0x10 then some (.tmpPoolBounds p)
    else if r = 0x18 then some (.tmpBolt p)
    else if r = 0x20 then some (.tmpBoltTail p)
    else if r = 0x28 then some (.tmpChunkCtl p)
    else some (.tmpChunkPin p ((r - 0x30) / 8))
  else if o = 0x1000 then some .tmpClassCtl
  else if 0x1008 ≤ o ∧ o < 0x1030 then some (.tmpClassT ((o - 0x1008) / 8))
  else if o = 0x1100 then some .tmpCapCtl
  else if 0x1200 ≤ o ∧ o < 0x1300 then some (.tmpFreq ((o - 0x1200) / 8))
  else none

/-- The registers of the TRD block (R478). -/
def trdReg (o : Nat) : Option Reg :=
  if o = 0x00 then some .trdReq
  else if o = 0x08 then some .trdStat
  else if o = 0x10 then some .trdLastWake
  else if o = 0x18 ∨ o = 0x20 then some (.trdWakeCyc ((o - 0x18) / 8))
  else if o = 0x28 then some .trdWakeEn
  else if o = 0x30 then some .trdCap
  else if o = 0x38 then some .trdPower
  else if o = 0x40 then some .trdTherm
  else if o = 0x48 then some .trdBrake
  else none

/-- The registers of the BOOT block (R499). -/
def bootReg (o : Nat) : Option Reg :=
  if o = 0x00 then some .bootStat
  else if o = 0x08 ∨ o = 0x10 then some (.bootSlot ((o - 8) / 8))
  else if o = 0x20 then some .bootStageCtl
  else if o = 0x28 then some .bootStageStat
  else if o = 0x30 then some .bootAct
  else if o = 0x38 then some .bootActStat
  else none

/-- The register at a BAR0 offset; none where the offset is reserved (R507, R510, R511). -/
def regAt (off : Nat) : Option Reg :=
  let b := off / 0x80000
  let o := off % 0x80000
  if off % 8 ≠ 0 then none
  else match b with
  | 0 => if o < 0x30 then some (.id (o / 8)) else none
  | 1 => hifReg o
  | 2 => partReg o
  | 3 => if 0x2000 ≤ o ∧ o < 0x3000 ∧ o % 0x100 < 0x80 then
      some (.hdlPfs ((o - 0x2000) / 0x100) (o % 0x100 / 0x10) (o % 0x10 / 8)) else none
  | 5 => if o = 0 then some .lmCfg else if o = 8 then some .lmSwapWdog else none
  | 6 => if o = 0 then some .accReadyWdog else none
  | 8 => if o ≤ 8 then some (.mscPolicy (o / 8)) else if o = 0x10 then some (.scrub false)
      else if o = 0x18 then some (.scrubInterval false) else none
  | 9 => if o = 0 then some (.mscPolicy 2) else if o = 8 then some (.scrub true)
      else if o = 0x10 then some (.scrubInterval true) else none
  | 10 => wflReg o
  | 12 => updReg o
  | 13 => mgrReg o
  | 14 => knotReg o
  | 15 => tmpReg o
  | 16 => trdReg o
  | 17 => bootReg o
  | 18 => if o < 0x100 then some (.fusMap (o / 8)) else if o = 0x100 then some .fusProg
      else if o = 0x108 then some .fusProgStat else none
  | 19 => if o = 0 then some .truStat else none
  | _ => none

/-- Default REACT of a knot source (R432). -/
def defaultReact (i : Nat) : Nat :=
  if 44 ≤ i ∧ i ≤ 49 then 0 else if i = 52 ∨ i = 60 then 2 else 1

/-- Default threshold of a unit class (R443). -/
def defaultT (c : Nat) : Nat := [32, 64, 64, 48, 64].getD c 0

/-- The reset value of the RW fields of a register. -/
def Reg.reset : Reg → Nat
  | .hifModule => 2 ^ 26
  | .hifAdoptDelay => 0x1A
  | .rqCtl _ _ => 6
  | .fnBar4 _ _ => 0xF
  | .lmCfg => 3
  | .lmSwapWdog => 0x01000000
  | .accReadyWdog => 0x01000000
  | .scrub _ => 1
  | .scrubInterval tier2 => if tier2 then 0x00020000 else 0x00100000
  | .wflCtl => 0x18 * 2 ^ 16 + 0x10 * 2 ^ 21
  | .wflTemple => 0x0010
  | .mgrHb => 0x14 + 4 * 2 ^ 8
  | .knotLogCtl => 6
  | .knotSrc i => defaultReact i
  | .tmpPfl _ => 0x100
  | .tmpPool _ => 0x0010 * 2 ^ 16
  | .tmpPoolBounds _ => 0x001 + 0x400 * 2 ^ 12 + 0x10 * 2 ^ 24
  | .tmpBolt _ => 3 * 2 + 8 * 2 ^ 8
  | .tmpBoltTail _ => 0x0100 + 0x0020 * 2 ^ 16
  | .tmpChunkPin _ _ => 0x0010 + 0x0010 * 2 ^ 16
  | .tmpClassCtl => 4 * 2 ^ 4
  | .tmpClassT c => defaultT c
  | .tmpCapCtl => 0x11 * 2 ^ 8 + 0x0C * 2 ^ 16
  | .tmpFreq _ => 0x1A + 8 * 2 ^ 5 + 0x1A * 2 ^ 10
  | .trdWakeEn => 0xFF
  | .trdCap => 0x898
  | .trdTherm => 0x5F + 0x64 * 2 ^ 8
  | .trdBrake => 4
  | .bootAct => 0x1B * 2
  | _ => 0

/-- All 32 bits. -/
def allBits : Nat := 0xFFFFFFFF

/-- The bits of a register a permitted write sets plainly (RW of R15). EN of a ring pair or partition and the owner fields are
RW too, but change through operations of their own (R513, R516, R518); so do LINK_EN, ADOPT and the W1C bits. -/
def Reg.rw : Reg → Nat
  | .hifModule => 2 ^ 26 + 2 ^ 27
  | .hifAdoptDelay => 0x1F
  | .rqCtl _ _ => 0x3F001F
  | .rqVec _ _ => 0x7FF
  | .rqAddr _ _ _ => allBits
  | .fnBar4 _ _ => 0xFFFFFF0F
  | .partOwner _ => 0xFFFF
  | .partClusters _ => allBits
  | .partGroups _ => allBits
  | .partT2Ways _ => allBits
  | .partAddr _ _ => allBits
  | .partItabCount _ => 0x1FFF
  | .poolBase _ => 0x3FFFF
  | .poolSize _ => 0x3FFFF
  | .poolPage _ _ => allBits
  | .shrGroups _ => allBits
  | .shrCtl _ => 0x11FFFFF
  | .hdlPfs _ _ _ => allBits
  | .lmCfg => 3
  | .lmSwapWdog => allBits
  | .accReadyWdog => allBits
  | .mscPolicy _ => allBits
  | .scrub _ => 1
  | .scrubInterval _ => allBits
  | .wflTorus => 0xFFF
  | .wflCtl => 0x3FF0000
  | .wflPage _ => allBits
  | .wflTemple => allBits
  | .wflPortCfg _ => 0x3FFFF
  | .expBase _ _ => allBits
  | .expLimit _ _ => allBits
  | .expCtl _ _ => 0xFF
  | .expSrc _ _ => 0xFFFFFF
  | .updCfg _ => 1
  | .updFreeze _ _ => allBits
  | .updStep _ _ => allBits
  | .flipAddr _ _ _ => allBits
  | .flipCtl _ _ => 0x1FFFFFF
  | .mgrCfg => 0x3FFFFFF
  | .mgrHb => 0xF1F
  | .mgrList _ => 0x1FFF
  | .jtCtl _ => 0x3FFFF
  | .jtVer _ => allBits
  | .jtAddr _ _ => allBits
  | .jobCtl _ => 0x7FFFF
  | .jobMgr _ => 0x1FFFFFF
  | .jobRec _ _ => allBits
  | .knotIrq => 0x7FF
  | .knotLog _ => allBits
  | .knotLogCtl => 0x1F
  | .knotRetire _ => allBits
  | .knotSrc _ => 0xF
  | .knotTrap _ _ => allBits
  | .knotPark _ _ => allBits
  | .knotParkCtl _ => 0xF
  | .tmpPfl _ => 0x7F01
  | .tmpPool _ => 0xFFFF0001
  | .tmpPoolBounds _ => allBits
  | .tmpBolt _ => 0xFF0F
  | .tmpBoltTail _ => allBits
  | .tmpChunkCtl _ => 0xF
  | .tmpChunkPin _ _ => allBits
  | .tmpClassCtl => 0xF1
  | .tmpClassT _ => 0xFFFF
  | .tmpCapCtl => 0xFF1F01
  | .tmpFreq _ => 0x7FFF
  | .trdWakeEn => 0xFF
  | .trdCap => 0xFFF
  | .trdTherm => 0xFFFF
  | .trdBrake => 7
  | .bootAct => 0x3E
  | _ => 0

/-- The RW fields a register holds: the listed value, or its reset value. -/
def State.reg (s : State) (r : Reg) : Nat :=
  match s.regs.find? (fun e => e.1 == r.offset) with
  | some e => e.2.toNat
  | none => r.reset

/-- One field of the RW value of a register. -/
def State.fld (s : State) (r : Reg) (lo n : Nat) : Nat := field (s.reg r) lo n

/-- One bit of the RW value of a register. -/
def State.bit (s : State) (r : Reg) (i : Nat) : Bool := bitAt (s.reg r) i

/-- The state with the RW value of a register set; a value equal to the reset value is not listed. -/
def State.setReg (s : State) (r : Reg) (v : Nat) : State :=
  let v := v % 2 ^ 32
  { s with regs := if v = r.reset then terase s.regs r.offset
                   else tinsert r.offset (BitVec.ofNat 32 v) (terase s.regs r.offset) }

/-- The 64-bit address a LO and HI pair holds, the LO register first. -/
def State.addr (s : State) (lo hi : Reg) : Nat := s.reg lo + 2 ^ 32 * s.reg hi

end Sys2Proof.Machine
end

