-- ==== Sys2Proof/Machine/Ops.lean ====
section
/-!
DEFINITION. Machine/Ops.lean: the named operations over State: components by number, memory by byte and by range, global addresses
(R63 to R67), the HBM, tier-2 and loom maps (R73, R229, R230), the checks an access passes (R65 to R67, R219, R243, R368 to R370).
-/

namespace Sys2Proof.Machine

-- ## Components

def State.island (s : State) (i : Nat) : Island := tget {} s.islands i
def State.setIsland (s : State) (i : Nat) (x : Island) : State := { s with islands := tset {} s.islands i x }
def State.port (s : State) (q : Nat) : Port := tget {} s.ports q
def State.setPort (s : State) (q : Nat) (x : Port) : State := { s with ports := tset {} s.ports q x }
/-- Functions are numbered 64 * port + function. -/
def State.func (s : State) (q f : Nat) : Func := tget {} s.funcs (64 * q + f)
def State.setFunc (s : State) (q f : Nat) (x : Func) : State := { s with funcs := tset {} s.funcs (64 * q + f) x }
/-- Ring pairs are numbered 256 * port + ring pair. -/
def State.ring (s : State) (q k : Nat) : Ring := tget {} s.rings (256 * q + k)
def State.setRing (s : State) (q k : Nat) (x : Ring) : State := { s with rings := tset {} s.rings (256 * q + k) x }
def State.part (s : State) (p : Nat) : Part := tget {} s.parts p
def State.setPart (s : State) (p : Nat) (x : Part) : State := { s with parts := tset {} s.parts p x }
def State.loom (s : State) (l : Nat) : Loom := tget {} s.looms l
def State.setLoom (s : State) (l : Nat) (x : Loom) : State := { s with looms := tset {} s.looms l x }
def State.unit (s : State) (cls u : Nat) : Unit := tget {} s.units (65536 * cls + u)
def State.setUnit (s : State) (cls u : Nat) (x : Unit) : State := { s with units := tset {} s.units (65536 * cls + u) x }

/-- Whether a unit is retired (R446). -/
def State.isRetired (s : State) (cls u : Nat) : Bool := s.retired.contains (65536 * cls + u)

/-- Something leaves the module. -/
def State.emit (s : State) (o : Out) : State := { s with out := s.out ++ [o] }

/-- The next free value of kind Config.freeNat, and the state after the draw. -/
def State.draw (s : State) : Nat × State := (Config.freeNat s.draws, { s with draws := s.draws + 1 })

-- ## Memory

/-- The key of an offset of a space. -/
def spaceKey (sp off : Nat) : Nat := sp * 2 ^ 48 + off

/-- The space number the model gives the flash (R480), which no address reaches. -/
def flashSpace : Nat := 0x10

/-- One byte. -/
def State.rd (s : State) (k : Nat) : Byte := tget 0 s.mem k

/-- One byte written; a zero byte is not listed. -/
def State.wr (s : State) (k : Nat) (b : Byte) : State := { s with mem := tset 0 s.mem k b }

/-- `n` bytes from key `k`. -/
def State.rdBytes (s : State) (k n : Nat) : List Byte := (List.range n).map (fun i => s.rd (k + i))

/-- A little-endian number of `n` bytes. -/
def State.rdN (s : State) (k n : Nat) : Nat := ofLe (s.rdBytes k n)

/-- Memory with a byte string written from key `k`. -/
def memPut : List Host.Cell → Nat → List Byte → List Host.Cell
  | m, _, [] => m
  | m, k, b :: bs => memPut (tset 0 m k b) (k + 1) bs

/-- A byte string written from key `k`. -/
def State.wrBytes (s : State) (k : Nat) (bs : List Byte) : State := { s with mem := memPut s.mem k bs }

/-- A number of `n` little-endian bytes written. -/
def State.wrN (s : State) (k n v : Nat) : State := s.wrBytes k (leBytes n v)

/-- `n` bytes from key `k` cleared. -/
def State.zero (s : State) (k n : Nat) : State := { s with mem := tclear s.mem k (k + n) }

/-- Listed bytes of [src, src + n) placed at dst. -/
def memCopy (m : List Host.Cell) (src dst n : Nat) : List Host.Cell :=
  (tslice m src (src + n)).foldl (fun a c => tset 0 a (c.1 - src + dst) c.2) (tclear m dst (dst + n))

/-- `n` bytes copied from key `src` to key `dst`, the whole source read first. -/
def State.copyMem (s : State) (src dst n : Nat) : State := { s with mem := memCopy s.mem src dst n }

/-- Two ranges of `n` bytes exchanged (R448). -/
def State.swapMem (s : State) (a b n : Nat) : State :=
  let ca := tslice s.mem a (a + n)
  let s1 := s.copyMem b a n
  { s1 with mem := ca.foldl (fun m c => tset 0 m (c.1 - a + b) c.2) (tclear s1.mem b (b + n)) }

-- ## Global addresses

def gModule (a : Nat) : Nat := a / 2 ^ 52 % 2 ^ 12
def gSpace (a : Nat) : Nat := a / 2 ^ 48 % 16
def gOffset (a : Nat) : Nat := a % 2 ^ 48

/-- This module's number (R69). -/
def State.moduleNum (s : State) : Nat := s.straps % 4096

/-- SELF_ALIAS_EN (R69). -/
def State.selfAlias (s : State) : Bool := s.bit .hifModule 26

/-- Whether an address names this module (R65). -/
def State.isLocal (s : State) (a : Nat) : Bool :=
  gModule a == s.moduleNum || (gModule a == 0xFFF && s.selfAlias)

/-- Valid offsets of a space (R64). -/
def offsetValid (sp off : Nat) : Bool :=
  match sp with
  | 0 => off < Config.hbmBytes
  | 1 => off < Config.tier2Bytes
  | 2 => off < 2 ^ 30
  | 4 => off < 2 ^ 48
  | 5 => off < 2 ^ 48
  | 8 => off < 2 ^ 24
  | _ => false

-- ## Maps

/-- HBM group of an offset (R229). -/
def hbmGroup (o : Nat) : Nat := o / 0x300000000
/-- HBM pseudo-channel of an offset (R229). -/
def hbmPc (o : Nat) : Nat := 8 * hbmGroup o + o % 0x300000000 / 256 % 8
/-- Tier-2 group, which is the package, of an offset (R230). -/
def t2Group (o : Nat) : Nat := o / 0xF00000000
/-- Tier-2 channel of an offset (R230). -/
def t2Channel (o : Nat) : Nat := 4 * t2Group o + o % 0xF00000000 / 256 % 4

/-- Group size in bytes and units per group of space 0 or 1. -/
def groupBytes (sp : Nat) : Nat := if sp = 0 then 0x300000000 else 0xF00000000
def groupUnits (sp : Nat) : Nat := if sp = 0 then 8 else 4
/-- Group, unit and classifier class of an offset of space 0 or 1. -/
def groupOf (sp o : Nat) : Nat := if sp = 0 then hbmGroup o else t2Group o
def unitOf (sp o : Nat) : Nat := if sp = 0 then hbmPc o else t2Channel o
def unitClass (sp : Nat) : Nat := if sp = 0 then 1 else 2

/-- Units of a group that are retired. -/
def State.retiredIn (s : State) (sp g : Nat) : Nat :=
  ((List.range (groupUnits sp)).filter (fun j => s.isRetired (unitClass sp) (groupUnits sp * g + j))).length

/-- Whether a retirement refuses the offset: it lies in the top j/n of its group (R235). -/
def State.offsetRetired (s : State) (sp o : Nat) : Bool :=
  let n := groupUnits sp
  let j := s.retiredIn sp (groupOf sp o)
  decide (groupBytes sp * (n - j) ≤ o % groupBytes sp * n)

/-- The key that holds a byte of HBM or tier 2: a line of a relocated unit lies elsewhere (R235), at the model's space 0x20 + SPACE. -/
def State.dataKey (s : State) (sp o : Nat) : Nat :=
  if s.memCtl.relocated.contains (65536 * unitClass sp + unitOf sp o) then spaceKey (0x20 + sp) o else spaceKey sp o

/-- `n` bytes of HBM or tier 2 at an offset at zero. -/
def State.zeroData (s : State) (sp o n : Nat) : State := (s.zero (spaceKey sp o) n).zero (spaceKey (0x20 + sp) o) n

/-- Listed bytes of a range of HBM or tier 2, by distance from its start. -/
def State.dataCells (s : State) (sp o n : Nat) : List Host.Cell :=
  (tslice s.mem (spaceKey sp o) (spaceKey sp (o + n))).map (fun c => (c.1 - spaceKey sp o, c.2)) ++
  (tslice s.mem (spaceKey (0x20 + sp) o) (spaceKey (0x20 + sp) (o + n))).map (fun c => (c.1 - spaceKey (0x20 + sp) o, c.2))

/-- Bytes at given distances from an offset of HBM or tier 2, each where its unit lies. -/
def State.putCells (s : State) (sp o : Nat) (cs : List Host.Cell) : State :=
  cs.foldl (fun s c => s.wr (s.dataKey sp (o + c.1)) c.2) s

/-- `n` bytes of HBM or tier 2 copied to another offset of the space, the whole source read first. -/
def State.copyData (s : State) (sp src dst n : Nat) : State := (s.zeroData sp dst n).putCells sp dst (s.dataCells sp src n)

/-- `n` bytes of a loom copied to HBM, and back. -/
def State.loomToHbm (s : State) (key o n : Nat) : State :=
  (s.zeroData 0 o n).putCells 0 o ((tslice s.mem key (key + n)).map (fun c => (c.1 - key, c.2)))
def State.hbmToLoom (s : State) (o key n : Nat) : State :=
  (s.dataCells 0 o n).foldl (fun s c => s.wr (key + c.1) c.2) (s.zero key n)

/-- Loom local regions: FILL and FEED are roles of the physical halves (R73, R97). -/
def fillBase : Nat := 0x280000
def feedBase : Nat := 0x2E0000
def scratchBase : Nat := 0x340000
def accBase : Nat := 0x380000
def loomBytes : Nat := 0x400000

/-- The physical local address of a local address under the loom's half roles: H0 lies at 0x28_0000 and H1 at 0x2E_0000 (R223), so the
roles' addresses are those of the halves while H1 is FEED. -/
def localPhys (lm : Loom) (a : Nat) : Nat :=
  if lm.feedH1 then a
  else if fillBase ≤ a ∧ a < feedBase then a + 0x60000
  else if feedBase ≤ a ∧ a < scratchBase then a - 0x60000
  else a

/-- First byte of partition `p`'s parking slot (R451). -/
def State.parkKey (s : State) (p slot : Nat) : Nat :=
  spaceKey 0 (gOffset (s.addr (.knotPark p 0) (.knotPark p 1)) + slot * 0x410000)

/-- Where the 4 MiB of a loom's state lie: its own SRAM, or, for a guest or a host loom that has been exchanged, the parking slot or
the host's SRAM (R447, R448). -/
def State.loomKey (s : State) (l : Nat) : Nat :=
  match s.guests.find? (fun g => g.retired == l) with
  | some g => if g.resident then spaceKey 2 (g.host * loomBytes) else s.parkKey g.part g.slot
  | none =>
    match s.guests.find? (fun g => g.host == l && g.resident) with
    | some g => s.parkKey g.part g.slot
    | none => spaceKey 2 (l * loomBytes)

/-- Key of a loom's local address, by role. -/
def State.localKey (s : State) (l a : Nat) : Nat := s.loomKey l + localPhys (s.loom l) a

-- ## Partitions

/-- Clusters, HBM groups, tier-2 groups and ways of a partition (R515). -/
def State.clusters (s : State) (p : Nat) : List Nat := bitList 32 (s.reg (.partClusters p))
def State.groups (s : State) (p : Nat) : Nat := s.reg (.partGroups p)
def State.t2Groups (s : State) (p : Nat) : Nat := s.fld (.partT2Ways p) 0 16
def State.ways (s : State) (p : Nat) : Nat := s.fld (.partT2Ways p) 16 16

/-- Port and function that own a partition; none where VALID is 0 (R515). -/
def State.owner (s : State) (p : Nat) : Option (Nat × Nat) :=
  if s.bit (.partOwner p) 7 then some (s.fld (.partOwner p) 6 1, s.fld (.partOwner p) 0 6) else none

/-- The partition that holds a global cluster. -/
def State.clusterPart (s : State) (c : Nat) : Option Nat :=
  firstIdx 16 (fun p => bitAt (s.reg (.partClusters p)) c)

/-- Physical loom of a logical loom (R44, R218). -/
def State.physLoom (s : State) (p lg : Nat) : Nat := 8 * (s.clusters p).getD (lg / 8) 0 + lg % 8

/-- Logical loom of a physical one in its partition (R218). -/
def State.logicalLoom (s : State) (p l : Nat) : Nat := 8 * ((s.clusters p).idxOf (l / 8)) + l % 8

/-- Cluster of a physical loom. -/
def loomCluster (l : Nat) : Nat := l / 8

/-- States in which a partition holds a shared region open against unsealing (R243). -/
def PartState.live : PartState → Bool
  | .enabling => true
  | .active => true
  | .preempting => true
  | .preempted => true
  | .resuming => true
  | _ => false

/-- UNCONFIGURED or CONFIGURED. -/
def PartState.idle : PartState → Bool
  | .unconfigured => true
  | .configured => true
  | _ => false

/-- The shared region that holds an HBM group (R242). -/
def State.sharedRegion (s : State) (g : Nat) : Option Nat := firstIdx 4 (fun i => bitAt (s.reg (.shrGroups i)) g)

/-- Who makes an access: the partition it is checked against, whether its source is the administrative host (submissions and BAR4,
R243), whether it reads and writes a flip region as a held access (R370), whether another module makes it, and who a write of a set-up register
is from (R64). -/
structure Ctx where
  part : Option Nat
  admin : Bool := false
  held : Bool := false
  remote : Bool := false
  src : Src := .manager

/-- The check of an HBM group against the accessor (R219, R243). -/
def State.groupAllowed (s : State) (c : Ctx) (sp g : Nat) (write : Bool) : Bool :=
  match (if sp = 0 then s.sharedRegion g else none) with
  | some i =>
    let ctl := s.reg (.shrCtl i)
    if bitAt ctl 24 then
      !write && (c.admin || (match c.part with | some p => bitAt ctl p | none => false))
    else
      !c.remote && (c.admin || (match c.part with | some p => bitAt ctl 20 && field ctl 16 4 == p | none => false))
  | none =>
    match c.part with
    | some p => bitAt (if sp = 0 then s.groups p else s.t2Groups p) g
    | none => c.admin

-- ## Flip regions (R368 to R370)

/-- An enabled flip region: index, space, BASE, SHADOW and UNITS. -/
structure Flip where
  part : Nat
  i : Nat
  space : Nat
  base : Nat
  shadow : Nat
  units : Nat

def State.flip (s : State) (p i : Nat) : Option Flip :=
  if s.bit (.flipCtl p i) 24 then
    let b := s.addr (.flipAddr p i 0) (.flipAddr p i 1)
    let h := s.addr (.flipAddr p i 2) (.flipAddr p i 3)
    some { part := p, i := i, space := gSpace b, base := gOffset b, shadow := gOffset h, units := s.fld (.flipCtl p i) 0 24 }
  else none

/-- Bytes of a region's flip table, rounded up (R368). -/
def flipTableBytes (f : Flip) : Nat := ceilDiv f.units 65536 * 65536

/-- The flip regions that stand: those of every partition outside UNCONFIGURED and CONFIGURED (they are checked and cleared at the
enable, R369). -/
def State.flips (s : State) : List Flip :=
  (List.range 16).flatMap (fun p =>
    if (s.part p).st.idle then [] else (List.range 8).filterMap (fun i => s.flip p i))

/-- Key of the flip-table byte of a unit. -/
def State.flipByteKey (s : State) (f : Flip) (u : Nat) : Nat := s.dataKey f.space (f.shadow + 65536 * f.units + u)

/-- The region an offset lies in, and whether it lies in a shadow range, which no access may name (R368). -/
def State.flipAt (s : State) (sp o : Nat) : Option Flip :=
  s.flips.find? (fun f => f.space == sp && decide (f.base ≤ o ∧ o < f.base + 65536 * f.units))
def State.inShadow (s : State) (sp o : Nat) : Bool :=
  s.flips.any (fun f => f.space == sp && decide (f.shadow ≤ o ∧ o < f.shadow + 65536 * f.units + flipTableBytes f))

/-- The bank an access uses: the committed one, or the uncommitted one for a held write and for a held read of a dirty unit. -/
def flipBank (entry : Nat) (held write : Bool) : Bool :=
  let bank := bitAt entry 0
  if held && (write || bitAt entry 1) then !bank else bank

/-- The physical offset an access to HBM or tier 2 reaches. -/
def State.flipOffset (s : State) (c : Ctx) (sp o : Nat) (write : Bool) : Nat :=
  match s.flipAt sp o with
  | some f =>
    let e := (s.rd (s.flipByteKey f ((o - f.base) / 65536))).toNat
    if flipBank e c.held write then f.shadow + (o - f.base) else o
  | none => o

-- ## Access checks

/-- Whether the partition owner's port, the only host window its accesses may name, is port `q` (R241). -/
def State.hostAllowed (s : State) (c : Ctx) (q : Nat) : Bool :=
  match c.part with
  | some p => (match s.owner p with | some (oq, _) => oq == q | none => false)
  | none => c.admin

/-- One local byte address is permitted (R67, R219, R235, R64, R241, R243, R368). -/
def State.byteAllowed (s : State) (c : Ctx) (a : Nat) (write : Bool) : Bool :=
  let sp := gSpace a
  let o := gOffset a
  offsetValid sp o &&
  (match sp with
   | 0 => s.groupAllowed c 0 (hbmGroup o) write && !s.offsetRetired 0 o && !s.inShadow 0 o
   | 1 => s.groupAllowed c 1 (t2Group o) write && !s.offsetRetired 1 o && !s.inShadow 1 o
   | 2 => (match c.part with | some p => (s.clusters p).contains (o / loomBytes / 8) | none => c.admin)
   | 4 => s.hostAllowed c 0
   | 5 => s.hostAllowed c 1
   | 8 => c.admin && !c.remote
   | _ => false)

/-- Offsets within [o, o + n) at which the answer of `byteAllowed` can change: the first and last byte and every 64-byte boundary
would do; the model asks at the first byte, the last byte and each 4 KiB boundary between, on which every group, region, window and
retirement border lies. -/
def checkPoints (a n : Nat) : List Nat :=
  if n = 0 then [] else a :: (a + n - 1) :: ((List.range (n / 4096 + 1)).map (fun i => (a / 4096 + 1 + i) * 4096)).filter
    (fun x => decide (x < a + n))

/-- A local range is permitted. -/
def State.allowed (s : State) (c : Ctx) (a n : Nat) (write : Bool) : Bool :=
  (checkPoints a n).all (fun x => s.byteAllowed c x write && gModule x == gModule a && gSpace x == gSpace a)

/-- The key a permitted local byte access reaches. -/
def State.keyOf (s : State) (c : Ctx) (a : Nat) (write : Bool) : Nat :=
  let sp := gSpace a
  let o := gOffset a
  match sp with
  | 0 => s.dataKey 0 (s.flipOffset c 0 o write)
  | 1 => s.dataKey 1 (s.flipOffset c 1 o write)
  | 2 => s.localKey (o / loomBytes) (o % loomBytes)
  | _ => spaceKey sp o

/-- `n` bytes read at a local address, each where its own unit lies. -/
def State.readAt (s : State) (c : Ctx) (a n : Nat) : List Byte :=
  (List.range n).map (fun i => s.rd (s.keyOf c (a + i) false))

/-- A flip region's unit prepared for a held write: the committed bank is copied to the other bank and DIRTY is set; the copy is
skipped where the writer covers the whole unit (R371). -/
def State.dirtyUnit (s : State) (f : Flip) (u : Nat) (whole : Bool) : State :=
  let k := s.flipByteKey f u
  let e := (s.rd k).toNat
  if bitAt e 1 then s
  else
    let b0 := f.base + 65536 * u
    let b1 := f.shadow + 65536 * u
    let s1 := if whole then s
      else if bitAt e 0 then s.copyData f.space b1 b0 65536
      else s.copyData f.space b0 b1 65536
    s1.wr k (BitVec.ofNat 8 (e % 256 + 2))

/-- The units of flip regions a held write of [a, a + n) touches. -/
def State.touched (s : State) (a n : Nat) : List (Flip × Nat) :=
  s.flips.flatMap (fun f =>
    if f.space == gSpace a then
      ((List.range (n / 65536 + 2)).map (fun i => (gOffset a / 65536 + i) * 65536)).filterMap (fun o =>
        if f.base ≤ o ∧ o < f.base + 65536 * f.units ∧ o < gOffset a + n then some (f, (o - f.base) / 65536) else none)
    else [])

/-- The key of the 64-byte line a local HBM or tier-2 address lies in. -/
def State.lineKey (s : State) (c : Ctx) (a : Nat) (write : Bool) : Nat := s.keyOf c (a / 64 * 64) write

/-- Classifier unit of a line's key: 65536 * class + unit. -/
def unitOfKey (k : Nat) : Nat := 65536 * unitClass (k / 2 ^ 48 % 0x20) + unitOf (k / 2 ^ 48 % 0x20) (k % 2 ^ 48)

/-- Knot source and island of a unit (R432, R443). -/
def unitSource (cls u : Nat) : Nat × Nat :=
  match cls with
  | 0 => (u / 8, u / 8)
  | 1 => (32 + u / 32, 0x22 + u / 32)
  | 2 => (40 + u / 16, 0x2A + u / 16)
  | 3 => (44 + u / 16, 0x21)
  | _ => (50 + u, 0x2F + u)

/-- The stack of a pseudo-channel, or the package of a tier-2 channel, whose poison table holds its lines. -/
def tableOf (sp u : Nat) : Nat := if sp = 0 then u / 32 else u / 4

/-- Lines a poison table holds. -/
def tableSize (sp : Nat) : Nat := if sp = 0 then 4096 else 1048576

/-- The table that holds a unit's poisoned lines is full (R233). -/
def State.tableFull (s : State) (sp u : Nat) : Bool :=
  decide (tableSize sp ≤ (s.memCtl.poison.filter (fun x => x / 2 ^ 48 % 0x20 == sp && tableOf sp (unitOf sp (x % 2 ^ 48)) == tableOf sp u)).length)

/-- A line write under an armed fault is stored uncorrectable; any other write of the whole line makes it good again (R442). -/
def State.storeLine (s : State) (k : Nat) (whole : Bool) : State :=
  let u := unitOfKey k
  let n := tget 0 s.memCtl.armed u
  let rest := s.memCtl.corrupt.filter (· != k)
  if n ≠ 0 then { s with memCtl := { s.memCtl with armed := tset 0 s.memCtl.armed u (n - 1), corrupt := k :: rest } }
  else if whole then { s with memCtl := { s.memCtl with corrupt := rest } }
  else s

-- ## Check lines (R231)

/-- The check line of a tier-2 offset: channel, and number in the channel. -/
def checkLineOf (o : Nat) : Nat × Nat :=
  let r := o % 0xF00000000
  (t2Channel o, (4 * (r / 1024) + r % 256 / 64) / 16)

/-- A controller of tier 2 reads or writes the check line of a data line: it is read unless the channel's buffer of 64 holds it, and a write puts
it back. A write of a whole check unit fills its check lines without reading them. Which line leaves a full buffer the manual does not say:
the one used least recently (DESIGN CHOICE, log 177). -/
def State.checkLine (s : State) (o : Nat) (write whole : Bool) : State :=
  let x := checkLineOf o
  let buf := tget [] s.memCtl.checkBuf x.1
  let held := buf.contains x.2
  let buf1 := if held || !(write && whole) then (x.2 :: buf.erase x.2).take 64 else buf
  { s with memCtl := { s.memCtl with
      checkBuf := tset [] s.memCtl.checkBuf x.1 buf1
      checkReads := s.memCtl.checkReads + (if held || (write && whole) then 0 else 1)
      checkWrites := s.memCtl.checkWrites + (if write then 1 else 0) } }

-- ## The memory-side cache (R236, R237)

/-- Policy of a group, and the partition that owns it. -/
def State.cachePolicy (s : State) (sp g : Nat) : Nat := s.fld (.mscPolicy (if sp = 1 then 2 else g / 16)) (2 * (g % 16)) 2
def State.groupOwner (s : State) (sp g : Nat) : Option Nat := firstIdx 16 (fun p => bitAt (if sp = 0 then s.groups p else s.t2Groups p) g)

/-- Whether the cache holds a memory line. -/
def State.cached (s : State) (k : Nat) : Bool := s.memCtl.cache.any (fun l => l.key == k)

/-- A memory line is read or written at its controller: tier 2 with its check line; a write of the whole line removes it from the poison table
(R231, R233). -/
def State.lineAccess (s : State) (k : Nat) (write whole : Bool) : State :=
  if k / 2 ^ 48 % 0x20 = 1 then s.checkLine (k % 2 ^ 48) write whole else s

/-- A line leaves the cache: a dirty one is written back, which makes the memory line good again (R233, R237). -/
def State.dropLine (s : State) (l : CacheLine) : State :=
  let s1 : State := { s with memCtl := { s.memCtl with cache := s.memCtl.cache.filter (fun x => x.key != l.key) } }
  if l.dirty then
    let s2 := s1.storeLine l.key true
    ({ s2 with memCtl := { s2.memCtl with poison := s2.memCtl.poison.filter (· != l.key) } } : State).lineAccess l.key true false
  else s1

/-- The cache's line of a local address. -/
def State.cachedLine (s : State) (a : Nat) : Option CacheLine :=
  if !s.isLocal a ∨ 2 ≤ gSpace a ∨ !offsetValid (gSpace a) (gOffset a) then none
  else s.memCtl.cache.find? (fun l => l.key == s.dataKey (gSpace a) (gOffset a / 64 * 64))

/-- A line leaves the cache without a write-back: an uncorrectable word was in it. The memory line of a dirty one is poisoned, where its table has
room (R233, R239). -/
def State.loseLine (s : State) (l : CacheLine) : State :=
  let sp := l.key / 2 ^ 48 % 0x20
  let full := s.tableFull sp (unitOf sp (l.key % 2 ^ 48)) || s.memCtl.poison.contains l.key
  { s with memCtl := { s.memCtl with
      cache := s.memCtl.cache.filter (fun x => x.key != l.key)
      poison := if l.dirty && !full then s.memCtl.poison ++ [l.key] else s.memCtl.poison } }

/-- A line is allocated in a way of the owner's: an invalid one first, else that of the line used least recently in its set (R237). -/
def State.allocLine (s : State) (k ways : Nat) (dirty : Bool) : State :=
  let mine := s.memCtl.cache.filter (fun l => Config.cacheSet l.key == Config.cacheSet k && bitAt ways l.way)
  match (bitList 16 ways).find? (fun w => mine.all (fun l => l.way != w)), mine.getLast? with
  | some w, _ => { s with memCtl := { s.memCtl with cache := { key := k, way := w, dirty := dirty } :: s.memCtl.cache } }
  | none, some l =>
    let s1 := s.dropLine l
    { s1 with memCtl := { s1.memCtl with cache := { key := k, way := l.way, dirty := dirty } :: s1.memCtl.cache } }
  | none, none => s

/-- One line passes the cache: a hit uses it, a miss goes to the controller, and allocates as the group's policy says (R236, R237). With policy 0, or
in a group that no partition owns, every access goes to the controller. -/
def State.passLine (s : State) (k : Nat) (write whole : Bool) : State :=
  let sp := k / 2 ^ 48 % 0x20
  let g := groupOf sp (k % 2 ^ 48)
  let pol := s.cachePolicy sp g
  match (if pol = 0 then none else s.groupOwner sp g) with
  | none => s.lineAccess k write whole
  | some p =>
    match s.memCtl.cache.find? (fun l => l.key == k && bitAt (s.ways p) l.way) with
    | some l => { s with memCtl := { s.memCtl with cache := { l with dirty := l.dirty || write } :: s.memCtl.cache.erase l } }
    | none =>
      if write ∧ pol = 1 then s.lineAccess k true whole
      else (if write then s else s.lineAccess k false whole).allocLine k (s.ways p) write

/-- The lines of a range of HBM or tier 2 pass the cache; `whole` marks those in an aligned run of 4,096 bytes that is written whole (R231). -/
def State.pass (s : State) (c : Ctx) (a n : Nat) (write : Bool) : State :=
  if decide (2 ≤ gSpace a) || n == 0 ||
      (gSpace a == 0 && s.reg (.mscPolicy 0) == 0 && s.reg (.mscPolicy 1) == 0) then s
  else (List.range ((a % 64 + n + 63) / 64)).foldl (fun s i =>
    let x := a / 64 * 64 + 64 * i
    let run := gOffset x / 4096 * 4096
    s.passLine (s.lineKey c x write) write (decide (gOffset a ≤ run ∧ run + 4096 ≤ gOffset a + n))) s

/-- The line writes of a range of HBM or tier 2. -/
def State.storeLines (s : State) (c : Ctx) (a n : Nat) : State :=
  if (s.memCtl.armed.isEmpty && s.memCtl.corrupt.isEmpty) || decide (2 ≤ gSpace a) || n == 0 then s
  else (List.range ((a % 64 + n + 63) / 64)).foldl (fun s i =>
    let x := a / 64 * 64 + 64 * i
    s.storeLine (s.lineKey c x true) (decide (a ≤ x ∧ x + 64 ≤ a + n))) s

/-- Bytes written at a local address that has been checked; a held write dirties its units first (R370, R371), and the lines written pass the
controller or the cache (R231, R237). -/
def State.writeAt (s : State) (c : Ctx) (a : Nat) (bs : List Byte) : State :=
  let s1 := if c.held then (s.touched a bs.length).foldl (fun s fu => s.dirtyUnit fu.1 fu.2 false) s else s
  ((List.range bs.length).zip bs).foldl (fun s ib => s.wr (s.keyOf c (a + ib.1) true) ib.2) ((s1.storeLines c a bs.length).pass c a bs.length true)

/-- A line of memory that cannot be read: poisoned (R233) or stored uncorrectable (R442), and no copy of it in the cache. -/
def State.lineBad (s : State) (k : Nat) : Bool := (s.memCtl.poison.contains k || s.memCtl.corrupt.contains k) && !s.cached k

/-- Whether any line of a range cannot be read. -/
def State.anyPoison (s : State) (c : Ctx) (a n : Nat) (write : Bool) : Bool :=
  !(s.memCtl.poison.isEmpty && s.memCtl.corrupt.isEmpty) && decide (gSpace a ≤ 1) &&
  (List.range ((a % 64 + n + 63) / 64)).any (fun i => s.lineBad (s.lineKey c (a / 64 * 64 + 64 * i) write))

/-- Lines that a write of a whole range replaces leave the poison table (R233). -/
def State.cure (s : State) (c : Ctx) (a n : Nat) : State :=
  if s.memCtl.poison.isEmpty then s
  else
    let ks := (List.range (n / 64 + 1)).filterMap (fun i =>
      let x := (a + 63) / 64 * 64 + 64 * i
      if x + 64 ≤ a + n then some (s.lineKey c x true) else none)
    { s with memCtl := { s.memCtl with poison := s.memCtl.poison.filter (fun k => !ks.contains k) } }

/-- Whether a write covers part of a line that cannot be read (R233). -/
def State.partialPoison (s : State) (c : Ctx) (a n : Nat) : Bool :=
  decide (gSpace a ≤ 1) && n != 0 &&
  ((a % 64 != 0 && s.lineBad (s.lineKey c a true)) || ((a + n) % 64 != 0 && s.lineBad (s.lineKey c (a + n - 1) true)))

-- ## The engines of the selvage die (R213)

/-- Whether partition `p` has its turn at an engine that served partition `last - 1` last (0: none yet), while the partitions of `others` have a
request it could serve: round-robin, one request at a time. -/
def roundRobin (last p : Nat) (others : List Nat) : Bool :=
  let place (q : Nat) : Nat := (q + 16 - last % 16) % 16
  others.all (fun q => decide (place p ≤ place q))

/-- Selvage shuttles are 0 to 15; shuttle `k` of a partition's logical cluster `c`. -/
def shuttleKey (p c k : Nat) : Nat := 16 + 64 * p + 2 * c + k

/-- Engine `k` of State.served takes a request of a partition. -/
def State.serve (s : State) (k p : Nat) : State := { s with served := tset 0 s.served k (p + 1) }

/-- Whether engine `k` may take a request of partition `p` now. -/
def State.hasTurn (s : State) (k p : Nat) (others : List Nat) : Bool := roundRobin (tget 0 s.served k) p others

-- ## Stamps

/-- A stamp (R60, R61): the recording island's cycle and epoch, and the pick that island holds for the partition's job. -/
def State.stamp (s : State) (island : Nat) (part : Option Nat) : List Byte :=
  let i := s.island island
  let pick := match part with | some p => tget 0 i.picks p | none => 0
  leBytes 6 (i.cycle % 2 ^ 48) ++ leBytes 1 island ++ leBytes 1 (i.epoch % 256) ++ leBytes 8 pick

end Sys2Proof.Machine
end

