-- ==== Sys2Proof/Machine/Host.lean ====
section
/-!
DEFINITION. Machine/Host.lean: writes into host memory and MSI-X messages (R501, R502, R504, R540), the status pages and records the
module keeps there (R185, R198 to R200), and completion entries (R184, R188, R190).
-/

namespace Sys2Proof.Machine

/-- Ports whose PF is administrative now (ADMIN of HIF_ADMIN, R492, R517): bit q. -/
def State.adminMask (s : State) : Nat :=
  match field s.fuses 899 2 with
  | 0 => 1
  | 1 => 2
  | 2 => 3
  | _ => if s.adopted then 2 else 1

/-- Whether function `f` of port `q` is an administrative PF. -/
def State.isAdmin (s : State) (q f : Nat) : Bool := f == 0 && bitAt s.adminMask q

/-- Whether a function owns a partition (R515). -/
def State.owns (s : State) (q f p : Nat) : Bool := s.owner p == some (q, f)

-- ## Writes to a host

/-- A posted write to host memory of port `q` for function `f`: discarded and counted in LOST while the link is down (R504), kept
while the function is in D3hot (R501). -/
def State.hostPut (s : State) (q f key : Nat) (bs : List Byte) : State :=
  let pt := s.port q
  if !pt.linkUp then s.setPort q { pt with lost := satInc 16 pt.lost 1 }
  else if (s.func q f).d3 then s.setPort q { pt with waiting := pt.waiting ++ [(f, .write key bs)] }
  else s.wrBytes key bs

/-- The mask bit of a vector: bit 0 of word 3 of its table entry, 1 after reset. -/
def Func.masked (x : Func) (v : Nat) : Bool := bitAt (tget 1 x.table (4 * v + 3)) 0

/-- An MSI-X message on a vector of a function; only the value modulo 32 is used. A masked vector, or one of a function whose MSI-X is
off, sets its pending bit (R502). -/
def State.msix (s : State) (q f vec : Nat) : State :=
  let v := vec % 32
  let pt := s.port q
  let x := s.func q f
  if !pt.linkUp then s.setPort q { pt with lost := satInc 16 pt.lost 1 }
  else if x.d3 then s.setPort q { pt with waiting := pt.waiting ++ [(f, .msix v)] }
  else if x.masked v || !x.msixOn then s.setFunc q f { x with pendingBits := setField x.pendingBits v 1 1 }
  else s.emit (.msix q f v)

/-- The key of a host page at a registered address, or none where R540 refuses it: it must name this module and the host window of
the port the owner uses, and address 0 means no page. -/
def State.pageKey (s : State) (q a : Nat) : Option Nat :=
  if a ≠ 0 ∧ s.isLocal a ∧ gSpace a = 4 + q then some (spaceKey (4 + q) (gOffset a)) else none

/-- A page of 4 KiB whose first bytes are given: the rest is zero. -/
def State.putPage (s : State) (q f a : Nat) (bs : List Byte) : State :=
  match s.pageKey q a with
  | none => s
  | some k =>
    if !(s.port q).linkUp || (s.func q f).d3 then s.hostPut q f k (bs ++ zeros (4096 - bs.length))
    else (s.zero k 4096).wrBytes k bs

/-- A page of an administrative PF: its address may name either host window (R298, R346, R452, R540). -/
def State.putAdminPage (s : State) (a : Nat) (bs : List Byte) : State :=
  if gSpace a = 4 ∨ gSpace a = 5 then s.putPage (gSpace a - 4) 0 a bs else s

-- ## Status pages

/-- Clusters of the partition that still count (R199). -/
def State.clusterCount (s : State) (p : Nat) : Nat := (s.clusters p).length

/-- An enable of the loop is held (R221, R402). -/
def Loop.restartPending (x : Loop) : Bool := x.st == .disabling && x.ops.any (·.2)

/-- Whether an enable of the partition or of one of its loops, or a RESUME, is held under R221. -/
def Part.restartPending (x : Part) : Bool :=
  x.ops.any (fun o => match o with | .enable => true | .resume _ => true | _ => false) || x.loops.any (·.2.restartPending)

/-- DRAFT_RUNs of the partition accepted before `acc` and not yet completed, those held for a slot among them (R209, R214). -/
def State.draftsBefore (s : State) (p acc : Nat) : Nat :=
  (s.entries.filter (fun e => decide (e.acc < acc) && le e.bytes 0 2 == 1 && le e.bytes 3 1 == p)).length

/-- Drafts accepted and not yet completed, 0 to 16 (R199, R214). -/
def State.draftsInFlight (s : State) (p : Nat) : Nat := min 16 (s.draftsBefore p (s.accepted + 1))

/-- A DRAFT_RUN that would make a seventeenth of its partition (R214). -/
def State.overLimit (s : State) (e : Entry) : Bool := le e.bytes 0 2 == 1 && decide (16 ≤ s.draftsBefore (le e.bytes 3 1) e.acc)

/-- The partition status page (R199), first 512 bytes. -/
def State.partPage (s : State) (p : Nat) : List Byte :=
  let x := s.part p
  leBytes 8 x.genPage ++ s.stamp 0x20 (some p) ++ leBytes 1 x.st.code ++ leBytes 1 (b2n x.restartPending) ++
  leBytes 2 (s.clusterCount p) ++ leBytes 4 (s.draftsInFlight p) ++
  (List.range 9).flatMap (fun i => leBytes 8 (tget 0 x.counters i)) ++ zeros 152 ++
  (List.range 32).flatMap (fun i => leBytes 8 (tget 0 x.stall i))

/-- One version entry of the job page (R200). -/
def versionBytes (v : Version) : List Byte :=
  leBytes 4 v.number ++
  leBytes 1 (match v.st with | .published => 1 | .current => 2 | .held => 3) ++
  leBytes 1 v.forms ++ zeros 2 ++ leBytes 4 v.latched ++ zeros 4

/-- The number of the current version, or 0. -/
def Job.currentVersion (j : Job) : Nat :=
  match j.versions.find? (fun v => v.st == .current) with
  | some v => v.number
  | none => 0

/-- A HOST_WAIT node of the partition waits (R207). -/
def State.hostWaiting (s : State) (p : Nat) : Bool :=
  s.drafts.any (fun d => d.part == p && d.nodes.any (fun n => le n.bytes 2 1 == 0xA && n.st == .running))

/-- JOB_STATE as the page gives it (R200). -/
def State.jobCode (s : State) (p : Nat) : Nat :=
  let j := (s.part p).job
  if (j.st = .running ∨ j.st = .boundary) ∧ s.hostWaiting p then 3 else j.st.code

/-- Bytes of a loop's sequence table entry (R406), as HBM holds them. -/
def State.seqByte (s : State) (p : Nat) (x : Loop) (slot o : Nat) : Nat :=
  le (s.readAt { part := some p } (le x.cfg 40 8 + 128 * slot + o) 1) 0 1

/-- Sequences of a loop in a state of R405. -/
def State.seqsIn (s : State) (p : Nat) (x : Loop) (code : Nat) : Nat := (x.seqs.filter (fun q => s.seqByte p x q.slot 5 == code)).length

/-- The LOOPS entry of a loop (R402). -/
def State.loopBytes (s : State) (p : Nat) (x : Loop) : List Byte :=
  if x.st = .disabled then leBytes 1 0 ++ leBytes 1 (b2n x.restartPending) ++ zeros 30
  else leBytes 1 x.st.code ++ leBytes 1 (b2n x.restartPending) ++ leBytes 2 (s.seqsIn p x 2 + s.seqsIn p x 3) ++ leBytes 2 (s.seqsIn p x 1) ++
    leBytes 2 (s.seqsIn p x 4) ++ leBytes 8 (if x.bound then (s.part p).job.pick else x.pick) ++ leBytes 2 x.budget ++ zeros 2 ++
    leBytes 4 x.lastStep ++ zeros 8

/-- The job status page (R200), first 240 bytes. -/
def State.jobPage (s : State) (p : Nat) : List Byte :=
  let x := s.part p
  let j := x.job
  let vs := (j.versions.map versionBytes).flatten
  leBytes 8 x.genJob ++ s.stamp 0x20 (some p) ++ leBytes 8 j.pick ++ leBytes 4 j.currentVersion ++
  leBytes 1 (s.jobCode p) ++ zeros 11 ++ (vs ++ zeros (64 - vs.length)) ++
  (List.range 4).flatMap (fun l => s.loopBytes p (tget {} x.loops l))

/-- A counter of the partition status page rises; 64 bits (R133). -/
def State.count (s : State) (p i n : Nat) : State :=
  let x := s.part p
  s.setPart p { x with counters := tset 0 x.counters i (satInc 64 (tget 0 x.counters i) n) }

/-- The partition status page written, its GEN advanced by two (R198); nothing is written for an address of 0 or one that R540 refuses. -/
def State.writePartPage (s : State) (p : Nat) : State :=
  match s.owner p with
  | none => s
  | some (q, f) =>
    let x := s.part p
    let s1 := s.setPart p { x with genPage := (x.genPage + 2) % 2 ^ 64 }
    s1.putPage q f (s.addr (.partAddr p 2) (.partAddr p 3)) (s1.partPage p)

/-- The job status page written in the same way. -/
def State.writeJobPage (s : State) (p : Nat) : State :=
  match s.owner p with
  | none => s
  | some (q, f) =>
    let x := s.part p
    let s1 := s.setPart p { x with genJob := (x.genJob + 2) % 2 ^ 64 }
    s1.putPage q f (s.addr (.partAddr p 4) (.partAddr p 5)) (s1.jobPage p)

/-- Both pages, as a change of state or a step boundary writes them. -/
def State.writePages (s : State) (p : Nat) : State := (s.writePartPage p).writeJobPage p

-- ## Ring pairs

/-- Entries in a ring of the pair (R513: values outside 6 to 16 act as the nearer bound). -/
def State.ringSize (s : State) (q k : Nat) : Nat := 2 ^ clampTo 6 16 (s.fld (.rqCtl q k) 0 5)

/-- The function that owns a ring pair. -/
def State.ringFunc (s : State) (q k : Nat) : Nat := s.fld (.rqCtl q k) 16 6

/-- Completions held: those not yet written for which no slot is free (R184). -/
def State.heldBack (s : State) (q k : Nat) : Nat :=
  let r := s.ring q k
  r.held.length - (s.ringSize q k - r.cqUsed)

/-- Acceptance from the ring pair is suspended: completions are held (R184), or a DRAFT_RUN of it is held by R214. -/
def State.submitHeld (s : State) (q k : Nat) : Bool :=
  s.heldBack q k != 0 || s.entries.any (fun e => e.port == q && e.ring == k && s.overLimit e)

/-- The ring status record (R185). -/
def State.ringRecord (s : State) (q k : Nat) : List Byte :=
  let r := s.ring q k
  leBytes 2 r.sqHead ++ zeros 2 ++ leBytes 4 r.errors ++ leBytes 2 (min 256 (s.heldBack q k)) ++
  leBytes 1 (b2n (s.submitHeld q k)) ++ zeros 5 ++ s.stamp (0x2F + q) none ++ zeros 32

/-- The record written at its registered IOVA (R185). -/
def State.writeRingRecord (s : State) (q k : Nat) : State :=
  let a := s.addr (.rqAddr q k 4) (.rqAddr q k 5)
  if a = 0 ∨ 2 ^ 48 ≤ a then s else s.hostPut q (s.ringFunc q k) (spaceKey (4 + q) a) (s.ringRecord q k)

/-- The 32 bytes of a completion entry (R190). -/
def Compl.bytes (c : Compl) (phase : Bool) : List Byte :=
  leBytes 2 c.opcode ++ leBytes 2 c.status ++ leBytes 4 c.tag ++ leBytes 8 c.pick ++ leBytes 8 c.cookie ++
  leBytes 6 c.result ++ zeros 1 ++ leBytes 1 (b2n phase)

-- ## Submission entries

def Entry.opcode (e : Entry) : Nat := le e.bytes 0 2
def Entry.irq (e : Entry) : Bool := bitAt (le e.bytes 2 1) 0
def Entry.part (e : Entry) : Nat := le e.bytes 3 1
def Entry.tag (e : Entry) : Nat := le e.bytes 4 4
def Entry.effPick (e : Entry) : Nat := le e.bytes 8 8
def Entry.arg0 (e : Entry) : Nat := le e.bytes 16 8
def Entry.arg1 (e : Entry) : Nat := le e.bytes 24 8
def Entry.arg2 (e : Entry) : Nat := le e.bytes 32 8
def Entry.cookie (e : Entry) : Nat := le e.bytes 40 8
def Entry.wait (e : Entry) : Nat := le e.bytes 48 8

def State.entry (s : State) (e : Nat) : Option Entry := s.entries.find? (fun x => x.acc == e)

/-- An accepted entry with an update. -/
def State.setEntry (s : State) (e : Nat) (f : Entry → Entry) : State :=
  { s with entries := s.entries.map (fun x => if x.acc = e then f x else x) }

/-- Status codes of R196. -/
def stOK : Nat := 0
def stFrozenSkip : Nat := 1
def stSkippedNonfinite : Nat := 2
def stCancelled : Nat := 3
def stPreempted : Nat := 4
def stRetryExhausted : Nat := 5
def stRetired : Nat := 6
def stMembership : Nat := 7
def stVersionMismatch : Nat := 8
def stInvalid : Nat := 9
def stDegenerate : Nat := 0xA
def stFallback : Nat := 0xB
def stPoolExhausted : Nat := 0xC
def stSwapped : Nat := 0xD
def stRestartPending : Nat := 0xE
def stCompatFloor : Nat := 0xF

/-- Informational codes (R197). -/
def informational (st : Nat) : Bool := st == 1 || st == 2 || st == 7 || st == 0xA || st == 0xB
/-- Failing codes (R197). -/
def failing (st : Nat) : Bool := st != 0 && !informational st

/-- A completion joins the held completions of a ring pair (R184); COMPLETION_WRITE takes it from there. A ring pair whose port's link is
down discards it (R504). -/
def State.pushCompl (s : State) (home : Nat × Nat) (c : Compl) : State :=
  let r := s.ring home.1 home.2
  s.setRing home.1 home.2 { r with held := r.held ++ [c] }

/-- Tag and status remembered for waits of the submitting ring pair, and given to the entries that wait for them (R188). -/
def State.recordStatus (s : State) (q k tag status : Nat) : State :=
  let r := s.ring q k
  let s1 := s.setRing q k { r with history := ((tag, status) :: r.history).take 256 }
  { s1 with entries := s1.entries.map (fun x =>
      if x.st = .waiting ∧ x.port = q ∧ field x.wait 32 8 = k ∧ field x.wait 0 32 = tag ∧ x.waitDone = none
      then { x with waitDone := some status } else x) }

/-- The completion entry of an accepted entry (R190). -/
def Entry.compl (e : Entry) (status pick result : Nat) : Compl :=
  { acc := e.acc, origin := (e.port, e.ring), part := e.part, opcode := e.opcode, status := status, tag := e.tag, pick := pick, cookie := e.cookie,
    result := result, irq := e.irq }

/-- An entry is outstanding no more, and its completion waits to be written. -/
def State.leave (s : State) (e : Entry) (status pick result : Nat) : State :=
  let s1 := { s with entries := s.entries.filter (fun x => x.acc != e.acc) }
  (s1.pushCompl e.home (e.compl status pick result)).recordStatus e.port e.ring e.tag status

/-- An accepted entry completes; beyond 256 held completions of its ring pair it waits in its engine until a slot is free, with what it ends with
(R184). -/
def State.completeWith (s : State) (acc status pick result : Nat) : State :=
  match s.entry acc with
  | none => s
  | some e =>
    if e.parked.isSome then s
    else if 256 ≤ s.heldBack e.home.1 e.home.2 then s.setEntry acc (fun x => { x with st := .running, parked := some (status, pick, result) })
    else s.leave e status pick result

/-- Entries that wait in their engines for a completion slot of a ring pair complete while fewer than 256 completions are held, in order of
acceptance (R184; the manual orders them only by their completion, log 174). -/
def State.unpark (s : State) (q k : Nat) : State :=
  (s.entries.filter (fun e => e.home == (q, k) && e.parked.isSome)).foldl (fun s e =>
    match e.parked with
    | some (st, pick, res) => if 256 ≤ s.heldBack q k then s else s.leave e st pick res
    | none => s) s

/-- The pick of the job of an entry's partition. -/
def State.pickOf (s : State) (p : Nat) : Nat := (s.part p).job.pick

/-- An entry completes under the pick at whose boundary it took effect, or the job's pick now (R189). -/
def State.complete (s : State) (acc status result : Nat) : State :=
  match s.entry acc with
  | none => s
  | some e => s.completeWith acc status (if e.pick = 0 then s.pickOf e.part else e.pick) result

/-- RESULT of an entry that ends with no draft of it in flight: FAIL_NODE says that no node failed; any other gives what it has gathered
(R39, R192). -/
def Entry.result0 (x : Entry) : Nat := if x.opcode = 1 then 0xFFFFFFFF else x.result

/-- An entry ends with a status. -/
def State.endEntry (s : State) (acc status : Nat) : State :=
  match s.entry acc with
  | none => s
  | some e => s.complete acc status e.result0

/-- An entry completes INVALID: nothing of it was performed (R12). -/
def State.invalid (s : State) (acc : Nat) : State := s.endEntry acc stInvalid

end Sys2Proof.Machine
end

