-- ==== Sys2Proof/Machine/Send.lean ====
section
/-!
DEFINITION. Machine/Send.lean: the sending side of the fabric: torus routing (R283, R284, R286), packets and flits (R270, R271, R279), credits
and replay buffers (R272, R282), and numbered requests (R287, R288).
-/

namespace Sys2Proof.Machine

def State.link (s : State) (l : Nat) : Link := tget {} s.links l
def State.setLink (s : State) (l : Nat) (x : Link) : State := { s with links := tset {} s.links l x }

/-- This module's fabric security domain (R492). -/
def State.domain (s : State) : Nat := field s.fuses 938 16

-- ## The torus (R47, R264)

/-- Extent of a dimension. -/
def State.extent (s : State) (d : Nat) : Nat := s.fld .wflTorus (4 * d) 4 + 1
/-- Coordinate of a module in a dimension. -/
def coord (m d : Nat) : Nat := m / 16 ^ d % 16
/-- Whether a module lies inside the extents (R287). -/
def State.inTorus (s : State) (m : Nat) : Bool := (List.range 3).all (fun d => decide (coord m d < s.extent d))
/-- The neighbour a port faces: ports 2d and 2d + 1 face the + and - directions of dimension d. -/
def State.neighbour (s : State) (port : Nat) : Nat :=
  let d := port / 2
  let n := s.extent d
  let c := coord s.moduleNum d
  let c' := if port % 2 = 0 then (c + 1) % n else (c + n - 1) % n
  s.moduleNum - c * 16 ^ d + c' * 16 ^ d

/-- Links of a port that are ACTIVE; a port with one is usable (R284). -/
def State.live (s : State) (port : Nat) : List Nat := ((List.range 16).map (16 * port + ·)).filter (fun l => (s.link l).st == 4)
def State.usable (s : State) (port : Nat) : Bool := !(s.live port).isEmpty

-- ## Packets (R279, R280)

/-- Channel class base of a packet type: 0 requests, 2 responses, 4 reduction (R282); a NACK takes that of what it answers. -/
def vcBase (ty : Nat) : Nat :=
  if ty = 2 ∨ ty = 4 ∨ ty = 6 then 2 else if 0x10 ≤ ty ∧ ty ≤ 0x12 then 4 else 0

/-- Whether a TYPE is one of R280. -/
def typeKnown (ty : Nat) : Bool := decide (ty ≤ 6) || ty == 8 || decide (0x10 ≤ ty ∧ ty ≤ 0x12) || ty == 0x20

/-- Lines a packet carries: a read request carries none. -/
def pktLines (p : Packet) : Nat := if p.ty = 1 then 0 else p.len

/-- The bytes of a packet. -/
def pktBytes (p : Packet) : List Byte :=
  leBytes 1 p.ty ++ leBytes 1 (p.len + 16 * p.vc + 128 * b2n p.detoured) ++ leBytes 2 (p.dst + 4096 * p.space) ++
  leBytes 2 (p.src + 4096 * p.srcPart) ++ leBytes 2 p.domain ++ leBytes 2 p.tag ++ leBytes 6 p.offset ++
  (p.data ++ zeros (64 * pktLines p - p.data.length)).take (64 * pktLines p)

/-- A packet read from its bytes. -/
def pktOfBytes (b : List Byte) : Packet :=
  let ty := le b 0 1
  let ctl := le b 1 1
  let len := field ctl 0 4
  { ty := ty, len := len, vc := field ctl 4 3, detoured := bitAt ctl 7, dst := field (le b 2 2) 0 12, space := field (le b 2 2) 12 4,
    src := field (le b 4 2) 0 12, srcPart := field (le b 4 2) 12 4, domain := le b 6 2, tag := le b 8 2, offset := le b 10 6,
    data := slice b 16 (if ty = 1 then 0 else 64 * len) }

/-- Credits a packet needs, by its LEN (R282). -/
def pktCredits (p : Packet) : Nat := (16 + 64 * p.len + 63) / 64

/-- A packet of this module. -/
def State.packet (s : State) (ty len dst space part tag offset : Nat) (data : List Byte) : Packet :=
  { ty := ty, len := len, vc := vcBase ty, detoured := false, dst := dst, space := space, src := s.moduleNum, srcPart := part,
    domain := s.domain, tag := tag, offset := offset, data := data }

/-- The NACK that answers a packet, on the channel of what it answers (R280, R295). -/
def State.nackOf (s : State) (p : Packet) (reason : Nat) : Packet :=
  { s.packet 8 0 p.src p.space p.srcPart p.tag reason [] with
    vc := if vcBase p.ty = 4 ∨ 4 ≤ p.vc then 4 else 0
    offset := if vcBase p.ty = 4 ∨ 4 ≤ p.vc then p.offset / 256 * 256 + reason else reason }

-- ## Flits (R270)

/-- The 512 bytes of a flit. -/
def flitBytes (ftype seq ack credit : Nat) (body : List Byte) : List Byte :=
  let b := leBytes 1 ftype ++ zeros 1 ++ leBytes 2 seq ++ leBytes 2 ack ++ leBytes 2 credit ++ zeros 4 ++ body
  b ++ leBytes 4 (crc32 b)

/-- SEQ the receiver acknowledges: the last one received in order. -/
def Link.ack (x : Link) : Nat := (x.rxSeq + 4095) % 4096

/-- An idle flit: it carries the last data SEQ sent, the acknowledgement, and credits returned on a channel. -/
def State.idleFlit (s : State) (l vc credits : Nat) : State :=
  let x := s.link l
  (s.setLink l { x with sinceIdle := 0 }).emit (.flit l (flitBytes 1 ((x.txSeq + 4095) % 4096) x.ack (vc + 8 * credits) (zeros 496)))

/-- A flit that is not idle leaves; the 4,095th in a row is followed by an idle one (R266). -/
def State.sendFlit (s : State) (l : Nat) (bytes : List Byte) : State :=
  let x := s.link l
  let s1 := (s.setLink l { x with sinceIdle := x.sinceIdle + 1 }).emit (.flit l bytes)
  if 4095 ≤ x.sinceIdle + 1 then s1.idleFlit l 0 0 else s1

/-- A control flit (R270). -/
def State.controlFlit (s : State) (l kind arg : Nat) : State :=
  let x := s.link l
  s.sendFlit l (flitBytes 2 ((x.txSeq + 4095) % 4096) x.ack 0 (leBytes 1 kind ++ leBytes 2 arg ++ zeros 493))

/-- One data flit leaves; an armed one carries a bad CRC (R442). -/
def State.dataFlit (s : State) (l : Nat) (f : Sent) : State :=
  let x := s.link l
  let good := flitBytes 0 f.seq x.ack 0 f.body
  (s.setLink l { x with armed := x.armed - 1 }).sendFlit l (if x.armed = 0 then good else good.take 508 ++ leBytes 4 ((crc32 (good.take 508)) ^^^ 1))

/-- A data flit that carries STOMP leaves under the SEQ of the next one, which it does not consume (R274). -/
def State.stompFlit (s : State) (l : Nat) (body : List Byte) : State :=
  let x := s.link l
  s.sendFlit l (flitBytes 4 x.txSeq x.ack 0 (body.take 496 ++ zeros (496 - body.length)))

/-- Bodies of 496 bytes that carry a byte string; what is left of the last is zero, a PAD packet (R271). -/
def bodies (bs : List Byte) : List (List Byte) :=
  (List.range (ceilDiv bs.length 496)).map (fun i => let b := slice bs (496 * i) 496; b ++ zeros (496 - b.length))

/-- Flits the replay buffer holds (R269). -/
def Link.replayRoom (x : Link) : Nat := if x.proto = 1 then 32 else 64

/-- Whether a link can take a whole packet now: credits on its channel and room in the replay buffer; a link that changes its mode
sends nothing, and one that has begun a packet sends no other (R274, R278, R282). -/
def Link.takes (x : Link) (p : Packet) : Bool :=
  x.st == 4 && x.switching.isNone && x.busy.isNone && decide (tget 0 x.used p.vc + pktCredits p ≤ 256) &&
  decide (x.replay.length + (bodies (pktBytes p)).length ≤ x.replayRoom)

/-- A packet is sent whole on a link as `p`; it came to this module as `came`. -/
def State.transmit (s : State) (l origin : Nat) (came p : Packet) : State :=
  let x := s.link l
  let bs := bodies (pktBytes p)
  let fs : List Sent := (bs.zipIdx).map (fun bi =>
    { seq := (x.txSeq + bi.2) % 4096, body := bi.1, pkt := if bi.2 + 1 = bs.length then some (origin, came) else none })
  let s1 := s.setLink l { x with
    txSeq := (x.txSeq + bs.length) % 4096, replay := x.replay ++ fs, used := tset 0 x.used p.vc (tget 0 x.used p.vc + pktCredits p) }
  fs.foldl (fun s f => s.dataFlit l f) s1

-- ## Routing

/-- What routing answers: the port and the packet as it leaves, or that it is dropped as unreachable. -/
inductive Route where
  | out (port : Nat) (p : Packet)
  | here
  | drop
  deriving DecidableEq, Repr

/-- The port a packet takes next; `inPort` is the port it came in by (R283, R284, R286). -/
def State.route (s : State) (inPort : Option Nat) (p : Packet) : Route :=
  let me := s.moduleNum
  match (List.range 3).find? (fun d => coord me d != coord p.dst d) with
  | none => .here
  | some d =>
    let n := s.extent d
    let c := coord me d
    let fwd := (coord p.dst d + n - c) % n
    let same := match inPort with | some q => q / 2 == d | none => false
    let detoured := p.detoured && same
    let want := if detoured then (match inPort with | some q => 2 * d + (1 - q % 2) | none => 2 * d)
      else if fwd ≤ n - fwd then 2 * d else 2 * d + 1
    let leave (port : Nat) (det : Bool) : Route :=
      let cls := if (if port % 2 = 0 then c + 1 == n else c == 0) then 1 else if same then p.vc % 2 else 0
      .out port { p with detoured := det, vc := p.vc / 2 * 2 + cls }
    if s.usable want then leave want detoured
    else if detoured then .drop
    else
      let back := 2 * d + (1 - want % 2)
      if s.usable back then leave back true else .drop

/-- The live link of a port with the most credits on the packet's channel, the lowest lane on a tie (R284). -/
def State.pickLink (s : State) (port vc : Nat) : Option Nat :=
  (s.live port).foldl (fun best l =>
    match best with
    | none => some l
    | some b => if tget 0 (s.link l).used vc < tget 0 (s.link b).used vc then some l else some b) none

/-- A packet leaves or joins the queue (one that this module sends to itself arrives as a later command); the flag says that it was dropped as unreachable. `origin` is the link it came by plus one,
0 for this module's own. -/
def State.dispatchOut (s : State) (origin : Nat) (p : Packet) : State × Bool :=
  match s.route (if origin = 0 then none else some ((origin - 1) / 16)) p with
  | .here => (s.emit (.loop p), false)
  | .drop => (s, true)
  | .out port p' =>
    match s.pickLink port p'.vc with
    | none => (s, true)
    | some l =>
      if (s.link l).takes p' then (s.transmit l origin p p', false)
      else ({ s with fabric := { s.fabric with queue := s.fabric.queue ++ [(origin, p)] } }, false)

/-- A packet of this module is sent; false when no port leads to its destination (R286). -/
def State.send (s : State) (p : Packet) : State × Bool :=
  let r := s.dispatchOut 0 p
  (r.1, !r.2)

/-- A packet whose loss needs no answer: responses, manager messages, reduction. -/
def State.post (s : State) (p : Packet) : State := (s.send p).1

/-- A request is answered with a NACK, which is counted (R295, R298). -/
def State.refuse (s : State) (p : Packet) (reason : Nat) : State :=
  let s1 := s.post (s.nackOf p reason)
  { s1 with fabric := { s1.fabric with nackSent := satInc 64 s1.fabric.nackSent 1 } }

-- ## Requests (R287, R288)

/-- Requests outstanding to a destination. -/
def State.outstanding (s : State) (dst : Nat) : Nat := (s.fabric.requests.filter (fun r => r.dst == dst)).length

/-- The shed change under way in a partition, with an update. -/
def State.setShed (s : State) (p : Nat) (f : Shed → Shed) : State :=
  let x := s.part p
  s.setPart p { x with shed := x.shed.map f }

/-- Who an acknowledgement is owed to counts one more. -/
def State.addAck (s : State) (iss : Issuer) : State :=
  match iss with
  | .node d n => { s with drafts := s.drafts.map (fun x => if x.id = d then
      { x with nodes := x.nodes.zipIdx.map (fun ni => if ni.2 = n then { ni.1 with acks := ni.1.acks + 1 } else ni.1) } else x) }
  | .entry e => s.setEntry e (fun x => { x with acks := x.acks + 1 })
  | .shed p i => s.setShed p (fun x => { x with acks := tset 0 x.acks i (tget 0 x.acks i + 1) })
  | .fetch d i => { s with drafts := s.drafts.map (fun x => if x.id = d then { x with fetchAcks := tset 0 x.fetchAcks i (tget 0 x.fetchAcks i + 1) } else x) }
  | .outside => s

/-- A numbered request of one packet. None of it is sent when the destination lies outside the torus (INVALID, R287) or no port leads
there (RESOURCE_RETIRED, R295). A request beyond 4,096 outstanding waits with the retries (R288). -/
def State.request1 (s : State) (iss : Issuer) (part ty len a : Nat) (data : List Byte) : State × Option Nat :=
  let dst := gModule a
  if !s.inTorus dst then (s, some stInvalid)
  else
    let tag := tget 0 s.fabric.tags dst
    let p := s.packet ty len dst (gSpace a) part tag (gOffset a) data
    let full := decide (4096 ≤ s.outstanding dst)
    let s1 : State := { s with fabric := { s.fabric with
      tags := tset 0 s.fabric.tags dst ((tag + 1) % 65536)
      requests := s.fabric.requests ++ [{ dst := dst, tag := tag, pkt := p, issuer := iss, waiting := full }] } }
    if full then (s1.addAck iss, none)
    else
      let r := s1.send p
      if r.2 then (r.1.addAck iss, none) else (s, some stRetired)

/-- Writes of a byte string to a remote address, in packets of up to 8 whole lines (R279). -/
def State.remoteWrite (s : State) (iss : Issuer) (part a : Nat) : List (List Byte) → State × Option Nat
  | [] => (s, none)
  | b :: r =>
    match s.request1 iss part 3 (ceilDiv b.length 64) a b with
    | (s1, none) => s1.remoteWrite iss part (a + b.length) r
    | (s1, some st) => (s1, some st)

/-- Reads of `n` lines at a remote line address, 8 lines a packet. -/
def State.remoteRead (s : State) (iss : Issuer) (part : Nat) : Nat → Nat → Nat → State × Option Nat
  | 0, _, _ => (s, none)
  | fuel + 1, a, lines =>
    if lines = 0 then (s, none)
    else
      let k := min 8 lines
      match s.request1 iss part 1 k a [] with
      | (s1, none) => s1.remoteRead iss part fuel (a + 64 * k) (lines - k)
      | (s1, some st) => (s1, some st)

/-- The key at which the model holds what a remote address last answered. -/
def remoteKey (a : Nat) : Nat := 2 ^ 64 + a

/-- Pieces of `n` bytes. -/
def chunks (n : Nat) (bs : List Byte) : List (List Byte) :=
  (List.range (ceilDiv bs.length n)).map (fun i => slice bs (n * i) n)

-- ## Manager messages (R340)

/-- A manager message: MSG and JOB_ID in OFFSET, one data line but for HEARTBEAT. -/
def State.sendMgr (s : State) (part dst msg job : Nat) (line : List Byte) : State :=
  let data := if msg = 1 then [] else line ++ zeros (64 - line.length)
  s.post (s.packet 0x20 (if msg = 1 then 0 else 1) dst 0 part 0 (msg + 256 * job) data)

end Sys2Proof.Machine
end

