-- ==== Sys2Proof/Machine/Status.lean ====
section
/-!
DEFINITION. Machine/Status.lean: what every set-up register reads (17, R507 to R515, and the register tables of the other chapters), and the
readings of fuses, roles, enables and clocks that the other files share.
-/

namespace Sys2Proof.Machine

-- ## Fuses (R492)

def State.fuseBit (s : State) (i : Nat) : Bool := bitAt s.fuses i

/-- ROLLBACK: consecutive blown bits from bit 770. -/
def thermometer : Nat → Nat → Nat
  | 0, _ => 0
  | n + 1, w => if bitAt w 0 then 1 + thermometer n (w / 2) else 0

def State.rollback (s : State) : Nat := thermometer 128 (s.fuses / 2 ^ 770)

/-- SECURE reads as VARIANT (R7). -/
def State.secure (s : State) : Bool := s.fuseBit 954

/-- DEBUG_LOCK as it reads: the fuse, or 1 on a secure variant (R492). -/
def State.debugLock (s : State) : Bool := s.fuseBit 898 || s.secure

/-- The port that owns a partition has an attestation report where the part asks for one (R6). -/
def State.attestedFor (s : State) (p : Nat) : Bool :=
  !s.secure || (match s.owner p with | some (q, _) => bitAt s.trust.attested q | none => false)

/-- PORT_PART of a partition; partitions above PART_MAX read 0b00 (R492). -/
def State.portPart (s : State) (p : Nat) : Nat :=
  if p ≤ field s.fuses 902 4 then field s.fuses (906 + 2 * p) 2 else 0

-- ## Roles (R333)

/-- MGR_CAP of the fuses (R492). -/
def State.mgrCap (s : State) : Bool := bitAt s.fuses 901

/-- ROLE_EFF (R333): 0 worker, 1 pod manager, 2 top manager, 3 standby. -/
def State.role (s : State) : Nat := if s.mgrCap then s.straps / 4096 % 4 else 0

-- ## Enables as they read (R477)

/-- EN as it reads: the last of the operations kept, or ACTIVE. -/
def Ring.en (r : Ring) : Bool := r.ops.getLastD r.active

/-- RESTART_PENDING: an enable is held (R477). -/
def Ring.restartPending (r : Ring) : Bool := r.ops.head?.getD false

/-- EN as it reads: the last enable or disable kept, else whether the partition is enabled. -/
def Part.en (x : Part) : Bool :=
  match (x.ops.filter (fun o => o == .enable || o == .disable)).getLast? with
  | some o => o == .enable
  | none => !x.st.idle && x.st != .disabling

-- ## Flip regions (R398)

/-- Units with DIRTY set (UPD_FLIP_STAT, R398). -/
def State.dirtyUnits (s : State) (f : Flip) : Nat :=
  ((List.range f.units).filter (fun u => bitAt (s.rd (s.flipByteKey f u)).toNat 1)).length

-- ## Clocks (R474, R479)

def State.fMax (s : State) (c : Nat) : Nat := clampTo 8 30 (s.fld (.tmpFreq c) 0 5)

def State.fMin (s : State) (c : Nat) : Nat := min (s.fMax c) (clampTo 8 30 (s.fld (.tmpFreq c) 5 5))

def State.pinFreq (s : State) (c : Nat) : Nat := clampTo (s.fMin c) (s.fMax c) (s.fld (.tmpFreq c) 10 5)

/-- F_NOW of a cluster island: its pinned clock while PIN is 1. -/
def State.fNow (s : State) (c : Nat) : Nat := if s.bit .tmpCapCtl 0 then s.pinFreq c else (s.island c).freq
/-- The fuse array as it reads (R492): DEBUG_LOCK follows SECURE, PORT_PART above PART_MAX is 0b00. -/
def State.fuseWord (s : State) : Nat :=
  (List.range 16).foldl (fun w p => setField w (906 + 2 * p) 2 (s.portPart p)) (setField s.fuses 898 1 (b2n s.debugLock))

-- ## RO values

/-- What is an enable of the treadle held under R477: a pending request shallower than the state being entered (R468). -/
def Treadle.restartPending (t : Treadle) : Bool :=
  match t.moving, t.pending with
  | some (.entry r), some t => decide (t < r)
  | _, _ => false

/-- TRD_STAT (R478). -/
def Treadle.stat (t : Treadle) : Nat :=
  t.state + 2 ^ 3 * b2n t.moving.isSome + 2 ^ 4 * t.pending.getD 0 + 2 ^ 7 * b2n t.pending.isSome + 2 ^ 8 * b2n t.restartPending +
  2 ^ 9 * t.hold + 2 ^ 11 * b2n t.refused + 2 ^ 12 * b2n (t.brake || t.capThrottle) + 2 ^ 16 * t.blocked

/-- The hottest sensor at the last reading in whole degrees (T_NOW, R478). -/
def Treadle.now (t : Treadle) : Nat := t.temps.foldl (fun m x => max m x.2) 0 / 8

/-- The ID block (R2). -/
def State.idWord (s : State) (i : Nat) : Nat :=
  match i with
  | 0 => 0x9600 + 2 ^ 16 * b2n s.secure + 2 ^ 24
  | 1 => Config.looms + 2 ^ 16 * 0x20 + 2 ^ 24 * 2
  | 2 => 8 + 2 ^ 8 * 0x30 + 2 ^ 16 * 0x10 + 2 ^ 24 * 0x40
  | 3 => Config.links + 2 ^ 8 * 6 + 2 ^ 11 * 2
  | 4 => 0x10 + 2 ^ 8 * 0x0C
  | _ => s.boot.idNumeric + 2 ^ 16 * s.boot.idProtoMax

/-- A function exists: the PF, and a VF that SR-IOV enables (R500). -/
def State.exists_ (s : State) (q f : Nat) : Bool := f == 0 || decide (f ≤ (s.port q).numVfs)

/-- HIF_FN_STAT (R514): function 0 exists; a VF exists while SR-IOV enables it. -/
def State.fnStatus (s : State) (q f : Nat) : Nat :=
  let rings := ((List.range 256).filter (fun k => s.ringFunc q k == f)).length
  let parts := (List.range 16).foldl (fun a p => if s.owns q f p then a + 2 ^ p else a) 0
  b2n (s.exists_ q f) + 2 * b2n (s.func q f).flr + 4 * rings + 2 ^ 11 * parts

/-- HIF_PORT_STAT (R512). -/
def Port.stat (x : Port) : Nat :=
  b2n x.linkUp + 2 * x.width + 2 ^ 6 * x.speed + 2 ^ 9 * b2n x.perst + 2 ^ 16 * x.lost

/-- WFL_LINK_STAT (R299). -/
def Link.stat (x : Link) : Nat :=
  x.st + 2 ^ 4 * b2n x.ll + 2 ^ 5 * b2n x.llq + 2 ^ 6 * x.cause + 2 ^ 16 * (if x.st = 4 then x.proto else 0)

/-- BOOT_SLOT (R499). -/
def SlotInfo.word (x : SlotInfo) : Nat := x.version + 2 ^ 16 * x.svn + 2 ^ 24 * x.cause + 2 ^ 28 * b2n x.verified

/-- The RO and W1C fields of a register: those that are not in the RW value. -/
def State.roValue (s : State) : Reg → Nat
  | .id i => s.idWord i
  | .hifModule => s.straps % 4096 + 2 ^ 12 * (s.straps % 4096) + 2 ^ 24 * (s.straps / 4096 % 4)
  | .hifAdmin => field s.fuses 899 2 + 4 * s.adminMask + 2 ^ 4 * b2n s.adopted + 2 ^ 5 * b2n s.adoptRefused
  | .hifPortStat q => (s.port q).stat
  | .hifPortErr q => (s.port q).refused
  | .rqCtl q k => 2 ^ 8 * b2n (s.ring q k).en + 2 ^ 9 * b2n (s.ring q k).active + 2 ^ 10 * b2n (s.ring q k).restartPending
  | .fnStat q f => s.fnStatus q f
  | .partCtl p => let x := s.part p; b2n x.en + 2 * b2n x.cfgRefused + 2 ^ 4 * x.fail + 2 ^ 8 * x.st.code
  | .shrCtl i => 2 ^ 25 * field s.shrRefused i 1
  | .wflCtl => s.boot.image.protoMin
  | .wflLinkStat l => (s.link l).stat
  | .flipStat p i =>
    (match s.flip p i with | some f => s.dirtyUnits f | none => 0) + 2 ^ 24 * b2n ((s.part p).flipFailed.contains i)
  | .mgrStat => s.role + 4 * b2n s.mgrCap + 8 * b2n s.manager.tookOver
  | .knotWord false => field s.knot.word 0 32
  | .knotWord true => field s.knot.word 32 30 + 2 ^ 30 * b2n s.knot.mergedBit + 2 ^ 31 * b2n (s.knot.word != 0 || s.knot.mergedBit)
  | .knotFirst => s.knot.firstSource + 2 ^ 8 * s.knot.firstClass + 2 ^ 16 * b2n s.knot.windowOpen
  | .knotMerged hi => if hi then field s.knot.merged 32 30 else field s.knot.merged 0 32
  | .knotMergeCount => s.knot.mergeCount
  | .knotLogStat => s.knot.tail + 2 ^ 16 * s.knot.dropped
  | .knotSrc i => 2 ^ 8 * tget 0 s.knot.lastClass i + 2 ^ 16 * tget 0 s.knot.events i
  | .tmpFreq c => 2 ^ 15 * s.fNow c
  | .trdStat => s.treadle.stat
  | .trdLastWake =>
    let t := s.treadle
    t.wakeSource + 2 ^ 4 * t.wakeFrom + 2 ^ 7 * t.wakePort + 2 ^ 10 * t.wakeEpoch
  | .trdWakeCyc j => field s.treadle.wakeCycle (32 * j) (if j = 0 then 32 else 16)
  | .trdPower => s.treadle.power
  | .trdTherm => 2 ^ 16 * 0x69 + 2 ^ 24 * s.treadle.now
  | .bootStat => s.boot.state.code + 2 ^ 4 * s.boot.image.slot + 2 ^ 8 * s.boot.failCause + 2 ^ 12 * s.boot.image.keySlot
  | .bootSlot x => (tget {} s.boot.slots x).word
  | .bootStageStat => b2n (s.boot.stage != .idle) + 2 * b2n s.boot.stageErr
  | .bootActStat => s.boot.phase.code + 2 ^ 4 * s.boot.result + 2 ^ 16 * s.boot.held
  | .fusMap i => if i < 8 then 0 else field s.fuseWord (32 * i) 32
  | .fusProgStat => b2n s.trust.blowBusy + 2 * s.trust.progResult
  | .truStat => s.trust.attested + 4 * b2n (!s.trust.queue.isEmpty) + 2 ^ 16 * s.trust.reports
  | _ => 0

/-- What a register reads: its RW fields and its RO and W1C fields, which lie apart. -/
def State.regValue (s : State) (r : Reg) : Nat := s.reg r ||| s.roValue r

/-- The value at a BAR0 offset; an offset that is reserved reads zero (R14, R511). -/
def State.regRead (s : State) (off : Nat) : Nat :=
  match regAt off with
  | some r => s.regValue r
  | none => 0

/-- A byte of space 0x8: registers are 32 bits wide at multiples of 8 (R507). -/
def State.regByte (s : State) (off : Nat) : Byte := BitVec.ofNat 8 (field (s.regRead (off / 8 * 8)) (8 * (off % 8)) 8)

-- ## Who is answered

/-- In RECOVERY only the ID, BOOT, FUS and TRU blocks answer a host (R488). -/
def blockAnswers (off : Nat) : Bool := let b := off / 0x80000; b == 0 || b == 17 || b == 18 || b == 19

/-- The other blocks serve a source: not a host while the boot machine is in RECOVERY (R488). -/
def State.serving (s : State) (src : Src) : Bool :=
  match src with
  | .port _ _ => s.boot.state != .recovery
  | _ => true

/-- A register access of a source reaches the module: through a port whose link is up, of a function that exists and is in D0 (R500, R501,
R504), or over SMBus while VSIDE is good (R519). -/
def State.arrives (s : State) : Src → Bool
  | .port q f => (s.port q).linkUp && s.exists_ q f && !(s.func q f).d3
  | .smbus => s.treadle.vsideGood
  | .manager => true

/-- What an access does, if it arrives. -/
def State.via (s : State) (src : Src) (g : State → State) : State := if s.arrives src then g s else s

-- ## Enable and disable of a ring pair (R477, R513)

/-- Every accepted entry has completed and its completion is written or discarded (R513). -/
def State.ringDrained (s : State) (q k : Nat) : Bool :=
  (s.ring q k).held.isEmpty && s.entries.all (fun x => x.home != (q, k) && !(x.port == q && x.ring == k))

/-- The operations kept run one after another while nothing stops them. -/
def State.ringRun (s : State) (q k : Nat) : Nat → State
  | 0 => s
  | fuel + 1 =>
    let r := s.ring q k
    if r.closing then
      if s.ringDrained q k then (s.setRing q k { r with closing := false }).ringRun q k fuel else s
    else match r.ops with
      | [] => s
      | true :: rest =>
        (s.setRing q k { r with
          ops := rest, active := true, sqHead := 0, sqTail := 0, cqHead := 0, cqTail := 0, cqUsed := 0, phase := true
          window := [], inlined := [] }).ringRun q k fuel
      | false :: rest =>
        (s.setRing q k { r with ops := rest, active := false, closing := r.active }).ringRun q k fuel

/-- An enable or disable arrives; one equal to the last kept, or to the state reached, coalesces (R477). -/
def State.ringOp (s : State) (q k : Nat) (en : Bool) : State :=
  let r := s.ring q k
  if r.en = en ∧ (r.closing → en = false ∨ r.ops ≠ []) then s
  else
    let s1 := s.setRing q k { r with ops := r.ops ++ [en] }
    s1.ringRun q k (2 * r.ops.length + 4)

-- ## Function level reset (R504)

/-- The shutdowns of a function level reset have reached their end states. -/
def State.flrDone (s : State) (q f : Nat) : Bool :=
  (List.range 256).all (fun k => s.ringFunc q k != f || !(s.ring q k).closing) &&
  (List.range 16).all (fun p => !s.owns q f p || ((s.part p).st != .disabling && !(s.part p).ops.contains .disable))

/-- Function level resets whose shutdowns have ended are over. -/
def State.flrEnd (s : State) : State :=
  { s with funcs := tcanon {} (s.funcs.map (fun x => (x.1, if x.2.flr && s.flrDone (x.1 / 64) (x.1 % 64) then { x.2 with flr := false } else x.2))) }

end Sys2Proof.Machine
end

