-- ==== Sys2Proof/Machine/Access.lean ====
section
/-!
DEFINITION. Machine/Access.lean: what an access of a node, a command, a remote request or a host does: the checks in order, the status its
issuer takes when one fails, and the bytes moved (R67, R74, R75, R84, R219, R233, R241, R287).
-/

namespace Sys2Proof.Machine

/-- A state, and the status at which what was being done stopped, if it did. -/
abbrev Try := State × Option Nat

/-- Go on where nothing stopped. -/
def Try.andThen (t : Try) (f : State → Try) : Try :=
  match t.2 with
  | none => f t.1
  | some st => (t.1, some st)

/-- Steps in order up to the first that stops. -/
def Try.each {α : Type} (s : State) (f : State → α → Try) : List α → Try
  | [] => (s, none)
  | x :: r => Try.andThen (f s x) (fun s' => Try.each s' f r)

/-- The partition's own accesses: held only where UPDATE writes them (R370). -/
def partCtx (p : Nat) : Ctx := { part := some p }

-- ## Controllers that do not serve (R235, R238, R436)

/-- A policy or way change, or a disable, that is being written back concerns a group: its own policy differs, or a partition that holds it changes its
ways or is disabled (R238). -/
def State.groupChanging (s : State) (sp g : Nat) : Bool :=
  let holds (p : Nat) : Bool := bitAt (if sp = 0 then s.groups p else s.t2Groups p) g
  s.memCtl.changes.any (fun ch => match regAt ch.off with
    | some (.mscPolicy i) =>
      (if i = 2 then sp == 1 else sp == 0 && g / 16 == i) && field ch.value (2 * (g % 16)) 2 != s.cachePolicy sp g
    | some (.partT2Ways p) => holds p
    | some (.partCtl p) => holds p
    | _ => false)

/-- Whether the controller of an offset serves: no relocation of its group, no reset of its block, no write-back of the cache (R235, R238,
R436). -/
def State.serves (s : State) (sp o : Nat) : Bool :=
  !s.groupChanging sp (groupOf sp o) && !s.memCtl.relocating.contains (256 * sp + groupOf sp o) &&
  !s.memCtl.resetting.contains ((unitSource (unitClass sp) (unitOf sp o)).1 - 32)

/-- Whether accesses to a range go through now: those to a group that does not serve wait (R235, R238). Groups change only at the borders that
`checkPoints` names, units every 256 bytes. -/
def State.rangeOpen (s : State) (a n : Nat) : Bool :=
  (s.memCtl.changes.isEmpty && s.memCtl.relocating.isEmpty && s.memCtl.resetting.isEmpty) || !s.isLocal a || decide (2 ≤ gSpace a) ||
  (checkPoints a n).all (fun x => s.serves (gSpace x) (gOffset x))

-- ## Loom SRAM from outside (R74, R75, R84)

/-- The loom whose array and SRAM serve loom `l`: its host where it is a guest (R447). -/
def State.hostOf (s : State) (l : Nat) : Nat :=
  match s.guests.find? (fun g => g.retired == l) with
  | some g => g.host
  | none => l

/-- The island whose clock a loom runs on. -/
def State.loomIsland (s : State) (l : Nat) : Island := s.island (s.hostOf l / 8)

/-- The loom's clock runs: its cluster is powered, not gated, and its PLL does not relock (R52, R104). -/
def State.clocked (s : State) (l : Nat) : Bool := (s.loomIsland l).on && !(s.loomIsland l).gated && !(s.loomIsland l).relocking

/-- Whether a local range lies wholly in the FILL half. -/
def inFill (a n : Nat) : Bool := decide (fillBase ≤ a ∧ a + n ≤ feedBase)

/-- R74: an external write of [a, a + n) of loom `l` is accepted. -/
def State.extWriteOk (s : State) (l a n : Nat) : Bool :=
  inFill a n || ((s.loom l).node.isNone && s.bit .lmCfg 1)

/-- Bytes of [a, a + n) that lie in the FILL half: what the FILL byte counter counts (R98, R99). -/
def fillOverlap (a n : Nat) : Nat := min (a + n) feedBase - max a fillBase

/-- Bytes stored in a loom by local address; whole words written are good again, and an armed fault stores the next words with two bits
flipped (R442). -/
def State.loomStore (s : State) (l a : Nat) (bs : List Byte) : State :=
  let x := s.loom l
  let ws := (List.range ((bs.length + a % 8 + 7) / 8)).map (fun i => a / 8 * 8 + 8 * i)
  let whole := ws.filter (fun w => decide (a ≤ w ∧ w + 8 ≤ a + bs.length))
  let k := tget 0 x.armed 3
  let x1 := { x with
    bad := (x.bad.filter (fun w => !whole.contains (localPhys x w))) ++ (ws.take k).map (localPhys x)
    armed := tset 0 x.armed 3 (k - ws.length) }
  let s1 := s.setLoom l x1
  ((List.range bs.length).zip bs).foldl (fun s ib => s.wr (s.localKey l (a + ib.1)) ib.2) s1

/-- An accepted external write: stored and counted. -/
def State.extWrite (s : State) (l a : Nat) (bs : List Byte) : State :=
  let s1 := s.loomStore l a bs
  let x := s1.loom l
  s1.setLoom l { x with fillBytes := x.fillBytes + fillOverlap a bs.length }

/-- An accepted external write, held in a channel while the cluster's PLL relocks (R104): its issuer then awaits one acknowledgement more. The
model puts every such write in the channel of the shuttles' island (DESIGN CHOICE, log 162). -/
def State.storeExt (s : State) (iss : Issuer) (l a : Nat) (bs : List Byte) : State :=
  if (s.loomIsland l).relocking then
    let k := 256 * 0x2E + s.hostOf l / 8
    ({ s with channels := tset [] s.channels k (tget [] s.channels k ++ [.store l a bs iss]) } : State).addAck iss
  else s.extWrite l a bs

/-- A refused external write is counted in the page of the loom's partition (R74, R199). -/
def State.countRefused (s : State) (l : Nat) : State :=
  match s.clusterPart (l / 8) with
  | some p => s.count p 6 1
  | none => s

/-- The first word of a local range, by role, that reads uncorrectable (R84). -/
def State.badIn (s : State) (l a n : Nat) : Option Nat :=
  let x := s.loom l
  (sortBy (fun v w => decide (v ≤ w)) (x.bad.map (localPhys x))).find? (fun w => decide (w < a + n ∧ a < w + 8))

/-- Whether a local range meets a word that reads uncorrectable. -/
def State.meetsBad (s : State) (l a n : Nat) : Bool := (s.badIn l a n).isSome

/-- The looms a range of space 0x2 touches, with the local range in each. -/
def loomPieces (o n : Nat) : List (Nat × Nat × Nat × Nat) :=
  (List.range (n / loomBytes + 2)).filterMap (fun i =>
    let l := o / loomBytes + i
    let lo := max o (l * loomBytes)
    let hi := min (o + n) ((l + 1) * loomBytes)
    if lo < hi then some (l, lo - l * loomBytes, hi - lo, lo - o) else none)

-- ## Reads

/-- The status a read of `n` bytes ends with, if it fails. -/
def State.readErr (s : State) (c : Ctx) (a n : Nat) : Option Nat :=
  if n = 0 then none
  else if !s.isLocal a then (if s.inTorus (gModule a) then none else some stInvalid)
  else if !s.allowed c a n false then some stInvalid
  else if gSpace a ≤ 1 then (if s.anyPoison c a n false then some stRetryExhausted else none)
  else if gSpace a = 2 then
    (if (loomPieces (gOffset a) n).any (fun x => s.meetsBad x.1 x.2.1 x.2.2.1) then some stRetryExhausted else none)
  else if gSpace a = 8 ∨ (s.port (gSpace a - 4)).linkUp then none else some stRetryExhausted

/-- What a failing read meets uncorrectable is recorded at the end of the command: lines stored uncorrectable and not poisoned yet (R233), words
of loom SRAM (R84). -/
def State.meetLines (s : State) (c : Ctx) (ks : List Nat) : State :=
  let bad := ks.dedup.filter (fun k => s.memCtl.corrupt.contains k && !s.memCtl.poison.contains k && !s.cached k)
  { s with deferred := s.deferred ++ bad.map (fun k => .line k c.part) }

/-- The same of a range that a read meets. -/
def State.meet (s : State) (c : Ctx) (a n : Nat) : State :=
  if n = 0 ∨ !s.isLocal a ∨ !s.allowed c a n false then s
  else if gSpace a ≤ 1 then
    if s.memCtl.corrupt.isEmpty then s
    else s.meetLines c ((List.range ((a % 64 + n + 63) / 64)).map (fun i => s.lineKey c (a / 64 * 64 + 64 * i) false))
  else if gSpace a = 2 then
    { s with deferred := s.deferred ++ (loomPieces (gOffset a) n).filterMap (fun x =>
        (s.badIn x.1 x.2.1 x.2.2.1).map (fun w => .word x.1 w c.part)) }
  else s

/-- The status a read ends with where it fails, and the state with what it met noted; the lines of a good read pass the cache (R236). -/
def State.mayRead (s : State) (c : Ctx) (a n : Nat) : Try :=
  match s.readErr c a n with
  | some st => (s.meet c a n, some st)
  | none => (if s.isLocal a then s.pass c a n false else s, none)

/-- The bytes an address holds: this module's own, its set-up registers among them (R64), or what a remote address last answered. -/
def State.valueAt (s : State) (c : Ctx) (a n : Nat) : List Byte :=
  if s.isLocal a then (if gSpace a = 8 then (List.range n).map (fun i => s.regByte (gOffset a + i)) else s.readAt c a n) else s.rdBytes (remoteKey a) n

/-- A read that has passed its checks, or none. -/
def State.fetch (s : State) (c : Ctx) (a n : Nat) : Option (List Byte) :=
  match s.readErr c a n with
  | none => some (s.valueAt c a n)
  | some _ => none

/-- Why something a command or node names is not taken: a status, and the range whose read failed (none: length 0). -/
abbrev Missed := Nat × Nat × Nat

/-- What is wrong is the contents. -/
def badContents : Missed := (stInvalid, 0, 0)

/-- A block of bytes a command or node names, read as it stands (log 24), or the read that failed. -/
def State.need (s : State) (c : Ctx) (a n : Nat) : Except Missed (List Byte) :=
  match s.readErr c a n with
  | none => .ok (s.valueAt c a n)
  | some st => .error (st, a, n)

/-- What the failed read met is noted (R84, R233). -/
def State.missed (s : State) (c : Ctx) (e : Missed) : State := s.meet c e.2.1 e.2.2

-- ## Writes

/-- The status a write of `n` bytes ends with, if it is not made. -/
def State.writeErr (s : State) (c : Ctx) (a n : Nat) : Option Nat :=
  if n = 0 then none
  else if !s.isLocal a then (if s.inTorus (gModule a) then none else some stInvalid)
  else if !s.allowed c a n true then some stInvalid
  else if gSpace a ≤ 1 then (if s.partialPoison c a n then some stRetryExhausted else none)
  else if gSpace a = 2 then
    (if (loomPieces (gOffset a) n).all (fun x => (s.loomIsland x.1).relocking || s.extWriteOk x.1 x.2.1 x.2.2.1) then none else some stInvalid)
  else if gSpace a = 8 ∨ (s.port (gSpace a - 4)).linkUp then none else some stRetryExhausted

/-- Function that carries a partition's host accesses (R241). -/
def State.requester (s : State) (c : Ctx) : Nat :=
  match c.part with
  | some p => (match s.owner p with | some (_, f) => f | none => 0)
  | none => 0

/-- Whole lines around a remote write: bytes of the first and last line that the write does not give are those last read there
(log 19). -/
def State.wholeLines (s : State) (a : Nat) (bs : List Byte) : Nat × List Byte :=
  let a0 := a / 64 * 64
  let e := a + bs.length
  (a0, s.rdBytes (remoteKey a0) (a - a0) ++ bs ++ s.rdBytes (remoteKey e) ((64 - e % 64) % 64))

/-- A write: checked, then made; a remote one leaves as WR packets whose acknowledgements the issuer awaits. -/
def State.put (s : State) (c : Ctx) (iss : Issuer) (a : Nat) (bs : List Byte) : Try :=
  match s.writeErr c a bs.length with
  | some st =>
    if s.isLocal a ∧ gSpace a = 2 ∧ s.allowed c a bs.length true then (s.countRefused (gOffset a / loomBytes), some st)
    else if s.isLocal a ∧ gSpace a ≤ 1 ∧ s.allowed c a bs.length true then
      (s.meetLines c ((if a % 64 = 0 then [] else [s.lineKey c a true]) ++
        (if (a + bs.length) % 64 = 0 then [] else [s.lineKey c (a + bs.length - 1) true])), some st)
    else (s, some st)
  | none =>
    if bs.isEmpty then (s, none)
    else if !s.isLocal a then
      let w := s.wholeLines a bs
      s.remoteWrite iss (c.part.getD 0) w.1 (chunks 512 w.2)
    else if gSpace a = 2 then
      ((loomPieces (gOffset a) bs.length).foldl (fun s x => s.storeExt iss x.1 x.2.1 (slice bs x.2.2.2 x.2.2.1)) s, none)
    else if gSpace a = 8 then ({ s with deferred := s.deferred ++ [.reg c.src (gOffset a) bs] }, none)
    else if 4 ≤ gSpace a then (s.hostPut (gSpace a - 4) (s.requester c) (spaceKey (gSpace a) (gOffset a)) bs, none)
    else ((s.cure c a bs.length).writeAt c a bs, none)

/-- One atomic update of a 64-bit word: 0 write, 1 add, 2 unsigned maximum (R191, R195). -/
def atomicOp (op old v : Nat) : Nat :=
  match op with
  | 0 => v
  | 1 => (old + v) % 2 ^ 64
  | _ => max old v

/-- A SIGNAL: an atomic update here, or an ATOMIC packet to another module. -/
def State.signal (s : State) (c : Ctx) (iss : Issuer) (a v op : Nat) : Try :=
  if 3 ≤ op ∨ a % 8 ≠ 0 then (s, some stInvalid)
  else if s.isLocal a then
    (s.mayRead c a 8).andThen (fun s => s.put c iss a (leBytes 8 (atomicOp op (le (s.valueAt c a 8) 0 8) v)))
  else s.request1 iss (c.part.getD 0) 5 1 a (leBytes 1 op ++ zeros 7 ++ leBytes 8 v ++ zeros 48)

-- ## Reads from elsewhere

/-- PCIe read requests for a range of a host window: whole 64-byte lines, each request aligned and no longer than the port's maximum payload and read
request, which its PF has (R241). Offset and length of each. -/
def State.hostRequests (s : State) (q off n : Nat) : List (Nat × Nat) :=
  let m := 128 * 2 ^ min (s.func q 0).payload (s.func q 0).request
  let lo := off / 64 * 64
  let hi := (off + n + 63) / 64 * 64
  (List.range (hi / m + 1 - lo / m)).filterMap (fun i =>
    let a := max lo ((lo / m + i) * m)
    let b := min hi ((lo / m + i + 1) * m)
    if a < b then some (a, b - a) else none)

/-- The requests go to the host with the requester ID of a function; each is answered on its own. -/
def State.askReads (s : State) (iss : Issuer) (q f off n : Nat) : State :=
  (s.hostRequests q off n).foldl (fun s x =>
    ({ s with hostReads := s.hostReads ++ [(q, iss)] } : State).emit (.hostRead q f x.1 x.2) |>.addAck iss) s

/-- The reads a source range needs before its bytes are here: RD_REQ packets to another module, PCIe reads of a host (R241, R288). A
local range needs none. -/
def State.bring (s : State) (c : Ctx) (iss : Issuer) (a n : Nat) : Try :=
  (s.mayRead c a n).andThen (fun s =>
    if n = 0 then (s, none)
    else if !s.isLocal a then
      let a0 := a / 64 * 64
      s.remoteRead iss (c.part.getD 0) (n / 64 + 2) a0 ((a + n - a0 + 63) / 64)
    else if gSpace a = 4 ∨ gSpace a = 5 then
      (s.askReads iss (gSpace a - 4) (s.requester c) (gOffset a) n, none)
    else (s, none))

end Sys2Proof.Machine
end

