-- ==== Sys2Proof/Machine/Pool.lean ====
section
/-!
DEFINITION. Machine/Pool.lean: the partition pool (R244 to R251): its directory in HBM, allocation with eviction, release, the pool-age
temple, and the pool status page.
-/

namespace Sys2Proof.Machine

-- ## The directory (R245)

/-- `n` bytes of HBM at an offset, where their units lie. -/
def State.hbm (s : State) (o n : Nat) : List Byte := (List.range n).map (fun i => s.rd (s.dataKey 0 (o + i)))
/-- Bytes written to HBM at an offset. -/
def State.setHbm (s : State) (o : Nat) (bs : List Byte) : State :=
  ((List.range bs.length).zip bs).foldl (fun s ib => s.wr (s.dataKey 0 (o + ib.1)) ib.2) s

/-- Offset of a partition's pool and its blocks, the directory included. -/
def State.poolBase (s : State) (p : Nat) : Nat := s.fld (.poolBase p) 0 18 * 0x200000
def State.poolBlocks (s : State) (p : Nat) : Nat := s.fld (.poolSize p) 0 18 * 32

/-- One directory entry. -/
structure PEnt where
  first : Nat
  blocks : Nat
  cls : Nat
  ownerPin : Bool
  freePending : Bool
  pins : Nat
  refs : Nat
  lastUse : Nat
  counter : Nat
  key : Nat
  deriving DecidableEq, Repr

def State.pent (s : State) (p e : Nat) : PEnt :=
  let b := s.hbm (s.poolBase p + 32 * e) 32
  { first := le b 0 4, blocks := le b 4 4, cls := field (le b 8 1) 0 3, ownerPin := bitAt (le b 9 1) 0, freePending := bitAt (le b 9 1) 1,
    pins := le b 10 2, refs := le b 12 4, lastUse := le b 16 8, counter := le b 24 1, key := le b 28 4 }

def State.setPent (s : State) (p e : Nat) (x : PEnt) : State :=
  s.setHbm (s.poolBase p + 32 * e)
    (leBytes 4 x.first ++ leBytes 4 x.blocks ++ leBytes 1 x.cls ++ leBytes 1 (b2n x.ownerPin + 2 * b2n x.freePending) ++
     leBytes 2 x.pins ++ leBytes 4 x.refs ++ leBytes 8 x.lastUse ++ leBytes 1 x.counter ++ zeros 3 ++ leBytes 4 x.key)

/-- The entry with every byte zero: unused. -/
def State.clearPent (s : State) (p e : Nat) : State := s.setHbm (s.poolBase p + 32 * e) (zeros 32)

/-- Entries in use, ascending. -/
def State.pents (s : State) (p : Nat) : List (Nat × PEnt) :=
  if s.poolBlocks p = 0 then []
  else ((List.range 65536).map (fun e => (e, s.pent p e))).filter (fun x => decide (0 < x.2.blocks))

/-- The pick of a counter: the job's, or an unbound loop's own (R245). -/
def State.counterPick (s : State) (p c : Nat) : Nat :=
  if 1 ≤ c ∧ c ≤ 4 then (tget {} (s.part p).loops (c - 1)).pick else s.pickOf p

/-- Global address of an entry's first block. -/
def State.pentAddr (s : State) (p e : Nat) : Nat :=
  s.moduleNum * 2 ^ 52 + s.poolBase p + 65536 * (s.pent p e).first

/-- PINS up or down; both set LAST_USE (R246). -/
def State.pin (s : State) (p e : Nat) (up : Bool) : State :=
  let x := s.pent p e
  s.setPent p e { x with pins := if up then x.pins + 1 else x.pins - 1, lastUse := s.counterPick p x.counter }

-- ## Free runs and eviction (R247)

/-- First block of the lowest free run of `n` blocks, first fit; blocks 0 to 31 hold the directory. -/
def freeRun (total n : Nat) (used : List PEnt) : Option Nat :=
  let starts := 32 :: used.map (fun x => x.first + x.blocks)
  let ok (b : Nat) := decide (32 ≤ b ∧ b + n ≤ total) && used.all (fun x => decide (b + n ≤ x.first ∨ x.first + x.blocks ≤ b))
  (starts.filter ok).foldl (fun best b => match best with | none => some b | some m => some (min m b)) none

/-- The threshold A in force: the temple's, or PIN_AGE while PIN is 1 (R251). -/
def State.poolAge (s : State) (p : Nat) : Nat := if s.bit (.tmpPool p) 0 then s.fld (.tmpPool p) 16 16 else (s.part p).pool.age

/-- L in force of a slot: the temple's, or the pin limited to the bounds (R262, R263). -/
def State.leadOf (s : State) (p k : Nat) : Nat :=
  let x := tget {} (s.part p).slots k
  if s.bit (.tmpPfl p) 0 then clampTo x.leadMin x.leadMax (max 1 (s.fld (.tmpPfl p) 8 7)) else x.lead

/-- Age of an entry. -/
def State.age (s : State) (p : Nat) (x : PEnt) : Nat := s.counterPick p x.counter - x.lastUse

/-- Entries that age lets go: class 1 without references, class 2 (R246). -/
def PEnt.evictable (x : PEnt) : Bool :=
  !x.ownerPin && x.pins == 0 && ((x.cls == 1 && x.refs == 0) || x.cls == 2)

/-- The better of two candidates in the order of the first pass: older, then class 2, then the lower index. -/
def olderFirst (a b : Nat × Nat × Nat) : Bool :=
  decide (b.2.1 < a.2.1) || (a.2.1 == b.2.1 && (decide (b.2.2 < a.2.2) || (a.2.2 == b.2.2 && decide (a.1 < b.1))))

/-- The entry the next eviction takes: by age in the first pass; then class 2 by ascending LAST_USE and index. -/
def State.victimEntry (s : State) (p : Nat) : Option Nat :=
  let es := s.pents p
  let c1 := (es.filter (fun x => x.2.evictable && decide (s.poolAge p ≤ s.age p x.2))).map (fun x => (x.1, s.age p x.2, x.2.cls))
  match c1.foldl (fun best c => match best with | none => some c | some b => if olderFirst c b then some c else some b) none with
  | some c => some c.1
  | none =>
    let c2 := (es.filter (fun x => x.2.cls == 2 && x.2.pins == 0 && !x.2.ownerPin)).map (fun x => (x.1, x.2.lastUse))
    (c2.foldl (fun (best : Option (Nat × Nat)) c => match best with | none => some c | some b => if c.2 < b.2 then some c else some b) none).map (·.1)

/-- A handle that loses a page is EVICTED; its remaining pages that nothing references are freed (R416, R419). -/
def State.evictHandle (s : State) (p e : Nat) : State :=
  let x := s.part p
  let gone := (x.loops.flatMap (fun l => l.2.handles)).filter (fun h => h.st == .ready && h.pages.contains e)
  let s1 := s.setPart p { x with loops := x.loops.map (fun l => (l.1, { l.2 with
    handles := l.2.handles.map (fun h => if h.st == .ready && h.pages.contains e then { h with st := .evicted, pages := [], pos := 0 } else h) })) }
  (gone.flatMap (·.pages)).foldl (fun s e' =>
    let y := s.pent p e'
    if e' = e then s else if y.refs = 0 ∧ y.pins = 0 then s.clearPent p e' else s.setPent p e' { y with freePending := true }) s1

/-- One eviction, remembered and counted. -/
def State.evict (s : State) (p e cls : Nat) : State :=
  let y := s.pent p e
  let s1 := if y.cls = 1 then s.evictHandle p e else s
  let x := s1.part p
  let s2 := s1.setPart p { x with pool := { x.pool with
    evicted := ((y.cls, y.key, s1.counterPick p y.counter) :: x.pool.evicted).take 256,
    evictions := tset 0 x.pool.evictions y.cls (satInc 64 (tget 0 x.pool.evictions y.cls) 1),
    stagingEvictions := if cls = 3 then satInc 64 x.pool.stagingEvictions 1 else x.pool.stagingEvictions } }
  s2.clearPent p e

/-- Blocks in use, the directory included. -/
def State.blocksUsed (s : State) (p : Nat) : Nat := 32 + (s.pents p).foldl (fun n x => n + x.2.blocks) 0

/-- Lowest unused directory entry. -/
def State.unusedEntry (s : State) (p : Nat) : Option Nat := firstIdx 65536 (fun e => (s.pent p e).blocks == 0)

/-- A run and an unused entry, if both exist now. -/
def State.place (s : State) (p n : Nat) : Option (Nat × Nat) :=
  if s.poolBlocks p = 0 ∨ n = 0 then none
  else match s.unusedEntry p, freeRun (s.poolBlocks p) n ((s.pents p).map (·.2)) with
    | some e, some b => some (e, b)
    | _, _ => none

/-- Evict until the allocation has a place. -/
def State.makeRoom (s : State) (p cls n : Nat) : Nat → State × Option (Nat × Nat)
  | 0 => (s, s.place p n)
  | fuel + 1 =>
    match s.place p n with
    | some x => (s, some x)
    | none =>
      match s.victimEntry p with
      | none => (s, none)
      | some e => (s.evict p e cls).makeRoom p cls n fuel

/-- Whether the allocation would succeed were every entry of age evictable: a failure is then a protected one (R251). -/
def State.protectedFailure (s : State) (p n : Nat) : Bool :=
  let kept := ((s.pents p).map (·.2)).filter (fun x => !x.evictable)
  s.poolBlocks p != 0 && decide (kept.length < 65536) && (freeRun (s.poolBlocks p) n kept).isSome

/-- Classes whose entries the module pins itself while they are in use (R246). -/
def ownerPinned (cls : Nat) : Bool := cls == 0 || decide (3 ≤ cls)

/-- A refault: the class and key of an eviction no more than 2A picks ago, which is forgotten (R251). -/
def State.noteRefault (s : State) (p cls key pick : Nat) : State :=
  let x := s.part p
  let hit := x.pool.evicted.find? (fun v => v.1 == cls && v.2.1 == key && decide (pick - v.2.2 ≤ 2 * s.poolAge p))
  match hit with
  | none => s
  | some v => s.setPart p { x with pool := { x.pool with
      evicted := x.pool.evicted.erase v, refaults := satInc 64 x.pool.refaults 1, refault := true } }

/-- An allocation of `n` blocks (R247, R248): the entry, or none with the failure counted. -/
def State.alloc (s : State) (p cls key n counter : Nat) : State × Option Nat :=
  let pick := s.counterPick p counter
  let s0 := if cls = 1 ∨ cls = 2 then s.noteRefault p cls key pick else s
  let r := s0.makeRoom p cls n 65536
  match r.2 with
  | some (e, b) =>
    let s1 := r.1.setPent p e ⟨b, n, cls, ownerPinned cls, false, 0, if cls = 0 then 1 else 0, pick, counter, key % 2 ^ 32⟩
    let x := s1.part p
    (s1.setPart p { x with pool := { x.pool with highWater := max x.pool.highWater (s1.blocksUsed p) } }, some e)
  | none =>
    let s1 := r.1
    let x := s1.part p
    (s1.setPart p { x with pool := { x.pool with
      exhausted := satInc 64 x.pool.exhausted 1,
      keepDeclined := if cls = 2 then satInc 64 x.pool.keepDeclined 1 else x.pool.keepDeclined,
      failure := x.pool.failure || s1.protectedFailure p n } }, none)

/-- An entry whose release condition holds: freed at once when unpinned, else it keeps FREE_PENDING (R249). -/
def State.release (s : State) (p e : Nat) : State :=
  let x := s.pent p e
  if x.blocks = 0 then s
  else if x.pins = 0 then s.clearPent p e
  else s.setPent p e { x with freePending := true, ownerPin := false }

/-- The entries of FREE_PENDING that nothing pins or references, at a boundary of their counters (R249). `which` says whether a counter's
boundary this is. -/
def State.reclaim (s : State) (p : Nat) (which : Nat → Bool) : State :=
  (s.pents p).foldl (fun s x =>
    if x.2.freePending && x.2.pins == 0 && (x.2.refs == 0 || x.2.cls == 3 || x.2.cls == 6) && which x.2.counter then s.clearPent p x.1 else s) s

/-- The class-2 entries of a pick, at the boundary that ends it (R249). -/
def State.releaseGathered (s : State) (p : Nat) : State :=
  (s.pents p).foldl (fun s x => if x.2.cls == 2 then s.release p x.1 else s) s

-- ## The pool-age temple (R251)

/-- AGE_MIN, AGE_MAX and INTERVAL. -/
def State.ageMin (s : State) (p : Nat) : Nat := s.fld (.tmpPoolBounds p) 0 12
def State.ageMax (s : State) (p : Nat) : Nat := max (s.ageMin p) (s.fld (.tmpPoolBounds p) 12 12)
def State.ageInterval (s : State) (p : Nat) : Nat := max 1 (s.fld (.tmpPoolBounds p) 24 8)

/-- The update at the end of an interval; while PIN is 1 the threshold is PIN_AGE. -/
def poolAgeUpdate (s : State) (p : Nat) : State :=
  let x := s.part p
  let a := x.pool.age
  let a' := if s.bit (.tmpPool p) 0 then s.poolAge p
    else if x.pool.failure then max (s.ageMin p) (a / 2)
    else if x.pool.refault then min (s.ageMax p) (a + max 1 (a / 4))
    else a
  s.setPart p { x with pool := { x.pool with age := a', failure := false, refault := false, picks := 0 } }

/-- One pick ends for the temple: at the interval's end it updates. -/
def State.agePick (s : State) (p : Nat) : State :=
  let x := s.part p
  let s1 := s.setPart p { x with pool := { x.pool with picks := x.pool.picks + 1 } }
  if s.ageInterval p ≤ x.pool.picks + 1 then poolAgeUpdate s1 p else s1

-- ## The pool status page (R250)

/-- Longest free run. -/
def longestRun (total : Nat) (used : List PEnt) : Nat :=
  let starts := 32 :: used.map (fun x => x.first + x.blocks)
  let endOf (b : Nat) := used.foldl (fun m x => if b ≤ x.first then min m x.first else m) total
  (starts.filter (fun b => used.all (fun x => decide (b < x.first ∨ x.first + x.blocks ≤ b)))).foldl (fun m b => max m (endOf b - b)) 0

/-- The page's first 240 bytes. -/
def State.poolPageBytes (s : State) (p : Nat) : List Byte :=
  let x := s.part p
  let es := (s.pents p).map (·.2)
  let total := s.poolBlocks p
  let sum (f : PEnt → Bool) := (es.filter f).foldl (fun n y => n + y.blocks) 0
  leBytes 8 x.pool.gen ++ s.stamp 0x20 (some p) ++ leBytes 8 total ++ leBytes 8 (total - (32 + sum (fun _ => true))) ++
  leBytes 8 (sum (fun y => y.ownerPin || y.pins != 0)) ++ leBytes 8 (longestRun total es) ++ leBytes 8 (s.poolAge p) ++
  (List.range 8).flatMap (fun c => leBytes 8 (sum (fun y => y.cls == c))) ++
  (List.range 8).flatMap (fun c => leBytes 8 (tget 0 x.pool.evictions c)) ++
  leBytes 8 x.pool.exhausted ++ leBytes 8 x.pool.refaults ++ leBytes 8 x.pool.keepDeclined ++ leBytes 8 x.pool.highWater ++
  (List.range 8).flatMap (fun k => leBytes 1 (s.leadOf p k)) ++ leBytes 8 x.pool.stagingEvictions

/-- The page written, GEN advanced by two. -/
def State.writePoolPage (s : State) (p : Nat) : State :=
  match s.owner p with
  | none => s
  | some (q, f) =>
    let a := s.addr (.poolPage p 0) (.poolPage p 1)
    if a = 0 then s
    else
      let x := s.part p
      let s1 := s.setPart p { x with pool := { x.pool with gen := (x.pool.gen + 2) % 2 ^ 64 } }
      s1.putPage q f a (s1.poolPageBytes p)

end Sys2Proof.Machine
end

