-- ==== Sys2Proof/Machine/Commit.lean ====
section
/-!
DEFINITION. Machine/Commit.lean: what belongs to a pick as a whole: weight versions (R27 to R41), flip regions at a commit (R372), exponent
history and low-rank state (R311, R325), and the states of a job.
-/

namespace Sys2Proof.Machine

-- ## The job

def State.setJob (s : State) (p : Nat) (f : Job → Job) : State :=
  let x := s.part p
  s.setPart p { x with job := f x.job }

/-- The partition is a member of a job: it has joined, or its job is SOLO (R339, R341). -/
def State.hasJob (s : State) (p : Nat) : Bool := s.bit (.jobCtl p) 16
def State.solo (s : State) (p : Nat) : Bool := s.bit (.jobCtl p) 17
def State.jobId (s : State) (p : Nat) : Nat := s.fld (.jobCtl p) 0 16

/-- A manager's standby, once it has taken over, stands for it (R349). -/
def State.managerOf (s : State) (p : Nat) : Nat :=
  let m := s.fld (.jobMgr p) 0 12
  match s.manager.replaced.find? (fun r => r.1 == m) with
  | some r => r.2
  | none => m

/-- A manager message of a member goes to its manager, and to the standby where STANDBY_EN is 1 (R339, R349). -/
def State.report (s : State) (p msg : Nat) (line : List Byte) : State :=
  let m := s.managerOf p
  let sb := s.fld (.jobMgr p) 12 12
  let s1 := s.sendMgr p m msg (s.jobId p) line
  if s.bit (.jobMgr p) 24 ∧ sb ≠ m then s1.sendMgr p sb msg (s.jobId p) line else s1

-- ## Weight versions

def State.version (s : State) (p w : Nat) : Option Version := (s.part p).job.versions.find? (fun v => v.number == w)

def State.setVersion (s : State) (p w : Nat) (f : Version → Version) : State :=
  s.setJob p (fun j => { j with versions := j.versions.map (fun v => if v.number = w then f v else v) })

/-- A unit latches the current version, or its latch ends (R35, R37, R40). -/
def State.latch (s : State) (p w : Nat) : State := s.setVersion p w (fun v => { v with latched := v.latched + 1 })
def State.unlatch (s : State) (p w : Nat) : State := s.setVersion p w (fun v => { v with latched := v.latched - 1 })

/-- The publication of a version (R27, R28, R29): its status. -/
def State.publish (s : State) (p w : Nat) : State × Nat :=
  let j := (s.part p).job
  if w = 0 ∨ w ≤ j.maxVersion then (s, stInvalid)
  else if 4 ≤ j.versions.length then (s, stPoolExhausted)
  else (s.setJob p (fun j => { j with
    versions := j.versions ++ [{ number := w, st := .published, gen := j.weightGen }], maxVersion := w }), stOK)

/-- The form bit of the layout the job's serving loop runs in (R33, R399); any form where no loop is bound (log 20). -/
def State.neededForm (s : State) (p : Nat) : Option Nat :=
  ((s.part p).loops.find? (fun l => l.2.bound && l.2.st != .disabled)).map (fun l => field (le l.2.cfg 1 1) 0 1)

def State.hasForm (s : State) (p : Nat) (v : Version) : Bool :=
  match s.neededForm p with
  | some f => bitAt v.forms f
  | none => v.forms != 0

/-- Whether a switch to a version may take effect (R33). -/
def State.maySwitch (s : State) (p w : Nat) : Bool :=
  match s.version p w with
  | some v => v.st != .current && s.hasForm p v
  | none => false

/-- A switch takes effect (R32, R40, R41): the version before becomes HELD, the publish holds up to the new number end. -/
def State.switchTo (s : State) (p w : Nat) : State :=
  s.setJob p (fun j => { j with versions := j.versions.map (fun v =>
    if v.number = w then { v with st := .current, hold := false }
    else
      let v1 := if v.number < w then { v with hold := false } else v
      if v1.st = .current then { v1 with st := .held } else v1) })

/-- Versions whose reference count is zero are freed at a boundary with their forms (R40, R41, R249). -/
def State.freeVersions (s : State) (p : Nat) : State :=
  let dead := (s.part p).job.versions.filter (fun v => v.st != .current && v.latched == 0 && !v.hold)
  if dead.isEmpty then s
  else
    let s1 := s.setJob p (fun j => { j with versions := j.versions.filter (fun v => v.st == .current || v.latched != 0 || v.hold) })
    (s1.pents p).foldl (fun s x => if x.2.cls == 4 && dead.any (fun v => v.number == x.2.key) then s.release p x.1 else s) s1

-- ## Flip regions (R372)

/-- Every dirty unit of the partition's regions settled: with `clear` the uncommitted bank becomes the committed one. -/
def State.settleFlips (s : State) (p : Nat) (clear : Bool) : State :=
  (s.flips.filter (fun f => f.part == p)).foldl (fun s f =>
    (List.range f.units).foldl (fun s u =>
      let k := s.flipByteKey f u
      let e := (s.rd k).toNat
      if !bitAt e 1 then s
      else s.wr k (BitVec.ofNat 8 (if clear then setField (setField e 0 1 (1 - e % 2)) 1 1 0 else setField e 1 1 0))) s) s

-- ## Streams (R305 to R311)

def Stream.id (x : Stream) : Nat := le x.block 0 4
def Stream.collective (x : Stream) : Nat := field (le x.block (if x.gather then 0 else 4) 2) 0 12
def Stream.mode (x : Stream) : Nat := le x.block 6 1
def Stream.rank (x : Stream) : Nat := le x.block 7 1
def Stream.zeroElement (x : Stream) : Bool := bitAt (le x.block 8 1) 0
def Stream.outPair (x : Stream) : Bool := le x.block 9 1 == 4
def Stream.elements (x : Stream) : Nat := le x.block 12 4
def Stream.boltArea (x : Stream) : Nat := le x.block 16 8
def Stream.lastNode (x : Stream) : Nat := le x.block 36 2
def Stream.sizeMin (x : Stream) : Nat := field (le x.block 38 1) 0 4
def Stream.sizeMax (x : Stream) : Nat := field (le x.block 38 1) 4 4
def Stream.xhist (x : Stream) : Nat := le x.block 40 8
def Stream.lrState (x : Stream) : Nat := le x.block 72 8
def Stream.statusAddr (x : Stream) : Nat := le x.block 80 8
/-- Granules of the stream, and granules of bolt `b` (R301). -/
def Stream.granules (x : Stream) : Nat := ceilDiv x.elements 262144
def Stream.boltGranules (x : Stream) (b : Nat) : Nat := min (2 ^ x.size) (x.granules - b * 2 ^ x.size)
def Stream.bolts' (x : Stream) : Nat := ceilDiv x.granules (2 ^ x.size)
def Stream.bolt (x : Stream) (b : Nat) : Option Bolt := x.bolts.find? (fun y => y.index == b)
def Stream.setBolt (x : Stream) (b : Nat) (f : Bolt → Bolt) : Stream :=
  { x with bolts := x.bolts.map (fun y => if y.index = b then f y else y) }

def State.setStream (s : State) (p d n : Nat) (f : Stream → Stream) : State :=
  let x := s.part p
  s.setPart p { x with streams := x.streams.map (fun y => if y.draft = d ∧ y.node = n then f y else y) }

/-- The predicted exponent byte of a granule (R311). -/
def State.xPred (s : State) (p : Nat) (x : Stream) (g : Nat) : Nat :=
  let h := le (s.readAt (partCtx p) (x.xhist + g) 1) 0 1
  if h = 0 then le x.block 10 1 else min 0xFE (h + 2)

/-- Whether a granule of a decided bolt reruns, and its final exponent byte (R314). -/
def Ctl.reruns (c : Ctl) (i : Nat) : Bool := bitAt c.range i
def State.xFinal (s : State) (p : Nat) (x : Stream) (c : Ctl) (g : Nat) : Nat :=
  let i := g % 2 ^ x.size
  if c.reruns i then field c.max8 (8 * i) 8 else s.xPred p x g

/-- The control result frozen everywhere, or on some module only (R318). -/
def Ctl.frozenAll (c : Ctl) (i : Nat) : Bool := bitAt c.frozen i && !bitAt c.live i
def Ctl.freezeMismatch (c : Ctl) (i : Nat) : Bool := bitAt c.frozen i && bitAt c.live i

/-- The history of a stream after a committed step: 1 plus each granule's final byte (R311, R325); a granule frozen everywhere keeps its
byte, since nothing was agreed for it (log 21). -/
def State.commitHistory (s : State) (p : Nat) (x : Stream) : State :=
  let new := (List.range x.granules).map (fun g =>
    match (x.bolt (g / 2 ^ x.size)).bind (·.ctl) with
    | some c => if c.frozenAll (g % 2 ^ x.size) then none else some (s.xFinal p x c g + 1)
    | none => none)
  (new.zipIdx).foldl (fun s vg => match vg.1 with
    | some v => s.writeAt (partCtx p) (x.xhist + vg.2) (leBytes 1 v)
    | none => s) s

/-- Q takes Q_NEXT and E takes E_NEXT (R319, R325). -/
def State.commitLowRank (s : State) (p lr : Nat) : State :=
  let c := partCtx p
  let b := s.readAt c lr 64
  let m := le b 0 4
  let n := le b 4 4
  let r := le b 8 1
  let s1 := s.writeAt c (le b 32 8) (s.readAt c (le b 40 8) (4 * n * r))
  s1.writeAt c (le b 48 8) (s1.readAt c (le b 56 8) (4 * m * n))

/-- The bolt-size temple counts a pick of a stream, with its TAIL where the pick has been committed or skipped (R329). -/
def Slot.noteTail (x : Slot) (y : Stream) (took : Bool) : Slot :=
  let b : BoltSize := match x.bolts.find? (fun b => b.1 == y.id) with
    | some b => b.2
    | none => { size := 0, lo := 0, hi := 0 }
  { x with bolts := (y.id, { size := y.size, lo := y.sizeMin, hi := y.sizeMax, sum := b.sum + (if took then y.tail else 0)
                             count := b.count + b2n took, picks := b.picks + 1 }) :: x.bolts.filter (fun b => b.1 != y.id) }

/-- The streams of a pick that resident drafts installed. -/
def State.noteTails (s : State) (p : Nat) (xs : List Stream) (took : Bool) : State :=
  xs.foldl (fun s y => match s.drafts.find? (fun d => d.id == y.draft) with
    | some d => (match d.slot with
      | some k => let z := s.part p
                  s.setPart p { z with slots := tset {} z.slots k ((tget {} z.slots k).noteTail y took) }
      | none => s)
    | none => s) s

/-- STATE of a bolt's header becomes ABORTED (R304, R305). -/
def State.markAborted (s : State) (p : Nat) (x : Stream) (b : Bolt) : State := s.writeAt (partCtx p) (x.boltArea + 128 * b.slot + 17) [5]

/-- Every bolt of a draft's streams becomes ABORTED in its header (R304, R326). -/
def State.abortBolts (s : State) (p d : Nat) : State :=
  ((s.part p).streams.filter (fun x => x.draft == d && !x.gather)).foldl (fun s x =>
    x.bolts.foldl (fun s b => s.markAborted p x b) s) s

/-- The commit of a pick under a verdict: 0 CLEAR, 1 SKIP, 2 FAIL (R325, R372). The streams of its step are uninstalled. -/
def State.commitPick (s : State) (p verdict : Nat) : State :=
  let x := s.part p
  let clear := decide (verdict = 0)
  let s0 := if verdict ≤ 1 then s else match x.job.step with | some d => s.abortBolts p d | none => s
  let s1 := (s0.settleFlips p clear).noteTails p (x.streams.filter (fun y => !y.gather && x.job.step == some y.draft)) (decide (verdict ≤ 1))
  let s2 := if clear then
      let red := x.streams.filter (fun y => !y.gather && x.job.step == some y.draft)
      let s2 := red.foldl (fun s y => s.commitHistory p y) s1
      (((red.filter (fun y => y.mode != 0)).map (·.lrState)).dedup).foldl (fun s lr => s.commitLowRank p lr) s2
    else s1
  let y := s2.part p
  s2.setPart p { y with
    streams := y.streams.filter (fun z => x.job.step != some z.draft)
    job := { y.job with weightGen := if clear && y.job.updated then y.job.weightGen + 1 else y.job.weightGen, updated := false } }

end Sys2Proof.Machine
end

