-- ==== Sys2Proof/Machine/Image.lean ====
section
/-!
DEFINITION. Machine/Image.lean: the loom image as bytes (R90 to R94, R98, R152), its validation (R91, R121, R122, R153, R165), the walks of
its address generators (R93), and its datapath graph (R86 to R89).
-/

namespace Sys2Proof.Machine

/-- Bytes of a loom image. -/
abbrev Img := List Byte

-- ## Header fields (R90)

def Img.id (i : Img) : Nat := le i 0 4
def Img.len (i : Img) : Nat := le i 4 4
def Img.numeric (i : Img) : Nat := le i 8 2
def Img.mode (i : Img) : Nat := field (le i 10 1) 0 2
def Img.weft (i : Img) : Nat := field (le i 11 1) 0 4
def Img.warp (i : Img) : Nat := field (le i 11 1) 4 4
def Img.acc (i : Img) : Nat := field (le i 12 1) 0 4
def Img.out (i : Img) : Nat := field (le i 12 1) 4 4
def Img.strict (i : Img) : Bool := bitAt (le i 13 1) 0
def Img.rm (i : Img) : Nat := field (le i 13 1) 3 2
def Img.graphNodes (i : Img) : Nat := le i 15 1
def Img.swapCount (i : Img) : Nat := le i 24 1
def Img.warpKeep (i : Img) : Bool := bitAt (le i 25 1) 0
def Img.chainStage (i : Img) : Bool := bitAt (le i 25 1) 1

/-- FLUSH_SUBNORMAL, ignored in strict mode (R128, R135). -/
def Img.flush (i : Img) : Bool := bitAt (le i 13 1) 1 && !i.strict

/-- The arithmetic context: strict mode ignores OVF_MODE (R92). -/
def Img.ctx (i : Img) : FCtx := ⟨i.strict, i.rm, if i.strict then .ieee else ovfOf (bitAt (le i 13 1) 2)⟩

-- ## Address generators (R93)

/-- One address generator: base, four counts, four signed strides, port. -/
structure Gen where
  base : Nat
  counts : List Nat
  strides : List Int
  port : Nat
  deriving DecidableEq, Repr

def Gen.ofBytes (b : List Byte) : Gen :=
  { base := field (le b 0 4) 0 22, counts := (List.range 4).map (fun k => le b (4 + 2 * k) 2 + 1),
    strides := (List.range 4).map (fun k => toSigned 32 (le b (12 + 4 * k) 4)), port := field (le b 28 1) 0 4 }

def Img.gens (i : Img) : List Gen :=
  (List.range (le i 14 1)).map (fun k => Gen.ofBytes (slice i (le i 16 2 + 32 * k) 32))

/-- The generator of a port: the first in the table. -/
def Img.gen (i : Img) (port : Nat) : Option Gen := i.gens.find? (fun g => g.port == port)

/-- Steps of one full walk. -/
def Gen.steps (g : Gen) : Nat := g.counts.foldl (· * ·) 1

/-- Loop indices of step `n` of a walk, loop 0 innermost; a walk that has ended starts over. -/
def Gen.indices (g : Gen) (n : Nat) : List Nat :=
  (g.counts.foldl (fun (acc : List Nat × Nat) c => (acc.1 ++ [acc.2 % c], acc.2 / c)) ([], n % g.steps)).1

/-- The address of step `n`; one below zero lies in no region. -/
def Gen.addr (g : Gen) (n : Nat) : Int :=
  ((g.indices n).zip g.strides).foldl (fun a p => a + (p.1 : Int) * p.2) (g.base : Int)

-- ## Regions (R94, R142)

/-- Whether an access of `n` bytes at a generated address lies in the regions its port may reach. -/
def portReaches (port : Nat) (a : Int) (n : Nat) : Bool :=
  let within (lo hi : Nat) := decide ((lo : Int) ≤ a ∧ a + n ≤ hi)
  match port with
  | 0 => within 0x2E0000 0x340000
  | 1 => within 0 0x280000
  | 2 => within 0x380000 0x400000
  | 3 => within 0x380000 0x400000
  | 4 => within 0x340000 0x380000
  | 5 => within 0x340000 0x380000
  | 6 => within 0x2E0000 0x340000 || within 0x340000 0x380000
  | 7 => within 0x340000 0x380000
  | _ => false

/-- Bytes of one accumulator element and of one tile row of 128 (R140). -/
def Img.accBytes (i : Img) : Nat := if i.acc = 4 then 8 else 4
def Img.tileRow (i : Img) : Nat := 128 * i.accBytes

/-- A port-2 or port-3 address is the start of a tile row (R142). -/
def Img.tileRowStart (i : Img) (a : Int) : Bool :=
  portReaches 2 a i.tileRow && decide ((a - 0x380000) % (i.tileRow : Int) = 0)

-- ## Fusion entry (R152) and swap table (R98)

def Img.fusion (i : Img) : List Byte := slice i (le i 20 2) 16
def Img.fuseOp (i : Img) : Nat := field (le i.fusion 0 1) 0 2
def Img.fuseScratch (i : Img) : Bool := bitAt (le i.fusion 0 1) 2
def Img.fuseFmt (i : Img) : Nat := field (le i.fusion 1 1) 0 4
def Img.outDest (i : Img) : Nat := field (le i.fusion 2 1) 0 3
def Img.boltAlso (i : Img) : Bool := bitAt (le i.fusion 2 1) 3
def Img.clearFirst (i : Img) : Bool := bitAt (le i.fusion 3 1) 0
def Img.epilogue (i : Img) : Bool := bitAt (le i.fusion 3 1) 1
def Img.reduceLoop (i : Img) : Nat := field (le i.fusion 3 1) 2 2
def Img.targetLoom (i : Img) : Nat := le i.fusion 4 1
def Img.boltStream (i : Img) : Nat := le i.fusion 8 4
/-- Whether an access of `n` bytes lies where a port of this image may reach: port 6 reads a fused input where FUSE_SRC says (R94, R152). -/
def Img.reaches (i : Img) (port : Nat) (a : Int) (n : Nat) : Bool :=
  portReaches port a n && (port != 6 || i.fuseOp == 0 || (if i.fuseScratch then decide (0x340000 ≤ a) else decide (a + n ≤ 0x340000)))
/-- Whether the image emits into a bolt (R302). -/
def Img.emits (i : Img) : Bool := i.epilogue && (i.boltAlso || i.outDest == 3)
/-- FEED_ROWS and FILL_BYTES of swap-table entry `k`, the table repeating (R98). -/
def Img.swap (i : Img) (k : Nat) : Nat × Nat :=
  let o := le i 22 2 + 8 * (k % i.swapCount)
  (le i o 4, le i (o + 4) 4)

-- ## The datapath graph (R86 to R89)

/-- One graph node. -/
structure GNode where
  op : Nat
  a : Nat
  b : Nat
  c : Nat
  imm : Nat
  deriving DecidableEq, Repr

def Img.graph (i : Img) : List GNode :=
  (List.range i.graphNodes).map (fun k =>
    let o := le i 18 2 + 8 * k
    ⟨le i o 1, le i (o + 1) 1, le i (o + 2) 1, le i (o + 3) 1, le i (o + 4) 4⟩)

/-- Sources an operation reads: one, two or three (R86). -/
def opArity (op : Nat) : Nat :=
  match op with
  | 1 => 2 | 2 => 2 | 4 => 2 | 5 => 2 | 3 => 3 | 6 => 3 | _ => 1

def opKnown (op : Nat) : Bool := decide (1 ≤ op ∧ op ≤ 9) || decide (0x10 ≤ op ∧ op ≤ 0x13)

/-- A source of node `k` names an earlier node, an input stream or the immediate (R86, R91). -/
def srcOk (k src : Nat) : Bool := decide (src < k ∧ src < 0x30) || decide (0x40 ≤ src ∧ src ≤ 0x43) || src == 0x80

/-- Rows computed, IEEE flags raised, overflows counted. -/
structure RowRes where
  vals : List Nat
  flags : Nat
  ovf : Nat
  deriving DecidableEq, Repr

/-- Results of element operations gathered into a row. -/
def gather (rs : List FRes) : RowRes :=
  { vals := rs.map (·.bits), flags := rs.foldl (fun f r => f ||| r.flags) 0, ovf := (rs.filter (·.ovf)).length }

/-- The sum of a row in index order, one rounding per addition (R87, R134, R137). -/
def rowSum (c : FCtx) (xs : List Nat) : FRes :=
  match xs with
  | [] => ⟨0, 0, false⟩
  | x :: r => r.foldl (fun acc y => let z := fp32F.add c acc.bits y; ⟨z.bits, acc.flags ||| z.flags, acc.ovf || z.ovf⟩) ⟨x, 0, false⟩

/-- The maximum of a row. -/
def rowMax (c : FCtx) (xs : List Nat) : FRes :=
  match xs with
  | [] => ⟨0, 0, false⟩
  | x :: r => r.foldl (fun acc y => let z := fmax c acc.bits y; ⟨z.bits, acc.flags ||| z.flags, false⟩) ⟨x, 0, false⟩

/-- One element operation of R87. -/
def elemOp (c : FCtx) (op a b d : Nat) : FRes :=
  match op with
  | 1 => fp32F.add c a b
  | 2 => fp32F.mul c a b
  | 3 => fp32F.fma c a b d
  | 4 => fmax c a b
  | 5 => fmin c a b
  | 6 => ⟨fsel a b d, 0, false⟩
  | 0x10 => fexp2 c a
  | 0x11 => flog2 c a
  | 0x12 => fp32F.rcp c a
  | 0x13 => fp32F.rsqrt c a
  | _ => ⟨a, 0, false⟩

/-- A source's row: an earlier output, or an operand from outside the graph with subnormals flushed (R128): an input stream, or the immediate on
every lane. A result of the graph is not flushed where a later node reads it (DESIGN CHOICE, log 163). -/
def srcRow (flush : Bool) (streams outs : List (List Nat)) (imm src : Nat) : List Nat :=
  if src < 0x30 then outs.getD src []
  else if src = 0x80 then List.replicate 128 (fp32F.flush flush imm)
  else (streams.getD (src - 0x40) (List.replicate 128 0)).map (fp32F.flush flush)

/-- The graph applied to one 128-element row: the PASS node's row with the flags and overflows of every node. An RSUM node counts one overflow
for its row, however many of its additions overflow (DESIGN CHOICE, log 164). -/
def runGraph (c : FCtx) (flush : Bool) (graph : List GNode) (streams : List (List Nat)) : RowRes :=
  let step (acc : List (List Nat) × Nat × Nat × List Nat) (g : GNode) : List (List Nat) × Nat × Nat × List Nat :=
    let row (src : Nat) := srcRow flush streams acc.1 g.imm src
    let a := row g.a
    let r : RowRes :=
      if g.op = 7 then let z := rowSum c a; ⟨List.replicate a.length z.bits, z.flags, b2n z.ovf⟩
      else if g.op = 8 then let z := rowMax c a; ⟨List.replicate a.length z.bits, z.flags, 0⟩
      else
        let b := if opArity g.op < 2 then a else row g.b
        let d := if opArity g.op < 3 then a else row g.c
        gather ((a.zip (b.zip d)).map (fun p => elemOp c g.op p.1 p.2.1 p.2.2))
    (acc.1 ++ [r.vals], acc.2.1 ||| r.flags, acc.2.2.1 + r.ovf, if g.op = 9 then r.vals else acc.2.2.2)
  let res := graph.foldl step ([], 0, 0, [])
  ⟨res.2.2.2, if c.strict then res.2.1 else 0, if c.strict then 0 else res.2.2.1⟩

-- ## Validation

/-- The array products of R121; in output-stationary mode `warp` is the first streamed operand. -/
def comboOk (warp weft : Nat) (strict : Bool) (acc : Nat) : Bool :=
  let mxf (c : Nat) := decide (8 ≤ c ∧ c ≤ 12)
  if strict then warp == weft && (warp == 0 || warp == 2) && acc == 0
  else if mxf warp && mxf weft then acc == 0 || acc == 4
  else if warp == 13 && weft == 13 then acc == 0 || acc == 4 || acc == 15
  else warp == weft && (warp == 1 || warp == 2 || warp == 3) && (acc == 0 || acc == 4)

/-- The output codes of R122. -/
def outputOk (acc : Nat) (strict graph : Bool) (out : Nat) : Bool :=
  if acc = 15 then out == 0 || out == 15
  else if strict then acc == 0 && decide (out ≤ 2)
  else decide (out ≤ 3) || fmtMx out || out == 14 || (acc == 4 && !graph && out == 4)

/-- The fusion entry's own rules (R152, R153). -/
def Img.fusionOk (i : Img) : Bool :=
  let f := i.fusion
  let hasPort (p : Nat) := (i.gen p).isSome
  zeroAt f 5 3 && zeroAt f 12 4 && field (le f 0 1) 3 5 == 0 && field (le f 1 1) 4 4 == 0 && field (le f 2 1) 4 4 == 0 &&
  field (le f 3 1) 4 4 == 0 && decide (i.fuseOp < 3) && decide (i.outDest < 4) &&
  (if i.fuseOp = 0 then i.fuseFmt == 0 else decide (i.fuseFmt ≤ 2) || fmtMx i.fuseFmt) &&
  (i.outDest == 1 || i.targetLoom == 0) && (i.boltAlso || i.outDest == 3 || i.boltStream == 0) &&
  (i.epilogue || (zeroAt f 0 3 && zeroAt f 4 1 && zeroAt f 8 4)) &&
  (i.out == 14) == (i.outDest == 3) && !(i.boltAlso && i.out == 14) &&
  !((i.out == 4 || i.out == 15) && (i.fuseOp != 0 || i.boltAlso || i.graphNodes != 0)) &&
  !(i.acc == 15 && i.out == 14) &&
  (!i.epilogue || (hasPort 2 && (i.fuseOp == 0 || hasPort 6) && (i.outDest != 0 || hasPort 7)))

/-- Every rule of validation but the numeric version (R91, R121, R122, R153, R165), for an image loaded through a table entry of the
id and length. -/
def Img.valid (i : Img) (id length : Nat) : Bool :=
  let n := i.len
  let fits (off bytes : Nat) := decide (off + bytes ≤ n)
  decide (64 ≤ n ∧ n ≤ 65536 ∧ n % 64 = 0 ∧ i.length = n) && n == length && i.id == id &&
  crc32 (patch i 60 (zeros 4)) == le i 60 4 &&
  zeroAt i 26 34 && field (le i 10 1) 2 6 == 0 && field (le i 13 1) 5 3 == 0 && field (le i 25 1) 2 6 == 0 &&
  decide (1 ≤ le i 14 1 ∧ le i 14 1 ≤ 8 ∧ i.graphNodes ≤ 48 ∧ i.swapCount ≤ 8) &&
  fits (le i 16 2) (32 * le i 14 1) && fits (le i 20 2) 16 &&
  (i.graphNodes == 0 || fits (le i 18 2) (8 * i.graphNodes)) && (i.swapCount == 0 || fits (le i 22 2) (8 * i.swapCount)) &&
  (List.range (le i 14 1)).all (fun k =>
    let g := slice i (le i 16 2 + 32 * k) 32
    decide (le g 0 4 < 2 ^ 22) && decide (le g 28 1 < 8) && zeroAt g 29 3) &&
  (i.graph.zipIdx).all (fun gk =>
    let g := gk.1
    opKnown g.op && srcOk gk.2 g.a && (decide (opArity g.op < 2) || srcOk gk.2 g.b) && (decide (opArity g.op < 3) || srcOk gk.2 g.c)) &&
  (i.graphNodes == 0 || (i.graph.filter (fun g => g.op == 9)).length == 1) &&
  (i.acc == 0 || i.acc == 4 || i.acc == 15) && fmtKnown i.weft && fmtKnown i.warp &&
  (i.mode == 3 || (comboOk i.warp i.weft i.strict i.acc && fmtOperand i.weft && fmtOperand i.warp)) &&
  !(i.mode == 1 && decide (i.warp = 3 ∨ (10 ≤ i.warp ∧ i.warp ≤ 12))) &&
  (decide (2 ≤ i.mode) || ((i.gen 0).isSome && (i.gen 1).isSome && (i.gen 3).isSome)) &&
  (i.mode != 2 || ((i.gen 3).isSome && (match i.gen 0 with | some g => g.counts.headD 0 == 2 | none => false))) &&
  outputOk i.acc i.strict (i.graphNodes != 0) i.out && i.fusionOk

/-- What loading an image answers (R91): INVALID, VERSION_MISMATCH or OK. An attention image must be one that the microcode tables of its
numeric version know (R427). -/
def Img.check (i : Img) (id length numeric : Nat) : Nat :=
  if !i.valid id length then 9
  else if i.numeric ≠ numeric then 8
  else if id / 2 ^ 24 = 0xA7 ∧ !Config.attentionImageKnown i.numeric id (le i 60 4) then 9
  else 0

-- ## Warp tiles and operand rows (R76)

/-- Reduction depth of a warp tile. -/
def tileDepth (fmt : Nat) : Nat := if 10 ≤ fmt ∧ fmt ≤ 12 then 256 else 128
/-- Bytes of a tile's elements and scales. -/
def tileElemBytes (fmt : Nat) : Nat := tileDepth fmt * 128 * fmtBits fmt / 8
def tileScaleBytes (fmt : Nat) : Nat := if fmtMx fmt then tileDepth fmt / 32 * 128 else 0
def tileBytes (fmt : Nat) : Nat := tileElemBytes fmt + tileScaleBytes fmt

/-- Elements of an operand row: 256 where both formats are two per cell, else 128 (R76, R121). -/
def Img.rowElems (i : Img) : Nat := if i.mode < 2 ∧ 10 ≤ i.weft ∧ i.weft ≤ 12 ∧ 10 ≤ i.warp ∧ i.warp ≤ 12 then 256 else 128

/-- Bytes of a row of `n` elements: packed elements, then its block scales (DEDUCED, log 18). -/
def rowBytes (fmt n : Nat) : Nat := n * fmtBits fmt / 8 + (if fmtMx fmt then n / 32 else 0)

/-- The exact value of element `k` of packed elements, without its block scale: what an array product multiplies. -/
def rawVal (fmt : Nat) (flush : Bool) (bs : List Byte) (k : Nat) : FVal := elemVal fmt flush (unpackElem fmt bs k)

/-- The components a product of two elements is formed from: three for BF16x2 pairs, each taken in its canonical form (R116, R117). -/
def products (fmt : Nat) (flush : Bool) (a b : Nat) : List FVal :=
  if fmt = 3 then
    let d (w : Nat) := bf16F.decode (bf16F.flush flush w)
    let pa := pairParts bf16F a
    let pb := pairParts bf16F b
    let ah := d pa.1
    let al := d pa.2
    let bh := d pb.1
    let bl := d pb.2
    [exactMul ah bh, exactMul ah bl, exactMul al bh]
  else []

end Sys2Proof.Machine
end

