-- ==== Sys2Proof/Machine/Nodes.lean ====
section
/-!
DEFINITION. Machine/Nodes.lean: drafts and their nodes: node records and tensor descriptors (R201 to R205), what the end of a node does
(R197, R210), the end of a draft and of a step (R206, R324, R325, R343).
-/

namespace Sys2Proof.Machine

-- ## Node records (R201, R202)

def Node.kind (n : Node) : Nat := le n.bytes 2 1
def Node.prio (n : Node) : Nat := field (le n.bytes 3 1) 0 2
def Node.bubble (n : Node) : Bool := bitAt (le n.bytes 3 1) 2
def Node.preStep (n : Node) : Bool := bitAt (le n.bytes 3 1) 3
def Node.clusterMask (n : Node) : Nat := le n.bytes 4 4
def Node.loomMask (n : Node) : Nat := le n.bytes 8 1
def Node.layer (n : Node) : Nat := le n.bytes 10 2
def Node.mb (n : Node) : Nat := le n.bytes 12 2
def Node.image (n : Node) : Nat := le n.bytes 16 4
/-- Tensor descriptor 0, 1 or 2. -/
def Node.td (n : Node) (i : Nat) : List Byte := slice n.bytes (32 + 24 * i) 24
/-- `k` bytes of KIND_ARGS from byte `o` of the record. -/
def Node.arg (n : Node) (o k : Nat) : Nat := le n.bytes o k

/-- Kinds that run on looms: LOOM_TASK, CHAIN, and UPDATE with a loom set. -/
def Node.onLooms (n : Node) : Bool := n.kind == 1 || n.kind == 2 || (n.kind == 6 && n.clusterMask != 0)

/-- Logical looms of the loom set, ascending: logical loom 8 c + j (R201, R218). -/
def Node.loomSet (n : Node) : List Nat :=
  if n.onLooms then (bitList 32 n.clusterMask).flatMap (fun c => (bitList 8 n.loomMask).map (fun j => 8 * c + j)) else []

-- ## Tensor descriptors (R204)

def tdBase (t : List Byte) : Nat := le t 0 8
def tdScaleOff (t : List Byte) : Int := toSigned 32 (le t 8 4) * 64
def tdShape (t : List Byte) : Nat := le t 12 12
def tdFmt (t : List Byte) : Nat := field (tdShape t) 0 4
def tdNdim (t : List Byte) : Nat := field (tdShape t) 4 2
def tdValid (t : List Byte) : Bool := bitAt (tdShape t) 6
/-- Extents of the four dimensions; those beyond NDIM are 1. -/
def tdDim (t : List Byte) (d : Nat) : Nat :=
  1 + (match d with | 0 => field (tdShape t) 8 21 | 1 => field (tdShape t) 29 21 | 2 => field (tdShape t) 50 8 | _ => field (tdShape t) 58 6)
def tdStride1 (t : List Byte) : Nat := field (tdShape t) 64 16 * 64
def tdStride2 (t : List Byte) : Nat := field (tdShape t) 80 16 * 4096
/-- Rows of DIM0: every index of the outer dimensions. -/
def tdRows (t : List Byte) : Nat := tdDim t 1 * tdDim t 2 * tdDim t 3
/-- Byte offset from BASE of outer row `r`, DIM1 innermost; DIM3 lies densely after DIM2 (R204). -/
def tdRowOff (t : List Byte) (r : Nat) : Nat := r % tdDim t 1 * tdStride1 t + r / tdDim t 1 * tdStride2 t
/-- Bytes of a row's elements, rounded up (R205). -/
def tdRowBytes (t : List Byte) : Nat := ceilDiv (tdDim t 0 * fmtBits (tdFmt t)) 8
/-- Global address of the scale bytes of row `r` (R111, R204). -/
def tdScaleAddr (t : List Byte) (r : Nat) : Nat := ((tdBase t : Int) + tdScaleOff t).toNat + r * (tdDim t 0 / 32)

/-- A descriptor that R203 accepts (R12, R13, R204, R205). -/
def tdOk (t : List Byte) : Bool :=
  if !tdValid t then t.all (· == 0)
  else
    let nd := tdNdim t
    let fmt := tdFmt t
    let plane := (tdDim t 1 - 1) * tdStride1 t + tdRowBytes t
    !bitAt (tdShape t) 7 && fmtKnown fmt && tdBase t % 64 == 0 &&
    (decide (1 ≤ nd) || (tdDim t 1 == 1 && tdStride1 t == 0)) && (decide (2 ≤ nd) || (tdDim t 2 == 1 && tdStride2 t == 0)) &&
    (decide (3 ≤ nd) || tdDim t 3 == 1) &&
    !(decide (1 ≤ nd) && decide (tdStride1 t < tdRowBytes t)) && !(decide (2 ≤ nd) && decide (tdStride2 t < plane)) &&
    (if fmtMx fmt then tdDim t 0 % 32 == 0 &&
        (let a := (tdBase t : Int) + tdScaleOff t
         decide (0 ≤ a) && a.toNat / 2 ^ 48 == tdBase t / 2 ^ 48 &&
         (a.toNat + tdRows t * (tdDim t 0 / 32) - 1) / 2 ^ 48 == tdBase t / 2 ^ 48)
      else tdScaleOff t == 0)

-- ## Drafts in flight

def State.draft (s : State) (d : Nat) : Option Draft := s.drafts.find? (fun x => x.id == d)
def State.setDraft (s : State) (d : Nat) (f : Draft → Draft) : State :=
  { s with drafts := s.drafts.map (fun x => if x.id = d then f x else x) }
def State.node (s : State) (d n : Nat) : Option Node := (s.draft d).bind (fun x => x.nodes[n]?)
def State.setNode (s : State) (d n : Nat) (f : Node → Node) : State :=
  s.setDraft d (fun x => { x with nodes := x.nodes.modify n f })

/-- A node of this state (R210): not dispatched, or saved and to be dispatched again. -/
def Node.running (n : Node) : Bool := match n.st with | .running => true | .stopped => true | _ => false
def Node.isDone (n : Node) : Bool := match n.st with | .done _ => true | _ => false
def Node.status (n : Node) : Nat := match n.st with | .done st => st | _ => 0

/-- The accesses of a draft's nodes: held writes and reads for a step that is not bubble-fill (R370), and the administrative host's
reach into shared regions (R243). -/
def nodeCtx (d : Draft) (n : Node) : Ctx :=
  { part := some d.part, admin := d.admin, src := .port d.port 0, held := !d.noStep && d.loop.isNone && !n.bubble }

/-- Physical looms of a node's loom set (R218). -/
def State.nodeLooms (s : State) (d : Draft) (n : Node) : List Nat := n.loomSet.map (s.physLoom d.part)

/-- FROZEN_SKIP of an UPDATE fails while STRICT_FREEZE is in force (R393). -/
def State.fails (s : State) (p : Nat) (n : Node) (status : Nat) : Bool :=
  failing status || (status == 1 && n.kind == 6 && (s.part p).strictFreeze)

-- ## The end of a draft (R192, R197)

/-- Bit of RESULT byte 29 for an informational status (R197). -/
def infoBit (status : Nat) : Nat :=
  match status with
  | 1 => 1
  | 0xB => 2
  | 0xA => 4
  | 7 => 8
  | 2 => 16
  | _ => 0

/-- The informational status seen that comes highest in the order of R197, or OK. -/
def infoStatus (bits : Nat) : Nat :=
  if bitAt bits 4 then 2 else if bitAt bits 3 then 7 else if bitAt bits 2 then 0xA else if bitAt bits 1 then 0xB else if bitAt bits 0 then 1 else 0

/-- The failing node with the lowest id, and its status. -/
def State.failNode (s : State) (d : Draft) : Option (Nat × Nat) :=
  ((d.nodes.zipIdx).find? (fun ni => ni.1.isDone && s.fails d.part ni.1 ni.1.status)).map (fun ni => (ni.2, ni.1.status))

/-- A draft has ended: every node is done, or one has failed and none runs (R197). -/
def Draft.ended (d : Draft) : Bool :=
  if d.failed then d.nodes.all (fun n => !n.running) else d.nodes.all Node.isDone

/-- RESULT of a DRAFT_RUN (R192): FAIL_NODE, the strict flags of R138, the informational bitmap of R197. -/
def Draft.result (d : Draft) (failNode : Nat) : Nat := failNode % 2 ^ 32 + 2 ^ 32 * (d.strict % 256) + 2 ^ 40 * (d.info % 256)

/-- FAIL_NODE of a draft as it stands. -/
def State.failedNode (s : State) (d : Draft) : Nat := match s.failNode d with | some (n, _) => n | none => 0xFFFFFFFF

/-- RESULT of an entry that ends as it stands. -/
def State.resultNow (s : State) (e : Entry) : Nat :=
  match s.drafts.find? (fun d => d.acc == some e.acc) with
  | some d => d.result (s.failedNode d)
  | none => e.result0

/-- What a draft holds of the pool goes back: the pins of its nodes, and staged entries no consumer has freed (R246, R249). -/
def State.freeDraft (s : State) (d : Draft) : State :=
  let s1 := (d.nodes.flatMap (·.pins)).foldl (fun s e => s.pin d.part e false) s
  d.staged.foldl (fun s e => s.release d.part e.2) s1

/-- A draft leaves the Heddle with its streams, and its DRAFT_RUN completes. -/
def State.completeDraft (s : State) (d : Draft) (status failNode : Nat) : State :=
  let s0 := s.freeDraft d
  let z := s0.part d.part
  let s1 := { s0.setPart d.part { z with streams := z.streams.filter (fun x => x.draft != d.id) } with
    drafts := s0.drafts.filter (fun x => x.id != d.id) }
  match d.acc with
  | none => s1
  | some e => s1.complete e status (d.result failNode)

/-- A loom without its node: a row-check retry ends with the work that began it. -/
def Loom.vacate (x : Loom) : Loom := { x with node := none, retry := false, retryParity := false }

/-- Looms that a draft's nodes hold are free, nothing of them kept. -/
def State.vacateLooms (s : State) (mine : Nat → Bool) : State :=
  { s with looms := tcanon {} (s.looms.map (fun l => match l.2.node with
      | some (d, _) => if mine d then (l.1, l.2.vacate) else l
      | none => l)) }

/-- A draft ends where it stands, and its DRAFT_RUN completes with a status. -/
def State.cutDraft (s : State) (d : Draft) (status : Nat) : State :=
  (s.vacateLooms (· == d.id)).completeDraft d status (s.failedNode d)

/-- The completion of a draft that ended without a verdict: a failing status first, else what was seen (R197). -/
def State.finishDraft (s : State) (d : Draft) : State :=
  match s.failNode d with
  | some (n, st) => s.completeDraft d st n
  | none => s.completeDraft d (infoStatus d.info) 0xFFFFFFFF

-- ## The end of a step (R324, R325, R343)

/-- The verdict of this member (R324): FAIL when a node of the step failed (log 22), SKIP when a granule was poisoned, else CLEAR. -/
def State.verdictOf (s : State) (p : Nat) (d : Draft) : Nat :=
  if (s.failNode d).isSome then 2
  else if (s.part p).streams.any (fun x => x.draft == d.id && x.poisoned) then 1
  else 0

/-- Publications due at the end of a pick, in order of acceptance (R29, R30). R30 names a commit and a skipped step; after a step that failed the
model publishes as after a pick without an update, with the working weights as the last committed update left them, and completes OK
(DESIGN CHOICE, log 158). -/
def State.publishDue (s : State) (p verdict : Nat) : State :=
  let due := s.entries.filter (fun e => e.part == p && e.opcode == 0x20 && e.st == .boundary && decide (e.effPick ≤ s.pickOf p))
  due.foldl (fun s e =>
    let w := field e.arg0 0 32
    let r := s.publish p w
    let st := if r.2 = 0 ∧ verdict = 1 then stSkippedNonfinite else r.2
    r.1.completeWith e.acc st (s.pickOf p) (if r.2 = 0 then w else 0)) s

/-- The decision of the pick reaches the member: commit, publications, the step's DRAFT_RUN (R325). -/
def State.applyVerdict (s : State) (p verdict : Nat) : State :=
  let j := (s.part p).job
  let s1 := s.commitPick p verdict
  let s2 := s1.setJob p (fun j => { j with
    st := if j.st = .halted then .halted else .boundary, step := none, reported := false, decided := some verdict, rerun := false, ended := none, attempt := 0 })
  let s3 := match j.step.bind s2.draft with
    | none => s2
    | some d =>
      let d := if j.rerun then { d with info := d.info ||| 8 } else d
      match verdict with
      | 1 => s2.completeDraft { d with info := d.info ||| 16 } stSkippedNonfinite 0xFFFFFFFF
      | 0 => s2.finishDraft d
      | _ => (match s2.failNode d with
        | some (n, st) => s2.completeDraft d st n
        | none => s2.completeDraft d stInvalid 0xFFFFFFFF)
  (s3.publishDue p verdict).writePages p

/-- Bytes 40 to 51 of a stream's record that holds a locator (R331). -/
def State.locatorOf (s : State) (p : Nat) : List Byte :=
  match (s.part p).streams.find? (fun x => x.locator.isSome) with
  | some x => (match x.locator with
    | some (b, e) => leBytes 4 b ++ leBytes 4 e ++ leBytes 2 (le x.block 60 2) ++ leBytes 2 s.moduleNum
    | none => [])
  | none => leBytes 4 0xFFFFFFFF ++ zeros 8

/-- The data line of a STEP_REPORT (R340). -/
def State.stepLine (s : State) (p verdict : Nat) : List Byte :=
  let j := (s.part p).job
  leBytes 8 j.pick ++ leBytes 1 j.attempt ++ leBytes 1 verdict ++ zeros 2 ++ leBytes 4 j.memberGen ++ s.locatorOf p

/-- The verdict goes to the manager; a SOLO job decides for itself (R339, R343). -/
def State.reportStep (s : State) (p verdict : Nat) : State :=
  if s.solo p then s.applyVerdict p verdict
  else (s.setJob p (fun j => { j with reported := true, verdict := verdict })).report p 4 (s.stepLine p verdict)

/-- A step draft of a loop that is not bound, or a bubble step: no work of the job's pick (R21, R405). -/
def State.offJob (s : State) (d : Draft) : Bool :=
  match d.loop with
  | some l => let x : Loop := tget {} (s.part d.part).loops l; !x.bound || x.bubble
  | none => false

/-- No node of the pick runs on the module but bubble-fill work (R59). -/
def State.quiet (s : State) (p : Nat) : Bool :=
  s.drafts.all (fun d => d.part != p || s.offJob d || d.nodes.all (fun n => !n.running || n.bubble))

/-- What the end of a node can end: its draft, and the step (R59, R206, R343). -/
def State.settleStep (s : State) (p : Nat) : State :=
  let j := (s.part p).job
  match j.step.bind s.draft with
  | some d => if d.ended && d.loop.isNone && s.quiet p && !j.reported && j.st != .halted then s.reportStep p (s.verdictOf p d) else s
  | none => (match j.ended with
    | some v => if s.quiet p && !j.reported && j.st != .halted then s.reportStep p v else s
    | none => s)

def State.checkDraft (s : State) (d : Nat) : State :=
  match s.draft d with
  | none => s
  | some x =>
    let s1 := if x.ended && x.loop.isNone && (x.noStep || !x.begun) then s.finishDraft x else s
    s1.settleStep x.part

-- ## Control state of a loom

/-- Accumulator rows as bits, by tile-row start. -/
def rowBits (rows : List Nat) : Nat := ((rows.map (fun r => (r - accBase) / 512)).dedup).foldl (fun a i => a + 2 ^ i) 0
def bitRows (n : Nat) : List Nat := (bitList 1024 n).map (fun i => accBase + 512 * i)

/-- The word that names an image in the control state: IMAGE_ID and IMG_CRC; 0 for an empty slot. -/
def imageWord (x : Loom) (k : Nat) : Nat :=
  match x.images.find? (fun i => i.1 == k) with
  | some i => le i.2 0 4 + 2 ^ 32 * le i.2 60 4
  | none => 0

/-- The word of a warp: its warp-store address and length with the top bit set; 0 for none. -/
def warpWord (w : Option (Nat × Nat)) : Nat := match w with | some (a, n) => a + 2 ^ 32 * n + 2 ^ 63 | none => 0
def warpOf (v : Nat) : Option (Nat × Nat) := if bitAt v 63 then some (field v 0 32, field v 32 31) else none

/-- An optional small number as a word. -/
def optWord (o : Option Nat) : Nat := match o with | some n => n + 1 | none => 0
def wordOpt (v : Nat) : Option Nat := if v = 0 then none else some (v - 1)

/-- The control state R223 lists, in words of 8 bytes and three row maps. -/
def Loom.control (x : Loom) : List Byte :=
  let r := x.run
  let t : Tile := r.tile.getD { base := 0 }
  let size (w : Option (Nat × List Byte)) : Option (Nat × Nat) := w.map (fun v => (v.1, v.2.length))
  ([b2n x.feedH1 + 2 * b2n r.tile.isSome + 4 * b2n t.skip + 8 * b2n t.fresh + 16 * b2n r.entered, optWord x.active] ++
    (List.range 4).map (imageWord x) ++
    [warpWord (size x.warp), warpWord (size x.shadow), warpWord x.loadingWarp, x.fillBytes, optWord x.pendingSwap,
     r.step, r.out, r.tiles, r.swapPos, r.feedRows, r.onWarp, r.fetched, t.base]).flatMap (leBytes 8) ++
  leBytes 16 (t.frozen.foldl (fun a i => a + 2 ^ i) 0) ++ leBytes 128 (rowBits x.notReady) ++ leBytes 128 (rowBits r.withheld) ++
  leBytes 128 (rowBits r.unread)

/-- Word `i` of a loom's control state. -/
def controlWord (b : List Byte) (i : Nat) : Nat := le b (8 * i) 8

/-- A loom as its control state says. What R223 does not list comes from `x`; images come from the image table by id, warps from the warp store (R223,
R225). -/
def Loom.ofControl (x : Loom) (b : List Byte) (image : Nat → List Byte) (store : Nat → Nat → List Byte) : Loom :=
  let w := controlWord b
  let held (v : Nat) : Option (Nat × List Byte) := (warpOf v).map (fun a => (a.1, store a.1 a.2))
  let t : Tile := x.run.tile.getD { base := 0 }
  { x with
    feedH1 := bitAt (w 0) 0
    active := wordOpt (w 1)
    images := (List.range 4).filterMap (fun k => if w (2 + k) = 0 then none else some (k, image (field (w (2 + k)) 0 32)))
    warp := held (w 6), shadow := held (w 7), loadingWarp := warpOf (w 8)
    fillBytes := w 9, pendingSwap := wordOpt (w 10), notReady := bitRows (le b 168 128)
    run := { x.run with
      step := w 11, out := w 12, tiles := w 13, swapPos := w 14, feedRows := w 15, onWarp := w 16, fetched := w 17, entered := bitAt (w 0) 4
      tile := if bitAt (w 0) 1 then some { t with base := w 18, skip := bitAt (w 0) 2, fresh := bitAt (w 0) 3, frozen := bitList 128 (le b 152 16) } else none
      withheld := bitRows (le b 296 128), unread := bitRows (le b 424 128) } }

-- ## Parked looms (R447, R449, R452)

/-- Slots of the parking area; values above 8 act as 8 (R434). -/
def State.parkSlots (s : State) (p : Nat) : Nat := min 8 (s.fld (.knotParkCtl p) 0 4)

def State.isVacant (s : State) (p lg : Nat) : Bool := s.vacant.contains (256 * p + lg)

/-- The live loom of a cluster that hosts the fewest guests, the lowest on a tie. -/
def State.fewestGuests (s : State) (c : Nat) : Option Nat :=
  (((List.range 8).map (8 * c + ·)).filter (fun l => !s.isRetired 0 l)).foldl (fun best l =>
    let n := (s.guests.filter (fun g => g.host == l)).length
    match best with
    | none => some (l, n)
    | some (b, m) => if n < m then some (l, n) else some (b, m)) (none : Option (Nat × Nat)) |>.map (·.1)

/-- The host loom of a retired loom of a partition: of its own cluster, else of the lowest logical cluster that has a live one. -/
def State.guestHost (s : State) (p l : Nat) : Option Nat := (l / 8 :: s.clusters p).findSome? s.fewestGuests

/-- The 4 KiB of control state of a loom in a parking slot (R447, R451). -/
def State.parkControl (s : State) (p slot l : Nat) : State :=
  let k := s.parkKey p slot + loomBytes
  (s.zero k 0x1000).wrBytes k (s.loom l).control

/-- The host loom exchanges its resident state with the parked one (R448). -/
def State.exchange (s : State) (g : Guest) : State :=
  let s1 := (s.swapMem (spaceKey 2 (g.host * loomBytes)) (s.parkKey g.part g.slot) loomBytes).parkControl g.part g.slot
    (if g.resident then g.retired else g.host)
  { s1 with guests := s1.guests.map (fun x => if x.retired = g.retired then { x with resident := !x.resident } else x) }

/-- The retirement page (R452). -/
def State.retirePageBytes (s : State) : List Byte :=
  let bits (cls n : Nat) : Nat := (List.range n).foldl (fun a u => if s.isRetired cls u then a + 2 ^ u else a) 0
  let gone (cls n : Nat) : Nat := popCount n (bits cls n)
  leBytes 8 s.genRetire ++ s.stamp 0x31 none ++ leBytes 32 (bits 0 256) ++ leBytes 32 (bits 1 256) ++ leBytes 8 (bits 2 64) ++
  leBytes 12 (bits 3 96) ++ leBytes 1 (s.port 0).maxWidth ++ leBytes 1 (s.port 1).maxWidth ++ zeros 2 ++
  leBytes 8 (Config.hbmBytes - gone 1 256 * 0x60000000) ++ leBytes 8 (Config.tier2Bytes - gone 2 64 * 0x3C0000000) ++
  leBytes 2 (256 - gone 0 256) ++ leBytes 2 (96 - gone 3 96) ++ zeros 4 ++
  (List.range 16).flatMap (fun p =>
    let mine := (s.guests.filter (fun g => g.part == p)).length
    leBytes 1 mine ++ leBytes 1 (s.parkSlots p - mine) ++ leBytes 1 (s.vacant.filter (fun v => v / 256 == p)).length ++ zeros 5) ++
  ((s.guests.take 128).flatMap (fun g => leBytes 4 (g.retired + 2 ^ 8 * g.host + 2 ^ 16 * g.logical + 2 ^ 24 * g.part + 2 ^ 31)))

def State.writeRetirePage (s : State) : State :=
  let s1 := { s with genRetire := (s.genRetire + 2) % 2 ^ 64 }
  s1.putAdminPage (s1.addr (.knotRetire 0) (.knotRetire 1)) s1.retirePageBytes

/-- A retired loom of a partition becomes a guest, its 4 MiB copied to the lowest free slot, or starting from zero; without a slot, a
readable copy or a live loom its logical id is vacant (R447). -/
def State.placeGuest (s : State) (p l : Nat) (copy : Bool) : State :=
  let lg := s.logicalLoom p l
  if s.guests.any (fun g => g.retired == l) ∨ s.isVacant p lg then s
  else
    let slot := firstIdx (s.parkSlots p) (fun i => s.guests.all (fun g => !(g.part == p && g.slot == i)))
    let s1 : State := match slot, s.guestHost p l with
      | some i, some h =>
        if copy && !(s.loom l).bad.isEmpty then ({ s with vacant := s.vacant ++ [256 * p + lg] } : State)
        else
          let s0 : State := if copy then (s.copyMem (s.loomKey l) (s.parkKey p i) loomBytes).parkControl p i l else s.zero (s.parkKey p i) 0x410000
          { s0 with guests := s0.guests ++ [{ retired := l, host := h, logical := lg, part := p, slot := i }] }
      | _, _ => { s with vacant := s.vacant ++ [256 * p + lg] }
    s1.writeRetirePage

/-- The guests of a host loom that has retired find another host (log 28). -/
def State.rehost (s : State) (l : Nat) : State :=
  let gs := s.guests.filter (fun g => g.host == l)
  let moved := gs.foldl (fun s g =>
    let s1 := if g.resident then s.exchange g else s
    match s1.guestHost g.part g.retired with
    | some h => { s1 with guests := s1.guests.map (fun x => if x.retired = g.retired then { x with host := h } else x) }
    | none => { s1 with
        guests := s1.guests.filter (fun x => x.retired != g.retired)
        vacant := s1.vacant ++ [256 * g.part + g.logical] }) s
  if gs.isEmpty then s else moved.writeRetirePage

/-- Retired looms that no node runs on any more, no guest's either, give their guests another host and are parked (R447). -/
def State.settleGuests (s : State) : State :=
  ((s.retired.filter (fun k => decide (k < 256)))).foldl (fun s l =>
    if (s.loom l).node.isSome || s.guests.any (fun g => g.host == l && (s.loom g.retired).node.isSome) then s
    else
      let s1 := s.rehost l
      match s1.clusterPart (l / 8) with
      | some p => if (s1.part p).st.idle then s1 else s1.placeGuest p l true
      | none => s1) s

/-- A guest mapping ends: its host has its own state again, the slot is free, the logical id is vacant (R449). -/
def State.endGuest (s : State) (g : Guest) : State :=
  let s1 := if g.resident then s.exchange g else s
  let s2 : State := { s1 with guests := s1.guests.filter (fun x => x.retired != g.retired), vacant := s1.vacant ++ [256 * g.part + g.logical] }
  s2.writeRetirePage

/-- The guest mappings of a partition end with it. -/
def State.dropGuests (s : State) (p : Nat) : State :=
  let mine := s.guests.filter (fun g => g.part == p)
  if mine.isEmpty ∧ s.vacant.all (fun v => v / 256 != p) then s
  else
    let s1 := (mine.filter (·.resident)).foldl State.exchange s
    let s2 : State := { s1 with guests := s1.guests.filter (fun g => g.part != p), vacant := s1.vacant.filter (fun v => v / 256 != p) }
    s2.writeRetirePage

-- ## The end of a node (R197, R210)

/-- The image of the active slot. -/
def Loom.image (x : Loom) : Option Img := x.active.bind (fun k => (x.images.find? (fun i => i.1 == k)).map (·.2))

/-- A loom whose node ends: a swap whose FEED_ROWS count is reached stays pending (R98). -/
def Loom.release (x : Loom) : Loom :=
  let y := x.vacate
  match x.image with
  | some i => if 0 < i.swapCount ∧ x.pendingSwap.isNone ∧ (i.swap x.run.swapPos).1 ≤ x.run.feedRows
      then { y with pendingSwap := some (i.swap x.run.swapPos).2, run := { x.run with feedRows := 0, swapPos := x.run.swapPos + 1 } } else y
  | none => y

/-- The looms a node holds become free. -/
def State.freeLooms (s : State) (d n : Nat) : State :=
  { s with looms := tcanon {} (s.looms.map (fun l => if l.2.node = some (d, n) then (l.1, l.2.release) else l)) }

/-- A class-3 entry is freed when its consumer completes (R249, R260). -/
def State.freeStaged (s : State) (x : Draft) (n : Nat) : State :=
  let done := x.staged.filter (fun st => match (tget {} (s.part x.part).slots (x.slot.getD 8)).schedule[st.1 + 1]? with
    | some b => le b 0 2 == n
    | none => false)
  if done.isEmpty then s
  else done.foldl (fun s st => s.release x.part st.2) (s.setDraft x.id (fun x => { x with staged := x.staged.filter (fun st => !done.contains st) }))

/-- A node has completed with a status: its looms and pins are free, its successors lose a predecessor, streams that wait for it learn of it,
and its draft may end. -/
def State.closeNode (s : State) (d n status : Nat) : State :=
  match s.draft d, s.node d n with
  | some x, some y =>
    if y.isDone then s
    else
      let bad := s.fails x.part y status
      let s1 := y.pins.foldl (fun s e => s.pin x.part e false) (s.freeLooms d n)
      let s2 := s1.setDraft d (fun x => { x with
        info := x.info ||| infoBit status, failed := x.failed || bad,
        nodes := (x.nodes.modify n (fun y => { y with st := .done status, pins := [] })).zipIdx.map (fun ni =>
          if y.succ.contains ni.2 then { ni.1 with deps := ni.1.deps - (y.succ.filter (· == ni.2)).length } else ni.1) })
      let s3 := s2.freeStaged x n
      let z := s3.part x.part
      let s4 := s3.setPart x.part { z with streams := z.streams.map (fun st =>
        if st.draft = d ∧ !st.gather ∧ st.lastNode = n then { st with lastDone := true } else st) }
      s4.settleGuests.checkDraft d
  | _, _ => s

/-- A node ends with a status: at once where every write of it is acknowledged, else with the last acknowledgement, with the first status it was given
(R210). -/
def State.endNode (s : State) (d n status : Nat) : State :=
  match s.node d n with
  | some y =>
    if y.running ∧ y.acks ≠ 0 then s.setNode d n (fun y => { y with worked := true, failing := some (y.failing.getD status) })
    else s.closeNode d n (y.failing.getD status)
  | none => s

/-- A node's dispatch stops it with a status before it did anything (its looms were not taken). -/
def State.refuseNode (s : State) (d n status : Nat) : State := s.endNode d n status

/-- Running nodes of a partition stop where they stand (R222). -/
def State.stopDrafts (s : State) (p : Nat) : State :=
  { s with drafts := s.drafts.map (fun d => if d.part = p then { d with nodes := d.nodes.map (fun n =>
      if n.st = .running then { n with st := .stopped } else n) } else d) }

/-- Running nodes of a partition stop where they stand; their looms are free (R222, R436). -/
def State.stopNodes (s : State) (p : Nat) : State :=
  let mine := (s.drafts.filter (fun d => d.part == p)).map (fun (d : Draft) => d.id)
  (s.stopDrafts p).vacateLooms mine.contains

-- ## Issuers

/-- A partition whose work moves: the module is in T0 (R462, R463), and the partition is not being saved, saved, restored, enabled or
halted (R220, R222, R436). -/
def State.runs (s : State) (p : Nat) : Bool :=
  s.treadle.state == 0 &&
  (match (s.part p).st with
   | .unconfigured => true
   | .configured => true
   | .active => true
   | _ => false)

/-- An entry of a prefetch schedule completes; with a failing status so does its consumer (R260). -/
def State.fetchEnd (s : State) (d i status : Nat) : State :=
  match s.draft d with
  | none => s
  | some x =>
    if x.fetched.any (fun f => f.1 == i) then s
    else
      let con := match (tget {} (s.part x.part).slots (x.slot.getD 8)).schedule[i + 1]? with | some b => le b 0 2 | none => 65536
      let s1 := s.setDraft d (fun x => { x with fetched := x.fetched ++ [(i, status)] })
      if status = 0 then s1 else s1.endNode d con status

/-- An access failed: its node or entry completes with the status (R241, R289, R295). -/
def State.failIssuer (s : State) (iss : Issuer) (status : Nat) : State :=
  match iss with
  | .node d n => (match s.node d n with
    | some y => if y.running then s.endNode d n status else s
    | none => s)
  | .entry e => s.complete e status (match s.entry e with | some x => x.result | none => 0)
  | .shed p i => s.setShed p (fun x => { x with failing := if x.failing.isSome then x.failing else some status, acks := tset 0 x.acks i 0, issued := x.issued.filter (· != i) })
  | .fetch d i => s.fetchEnd d i status
  | .outside => s

/-- Whether what an issuer asked of a shuttle has been made and acknowledged, or the issuer is gone. -/
def State.settled (s : State) (iss : Issuer) : Bool :=
  match iss with
  | .node d n => (match s.node d n with | some y => !y.running || (y.worked && y.acks == 0) | none => true)
  | .entry e => (match s.entry e with | some x => x.worked && x.acks == 0 | none => true)
  | .fetch d i => (match s.draft d with | some x => x.fetched.any (fun f => f.1 == i) || (x.fetchWorked.contains i && tget 0 x.fetchAcks i == 0) | none => true)
  | _ => true

/-- Requests that were merged with an issuer's, its own among them (R256), and whether all of them may complete. -/
def State.matesOf (s : State) (iss : Issuer) : List Issuer := (iss :: (s.mates.filter (fun g => g.contains iss)).flatten).dedup
def State.matesSettled (s : State) (iss : Issuer) : Bool := (s.matesOf iss).all s.settled

/-- What an issuer asked for is done and acknowledged: its entry completes; a node completes with NODE_COMPLETE, but for one that has failed. -/
def State.finishIssuer (s : State) (iss : Issuer) : State :=
  match iss with
  | .node d n => (match s.draft d, s.node d n with
    | some x, some y => if y.st = .running ∧ y.worked ∧ y.acks = 0 ∧ s.runs x.part then (match y.failing with
      | some st => if failing st then s.closeNode d n st else s
      | none => s) else s
    | _, _ => s)
  | .entry e => (match s.entry e with
    | some x => if x.acks = 0 ∧ x.worked ∧ s.runs x.part then s.complete e (x.failing.getD stOK) x.result else s
    | none => s)
  | .fetch d i => (match s.draft d with
    | some x => if x.fetchWorked.contains i ∧ tget 0 x.fetchAcks i = 0 then s.fetchEnd d i stOK else s
    | none => s)
  | _ => s

/-- One acknowledgement fewer is missing. -/
def State.lessAck (s : State) (iss : Issuer) : State :=
  match iss with
  | .node d n => s.setNode d n (fun y => { y with acks := y.acks - 1 })
  | .entry e => s.setEntry e (fun x => { x with acks := x.acks - 1 })
  | .shed p i => s.setShed p (fun x => { x with acks := tset 0 x.acks i (tget 0 x.acks i - 1) })
  | .fetch d i => s.setDraft d (fun x => { x with fetchAcks := tset 0 x.fetchAcks i (tget 0 x.fetchAcks i - 1) })
  | .outside => s

/-- An answer came: what was waiting for it, and what was merged with that, may be done. -/
def State.ackIssuer (s : State) (iss : Issuer) : State :=
  let s1 := s.lessAck iss
  (s1.matesOf iss).foldl (fun s i => if s.matesSettled i then s.finishIssuer i else s) s1

/-- An answer came, and it is a failure: the issuer ends with the status once nothing else is awaited (R192, R210). -/
def State.nackIssuer (s : State) (iss : Issuer) (status : Nat) : State :=
  let s1 := s.lessAck iss
  match iss with
  | .entry e =>
    let s2 := s1.setEntry e (fun x => { x with worked := true, failing := some (x.failing.getD status) })
    s2.finishIssuer iss
  | _ => s1.failIssuer iss status

/-- Entries whose acknowledgements came while their partition was stopped complete once it runs again (R222, R225). -/
def State.settleEntries (s : State) (p : Nat) : State :=
  (s.entries.filter (fun x => x.part == p && x.worked && x.acks == 0)).foldl (fun s x => s.complete x.acc (x.failing.getD stOK) x.result) s

/-- Host accesses outstanding on a port end in error (R241, R436, R504). -/
def State.endHostAccesses (s : State) (q : Nat) : State :=
  let mine := s.hostReads.filter (fun h => h.1 == q)
  let far := s.fabric.hostWaits.filter (fun h => h.1 == q)
  let s1 := mine.foldl (fun s h => s.nackIssuer h.2 stRetryExhausted) { s with
    hostReads := s.hostReads.filter (fun h => h.1 != q), fabric := { s.fabric with hostWaits := s.fabric.hostWaits.filter (fun h => h.1 != q) } }
  far.foldl (fun s h => s.refuse h.2.1 5) s1

/-- The BAR4 window registers of a function at reset (R504). -/
def State.resetBar4 (s : State) (q f : Nat) : State := s.setReg (.fnBar4 q f) (Reg.fnBar4 q f).reset

/-- PERST or the loss of a port's link (R504): its configuration space, MSI-X tables and BAR4 windows return to reset, its ring pairs are
disabled, its host accesses end, what waited for D0 finds the link down. -/
def State.portDown (s : State) (q : Nat) : State :=
  let s1 := s.endHostAccesses q
  let pt := s1.port q
  let s2 := s1.setPort q { pt with
    linkUp := false, width := 0, speed := 0, numVfs := 0, waiting := [], lost := satInc 16 pt.lost pt.waiting.length }
  let s3 : State := { s2 with funcs := s2.funcs.filter (fun x => x.1 / 64 != q) }
  let s4 := (List.range 64).foldl (fun s f => s.resetBar4 q f) s3
  (List.range 256).foldl (fun s k => if (s.ring q k).en then s.ringOp q k false else s) s4

/-- The queued requests of the given shuttles end RETRY_EXHAUSTED, and those of the selvage die with them every COPY at work there (R436). -/
def State.failShuttles (s : State) (ks : List Nat) : State :=
  let queued := (s.shuttles.filter (fun k => ks.contains k.1)).flatMap (fun k => k.2.flatMap (·.issuers))
  let ns := if ks.contains 0 then s.drafts.flatMap (fun d => (d.nodes.zipIdx.filter (fun ni =>
      ni.1.st == .running && ni.1.kind == 3 && ni.1.clusterMask == 0)).map (fun ni => Issuer.node d.id ni.2)) else []
  (queued ++ ns).dedup.foldl (fun s i => if s.settled i then s else s.failIssuer i stRetryExhausted)
    { s with shuttles := s.shuttles.filter (fun k => !ks.contains k.1) }

/-- PREEMPTs and RESUMEs of a partition that are held under R221. -/
def State.heldOps (s : State) (p : Nat) : List Nat :=
  (s.part p).ops.filterMap (fun o => match o with | .preempt a => some a | .resume a => some a | _ => none)

/-- Outstanding entries of a partition complete with a status, in order of acceptance, and its drafts leave; a PREEMPT or RESUME held under R221 completes
INVALID (R220, R222). -/
def State.dropWork (s : State) (p status : Nat) : State :=
  let held := s.heldOps p
  let ds := s.drafts.filter (fun d => d.part == p)
  let s1 := ds.foldl State.freeDraft (s.stopNodes p)
  let s2 : State := { s1 with drafts := s1.drafts.filter (fun d => d.part != p) }
  let es := (s.entries.filter (fun e => e.part == p)).map (fun e => (e, s.resultNow e))
  es.foldl (fun s e => s.complete e.1.acc (if held.contains e.1.acc then stInvalid else status) e.2) s2

end Sys2Proof.Machine
end

