-- ==== Sys2Proof/Machine/Operands.lean ====
section
/-!
DEFINITION. Machine/Operands.lean: the operand forms of a submission entry: which bits of ARG0 to ARG2 an opcode uses and which of them are
global addresses (R12, R187, R191).
-/

namespace Sys2Proof.Machine

-- ## Arguments (R191)

/-- Bits of a number above `n` are zero. -/
def fits (v n : Nat) : Bool := decide (v < 2 ^ n)

/-- The reserved bits of ARG0, ARG1 and ARG2 are zero, and the opcode is one of R191. -/
def argsOk (op a b c : Nat) : Bool :=
  match op with
  | 0x01 => fits b 26 && field b 17 3 == 0
  | 0x02 => fits c 40
  | 0x03 => fits a 2 && b == 0 && c == 0
  | 0x04 => decide (c < 3)
  | 0x10 => fits b 6 && c == 0
  | 0x11 => fits b 17 && field b 2 6 == 0 && c == 0
  | 0x12 => fits a 40 && b == 0 && c == 0
  | 0x13 => fits b 2 && c == 0
  | 0x14 => fits a 32 && fits b 2 && c == 0
  | 0x15 => fits b 32 && fits c 32
  | 0x16 => fits b 32 && fits c 32
  | 0x20 => fits a 32 && b == 0 && c == 0
  | 0x21 => fits a 32 && b == 0 && c == 0
  | 0x22 => fits b 32 && fits c 32
  | 0x30 => fits a 16 && fits b 32 && c == 0
  | 0x31 => fits b 16 && c == 0
  | 0x40 => fits c 2
  | 0x50 => fits a 1 && b == 0 && c == 0
  | 0x51 => a == 0 && b == 0 && c == 0
  | 0x60 => decide (a < 4) && (if a = 3 then fits b 40 else b == 0) && c == 0
  | 0x70 => fits a 6 && c == 0
  | _ => false

/-- The arguments of an opcode that are global addresses (R191). -/
def argAddrs (op a b c : Nat) : List Nat :=
  if op = 0x01 then (if bitAt b 23 then [] else [a, c])
  else if op = 0x02 then [a, b]
  else if op ∈ [0x04, 0x10, 0x11, 0x13, 0x15, 0x16, 0x22, 0x31, 0x40] then [a]
  else []

end Sys2Proof.Machine
end

