-- ==== Sys2Proof/Machine/Entries.lean ====
section
/-!
DEFINITION. Machine/Entries.lean: submission entries from the ring to their start: arguments (R12, R186, R187, R191), permission (R178,
R193, R513), wait conditions (R188), FENCE and its hold (R194), effective picks (R189).
-/

namespace Sys2Proof.Machine

-- ## Admission (R178, R183, R193, R513)

/-- An entry that R12, R13 and R183 accept. -/
def Entry.formOk (x : Entry) : Bool :=
  crc16 (x.bytes.take 62) == le x.bytes 62 2 && field (le x.bytes 2 1) 1 7 == 0 && decide (x.part < 16) && zeroAt x.bytes 56 6 &&
  field x.wait 41 22 == 0 && (bitAt x.wait 63 || x.wait == 0) && argsOk x.opcode x.arg0 x.arg1 x.arg2

/-- An entry that its ring pair may submit (R178, R193, R513). -/
def State.entryAllowed (s : State) (x : Entry) : Bool :=
  let adm := s.isAdmin x.port x.func
  let owned := s.owns x.port x.func x.part
  let far := (argAddrs x.opcode x.arg0 x.arg1 x.arg2).any (fun a => gSpace a == 8)
  if x.opcode = 0x70 ∨ far then adm else (adm && decide (x.opcode = 0x50 ∨ x.opcode = 0x51 ∨ x.opcode = 0x60)) || owned

-- ## Waits (R188)

/-- The port, ring pair and tag an entry waits for. -/
def Entry.waitsOn (x : Entry) : Nat × Nat × Nat := (x.port, field x.wait 32 8, field x.wait 0 32)

/-- An accepted entry whose wait condition is judged with the status of the entry it names. -/
def State.judgeWait (s : State) (x : Entry) (status : Nat) : State :=
  if bitAt x.wait 40 ∨ status = 0 then s.setEntry x.acc (fun y => { y with st := .ready })
  else s.endEntry x.acc stCancelled

/-- The wait condition at acceptance: an outstanding entry of the tag holds it, a remembered one decides, any other tag satisfies it. -/
def State.startWait (s : State) (x : Entry) : State :=
  if !bitAt x.wait 63 then s
  else
    let w := x.waitsOn
    if s.entries.any (fun y => y.acc != x.acc && y.port == w.1 && y.ring == w.2.1 && y.tag == w.2.2) then
      s.setEntry x.acc (fun y => { y with st := .waiting })
    else match (s.ring w.1 w.2.1).history.find? (fun h => h.1 == w.2.2) with
      | some h => s.judgeWait x h.2
      | none => s

-- ## Starting

/-- Entries of the same ring pair accepted before. -/
def Entry.before (x y : Entry) : Bool := x.port == y.port && x.ring == y.ring && decide (x.acc < y.acc)

/-- A FENCE with HOLD that stands before the entry in its ring (R194), or a DRAFT_RUN there that R214 holds with all that follows it. -/
def State.fenced (s : State) (x : Entry) : Bool :=
  s.entries.any (fun y => y.before x && ((y.opcode == 3 && bitAt y.arg0 1) || s.overLimit y))

/-- The entry of an acceptance number and opcode that may start now: its wait is over, no fence holds it, its partition runs and no activation
holds it (R490). -/
def State.startable (s : State) (e op : Nat) : Option Entry :=
  match s.entry e with
  | some x => if x.opcode = op ∧ (x.st = .ready ∨ x.st = .held) ∧ x.parked.isNone ∧ !s.fenced x ∧ s.runs x.part ∧ !bitAt s.boot.held x.part then some x else none
  | none => none

/-- The job of the partition is at a step boundary, or there is none (R189). -/
def State.atBoundary (s : State) (p : Nat) : Bool :=
  match (s.part p).job.st with
  | .none => true
  | .boundary => s.quiet p
  | _ => false

/-- The boundary the job stands at is the entry's effective pick, and no shed change is taking effect (R189). -/
def State.due (s : State) (x : Entry) : Bool :=
  s.atBoundary x.part && (s.part x.part).shed.isNone && ((s.part x.part).job.st == .none || decide (x.effPick ≤ s.pickOf x.part + 1))

/-- A command accepted earlier waits for the same boundary: it goes first (R189). -/
def State.behind (s : State) (x : Entry) : Bool :=
  s.entries.any (fun y => y.part == x.part && y.st == .boundary && y.opcode != 0x20 && decide (y.acc < x.acc ∧ y.effPick ≤ s.pickOf x.part + 1))

/-- The entry takes effect at this boundary: its completion gives the pick the boundary begins (R189). -/
def State.mark (s : State) (x : Entry) : State :=
  let j := (s.part x.part).job
  s.setEntry x.acc (fun y => { y with st := .running, pick := if j.st = .none then 0 else j.pick + 1 })

/-- A command with an effective pick takes effect now, or waits for its boundary (R189). -/
def State.takeEffect (s : State) (e op : Nat) (f : State → Entry → State) : State :=
  match s.startable e op with
  | none => s
  | some x => if s.due x && !s.behind x then f (s.mark x) x else s.setEntry e (fun y => { y with st := .boundary })

/-- A command without an effective pick takes effect now. -/
def State.startNow (s : State) (e op : Nat) (f : State → Entry → State) : State :=
  match s.startable e op with
  | none => s
  | some x => f (s.setEntry e (fun y => { y with st := .running })) x

/-- The accesses of a command are the partition's, with the administrative host's reach (R243). -/
def State.entryCtx (s : State) (x : Entry) : Ctx := { part := some x.part, admin := s.isAdmin x.port x.func, src := .port x.port x.func }

/-- An entry whose own work is done completes once its acknowledgements are in (R192). -/
def State.workDone (_s : State) (e : Nat) (r : Try) : State :=
  match r.2 with
  | some st => r.1.complete e st 0
  | none =>
    let s1 := r.1.setEntry e (fun y => { y with worked := true })
    match s1.entry e with
    | some y => if y.acks = 0 ∧ s1.matesSettled (.entry e) then s1.complete e (y.failing.getD stOK) y.result else s1
    | none => s1

end Sys2Proof.Machine
end

