-- ==== Sys2Proof/Machine/Save.lean ====
section
/-!
DEFINITION. Machine/Save.lean: the layout of the save area (R223, R225, R227, R542): header, Heddle section, loom maps, control state, shuttle state.
R542 leaves the layout of the Heddle section and of each loom's control state to the module: this one is the model's SAVE_FORMAT 0x0001 (DESIGN CHOICE,
log 48).
-/

namespace Sys2Proof.Machine

-- ## Places (R223)

/-- Bytes of one bank of the save area for `n` clusters (R223). -/
def bankBytes (n : Nat) : Nat := 0x420000 + n * 0x2010000

/-- Offset in a bank of a logical cluster's section, of a loom's 4 MiB map, and of its control state. -/
def clusterSection (c : Nat) : Nat := 0x420000 + c * 0x2010000
def loomSection (lg : Nat) : Nat := clusterSection (lg / 8) + lg % 8 * loomBytes
def loomControl (lg : Nat) : Nat := clusterSection (lg / 8) + 0x2000000 + lg % 8 * 0x1000

-- ## The image table (R208)

/-- Entries of a partition's image table. -/
def State.itab (s : State) (p : Nat) : List (List Byte) :=
  let a := match (s.part p).imageTable with | some a => a | none => s.addr (.partAddr p 8) (.partAddr p 9)
  (List.range (min 4096 (s.fld (.partItabCount p) 0 13))).map (fun i => s.valueAt (partCtx p) (a + 16 * i) 16)

/-- The table entry of an image id: length and address. -/
def State.imageEntry (s : State) (p id : Nat) : Option (Nat × Nat) :=
  ((s.itab p).find? (fun e => le e 0 4 == id)).map (fun e => (le e 4 4, le e 8 8))

-- ## The Heddle section

/-- State of a node: dependence count, state code and status, 4 bytes (R223). -/
def Node.control (n : Node) : List Byte :=
  leBytes 2 n.deps ++ (match n.st with
    | .blocked => [0, 0]
    | .ready => [1, 0]
    | .running => [2, 0]
    | .stopped => [3, 0]
    | .done st => 4 :: leBytes 1 st)

/-- A node as a bank holds it; what has ended meanwhile stays so. -/
def Node.ofControl (n : Node) (b : List Byte) : Node :=
  if n.isDone then n
  else { n with
    deps := min n.deps (le b 0 2)
    st := match le b 2 1 with
      | 0 => .blocked
      | 1 => .ready
      | 2 => .running
      | 3 => .stopped
      | _ => .done (le b 3 1) }

/-- Drafts of a partition that have a place in the Heddle section: sixteen of 65,536 nodes. -/
def State.savedDrafts (s : State) (p : Nat) : List Draft := (s.drafts.filter (fun d => d.part == p)).take 16

/-- Step state of a serving loop, 64 bytes: step of R409, version latched, whether a batch step is in flight. -/
def Loop.control (x : Loop) : List Byte :=
  leBytes 1 x.stage ++ leBytes 1 (b2n x.step.isSome) ++ leBytes 1 (b2n x.bubble) ++ zeros 1 ++ leBytes 4 x.version ++ zeros 56

/-- Serving loops and held entries, after the nodes. -/
def State.heddleTail (s : State) (p : Nat) : List Byte :=
  (List.range 4).flatMap (fun l => (tget ({} : Loop) (s.part p).loops l).control) ++
  ((s.entries.filter (fun e => e.part == p && e.st != .running)).take 8160).flatMap (fun e => leBytes 8 e.acc)

/-- The Heddle section of a bank. -/
def State.writeHeddle (s : State) (p base : Nat) : State :=
  let s1 := ((s.savedDrafts p).zipIdx).foldl (fun s d => s.setHbm (base + 0x1000 + 0x40000 * d.2) (d.1.nodes.flatMap Node.control))
    (s.zeroData 0 (base + 0x1000) 0x410000)
  s1.setHbm (base + 0x401000) (s1.heddleTail p)

/-- Dependence counts, node states and loop steps as a bank holds them. -/
def State.readHeddle (s : State) (p base : Nat) : State :=
  let s1 := ((s.savedDrafts p).zipIdx).foldl (fun s d =>
    s.setDraft d.1.id (fun x => { x with nodes := x.nodes.zipIdx.map (fun n => n.1.ofControl (s.hbm (base + 0x1000 + 0x40000 * d.2 + 4 * n.2) 4)) })) s
  let y := s1.part p
  s1.setPart p { y with loops := y.loops.map (fun l =>
    let b := s1.hbm (base + 0x401000 + 64 * l.1) 8
    (l.1, { l.2 with stage := le b 0 1, version := le b 4 4 })) }

-- ## Shuttles

/-- What is queued in a shuttle: count, then source, destination and length of each. -/
def State.shuttleBytes (s : State) (k : Nat) : List Byte :=
  let q := (tget [] s.shuttles k).take 680
  leBytes 8 q.length ++ q.flatMap (fun r => leBytes 8 r.src ++ leBytes 8 r.dst ++ leBytes 8 r.len)

-- ## Banks

/-- A loom's map and control state written in a bank. -/
def State.saveLoom (s : State) (p base lg : Nat) : State :=
  let l := s.physLoom p lg
  ((s.loomToHbm (s.loomKey l) (base + loomSection lg) loomBytes).zeroData 0 (base + loomControl lg) 0x1000).setHbm (base + loomControl lg) (s.loom l).control

/-- The section of a logical cluster: the looms of it that `keep` does not take out, and its shuttles. -/
def State.saveCluster (s : State) (p base c : Nat) (keep : Nat → Bool) : State :=
  let s1 := (((List.range 8).map (8 * c + ·)).filter (fun lg => !keep lg)).foldl (fun s lg => s.saveLoom p base lg) s
  let o := base + clusterSection c + 0x2008000
  ((s1.zeroData 0 o 0x8000).setHbm o (s1.shuttleBytes (shuttleKey p c 0))).setHbm (o + 0x4000) (s1.shuttleBytes (shuttleKey p c 1))

/-- The header of a save bank (R542): the clusters saved, and the job's state by its code of R200. -/
def State.saveHeader (s : State) (p bank : Nat) (cs : List Nat) (code : Nat) : List Byte :=
  let b := leBytes 2 1 ++ leBytes 2 s.boot.image.numeric ++ leBytes 2 cs.length ++ leBytes 1 bank ++ leBytes 1 code ++
    leBytes 8 (s.pickOf p) ++ s.stamp 0x20 (some p) ++ leBytes 4 (cs.foldl (fun a c => a + 2 ^ c) 0) ++ zeros 24
  b ++ leBytes 4 (crc32 b)

/-- A header put at the start of a bank. -/
def State.writeHeader (s : State) (base : Nat) (h : List Byte) : State := (s.zeroData 0 base 4096).setHbm base h

/-- A loom as a bank holds it: map and control state, images from the image table, warps from the warp store. `x` gives what R223 does not list; the
words just written are good. -/
def State.loadLoom (s : State) (p base lg : Nat) (x : Loom) : State :=
  let l := s.physLoom p lg
  let s1 := s.hbmToLoom (base + loomSection lg) (s.loomKey l) loomBytes
  let now := s1.loom l
  let b := s1.hbm (base + loomControl lg) 0x1000
  let image (id : Nat) : List Byte := match s1.imageEntry p id with
    | some (n, a) => (s1.fetch (partCtx p) a n).getD []
    | none => []
  let store (a n : Nat) : List Byte := (List.range n).map (fun i => s1.rd (s1.loomKey l + a + i))
  s1.setLoom l { x.ofControl b image store with bad := [], armed := now.armed, corrected := now.corrected, scrubAt := now.scrubAt }

/-- Images a bank names that are still those of the image table (R208, R225). -/
def State.savedImagesOk (s : State) (p base n : Nat) : Bool :=
  (List.range (8 * n)).all (fun lg =>
    let b := s.hbm (base + loomControl lg) 48
    (List.range 4).all (fun k =>
      let w := controlWord b (2 + k)
      w == 0 || (match s.imageEntry p (field w 0 32) with
        | some (_, a) => (match s.fetch (partCtx p) (a + 60) 4 with
          | some c => le c 0 4 == field w 32 32
          | none => false)
        | none => false)))

end Sys2Proof.Machine
end

