-- ==== Sys2Proof/Machine/Parts.lean ====
section
/-!
DEFINITION. Machine/Parts.lean: partitions (R216 to R227, R244, R369, R451, R516): enable and its checks, disable, pre-emption, resume, each
under the enable-during-shutdown rule (R477).
-/

namespace Sys2Proof.Machine

-- ## Ranges

/-- An offset range of one space. -/
structure Span where
  space : Nat
  off : Nat
  len : Nat

def Span.meets (a b : Span) : Bool := a.space == b.space && decide (a.off < b.off + b.len ∧ b.off < a.off + a.len)

/-- A local range of a 64-bit address. -/
def State.spanAt (s : State) (a len : Nat) : Option Span := if s.isLocal a then some ⟨gSpace a, gOffset a, len⟩ else none

/-- The first and the last byte of a range of space 0x0 or 0x1 and each group border between them: the group of an offset changes nowhere
else (R229, R230). -/
def groupPoints (sp o n : Nat) : List Nat :=
  o :: (o + n - 1) :: ((List.range (n / groupBytes sp + 1)).map (fun i => (o / groupBytes sp + 1 + i) * groupBytes sp)).filter
    (fun x => decide (x < o + n))

/-- The range lies wholly in the partition's own groups. -/
def State.inGroups (s : State) (p : Nat) (r : Span) : Bool :=
  r.len != 0 && (groupPoints r.space r.off r.len).all (fun o => offsetValid r.space o &&
    (if r.space = 0 then bitAt (s.groups p) (hbmGroup o) else r.space == 1 && bitAt (s.t2Groups p) (t2Group o)))

/-- The save area as its registers name it, both banks. -/
def State.saveSpan (s : State) (p : Nat) : Option Span :=
  let a := s.addr (.partAddr p 0) (.partAddr p 1)
  if a = 0 then none else s.spanAt a (2 * bankBytes (s.clusterCount p))

/-- The offset of bank 0 where the save area can be used (R223). -/
def State.saveBase (s : State) (p : Nat) : Option Nat :=
  match s.saveSpan p with
  | some r => if r.space = 0 ∧ r.off % 65536 = 0 ∧ s.inGroups p r then some r.off else none
  | none => none

/-- The pool's range. -/
def State.poolSpan (s : State) (p : Nat) : Option Span :=
  if s.poolBlocks p = 0 then none else some ⟨0, s.poolBase p, s.poolBlocks p * 65536⟩

/-- The banks of a flip region, the flip table with the second. -/
def flipSpans (f : Flip) : List Span := [⟨f.space, f.base, 65536 * f.units⟩, ⟨f.space, f.shadow, 65536 * f.units + flipTableBytes f⟩]

-- ## Enable (R516)

/-- A flip region passes R369. -/
def State.flipOk (s : State) (f : Flip) : Bool :=
  let p := f.part
  let b := s.addr (.flipAddr p f.i 0) (.flipAddr p f.i 1)
  let h := s.addr (.flipAddr p f.i 2) (.flipAddr p f.i 3)
  let others := ((List.range 8).filter (· != f.i)).flatMap (fun j => match s.flip p j with | some g => flipSpans g | none => [])
  let mine := flipSpans f
  s.isLocal b && s.isLocal h && gSpace b == gSpace h && f.base % 65536 == 0 && f.shadow % 65536 == 0 &&
  (f.units == 0 || (mine.all (fun r => s.inGroups p r) &&
    !(mine.getD 0 ⟨0, 0, 0⟩).meets (mine.getD 1 ⟨1, 0, 0⟩) &&
    mine.all (fun r => !(others ++ (s.poolSpan p).toList ++ (s.saveSpan p).toList).any (fun o => r.meets o))))

/-- The range a table register names is placed as R369, R516 or R451 asks: wholly in the partition's HBM groups and clear of others. -/
def State.placed (s : State) (p a len align : Nat) (others : List Span) : Bool :=
  match s.spanAt a len with
  | some r => r.space == 0 && r.off % align == 0 && s.inGroups p r && others.all (fun o => !r.meets o)
  | none => false

/-- The first check an enable fails, in the order of FAIL's codes, or 0. -/
def State.enableFail (s : State) (p : Nat) : Nat :=
  let pool := (s.poolSpan p).toList
  let save := (s.saveSpan p).toList
  let flips := ((List.range 8).filterMap (s.flip p)).flatMap flipSpans
  let slots := s.parkSlots p
  let page (a : Nat) : Bool := a == 0 || (match s.owner p with
    | some (q, _) => s.isLocal a && gSpace a == 4 + q
    | none => false)
  if (s.owner p).isNone then 1
  else if pool.any (fun r => !s.inGroups p r || save.any (fun o => r.meets o)) then 2
  else if ((List.range 8).filterMap (s.flip p)).any (fun f => !s.flipOk f) then 3
  else if slots ≠ 0 ∧ !s.placed p (s.addr (.knotPark p 0) (.knotPark p 1)) (slots * 0x410000) 65536 (pool ++ save ++ flips) then 4
  else if !s.placed p (s.addr (.partAddr p 6) (.partAddr p 7)) 0x18000000 0x200000 (pool ++ save) ∨
      !s.placed p (s.addr (.partAddr p 8) (.partAddr p 9)) (max 1 (16 * min 4096 (s.fld (.partItabCount p) 0 13))) 64 (pool ++ save) ∨
      !page (s.addr (.partAddr p 2) (.partAddr p 3)) ∨ !page (s.addr (.partAddr p 4) (.partAddr p 5)) ∨
      !page (s.addr (.poolPage p 0) (.poolPage p 1)) then 5
  else
    let table (a len : Nat) : Bool := a == 0 || s.placed p a len 64 (pool ++ save ++ flips)
    if table (s.addr (.updStep p 0) (.updStep p 1)) 132096 ∧ table (s.addr (.updFreeze p 0) (.updFreeze p 1)) 66560 then 0 else 6

/-- The accumulators of a loom are cleared: zero, every word with valid check bits, every row-ready bit 1 (R143, R147). -/
def State.clearAcc (s : State) (l : Nat) : State :=
  let x := s.loom l
  (s.zero (s.loomKey l + accBase) 0x80000).setLoom l { x with bad := x.bad.filter (fun w => decide (w < accBase)), notReady := [] }

/-- A loom assigned to a partition: its accumulators are cleared, and no image, warp or load of an earlier holder is left (R143, R208). -/
def State.freshLoom (s : State) (l : Nat) : State :=
  let s1 := s.clearAcc l
  s1.setLoom l { s1.loom l with
    images := [], active := none, used := [], loading := [], warp := none, shadow := none, loadingWarp := none }

/-- ENABLING begins: accumulators (R143), counters (R133), the pool directory (R245), the flip tables (R369) are cleared, and the partition
starts without drafts, loops or job work. -/
def State.startEnabling (s : State) (p : Nat) : State :=
  let x := s.part p
  let s1 := s.setPart p { x with
    st := .enabling, fail := 0, flipFailed := [], counters := [], stall := [], slots := [], streams := [], lr := [], loops := [], adapters := []
    shed := none, slotAlias := [], imageTable := none, savedCode := 0, savedLooms := [], savedBubble := [], saving := [], restoring := []
    strictFreeze := s.bit (.updCfg p) 0, pool := { age := if s.bit (.tmpPool p) 0 then s.fld (.tmpPool p) 16 16 else s.ageMin p } }
  let s2 := (s.clusters p).foldl (fun s c => (List.range 8).foldl (fun s j => s.freshLoom (8 * c + j)) s) s1
  let s3 := if s.poolBlocks p = 0 then s2 else s2.zeroData 0 (s.poolBase p) 0x200000
  let s4 := ((List.range 8).filterMap (s.flip p)).foldl (fun s f => s.zeroData f.space (f.shadow + 65536 * f.units) (flipTableBytes f)) s3
  let s5 := ((s.clusters p).flatMap (fun c => (List.range 8).map (8 * c + ·))).foldl (fun s l => if s.isRetired 0 l then s.placeGuest p l false else s) s4
  s5.writePages p

/-- An enable runs (R516): on a partition that is not CONFIGURED it sets CFG_REFUSED and nothing else. A partition without a way of the memory-side cache
(R217) is not enabled either; no code of FAIL stands for it (DESIGN CHOICE, log 182). -/
def State.runEnable (s : State) (p : Nat) : State :=
  let x := s.part p
  if x.st ≠ .configured then s.setPart p { x with cfgRefused := true }
  else
    let code := s.enableFail p
    if code = 0 ∧ s.ways p ≠ 0 then s.startEnabling p
    else (s.setPart p { x with
      fail := code
      flipFailed := if code = 3 then (((List.range 8).filterMap (s.flip p)).filter (fun f => !s.flipOk f)).map (·.i) else [] }).writePartPage p

-- ## The end of a partition's work (R220, R222)

/-- The job halts: JOB_STATE 5 (R220). -/
def Job.halt (j : Job) : Job :=
  if j.st = .none then j
  else { j with st := .halted, step := none, reported := false, joined := false, joining := false, versions := [], barriers := [] }

/-- Everything of the partition ends with a status: its outstanding commands, drafts, loops, streams, held operations, dirty units. -/
def State.tearDown (s : State) (p status : Nat) : State :=
  let s1 := ((s.dropWork p status).settleFlips p false).dropGuests p
  let x := s1.part p
  s1.setPart p { x with
    ops := x.ops.filter (fun o => o == .enable || o == .disable), saving := [], restoring := [], savedLooms := [], savedBubble := []
    job := x.job.halt, streams := [], loops := [], shed := none }

/-- The cache writes back the lines of a partition that is disabled (R238). -/
def State.flushWays (s : State) (p : Nat) : State :=
  if s.memCtl.cache.any (fun l => bitAt (s.ways p) l.way) then
    { s with memCtl := { s.memCtl with changes := s.memCtl.changes ++ [{ off := (Reg.partCtl p).offset, value := 0 }] } }
  else s

/-- Disabling begins (R220). -/
def State.runDisable (s : State) (p : Nat) : State :=
  if (s.part p).st.idle then s
  else
    let s1 := s.setPart p { s.part p with st := .disabling }
    ((s1.flushWays p).tearDown p stInvalid).writePages p

-- ## Pre-emption (R222, R223, R542)

/-- RESULT of a PREEMPT: 64 KiB units of bank 0. -/
def State.saveUnits (s : State) (p : Nat) : Nat := bankBytes (s.clusterCount p) / 65536

/-- The save begins: nodes stop, their looms kept until it ends (R103, R222). -/
def State.startSave (s : State) (p : Nat) (accs : List Nat) : State :=
  let s1 := s.stopDrafts p
  let x := s1.part p
  (s1.setPart p { x with
    st := .preempting, saving := accs, savedJob := x.job.st, savedCode := s.jobCode p, savedN := s.clusterCount p }).writePages p

/-- A loom of the partition enters a row again: the retry ends before the save does (R103). -/
def State.retrying (s : State) (p : Nat) : Bool := (s.clusters p).any (fun c => (List.range 8).any (fun j => (s.loom (8 * c + j)).retry))

/-- Bank 0: the sections of logical clusters, the Heddle section and the header (R223). -/
def State.writeBank (s : State) (p base : Nat) (cs : List Nat) (code : Nat) : State :=
  let s1 := (cs.foldl (fun s c => s.saveCluster p base c (fun _ => false)) s).writeHeddle p base
  s1.writeHeader base (s1.saveHeader p 0 cs code)

/-- An operation under way of the partition (R477). -/
def PartState.busy : PartState → Bool
  | .enabling => true
  | .preempting => true
  | .resuming => true
  | .disabling => true
  | _ => false

/-- Saved looms that have no place to return to: their logical ids have become vacant since (R450). -/
def State.homeless (s : State) (p : Nat) : List Nat := ((s.part p).savedLooms.map (·.1)).filter (s.isVacant p)

/-- What a RESUME answers before it restores, or OK (R225, R450). -/
def State.resumeStatus (s : State) (p : Nat) : Nat :=
  let x := s.part p
  match s.saveBase p with
  | none => stInvalid
  | some base =>
    let h := s.hbm base 64
    if s.clusterCount p ≠ x.savedN then stInvalid
    else if !s.savedImagesOk p base x.savedN then stVersionMismatch
    else if crc32 (h.take 60) ≠ le h 60 4 then stRetryExhausted
    else if le h 0 2 ≠ 1 ∨ le h 2 2 ≠ s.boot.image.numeric then stVersionMismatch
    else if le h 4 2 ≠ s.clusterCount p then stInvalid
    else if s.parkSlots p < (s.guests.filter (fun g => g.part == p)).length + (s.homeless p).length then stRetired
    else stOK

/-- Entries that complete together. -/
def State.completeAll (s : State) (accs : List Nat) (status result : Nat) : State := accs.foldl (fun s a => s.complete a status result) s

/-- The restore begins; a saved loom without a live loom is placed in a parking slot as a guest (R450). -/
def State.startRestore (s : State) (p : Nat) (accs : List Nat) : State :=
  let st := s.resumeStatus p
  if st = 0 then
    let back := s.homeless p
    let s1 : State := { s with vacant := s.vacant.filter (fun v => !(back.map (fun lg => 256 * p + lg)).contains v) }
    let s2 := back.foldl (fun s lg => s.placeGuest p (s.physLoom p lg) false) s1
    (s2.setPart p { s2.part p with st := .resuming, restoring := accs }).writePages p
  else s.completeAll accs st 0

/-- PREEMPTs that nothing holds run (R222). -/
def State.runPreempt (s : State) (p : Nat) (accs : List Nat) : State :=
  match (s.part p).st with
  | .active => if (s.saveBase p).isSome then s.startSave p accs else s.completeAll accs stInvalid 0
  | .preempted => s.completeAll accs stOK (s.saveUnits p)
  | _ => s.completeAll accs stInvalid 0

/-- RESUMEs that nothing holds run (R225). -/
def State.runResume (s : State) (p : Nat) (accs : List Nat) : State :=
  if (s.part p).st = .preempted then s.startRestore p accs else s.completeAll accs stInvalid 0

/-- The entry of an operation that is of the same kind as another: a further one coalesces with it (R477). -/
def PartOp.preemptOf : PartOp → Option Nat
  | .preempt acc => some acc
  | _ => none
def PartOp.resumeOf : PartOp → Option Nat
  | .resume acc => some acc
  | _ => none

/-- The entries at the head of a list of operations that run together, and the operations after them. -/
def sameOps (f : PartOp → Option Nat) : List PartOp → List Nat × List PartOp
  | [] => ([], [])
  | o :: r => match f o with
    | some a => let t := sameOps f r; (a :: t.1, t.2)
    | none => ([], o :: r)

/-- Operations kept run in order while the partition is not busy; those that coalesce run once and complete together (R477). -/
def State.partRun (s : State) (p : Nat) : Nat → State
  | 0 => s
  | fuel + 1 =>
    let x := s.part p
    if x.st.busy then s
    else match x.ops with
      | [] => s
      | o :: rest =>
        let from_ (f : PartOp → Option Nat) : List Nat × State :=
          let t := sameOps f (o :: rest)
          (t.1, s.setPart p { x with ops := t.2 })
        let s2 := match o with
          | .enable => (s.setPart p { x with ops := rest }).runEnable p
          | .disable => (s.setPart p { x with ops := rest }).runDisable p
          | .preempt _ => let t := from_ PartOp.preemptOf; t.2.runPreempt p t.1
          | .resume _ => let t := from_ PartOp.resumeOf; t.2.runResume p t.1
        s2.partRun p fuel

/-- Runs what is kept. -/
def State.partNext (s : State) (p : Nat) : State := s.partRun p ((s.part p).ops.length + 1)

/-- EN written 1 (R477, R516). -/
def State.partEnable (s : State) (p : Nat) : State :=
  let x := s.part p
  if x.en ∨ x.st = .unconfigured then s
  else if x.st = .configured then s.runEnable p
  else (s.setPart p { x with ops := x.ops ++ [.enable] }).writePartPage p

/-- EN written 0. -/
def State.partDisable (s : State) (p : Nat) : State :=
  let x := s.part p
  if !x.en then s
  else if x.st.busy then s.setPart p { x with ops := x.ops ++ [.disable] }
  else s.runDisable p

/-- A PREEMPT takes effect (R222): held while the partition is enabling or resuming, or while a shed change takes effect (R355). One that comes during
PREEMPTING joins the save, unless a RESUME is held: then it waits until that has run (R477, log 59). -/
def State.preemptNow (s : State) (p acc : Nat) (discard : Bool) : State :=
  let x := s.part p
  let hold := s.setPart p { x with ops := x.ops ++ [.preempt acc] }
  if discard then
    if x.st = .preempted then
      let s1 := (s.complete acc stOK 0).tearDown p stPreempted
      (s1.setPart p { s1.part p with st := .configured }).writePages p
    else s.complete acc stInvalid 0
  else match x.st with
    | .preempting => if x.ops.any (fun o => o.resumeOf.isSome) then hold else s.setPart p { x with saving := x.saving ++ [acc] }
    | .enabling => hold
    | .resuming => hold
    | _ => s.runPreempt p [acc]

/-- A RESUME takes effect (R225): held during PREEMPTING; in any state but that and PREEMPTED it completes INVALID. -/
def State.resumeNow (s : State) (p acc : Nat) : State :=
  let x := s.part p
  match x.st with
  | .preempting => (s.setPart p { x with ops := x.ops ++ [.resume acc] }).writePartPage p
  | _ => s.runResume p [acc]

-- ## Live activation holds partitions at their boundaries (R490)

/-- A partition the activation may hold now: outside service, or with no DRAFT_RUN step and no batch step in flight. -/
def State.holdable (s : State) (p : Nat) : Bool :=
  match (s.part p).st with
  | .unconfigured => true
  | .configured => true
  | .preempted => true
  | .halted => true
  | .active => !(s.drafts.any (fun d => d.part == p && ((d.acc.isSome && !d.noStep && d.begun) || d.loop.isSome)))
  | _ => false

/-- HOLDING: every partition that may be held is; once all are, SWITCHING begins. -/
def State.actHold (s : State) : State :=
  if s.boot.phase ≠ .holding then s
  else
    let held := (List.range 16).foldl (fun h p => if bitAt h p || s.holdable p then setField h p 1 1 else h) s.boot.held
    { s with boot := { s.boot with held := held, phase := if held = 0xFFFF then .switching else .holding } }

-- ## What ends an operation

/-- ENABLING ends: ACTIVE, and what waited runs. -/
def State.enablingEnd (s : State) (p : Nat) : State :=
  if (s.part p).st ≠ .enabling then s
  else (((s.setPart p { s.part p with st := .active }).writePages p).partNext p).actHold

/-- Disabling ends, once the cache has written back what is the partition's (R238): CONFIGURED; PREEMPTs and RESUMEs kept complete INVALID, and an enable kept runs. -/
def State.disablingEnd (s : State) (p : Nat) : State :=
  if (s.part p).st ≠ .disabling ∨ s.memCtl.changes.any (fun c => c.off == (Reg.partCtl p).offset) then s
  else (((s.setPart p { s.part p with st := .configured }).writePages p).partNext p).actHold

/-- The save ends (R222), once no loom enters a row again: bank 0 is written, the looms are free, the partition is PREEMPTED, each PREEMPT of it
completes. -/
def State.saveEnd (s : State) (p : Nat) : State :=
  let x := s.part p
  match s.saveBase p with
  | none => s
  | some base =>
    if x.st ≠ .preempting ∨ s.retrying p then s
    else
      let ctl := ((s.clusters p).zipIdx.flatMap (fun ci => (List.range 8).map (fun j => (8 * ci.2 + j, s.loom (8 * ci.1 + j))))).filter
        (fun x => !s.isVacant p x.1)
      let s1 := ((s.writeBank p base (List.range (s.clusterCount p)) x.savedCode).stopNodes p).count p 7 1
      let y := s1.part p
      let s2 := (s1.setPart p { y with
        st := .preempted, saving := [], savedLooms := tcanon {} ctl
        job := { y.job with st := if y.job.st = .none then .none else .preempted } }).writePages p
      ((s2.completeAll x.saving stOK (s.saveUnits p)).partNext p).actHold

/-- The restore ends (R225): the looms and the Heddle hold what bank 0 holds, nodes stopped by the save run again, each RESUME completes; a bank that
cannot be read leaves the partition PREEMPTED with its accumulators cleared. -/
def State.restoreEnd (s : State) (p : Nat) (readOk : Bool) : State :=
  let x := s.part p
  match s.saveBase p with
  | none => s
  | some base =>
    if x.st ≠ .resuming ∨ s.treadle.state ≠ 0 then s
    else if !readOk ∨ s.anyPoison (partCtx p) (s.moduleNum * 2 ^ 52 + base) (bankBytes x.savedN) false then
      let s1 := (s.clusters p).foldl (fun s c => (List.range 8).foldl (fun s j => s.clearAcc (8 * c + j)) s) s
      let s2 := s1.setPart p { s1.part p with st := .preempted, restoring := [] }
      ((s2.completeAll x.restoring stRetryExhausted 0).writePages p).partNext p
    else
      let s0 := (List.range (8 * x.savedN)).foldl (fun s lg => s.loadLoom p base lg (tget {} x.savedLooms lg)) s
      let s1 := s0.readHeddle p base
      let s2 : State := { s1 with drafts := s1.drafts.map (fun d => if d.part = p then { d with nodes := d.nodes.map (fun n =>
        if n.st = .stopped ∧ !(n.bubble && x.savedBubble.any (fun b => n.loomSet.contains b.1)) then { n with st := .running } else n) } else d) }
      let y := s2.part p
      let s3 := (s2.setPart p { y with st := .active, restoring := [], savedLooms := [], job := { y.job with st := x.savedJob } }).writePages p
      (((s3.completeAll x.restoring stOK 0).settleEntries p).partNext p).actHold

-- ## The treadle's uses (R457, R471)

/-- The emergency path leaves every configured partition CONFIGURED (R457). -/
def State.forceConfigured (s : State) (p : Nat) : State :=
  if (s.part p).st = .unconfigured then s
  else
    let s1 := s.tearDown p stInvalid
    s1.setPart p { s1.part p with st := .configured, ops := [] }

/-- The treadle's own pre-emption, saved at once (R471); none where the save cannot be made. -/
def State.thermalPreempt (s : State) (p : Nat) : Option State :=
  if (s.saveBase p).isSome then some ((s.startSave p []).saveEnd p) else none

/-- The treadle resumes a partition it pre-empted. -/
def State.thermalResume (s : State) (p : Nat) : State := if (s.part p).st = .preempted then s.startRestore p [] else s

end Sys2Proof.Machine
end

