-- ==== Sys2Proof/Machine/Fabric.lean ====
section
/-!
DEFINITION. Machine/Fabric.lean: the states of fabric links (R267, R269, R273, R285, R464), forwarding with the return of credits (R282,
R284, R286), and the fabric status page (R298).
-/

namespace Sys2Proof.Machine

-- ## The fabric status page (R298)

/-- One link's 32 bytes. -/
def Link.entryBytes (x : Link) : List Byte :=
  leBytes 1 x.st ++ leBytes 1 (b2n x.ll + 2 * b2n x.llq + 4 * x.cause) ++ leBytes 2 (if x.st = 4 then x.proto else 0) ++
  leBytes 2 (match x.partner with | some p => p.1 + 4096 * (p.2.1 % 8) | none => 0) ++ leBytes 2 x.loss ++
  leBytes 4 x.resends ++ leBytes 4 x.crcErrors ++ leBytes 4 x.fecCorrected ++ leBytes 4 x.fecUncorrected ++ leBytes 4 x.retrains ++ zeros 4

def State.fabricPageBytes (s : State) : List Byte :=
  let f := s.fabric
  leBytes 8 f.gen ++ s.stamp 0x21 none ++
  [f.domainDrops, f.dupDrops, f.redRefused, f.redStale, f.nackSent, f.nackReceived, f.timeouts, f.badPackets].flatMap (leBytes 8) ++
  zeros 936 ++ (List.range 96).flatMap (fun l => (s.link l).entryBytes)

/-- The page written, GEN advanced by two (R198). -/
def State.writeFabricPage (s : State) : State :=
  let s1 : State := { s with fabric := { s.fabric with gen := (s.fabric.gen + 2) % 2 ^ 64 } }
  s1.putAdminPage (s1.addr (.wflPage 0) (.wflPage 1)) s1.fabricPageBytes

-- ## Requests that end (R288, R289, R295)

def State.fabricCount (s : State) (f : Fabric → Fabric) : State := { s with fabric := f s.fabric }

/-- The outstanding request of a destination and TAG. -/
def State.openReq (s : State) (dst tag : Nat) : Option Req := s.fabric.requests.find? (fun r => r.dst == dst && r.tag == tag)

/-- A request leaves the outstanding ones. -/
def State.closeReq (s : State) (dst tag : Nat) : State :=
  s.fabricCount (fun f => { f with requests := f.requests.filter (fun r => !(r.dst == dst && r.tag == tag)) })

/-- A request fails: its issuer ends with the status. -/
def State.failReq (s : State) (dst tag status : Nat) : State :=
  match s.openReq dst tag with
  | some r => (s.closeReq dst tag).nackIssuer r.issuer status
  | none => s

-- ## Forwarding (R282, R284 to R286)

/-- A packet that no port leads on is dropped, and its source gets NACK UNREACHABLE (R286). That of a request or a reduction packet comes in the name of
the module that could not be reached, so that R288's match by destination and TAG finds the request; any other in this module's own, on the
channel of requests (log 26). -/
def State.unreachable (s : State) (p : Packet) : State :=
  let req := p.ty == 1 || p.ty == 3 || p.ty == 5
  let red := vcBase p.ty == 4
  if p.src = s.moduleNum then
    if req then s.failReq p.dst p.tag stRetired
    else if red then s.post { s.nackOf p 4 with dst := s.managerOf p.srcPart }
    else s
  else
    (s.post (if req || red then { s.nackOf p 4 with src := p.dst } else s.nackOf p 4)).fabricCount (fun f => { f with nackSent := satInc 64 f.nackSent 1 })

/-- A packet goes on its way, or waits in the queue; where no port leads on it is dropped. The flag says that it waits. -/
def State.tryOn (s : State) (origin : Nat) (p : Packet) : State × Bool :=
  let r := s.dispatchOut origin p
  if r.2 then (r.1.unreachable p, false) else (r.1, decide (s.fabric.queue.length < r.1.fabric.queue.length))

def State.sendOn (s : State) (origin : Nat) (p : Packet) : State := (s.tryOn origin p).1

/-- The credits of a packet return as it leaves the input buffer of the link it came by (R282). -/
def State.creditsOut (s : State) (origin : Nat) (p : Packet) : State :=
  if origin = 0 then s else s.idleFlit (origin - 1) p.vc (pktCredits p)

/-- A packet that came by a link goes on; the flag says that it waits, and its credits with it. -/
def State.forward (s : State) (origin : Nat) (p : Packet) : State × Bool :=
  let r := s.tryOn origin p
  (if r.2 then r.1 else r.1.creditsOut origin p, r.2)

/-- Of waiting packets the one to try next: the oldest, but of this module's own one of the partition whose turn it is (R213). -/
def State.nextWaiting (s : State) (q : List (Nat × Packet)) : Option (Nat × Packet) :=
  match q with
  | [] => none
  | x :: _ =>
    let own := q.filter (fun y => y.1 == 0)
    if x.1 ≠ 0 then some x else own.find? (fun y => s.hasTurn 2 y.2.srcPart (own.map (·.2.srcPart)))

/-- The packets of a list are tried, each once; a partition whose packet left has had its turn. -/
def State.pumpList : Nat → List (Nat × Packet) → State → State
  | 0, _, s => s
  | n + 1, q, s =>
    match s.nextWaiting q with
    | none => s
    | some x =>
      let r := s.forward x.1 x.2
      State.pumpList n (q.erase x) (if x.1 = 0 ∧ !r.2 then r.1.serve 2 x.2.srcPart else r.1)

/-- Every waiting packet is tried again. -/
def State.pump (s : State) : State :=
  State.pumpList s.fabric.queue.length s.fabric.queue { s with fabric := { s.fabric with queue := [] } }

-- ## Link states (R267)

/-- LINK_EN of a link. -/
def State.linkEn (s : State) (l : Nat) : Bool := s.bit (.wflPortCfg (l / 16)) (l % 16)

/-- What both ends forget when a link is disabled: it trains afresh, from sequence number 0 (log 27). -/
def Link.forget (x : Link) : Link :=
  { x with ll := false, proto := 0, peerLlq := false, want := none, peerWant := none, switching := none, acked := false, txSeq := 0, replay := []
           used := [], busy := none, rxSeq := 0, naked := false, rxBuf := [], rxDrop := false, fwd := none, heldEnable := false, retrainDue := false }

/-- The packets a link has begun and not seen acknowledged are sent by other links (R285). -/
def State.reroute (s : State) (ps : List (Nat × Packet)) : State := ps.foldl (fun s op => s.sendOn op.1 op.2) s

/-- A packet that comes by a link and has begun to be forwarded is ended with a STOMP flit, and the link it left by is free (R285). -/
def State.endForward (s : State) (l : Nat) : State :=
  let x := s.link l
  match x.fwd with
  | none => s
  | some o =>
    let s1 := s.setLink l { x with fwd := none }
    let s2 := if (s1.link o).st = 4 then s1.stompFlit o x.rxBuf else s1
    s2.setLink o { s2.link o with busy := none }

/-- A link is no longer there for a packet that had begun to leave by it: that packet is forwarded anew when it has come whole (R285). -/
def State.loseForward (s : State) (l : Nat) : State :=
  let x := s.link l
  match x.busy with
  | none => s
  | some i =>
    let s1 := s.setLink l { x with busy := none }
    s1.setLink i { s1.link i with fwd := none }

/-- A link takes a state and a cause; the page is written (R298). One that leaves service has what it held re-routed, discards what it has received of a
packet, with a STOMP flit where that has begun to be forwarded (R285); a draining one discards the rest of that packet as it comes. -/
def State.moveLink (s : State) (l st cause : Nat) : State :=
  let out := st = 0 ∨ st = 8 ∨ st = 9
  let s0 := if out then (s.endForward l).loseForward l else s
  let x := s0.link l
  let ps := x.replay.filterMap (·.pkt)
  let x1 := { x with st := st, cause := cause }
  if st = 0 ∨ st = 8 then ((s0.setLink l { x1.forget with st := st, cause := cause }).reroute ps).pump.writeFabricPage
  else if st = 9 then ((s0.setLink l { x1 with rxDrop := !x1.rxBuf.isEmpty }).reroute ps).pump.writeFabricPage
  else (s0.setLink l x1).writeFabricPage

/-- A live link enters RETRAIN (R267, R269, R273, R443): it trains in FEC mode (R276). -/
def State.retrain (s : State) (l : Nat) : State :=
  let x := s.link l
  let s1 := s.setLink l { x with
    ll := false, retrains := satInc 32 x.retrains 1, retrainDue := false, naked := false, replay := x.replay.map (fun f => { f with tries := 0 }) }
  let u := s1.unit 3 l
  (s1.setUnit 3 l { u with hard := u.hard + 1 }).moveLink l 5 0

/-- Links of a port that an activation has still to retrain: the lowest lane goes when none of the port is in RETRAIN (R269). -/
def State.retrainNext (s : State) (port : Nat) : State :=
  let ls := (List.range 16).map (16 * port + ·)
  if ls.any (fun l => (s.link l).st == 5) then s
  else match ls.find? (fun l => (s.link l).st == 4 && (s.link l).retrainDue) with
    | some l => s.retrain l
    | none => s

/-- An image activation that changes the protocol range retrains every live link once (R269). -/
def State.retrainLinks (s : State) : State :=
  let s1 := (List.range 96).foldl (fun s l => if (s.link l).st = 4 then s.setLink l { s.link l with retrainDue := true } else s) s
  (List.range 6).foldl State.retrainNext s1

/-- A block reset takes a port's links to DISABLED (R436). -/
def State.resetFabricPort (s : State) (port : Nat) : State :=
  (List.range 16).foldl (fun s i => let l := 16 * port + i; if (s.link l).st = 0 then s else s.moveLink l 0 0) s

/-- Entry to T2 idles every live link but the lowest of a port; entry to T3 or T4 idles all, and the local ends then report DISABLED
(R464). -/
def State.idleForSleep (s : State) (t : Nat) : State :=
  (List.range 96).foldl (fun s l =>
    let st := (s.link l).st
    if t = 2 then
      (if st = 4 ∧ (s.live (l / 16)).head? ≠ some l then (s.controlFlit l 4 0).moveLink l 6 0 else s)
    else if 3 ≤ t then
      (let s1 := if st = 4 then s.controlFlit l 4 0 else s
       if st = 0 ∨ st = 7 ∨ st = 8 then s1 else s1.moveLink l 0 0)
    else s) s

-- ## Joining (R341)

/-- EN of MGR_JOB_CTL is 1 and the job is not SOLO: the member sends JOIN with its versions (R340, R341). -/
def State.sendJoin (s : State) (p : Nat) : State :=
  if s.hasJob p && !s.solo p then
    let line := leBytes 2 s.boot.image.version ++ leBytes 2 s.boot.image.numeric ++ leBytes 4 p
    (s.setJob p (fun j => { j with joining := true })).report p 2 line
  else s

/-- A refused module sends JOIN again when a new image is activated (R341). -/
def State.rejoin (s : State) (p : Nat) : State :=
  let j := (s.part p).job
  if s.hasJob p && !j.joined && !j.joining then s.sendJoin p else s

/-- An activation empties the image slots of every loom (R490). -/
def State.emptyImages (s : State) : State :=
  { s with looms := tcanon {} (s.looms.map (fun l => (l.1, { l.2 with images := [], active := none, used := [], loading := [] }))) }

end Sys2Proof.Machine
end

