-- ==== Sys2Proof/Machine/Flags.lean ====
section
/-!
DEFINITION. Machine/Flags.lean: the status signals the module drives on its pins, as functions of the rest of the state (R437, R457, R467, R472).
-/

namespace Sys2Proof.Machine

/-- FAULT_N as R437, R457 and R472 give it. -/
def State.faultPin (s : State) : Bool :=
  s.treadle.pinSupply || s.treadle.pinTrip ||
  (List.range 62).any (fun i => bitAt s.knot.word i && (s.fld (.knotSrc i) 0 3 == 5 || s.bit (.knotSrc i) 3))

/-- PG_OUT as R467 gives it: CORE_SP, IO_PCIE and ANA_PCIE are good and VSTBY and VSIDE are in range. -/
def State.pgPin (s : State) : Bool :=
  s.treadle.vsideGood && s.treadle.vstbyGood &&
  [5, 8, 0x33].all (fun d => s.treadle.domains.contains d)

end Sys2Proof.Machine
end

