-- ==== Sys2Proof/Machine/Knot.lean ====
section
/-!
DEFINITION. Machine/Knot.lean: fault events: the knot word, the handling window, fault records and reactions (R432 to R440), the
power domains a reset or the treadle switches (R458 to R460), and the pins that follow from them.
-/

namespace Sys2Proof.Machine

-- ## Domains and islands

/-- Islands of a domain (R458). -/
def domainIslands (d : Nat) : List Nat :=
  if d = 0 then [0x31]
  else if 0x10 ≤ d ∧ d < 0x30 then [d - 0x10]
  else if d = 0x30 then [0x22, 0x23, 0x24, 0x25]
  else if d = 0x31 then [0x26, 0x27, 0x28, 0x29]
  else if d = 0x32 then [0x20, 0x21, 0x2A, 0x2B, 0x2C, 0x2D, 0x2E]
  else if d = 0x33 then [0x2F, 0x30]
  else []

/-- Every domain id (R458). -/
def allDomains : List Nat :=
  [0, 1, 2, 3, 4, 5, 8, 9, 0xA, 0xB, 0xC, 0xD, 0xE] ++ (List.range 32).map (· + 0x10) ++ [0x30, 0x31, 0x32, 0x33]

/-- Domains that are on in a power state (R458). -/
def domainsOn (t : Nat) : List Nat :=
  match t with
  | 0 => allDomains
  | 1 => allDomains
  | 2 => [0, 1, 4, 5, 8, 9, 0xC, 0xD, 0xE, 0x32, 0x33]
  | 3 => [0, 1, 5, 8, 0xE, 0x33]
  | _ => [0]

/-- An island's power domain goes off: its counter stands, its clock stops. -/
def State.islandOff (s : State) (i : Nat) : State :=
  s.setIsland i { s.island i with on := false, gated := false, relocking := false, picks := [] }

/-- Accumulators of a cluster's eight looms at zero (R143). -/
def State.clearCluster (s : State) (c : Nat) : State :=
  (List.range 8).foldl (fun s j => s.clearAcc (8 * c + j)) s

/-- An island's power domain comes up: its counter starts at zero and, where it comes up again, its epoch rises by one (R54, R55); a cluster clears its
accumulators (R143). An island that is up keeps running. -/
def State.islandUp (s : State) (i : Nat) : State :=
  let x := s.island i
  if x.on then s
  else
    let s1 := s.setIsland i { x with
      on := true, risen := true, cycle := 0, epoch := if x.risen then (x.epoch + 1) % 256 else x.epoch, gated := false, relocking := false, picks := [] }
    if i < 32 then s1.clearCluster i else s1

/-- The domains of a power state on and every other off. A loom's SRAM and control state do not outlast CORE_K, HBM not MEM_HBM, tier 2 not
MEM_LP (R461), and a PCIe link not the supplies of its island; what they read as afterwards is the model's choice, zero (log 2). -/
def State.setDomains (s : State) (on : List Nat) : State :=
  let gone := s.treadle.domains.filter (fun d => !on.contains d)
  let come := on.filter (fun d => !s.treadle.domains.contains d)
  let s1 := (gone.flatMap domainIslands).foldl State.islandOff s
  let s2 := if gone.any (fun d => decide (0x10 ≤ d ∧ d < 0x30)) then
      { s1.zero (spaceKey 2 0) (2 ^ 48) with looms := tcanon {} (s.looms.filter (fun x => !gone.contains (0x10 + x.1 / 8))) }
    else s1
  let s3 := if gone.contains 0xD then (s2.zero (spaceKey 0 0) (2 ^ 48)).zero (spaceKey 0x20 0) (2 ^ 48) else s2
  let s4 := if gone.contains 0xE then (s3.zero (spaceKey 1 0) (2 ^ 48)).zero (spaceKey 0x21 0) (2 ^ 48) else s3
  let s5 := { s4 with treadle := { s4.treadle with domains := on } }
  let s6 := if gone.any (fun d => d == 5 || d == 8 || d == 0x33) then (s5.portDown 0).portDown 1 else s5
  (come.flatMap domainIslands).foldl State.islandUp s6

/-- A cluster's clock changes by one relock (R474). -/
def State.setFreq (s : State) (c f : Nat) : State := s.setIsland c { s.island c with freq := f, relocking := true }

/-- While PIN is 1 every cluster island runs at its PIN_FREQ (R474). -/
def State.runPinned (s : State) : State :=
  if s.bit .tmpCapCtl 0 then
    (List.range 32).foldl (fun s c => if !(s.island c).on || (s.island c).freq == s.pinFreq c then s else s.setFreq c (s.pinFreq c)) s
  else s

-- ## Affected partitions

/-- Partitions an event affects (R436): for a cluster its owner, for a stack or package group every holder of a channel group there and
every reader of a shared region there, for the cache the holders of the way, else every partition; UNCONFIGURED and HALTED ones never. -/
def State.affected (s : State) (source unit : Nat) : List Nat :=
  (List.range 16).filter (fun p =>
    let st := (s.part p).st
    st != .unconfigured && st != .halted &&
    (if source < 32 then (s.clusters p).contains source
     else if source < 40 then
       let g0 := 4 * (source - 32)
       field (s.groups p) g0 4 != 0 ||
       (List.range 4).any (fun i => field (s.reg (.shrGroups i)) g0 4 != 0 && bitAt (s.reg (.shrCtl i)) p)
     else if source < 44 then field (s.t2Groups p) (4 * (source - 40)) 4 != 0
     else if source = 56 then bitAt (s.ways p) unit
     else true))

-- ## Reactions

/-- The trap of R436 for one partition: dispatch stops, nodes stop unsaved, HALTED and JOB_STATE 5, the trap record and the pages are
written, the owner's highest vector is raised. Outstanding commands stay outstanding. -/
def State.trap (s : State) (record : List Byte) (p : Nat) : State :=
  let s1 := s.stopNodes p
  let x := s1.part p
  let s2 := s1.setPart p { x with st := .halted, job := { x.job with st := if x.job.st = .none then .none else .halted } }
  match s2.owner p with
  | none => s2
  | some (q, f) =>
    let s3 := match s2.pageKey q (s2.addr (.knotTrap p 0) (.knotTrap p 1)) with
      | some k => s2.hostPut q f k record
      | none => s2
    (s3.writePages p).msix q f 31

/-- Reset of one cluster (R436): the nodes running on it and the requests of its shuttles complete RETRY_EXHAUSTED, its looms start over, their SRAM is
cleared. -/
def State.resetCluster (s : State) (c : Nat) : State :=
  let ls := (List.range 8).map (8 * c + ·)
  let s1 := ls.foldl (fun s l => match (s.loom l).node with
    | some (d, n) => s.endNode d n stRetryExhausted
    | none => s) s
  let s2 := match s.clusterPart c with
    | some p => let x := (s.clusters p).idxOf c; s1.failShuttles [shuttleKey p x 0, shuttleKey p x 1]
    | none => s1
  ls.foldl (fun s l => (s.zero (s.loomKey l) loomBytes).setLoom l {}) s2

/-- Reset of a source block (R436, reaction 3). -/
def State.resetBlock (s : State) (source : Nat) : State :=
  if source < 32 then s.resetCluster source
  else if source < 44 then
    { s with memCtl := { s.memCtl with resetting := (source - 32) :: s.memCtl.resetting.filter (· != source - 32) } }
  else if source < 50 then s.resetFabricPort (source - 44)
  else if source < 52 then
    let q := source - 50
    s.portDown q
  else if source = 53 then s.failShuttles (List.range 16)
  else s

/-- Blocks whose registers live in the always-on island and outlast a chip reset (R433, R478, R499; log 15). -/
def alwaysOnBlock (off : Nat) : Bool :=
  let b := off / 0x80000
  b == 14 || b == 16 || b == 17 || b == 18 || b == 19

/-- A chip reset (R436): every island but the always-on one resets, both PCIe links go down, the boot machine starts again. The state of
R433 is kept, and with it the retirement map; the fuses, the flash and host memory are no island's state. -/
def State.chipReset (s : State) : State :=
  let s1 := s.setDomains [0]
  { s1 with
    regs := s1.regs.filter (fun r => alwaysOnBlock r.1)
    channels := [], ports := (s1.ports.map (fun p => (p.1, { maxWidth := p.2.maxWidth, perst := p.2.perst, lost := 0 : Port }))),
    adopted := false, adoptRefused := false, shrRefused := 0, funcs := [], rings := [], entries := [], drafts := [],
    hostReads := [], shuttles := [], mates := [], served := [], parts := [], looms := [], links := [], fabric := {}, manager := {}, memCtl := { relocated := s1.memCtl.relocated },
    guests := [], vacant := [], straps := s1.straps,
    treadle := { vmainGood := s1.treadle.vmainGood, vsideGood := s1.treadle.vsideGood, brake := s1.treadle.brake }
    boot := { slots := s1.boot.slots, buffer := s1.boot.buffer, stageErr := s1.boot.stageErr, result := s1.boot.result
              idNumeric := s1.boot.idNumeric, idProtoMax := s1.boot.idProtoMax }
    trust := { jtagClosed := bitAt s1.fuses 898 || bitAt s1.fuses 954 } }

-- ## Records

/-- The REACT code that applies to a source: code 3 acts as 2 for sources 52 and 54 to 61 (R435). -/
def State.react (s : State) (source : Nat) : Nat :=
  let r := s.fld (.knotSrc source) 0 3
  if r = 3 ∧ (source = 52 ∨ 54 ≤ source) then 2 else r

/-- The 64 bytes of a fault record (R439). -/
def State.faultRecord (s : State) (ev : FaultEv) (injected merged : Bool) (score : Nat) : List Byte :=
  let parts := (s.affected ev.source ev.unit).foldl (fun a p => a + 2 ^ p) 0
  s.stamp ev.island ev.part ++ leBytes 8 s.knot.seq ++
  leBytes 1 (ev.source + 64 * b2n injected + 128 * b2n merged) ++ leBytes 1 ev.cls ++
  leBytes 1 (s.react ev.source + 8 * b2n (s.bit (.knotSrc ev.source) 3)) ++ zeros 1 ++
  leBytes 2 parts ++ zeros 2 ++ leBytes 4 ev.unit ++ leBytes 4 ev.unit2 ++ leBytes 8 ev.address ++ leBytes 8 ev.detail ++
  leBytes 4 score ++ zeros 4

/-- Number of records the fault log holds (R434). -/
def State.logSize (s : State) : Nat := 2 ^ s.fld .knotLogCtl 0 4

/-- One record into the fault log, or counted in DROPPED (R439, R504, R540). -/
def State.logRecord (s : State) (rec : List Byte) : State :=
  let a := s.addr (.knotLog 0) (.knotLog 1)
  let q := gSpace a - 4
  let full := (s.knot.tail + 1) % s.logSize == s.knot.head
  let dropped := { s with knot := { s.knot with dropped := satInc 16 s.knot.dropped 1 } }
  if !s.bit .knotLogCtl 4 || full || !s.isLocal a || a == 0 || (gSpace a != 4 && gSpace a != 5) then dropped
  else if !(s.port q).linkUp then dropped.hostPut q 0 0 []
  else
    let s1 := s.hostPut q 0 (spaceKey (gSpace a) (gOffset a + 64 * s.knot.tail)) rec
    { s1 with knot := { s1.knot with tail := (s1.knot.tail + 1) % s1.logSize } }

/-- KNOT_IRQ's message to every administrative PF (R434). -/
def State.knotIrqMsg (s : State) : State :=
  (bitList 2 s.adminMask).foldl (fun s q => s.msix q 0 (s.fld .knotIrq 0 11)) s

/-- Class and unit number of the classifier unit an event counts for (R443). -/
def classUnit (ev : FaultEv) : Option (Nat × Nat) :=
  match ev.cls with
  | 0x01 => some (0, ev.unit)
  | 0x02 => some (0, ev.unit)
  | 0x03 => some (0, ev.unit)
  | 0x10 => some (1, ev.unit)
  | 0x12 => some (2, ev.unit)
  | _ => none

/-- A hard event of a unit (R443). -/
def State.hardEvent (s : State) (cls u : Nat) : State :=
  let x := s.unit cls u
  s.setUnit cls u { x with hard := x.hard + 1 }

/-- Corrected events of a unit: `per` of them make one soft event (R443). -/
def State.softEvent (s : State) (cls u per : Nat) : State :=
  let x := s.unit cls u
  s.setUnit cls u { x with soft := x.soft + (x.raw + 1) / per, raw := (x.raw + 1) % per }

/-- The classifier score of an event's unit (R439). -/
def State.scoreOf (s : State) (ev : FaultEv) : Nat :=
  let of (c : Nat) : Nat := (s.unit c ev.unit).score
  match ev.cls with
  | 0x10 => of 1
  | 0x12 => of 2
  | 0x20 => of 3
  | 0x21 => of 3
  | 0x28 => of 4
  | 0x40 => of (if ev.source < 32 then 0 else if ev.source < 40 then 1 else if ev.source < 44 then 2 else if ev.source < 50 then 3 else 4)
  | c => if 1 ≤ c ∧ c ≤ 5 then of 0 else 0

/-- A fault event (R435): bit, record, handling window, reaction (R436 to R438). -/
def State.raiseWith (s : State) (ev : FaultEv) (injected : Bool) : State :=
  let r := s.react ev.source
  let merged := decide (1 ≤ r) && s.knot.windowOpen
  let k := s.knot
  let k1 := { k with
    word := setField k.word ev.source 1 1, seq := k.seq + 1
    lastClass := tset 0 k.lastClass ev.source ev.cls
    events := tset 0 k.events ev.source (satInc 16 (tget 0 k.events ev.source) 1) }
  let k2 := if merged then { k1 with mergedBit := true, merged := setField k1.merged ev.source 1 1, mergeCount := satInc 32 k1.mergeCount 1 }
    else if 1 ≤ r then { k1 with windowOpen := true, firstSource := ev.source, firstClass := ev.cls }
    else k1
  let s1 := { s with knot := k2 }
  let rec64 := s1.faultRecord ev injected merged (s1.scoreOf ev)
  let hit := s1.affected ev.source ev.unit
  let s2 := s1.logRecord rec64
  let s3 := if 1 ≤ r ∧ r ≤ 3 ∧ !merged then s2.knotIrqMsg else s2
  if r = 2 then hit.foldl (fun s p => s.trap rec64 p) s3
  else if r = 3 then s3.resetBlock ev.source
  else if r = 4 then s3.chipReset
  else s3

/-- A fault event of the hardware: it counts as a hard event of its unit first (R443). -/
def State.raise (s : State) (ev : FaultEv) : State :=
  (match classUnit ev with
   | some (c, u) => s.hardEvent c u
   | none => s).raiseWith ev false

/-- What holds after every command: memory in its canonical form, and the pins that follow from the rest of the state. -/
def settle (s : State) : State :=
  { s with mem := tcanon 0 s.mem, faultN := s.faultPin, thermN := s.treadle.warm, pgOut := s.pgPin }

/-- The outcome of a command: always a next state; faults of the part are events on State and completion statuses. -/
def finish (s : State) : Host.Outcome State Fault Refusal := .next (settle s)

end Sys2Proof.Machine
end

