-- ==== Sys2Proof/Machine/Retire.lean ====
section
/-!
DEFINITION. Machine/Retire.lean: the classification temple (R443, R444) and retirement (R235, R446 to R453).
-/

namespace Sys2Proof.Machine

/-- Units of a class on the module. -/
def unitCount (cls : Nat) : Nat := [256, 256, 64, 96, 2].getD cls 0

/-- Half the width of a PCIe link: x16, x8, x4, x2, x1, none. -/
def halfWidth (w : Nat) : Nat := w / 2

/-- A link's entry to FAILED (class 0x20) or RETIRED (0x21) (R267, R440). -/
def State.linkEvent (s : State) (l cls : Nat) : FaultEv :=
  let x := s.link l
  { source := 44 + l / 16, cls := cls, unit := l, unit2 := (match x.partner with | some p => p.1 | none => 0xFFFFFFFF)
    address := 0, detail := x.cause, island := 0x21, part := none }

/-- A link fails training with a cause (R265, R267). -/
def State.failLink (s : State) (l cause : Nat) : State :=
  let s1 := s.moveLink l 7 cause
  s1.raise (s1.linkEvent l 0x20)

/-- An enabled link trains from DETECT; in a dimension of extent 1 it fails (R265, R267). -/
def State.trainLink (s : State) (l : Nat) : State := if s.extent (l / 32) = 1 then s.failLink l 8 else s.moveLink l 1 0

/-- A link with LINK_EN set and DISABLED trains. -/
def State.startLink (s : State) (l : Nat) : State := if s.linkEn l ∧ (s.link l).st = 0 then s.trainLink l else s

/-- Exit to T0: links that T2 idled retrain; after T3 or T4 enabled links train from DETECT (R464). -/
def State.wakeLinks (s : State) (source : Nat) : State :=
  (List.range 96).foldl (fun s l =>
    if source = 2 then (if (s.link l).st = 6 then s.retrain l else s)
    else if 3 ≤ source then s.startLink l
    else s) s

/-- A link becomes RETIRED with a cause (R267, R273). -/
def State.dropLink (s : State) (l cause : Nat) : State :=
  let s1 := s.moveLink l 8 cause
  (s1.raise (s1.linkEvent l 0x21)).retrainNext (l / 16)

/-- The action of R446, and DETAIL of its record (R440). -/
def State.retireAction (s : State) (cls u : Nat) : State × Nat :=
  match cls with
  | 0 => (s.settleGuests, loomBytes)
  | 1 =>
    let g := u / 8
    ({ s with memCtl := { s.memCtl with relocating := s.memCtl.relocating.filter (· != g) ++ [g] } }, 0x60000000)
  | 2 =>
    let g := 256 + u / 4
    ({ s with memCtl := { s.memCtl with relocating := s.memCtl.relocating.filter (· != g) ++ [g] } }, 0x3C0000000)
  | 3 => (if (s.link u).st = 0 ∨ (s.link u).st = 8 then s else s.dropLink u 7, 0)
  | _ =>
    let pt := s.port u
    let w := halfWidth pt.maxWidth
    let s1 := s.setPort u { pt with maxWidth := w, width := min pt.width w }
    (if w = 0 ∧ pt.linkUp then s1.portDown u else s1, w)

/-- A unit is retired: logged in the flash first (R453), with its action, its record, and the page (R446, R452). A PCIe link may be
retired again at each width. -/
def State.retireUnit (s : State) (cls u : Nat) : State :=
  if unitCount cls ≤ u ∨ (if cls = 4 then (s.port u).maxWidth == 0 else s.isRetired cls u) then s
  else
    let s1 : State := { s with retired := if s.isRetired cls u then s.retired else s.retired ++ [65536 * cls + u] }
    let r := s1.retireAction cls u
    let src := unitSource cls u
    let s2 := r.1.raise { source := src.1, cls := 0x40, unit := u, unit2 := cls, address := 0, detail := r.2, island := src.2,
                          part := if cls = 0 then s.clusterPart (u / 8) else none }
    s2.writeRetirePage

/-- A loom is retired (R473). -/
def State.retireLoom (s : State) (l : Nat) : State := s.retireUnit 0 l

/-- Units of a class that serve. -/
def State.liveUnits (s : State) (cls : Nat) : List Nat :=
  (List.range (unitCount cls)).filter (fun u => if cls = 4 then (s.port u).maxWidth != 0 else !s.isRetired cls u)

/-- The median of a list of numbers, rounded down. -/
def median (xs : List Nat) : Nat :=
  let ys := sortBy (fun a b => decide (a ≤ b)) xs
  let n := ys.length
  if n = 0 then 0 else if n % 2 = 1 then ys.getD (n / 2) 0 else (ys.getD (n / 2 - 1) 0 + ys.getD (n / 2) 0) / 2

/-- The score at which a unit of a class is permanent: T + K * M (R444, R445). -/
def State.permanentAt (s : State) (cls : Nat) : Nat :=
  max 1 (s.fld (.tmpClassT cls) 0 16) +
  (if s.bit .tmpClassCtl 0 then 0 else s.fld .tmpClassCtl 4 4 * median ((s.liveUnits cls).map (fun u => (s.unit cls u).score)))

/-- A unit's window ends (R443, R444). -/
def windowEnd (s : State) (cls u : Nat) : State :=
  if unitCount cls ≤ u then s
  else
    let x := s.unit cls u
    let score := x.score / 2 + 16 * x.hard + x.soft
    let s1 := s.setUnit cls u { score := score }
    if s1.permanentAt cls ≤ score ∧ (s1.liveUnits cls).contains u then s1.retireUnit cls u else s1

-- ## What reads uncorrectable (R84, R233)

/-- A line reads uncorrectable twice: it is poisoned and recorded; a full table enters nothing and retires the unit (R233, R444). -/
def State.poisonLine (s : State) (sp o : Nat) (injected : Bool) (part : Option Nat) : State :=
  let u := unitOf sp o
  let k := s.dataKey sp (o / 64 * 64)
  let src := unitSource (unitClass sp) u
  let ga := s.moduleNum * 2 ^ 52 + spaceKey sp (o / 64 * 64)
  let base : FaultEv := { source := src.1, cls := 0x10 + 2 * sp, unit := u, unit2 := 0, address := ga, detail := 0xFF, island := src.2, part := part }
  if s.tableFull sp u then
    (s.raise { base with cls := 0x11 + 2 * sp, unit := tableOf sp u, detail := 0 }).retireUnit (unitClass sp) u
  else
    let s1 : State := { s with memCtl := { s.memCtl with poison := s.memCtl.poison ++ [k] } }
    if injected ∧ tget 0 s.memCtl.armed (2 ^ 32 + 65536 * unitClass sp + u) = 0 then s1.raiseWith base injected
    else (s1.hardEvent (unitClass sp) u).raiseWith base injected

/-- The partition whose work made an access: an event of it carries the job's pick (R61). -/
def State.issuerPart (s : State) : Issuer → Option Nat
  | .node d _ => (s.draft d).map (·.part)
  | .entry e => (s.entry e).map (·.part)
  | .shed p _ => some p
  | .fetch d _ => (s.draft d).map (·.part)
  | .outside => none

/-- DETAIL of the loom records: node id and partition (R440). -/
def State.loomDetail (s : State) (l : Nat) : Nat :=
  (match (s.loom l).node with | some (_, n) => n % 65536 | none => 0) + 65536 * (s.clusterPart (l / 8)).getD 0

/-- A fault record of a loom. -/
def State.loomEvent (s : State) (l cls unit2 address detail : Nat) : FaultEv :=
  { source := l / 8, cls := cls, unit := l, unit2 := unit2, address := address, detail := detail, island := l / 8, part := s.clusterPart (l / 8) }

/-- A loom's fault is recorded; an injected one counts only where its injection says so (R441, R443). -/
def State.raiseLoom (s : State) (ev : FaultEv) (injected : Bool) : State :=
  if injected ∧ tget 0 (s.loom ev.unit).armed (256 + ev.cls) = 0 then s.raiseWith ev true
  else match classUnit ev with
    | some (c, u) => (s.hardEvent c u).raiseWith ev injected
    | none => s.raiseWith ev injected

/-- A word reads uncorrectable twice: its record (R84). A scrub's carries no pick (R61). -/
def State.recordWord (s : State) (l a : Nat) (part : Option Nat) : State :=
  let x := s.loom l
  let half := if fillBase ≤ a ∧ a < scratchBase then (localPhys x a - fillBase) / 0x60000 else 0
  s.raiseLoom { s.loomEvent l 3 half a (s.loomDetail l) with part := part } (x.bad.contains (localPhys x (a / 8 * 8)))

/-- A word reads uncorrectable twice: the record, and the end of the issuer (R84). -/
def State.badWord (s : State) (l a : Nat) (iss : Issuer) (scrub : Bool) : State :=
  (s.recordWord l a (if scrub then none else s.clusterPart (l / 8))).failIssuer iss stRetryExhausted

-- ## Relocation (R235)

/-- Lines of a retired unit: the listed bytes of the group's home space that lie in its unit and in the retained range. -/
def State.unitCells (s : State) (sp g u : Nat) : List Host.Cell :=
  (tslice s.mem (spaceKey sp (g * groupBytes sp)) (spaceKey sp ((g + 1) * groupBytes sp))).filter (fun c => unitOf sp (c.1 - spaceKey sp 0) == u)

/-- The relocation of a group ends: every line of its retired units has its new place; lines that read uncorrectable, and lines that were
poisoned, are poisoned there (R233, R235). -/
def relocationDone (s : State) (sp g : Nat) (badLines : List Nat) : State :=
  if !s.memCtl.relocating.contains (256 * sp + g) then s
  else
    let us := ((List.range (groupUnits sp)).map (groupUnits sp * g + ·)).filter (fun u =>
      s.isRetired (unitClass sp) u && !s.memCtl.relocated.contains (65536 * unitClass sp + u))
    let cells := us.flatMap (s.unitCells sp g)
    let s0 : State := { s with mem := us.foldl (fun m u => m.filter (fun c =>
      !(decide (spaceKey (0x20 + sp) (g * groupBytes sp) ≤ c.1 ∧ c.1 < spaceKey (0x20 + sp) ((g + 1) * groupBytes sp)) &&
        unitOf sp (c.1 - spaceKey (0x20 + sp) 0) == u))) s.mem }
    let s1 := cells.foldl (fun s c => s.wr (c.1 - spaceKey sp 0 + spaceKey (0x20 + sp) 0) c.2) s0
    let move (k : Nat) : Nat := if k / 2 ^ 48 = sp ∧ us.contains (unitOf sp (k % 2 ^ 48)) then k + 0x20 * 2 ^ 48 else k
    let stored := (s.memCtl.corrupt.filter (fun k => move k != k)).map (fun k => k % 2 ^ 48)
    let bad := ((badLines.map (fun o => o / 64 * 64)).filter (fun o => us.contains (unitOf sp o)) ++ stored).dedup
    let s2 : State := { s1 with memCtl := { s1.memCtl with
        relocating := s1.memCtl.relocating.erase (256 * sp + g)
        relocated := s1.memCtl.relocated ++ us.map (65536 * unitClass sp + ·)
        poison := s1.memCtl.poison.map move
        corrupt := s1.memCtl.corrupt.map move
        cache := s1.memCtl.cache.map (fun l => { l with key := move l.key }) } }
    bad.foldl (fun s o => if s.memCtl.poison.contains (s.dataKey sp o) then s else s.poisonLine sp o (stored.contains o) none) s2

/-- The retirement log and map are cleared while every partition is UNCONFIGURED; cleared units start with score 0 (R453). -/
def State.clearRetired (s : State) : State :=
  if (List.range 16).all (fun p => (s.part p).st == .unconfigured) then
    let s1 := s.retired.foldl (fun s k => s.setUnit (k / 65536) (k % 65536) {}) s
    let s2 : State := { s1 with
      retired := [], guests := [], vacant := []
      memCtl := { s1.memCtl with
        relocated := [], relocating := [], poison := s1.memCtl.poison.filter (fun k => decide (k / 2 ^ 48 < 0x20))
        corrupt := s1.memCtl.corrupt.filter (fun k => decide (k / 2 ^ 48 < 0x20))
        cache := s1.memCtl.cache.filter (fun l => decide (l.key / 2 ^ 48 < 0x20)) }
      ports := tcanon {} (s1.ports.map (fun q => (q.1, { q.2 with maxWidth := 16 }))) }
    s2.writeRetirePage
  else s

-- ## Commands

/-- CLASSIFIER_WINDOW_END (R444). -/
def execClassifierWindowEnd (cls u : Nat) (s : State) : Host.Outcome State Fault Refusal := finish (windowEnd s cls u)

end Sys2Proof.Machine
end

