-- ==== Sys2Proof/Machine/Boot.lean ====
section
/-!
DEFINITION. Machine/Boot.lean: the flash, the image format, boot, staging, live activation, the fuses, the trust engine
(16, R480 to R499).
-/

namespace Sys2Proof.Machine

-- ## Who may write

/-- The source is an administrative PF that the blocks serve. -/
def State.fromAdmin (s : State) : Src → Bool
  | .port q f => s.isAdmin q f && s.serving (.port q f)
  | _ => false

/-- An administrative PF, also in RECOVERY, where the BOOT and FUS blocks answer (R488). -/
def State.adminPf (s : State) : Src → Bool
  | .port q f => s.isAdmin q f
  | _ => false

/-- The source may write the BOOT block (R499): the administrative PF or SMBus, which in FAIL serves reads only (R519). -/
def State.bootWriter (s : State) (src : Src) : Bool :=
  s.adminPf src || (src == .smbus && s.boot.state != .fail)

-- ## Fuses (R492)

/-- The bits MFG_CRC covers, in ascending order, as bytes: [767:0], then [954:899] (R492; log 16). -/
def mfgBytes (fuses : Nat) : List Byte := leBytes 103 (field fuses 0 768 + 2 ^ 768 * field fuses 899 56)

-- ## The flash (R480 to R482)

def slotKey (slot : Nat) : Nat := spaceKey flashSpace (slot * 0x7000000)
def recordKey (copy : Nat) : Nat := spaceKey flashSpace (0xE000000 + copy * 0x10000)

/-- A boot-record copy whose CRC holds: its SEQ and ACTIVE_SLOT (R481). -/
def State.recordCopy (s : State) (copy : Nat) : Option (Nat × Nat) :=
  let b := s.rdBytes (recordKey copy) 64
  if crc32 (b.take 60) = le b 60 4 then some (le b 0 8, le b 8 1 % 2) else none

/-- The governing copy, its SEQ and its slot; with no valid copy the slot is 0 (R481). -/
def State.governing (s : State) : Nat × Nat × Nat :=
  match s.recordCopy 0, s.recordCopy 1 with
  | some (q0, a0), some (q1, a1) => if q0 < q1 then (1, q1, a1) else (0, q0, a0)
  | some (q0, a0), none => (0, q0, a0)
  | none, some (q1, a1) => (1, q1, a1)
  | none, none => (1, 0, 0)

/-- ACTIVE_SLOT of the governing record. -/
def State.recordSlot (s : State) : Nat := s.governing.2.2

/-- The standby slot (R482). -/
def State.standby (s : State) : Nat := 1 - s.recordSlot

/-- The other copy is written with SEQ + 1 and a new slot (R481). -/
def State.writeRecord (s : State) (slot : Nat) : State :=
  let g := s.governing
  let b := leBytes 8 (g.2.1 + 1) ++ leBytes 1 slot ++ zeros 51
  s.wrBytes (recordKey (1 - g.1)) (b ++ leBytes 4 (crc32 b))

-- ## Image headers (R483 to R485)

/-- The used component entries of a header, 80 bytes each. -/
def compEntries (h : List Byte) : List (List Byte) :=
  (List.range (le h 15 1)).map (fun i => slice h (2048 + 80 * i) 80)

/-- The component table is well formed: identifiers, offsets, lengths, reserved bytes (R484, R485). -/
def compsOk (h : List Byte) : Bool :=
  let es := compEntries h
  let ids := es.map (fun e => le e 0 2)
  let span (e : List Byte) := (le e 4 4, le e 4 4 + le e 8 4)
  ids.all (fun i => decide (1 ≤ i ∧ i ≤ 0xF)) && ids.Nodup &&
  (List.range 7).all (fun i => ids.contains (i + 1)) &&
  es.all (fun e => zeroAt e 2 2 && zeroAt e 12 4 && le e 4 4 % 4096 == 0 && decide ((span e).2 ≤ le h 16 4)) &&
  (List.range es.length).all (fun i => (List.range i).all (fun j =>
    let a := span (es.getD i []); let b := span (es.getD j [])
    decide (a.2 ≤ b.1 ∨ b.2 ≤ a.1))) &&
  zeroAt h (2048 + 80 * le h 15 1) (80 * (16 - le h 15 1))

/-- The checks of R485 on the header alone. -/
def headerOk (h : List Byte) : Bool :=
  le h 0 4 == 0x36395351 && le h 4 2 == 1 && le h 20 4 == 0x9600 &&
  zeroAt h 24 8 && zeroAt h 1984 64 && zeroAt h 6637 1555 &&
  decide (le h 14 1 ≤ 128) && decide (7 ≤ le h 15 1 ∧ le h 15 1 ≤ 15) && decide (le h 16 4 ≤ 0x7000000) && compsOk h

/-- The vendor key of a header is that of key slot `k`, which is not revoked (R485). -/
def State.vendorKeyIs (s : State) (h : List Byte) (k : Nat) : Bool :=
  Config.shake256 32 (slice h 32 1952) == leBytes 32 (field s.fuses (256 + 256 * k) 256) && !s.fuseBit (768 + k)

/-- The key slot whose digest fuse matches the vendor key and is not revoked (R485). -/
def State.keySlot (s : State) (h : List Byte) : Option Nat := firstIdx 2 (s.vendorKeyIs h)

/-- The header bytes of an image slot. -/
def State.header (s : State) (slot : Nat) : List Byte := s.rdBytes (slotKey slot) 8192

/-- Verification of a slot: the key slot, or the cause of the failure (R485, R487). -/
def State.verifySlot (s : State) (slot : Nat) : Except Nat Nat :=
  let h := s.header slot
  if !headerOk h then .error 2
  else match s.keySlot h with
    | none => .error 3
    | some k => if Config.mldsaVerify (slice h 32 1952) (h.take 3328) (slice h 3328 3309) then .ok k else .error 4

/-- The measured digest of a component (R485). -/
def State.measure (s : State) (slot : Nat) (e : List Byte) : List Byte :=
  Config.shake256 64 (s.rdBytes (slotKey slot + le e 4 4) (le e 8 4))

/-- Measurement and the rollback check: 0, or the cause (R487). -/
def State.measureSlot (s : State) (slot : Nat) : Nat :=
  let h := s.header slot
  if (compEntries h).any (fun e => s.measure slot e != slice e 16 64) then 5
  else if le h 14 1 < s.rollback then 6 else 0

/-- Verification, measurement and rollback in one: the key slot, or the cause. -/
def State.checkSlot (s : State) (slot : Nat) : Except Nat Nat :=
  match s.verifySlot slot with
  | .error c => .error c
  | .ok k => match s.measureSlot slot with
    | 0 => .ok k
    | c => .error c

def State.slotInfo (s : State) (slot : Nat) : SlotInfo := tget {} s.boot.slots slot
def State.setSlotInfo (s : State) (slot : Nat) (x : SlotInfo) : State :=
  { s with boot := { s.boot with slots := tset {} s.boot.slots slot x } }

/-- BOOT_SLOT after a check: version and SVN from the header, the cause, VERIFIED (R487, R499). -/
def State.reportSlot (s : State) (slot cause : Nat) : State :=
  let h := s.header slot
  s.setSlotInfo slot { version := le h 6 2, svn := le h 14 1, cause := cause, verified := cause == 0 }

/-- What the module keeps of the image in a slot (R4, R496): digests in ascending COMP_ID. -/
def State.imageOf (s : State) (slot keySlot : Nat) : Image :=
  let h := s.header slot
  let ds := (compEntries h).map (fun e => (le e 0 2, s.measure slot e))
  { slot := slot, keySlot := keySlot, version := le h 6 2, numeric := le h 8 2, protoMin := le h 10 2, protoMax := le h 12 2
    svn := le h 14 1, digests := ds.foldl (fun a d => tinsert d.1 d.2 a) [] }

-- ## Boot (R486 to R488)

/-- BOOT_START: VSTBY is good and the state is RESET; the fuse array is read (R486). -/
def bootStart (s : State) : State :=
  if s.boot.state = .reset ∧ s.treadle.vstbyGood then { s with boot := { s.boot with state := .fuses } } else s

/-- SELECT takes the slot of the governing record first (R486). -/
def State.select (s : State) : State :=
  { s with boot := { s.boot with state := .verify, recordSlot := s.recordSlot, trying := s.recordSlot, tried := 0 } }

/-- A role strapped on a module without the manager-capability fuse: one fault record that names it (R333). The manual gives the record no
class, so CLASS is free (log 43). -/
def State.refuseRole (s : State) : State :=
  if s.mgrCap ∨ s.straps / 4096 % 4 = 0 then s
  else
    let d := s.draw
    let s1 : State := { d.2 with knot := { d.2.knot with seq := d.2.knot.seq + 1 } }
    s1.logRecord (s1.faultRecord { source := 61, cls := d.1 % 256, unit := s.straps / 4096 % 4, unit2 := 0, address := 0, detail := 0
                                   island := 0x31, part := none } false false 0)

/-- BOOT_FUSES_DONE: a CRC mismatch leads to FAIL with cause 1 and knot bit 60; else the straps are sampled, a refused role is recorded and a
slot is taken (R68, R333, R486). -/
def bootFusesDone (s : State) (straps : Nat) : State :=
  if s.boot.state ≠ .fuses then s
  else if crc32 (mfgBytes s.fuses) ≠ field s.fuses 992 32 then
    { s with boot := { s.boot with state := .fail, failCause := 1 } }.raise
      { source := 60, cls := 0x3C, unit := 0, unit2 := 0, address := 0, detail := 31, island := 0x31, part := none }
  else (State.refuseRole { s with straps := straps % 2 ^ 14, trust := { s.trust with jtagClosed := s.debugLock } }).select

/-- A failed check of the slot in hand: the other slot is taken, or RECOVERY is entered and its domains come up (R486, R488). -/
def State.slotFailed (s : State) (cause : Nat) : State :=
  let s1 := s.reportSlot s.boot.trying cause
  if s1.boot.tried = 0 then
    { s1 with boot := { s1.boot with state := .verify, trying := 1 - s1.boot.trying, tried := 1 } }
  else { s1 with boot := { s1.boot with state := .recovery, recovered := true } }.setDomains [0, 1, 5, 8, 0x33]

/-- BOOT_VERIFY_DONE (R485, R486). -/
def bootVerifyDone (s : State) : State :=
  if s.boot.state ≠ .verify then s
  else match s.verifySlot s.boot.trying with
    | .error c => s.slotFailed c
    | .ok k => { s with boot := { s.boot with state := .measure, image := { s.boot.image with keySlot := k } } }

/-- An image becomes the active one, and the ID block names its versions (R4). -/
def Boot.activate (b : Boot) (i : Image) : Boot := { b with image := i, idNumeric := i.numeric, idProtoMax := i.protoMax }

/-- BOOT_MEASURE_DONE: measurement and the rollback check (R485, R486). -/
def bootMeasureDone (s : State) : State :=
  if s.boot.state ≠ .measure then s
  else match s.measureSlot s.boot.trying with
    | 0 =>
      let s1 := s.reportSlot s.boot.trying 0
      { s1 with boot := { s1.boot.activate (s1.imageOf s1.boot.trying s1.boot.image.keySlot) with state := .identity } }
    | c => s.slotFailed c

/-- The treadle starts the exit to T0 with a wake source; the wake record is written (R460, R469). -/
def State.startExit (s : State) (source port : Nat) : State :=
  let i := s.island 0x31
  { s with treadle := { s.treadle with
      moving := some (.exit source), wakeSource := source, wakeFrom := s.treadle.state, wakePort := port
      wakeEpoch := i.epoch, wakeCycle := i.cycle
      driving := s.treadle.driving || decide (2 ≤ s.treadle.state ∧ (List.range 6).any (fun p => s.fld (.wflPortCfg p) 0 16 != 0))
      ignoring := s.treadle.ignoring || decide (2 ≤ s.treadle.state ∧ (List.range 6).any (fun p => s.fld (.wflPortCfg p) 0 16 != 0)) } }

/-- BOOT_IDENTITY_DONE: the identity key is derived, the retirement log applied, the boot record updated where another slot was booted,
and in READY the treadle exits T4 once VMAIN and VSIDE are good (R460, R486, R495). -/
def bootIdentityDone (s : State) : State :=
  if s.boot.state ≠ .identity then s
  else
    let s1 := if s.boot.trying = s.boot.recordSlot then s else s.writeRecord s.boot.trying
    let s2 := { s1 with trust := { s1.trust with ready := true }, boot := { s1.boot with state := .ready, recordSlot := s1.boot.trying } }
    if s2.treadle.vmainGood ∧ s2.treadle.vsideGood ∧ s2.treadle.moving = none then s2.startExit 0 0
    else { s2 with treadle := { s2.treadle with awaiting := true } }

-- ## Staging (R489)

/-- Staging is refused while BUSY or an activation is in progress. -/
def State.stageBlocked (s : State) : Bool := s.boot.stage != .idle || s.boot.phase != .idle

/-- A staging write that is ignored sets STAGE_ERR. -/
def State.stageError (s : State) : State := { s with boot := { s.boot with stageErr := true } }

/-- A write of bytes into the staging buffer, within its 64 KiB. -/
def stagingWrite (s : State) (src : Src) (off : Nat) (data : List Byte) : State :=
  if !s.bootWriter src then s
  else if s.stageBlocked then s.stageError
  else { s with boot := { s.boot with buffer :=
      ((List.range data.length).zip data).foldl (fun b x => if off + x.1 < 65536 then tset 0 b (off + x.1) x.2 else b) s.boot.buffer } }

/-- STAGE_WRITE: the erase and programming of a unit begins; the slot is unverified from then on. -/
def stageWrite (s : State) (src : Src) (unit : Nat) : State :=
  if !s.bootWriter src then s
  else if s.stageBlocked ∨ 1792 ≤ unit then s.stageError
  else { s.setSlotInfo s.standby { s.slotInfo s.standby with verified := false } with boot :=
      { (s.setSlotInfo s.standby { s.slotInfo s.standby with verified := false }).boot with stage := .write unit } }

/-- STAGE_COMMIT: the check of the standby slot begins. -/
def stageCommit (s : State) (src : Src) : State :=
  if !s.bootWriter src then s
  else if s.stageBlocked then s.stageError
  else { s with boot := { s.boot with stage := .commit } }

/-- STAGE_OPERATION_COMPLETE: the unit holds the buffer, or the standby slot has been checked; in RECOVERY a pass makes it ACTIVE_SLOT and
boot continues at SELECT. -/
def stageDone (s : State) : State :=
  match s.boot.stage with
  | .idle => s
  | .write unit =>
    let k := slotKey s.standby + unit * 65536
    let s1 := s.zero k 65536
    let s2 := { s1 with mem := s1.boot.buffer.foldl (fun m (c : Nat × Byte) => tset 0 m (k + c.1) c.2) s1.mem }
    { s2 with boot := { s2.boot with stage := .idle } }
  | .commit =>
    let slot := s.standby
    let s1 := { s with boot := { s.boot with stage := .idle } }
    match s.checkSlot slot with
    | .error c => s1.reportSlot slot c
    | .ok _ =>
      let s2 := s1.reportSlot slot 0
      if s2.boot.state = .recovery then (s2.writeRecord slot).select else s2

-- ## Requests of the treadle (R461, R468)

/-- The condition a request must meet (R461). -/
def State.mayEnter (s : State) (t : Nat) : Bool :=
  let idle (p : Nat) := (s.part p).st.idle
  if t ≤ 1 then true
  else if t = 2 then (List.range 16).all (fun p => idle p || (s.part p).st == .preempted)
  else (List.range 16).all (fun p => idle p && !s.bit (.jobCtl p) 16)

/-- An entry into a deeper state begins: links idle before the fabric's domains go off (R464). -/
def State.startEntry (s : State) (t : Nat) : State :=
  { s.idleForSleep t with treadle := { (s.idleForSleep t).treadle with moving := some (.entry t) } }

/-- A request begins from the state reached: an exit for T0 or for a shallower state, an entry for a deeper one, REFUSED where the condition
of R461 is not met. -/
def State.beginRequest (s : State) (t : Nat) (w : Nat × Nat) : State :=
  let cur := s.treadle.state
  if t = cur then s
  else if t = 0 then s.startExit w.1 w.2
  else if !s.mayEnter t then { s with treadle := { s.treadle with refused := true } }
  else if t < cur then
    { s.startExit 5 0 with treadle := { (s.startExit 5 0).treadle with pending := some t, pendingWake := (5, 0) } }
  else s.startEntry t

/-- A request reaches the treadle (R468): during a move it becomes the pending request, or coalesces with a move that reaches it; an
activation holds it (R491), a thermal hold keeps a shallower one pending (R471). -/
def State.request (s : State) (t : Nat) (w : Nat × Nat) : State :=
  let pend := { s with treadle := { s.treadle with pending := some t, pendingWake := w } }
  match s.treadle.moving with
  | some (.entry r) => if t = r then s else pend
  | some (.exit _) => if t = 0 then s else pend
  | none =>
    if s.boot.phase ≠ .idle then pend
    else if s.treadle.hold ≠ 0 ∧ t < s.treadle.state then pend
    else s.beginRequest t w

/-- The pending request, once nothing holds it (R468, R471). -/
def State.runPending (s : State) : State :=
  match s.treadle.pending with
  | none => s
  | some t =>
    if s.treadle.moving ≠ none ∨ s.boot.phase ≠ .idle ∨ (s.treadle.hold ≠ 0 ∧ t < s.treadle.state) then s
    else { s with treadle := { s.treadle with pending := none } }.beginRequest t s.treadle.pendingWake

-- ## Live activation (R490, R491)

/-- A write of BOOT_ACT: ACT_WAIT is set, and GO starts the activation of the standby slot or reports why not (R490). -/
def activationGo (s : State) (src : Src) (v : Nat) : State :=
  if !s.bootWriter src then s
  else
    let s1 := s.setReg .bootAct (v % 64 / 2 * 2)
    if !bitAt v 0 then s1
    else
      let res (r : Nat) := { s1 with boot := { s1.boot with result := r } }
      let slot := s1.standby
      if s.boot.phase ≠ .idle then { s with boot := { s.boot with result := 4 } }
      else if !(s1.slotInfo slot).verified || decide (le (s1.header slot) 14 1 < s1.rollback) then res 2
      else if le (s1.header slot) 8 2 ≠ s1.boot.image.numeric ∧ (List.range 16).any (fun p => !(s1.part p).st.idle) then res 3
      else { s1 with boot := { s1.boot with phase := .verifying, held := 0 } }

/-- ACTIVATION_VERIFY_COMPLETE: the standby slot is checked again; HOLDING begins, or the activation ends with result 2. -/
def activationVerified (s : State) : State :=
  if s.boot.phase ≠ .verifying then s
  else match s.checkSlot s.standby with
    | .error c => State.runPending { s.reportSlot s.standby c with boot := { (s.reportSlot s.standby c).boot with phase := .idle, result := 2 } }
    | .ok _ => State.actHold { s with boot := { s.boot with phase := .holding, held := 0 } }

/-- ACTIVATION_SWITCH_COMPLETE: the components are loaded, every loom image slot is emptied, the boot record names the slot, the ID values
change, links retrain where the protocol range changed (R269), the partitions are released, and a power-state request that waited runs (R491). -/
def activationSwitched (s : State) : State :=
  if s.boot.phase ≠ .switching then s
  else
    let slot := s.standby
    let k := match s.verifySlot slot with | .ok k => k | .error _ => 0
    let old := s.boot.image
    let img := s.imageOf slot k
    let s1 := (s.writeRecord slot).emptyImages
    let s2 := { s1 with boot := { s1.boot.activate img with recordSlot := slot, phase := .idle, result := 1, held := 0 } }
    let s3 := if old.protoMin = img.protoMin ∧ old.protoMax = img.protoMax then s2 else s2.retrainLinks
    ((List.range 16).foldl (fun s p => s.rejoin p) s3).runPending

/-- ACTIVATION_HOLD_TIMEOUT: HOLDING is abandoned with result 5, the partitions are released, the slot stays verified (R491). -/
def activationTimeout (s : State) : State :=
  if s.boot.phase ≠ .holding then s
  else State.runPending { s with boot := { s.boot with phase := .idle, result := 5, held := 0 } }

-- ## Fuse programming (R494)

/-- Whether some image slot holds an image that verifies under key slot `k` (R494). -/
def State.verifiesUnder (s : State) (k : Nat) : Bool :=
  (List.range 2).any (fun slot => (match s.verifySlot slot with | .ok _ => true | .error _ => false) && s.vendorKeyIs (s.header slot) k)

/-- The fuse bits an operation blows; none where it is refused. -/
def State.progBits (s : State) (op arg : Nat) : Option (List Nat) :=
  if op = 1 then some ((List.range (s.boot.image.svn - s.rollback)).map (770 + s.rollback + ·))
  else if op = 2 then if s.verifiesUnder (1 - arg) then some [768 + arg] else none
  else some [898]

/-- A write of FUS_PROG for operation `op`: from the administrative host port, with CONFIRM 0x9600, while no fuse is being blown. -/
def fusProg (s : State) (src : Src) (op v : Nat) : State :=
  if !s.adminPf src ∨ field v 16 16 ≠ 0x9600 ∨ s.trust.blowBusy then s
  else match s.progBits op (field v 8 1) with
    | none => { s with trust := { s.trust with progResult := 2 } }
    | some [] => { s with trust := { s.trust with progResult := 1 } }
    | some bs => { s with trust := { s.trust with blowing := bs, blowBusy := true } }

/-- FUSE_PROGRAM_COMPLETE: the bits are blown; a bit that did not take sets knot bit 60 and reports result 3. -/
def fuseDone (s : State) (failedBit : Option Nat) : State :=
  if !s.trust.blowBusy then s
  else
    let bad := s.trust.blowing.filter (fun b => failedBit == some b)
    let good := s.trust.blowing.filter (fun b => failedBit != some b)
    let s1 := { s with
      fuses := good.foldl (fun f b => setField f b 1 1) s.fuses
      trust := { s.trust with blowing := [], blowBusy := false, progResult := if bad.isEmpty then 1 else 3 } }
    bad.foldl (fun s b => s.raise
      { source := 60, cls := 0x3C, unit := 0, unit2 := 0, address := 0, detail := b, island := 0x31, part := none }) s1

-- ## Attestation (R495 to R498)

/-- The identity public key (R495). -/
def State.publicKey (s : State) : List Byte := Config.mldsaPublicKey (field s.fuses 0 256)

/-- The identity digest (R495). -/
def State.idDigest (s : State) : List Byte := Config.shake256 64 s.publicKey

/-- The body of an attestation report of the active image (R496). -/
def State.reportBody (s : State) (nonce : List Byte) : List Byte :=
  let m := s.boot.image
  let flags := m.slot % 2 + 2 * (m.keySlot % 2) + 4 * b2n s.debugLock + 8 * b2n s.trust.debugSeen + 16 * b2n s.secure
  leBytes 2 1 ++ leBytes 2 m.digests.length ++ leBytes 2 0x9600 ++ leBytes 1 (b2n s.secure) ++ leBytes 1 flags ++
  leBytes 2 m.version ++ leBytes 2 m.numeric ++ leBytes 2 m.protoMin ++ leBytes 2 m.protoMax ++ leBytes 1 m.svn ++
  leBytes 1 s.rollback ++ leBytes 1 (field s.fuses 768 2) ++ leBytes 1 (field s.fuses 899 3) ++ leBytes 1 (field s.fuses 902 4) ++
  zeros 1 ++ leBytes 2 (field s.fuses 938 16) ++
  leBytes 4 ((List.range 16).foldl (fun a p => a + 4 ^ p * s.portPart p) 0) ++ zeros 28 ++ nonce ++ s.idDigest ++
  (m.digests.map (fun d => leBytes 2 d.1 ++ zeros 6 ++ d.2)).flatten

/-- The engine takes the next request: identities are answered at once, a report's body is fixed when it begins. -/
def State.trustNext (s : State) : Nat → State
  | 0 => s
  | n + 1 => match s.trust.queue with
    | (t, .identity) :: r => State.trustNext ({ s with trust := { s.trust with queue := r } }.emit (.mctp t 1 0 s.publicKey)) n
    | (t, .report nonce none) :: r =>
      { s with trust := { s.trust with queue := (t, .report nonce (some (s.reportBody nonce))) :: r } }
    | _ => s

/-- A request on a transport: INVALID for a wrong length or a reserved byte that is not zero, NOT_READY before IDENTITY, BUSY where four
are queued, else queued (R497, R498). -/
def trustRequest (s : State) (t : Transport) (cmd : Nat) (wellFormed : Bool) (r : Request) : State :=
  let answer (st : Nat) := s.emit (.mctp t cmd st [])
  if !wellFormed then answer 2
  else if !s.trust.ready then answer 3
  else if 4 ≤ (s.trust.queue.filter (fun x => x.1 == t)).length then answer 1
  else { s with trust := { s.trust with queue := s.trust.queue ++ [(t, r)] } }.trustNext (s.trust.queue.length + 1)

/-- REPORT_SIGN_COMPLETE: the report is signed and sent; over PCIe it sets ATTESTED of its port (R498). -/
def reportSigned (s : State) : State :=
  match s.trust.queue with
  | (t, .report _ (some body)) :: r =>
    let att := match t with | .pcie q => setField s.trust.attested q 1 1 | .smbus => s.trust.attested
    let s1 := { s with trust := { s.trust with queue := r, attested := att, reports := satInc 16 s.trust.reports 1 } }
    State.trustNext (s1.emit (.mctp t 2 0 (body ++ Config.mldsaSign (field s.fuses 0 256) body))) (r.length + 1)
  | _ => s

/-- The number of a transport in `eids`. -/
def transportId : Transport → Nat
  | .pcie q => q
  | .smbus => 2

/-- GET_IDENTITY: the request carries nothing after its two command bytes (R497). -/
def getIdentity (s : State) (t : Transport) (body : List Byte) : State := trustRequest s t 1 body.isEmpty .identity

/-- GET_REPORT: a 32-byte nonce and two reserved bytes (R497, R498). -/
def getReport (s : State) (t : Transport) (body : List Byte) : State :=
  trustRequest s t 2 (body.length == 34 && zeroAt body 32 2) (.report (body.take 32) none)

-- ## MCTP control (R497, DSP0236; log 17)

def setEndpointId (s : State) (t : Transport) (eid : Nat) : State :=
  if eid = 0 ∨ 0xFF ≤ eid then s.emit (.mctpControl t 1 [0x02])
  else { s with trust := { s.trust with eids := tset 0 s.trust.eids (transportId t) eid } }.emit
    (.mctpControl t 1 [0x00, 0x00, BitVec.ofNat 8 eid, 0x00])

def getEndpointId (s : State) (t : Transport) : State :=
  s.emit (.mctpControl t 2 [0x00, BitVec.ofNat 8 (tget 0 s.trust.eids (transportId t)), 0x00, 0x00])

/-- The version numbers answered are DSP0236's own, a free value here. -/
def getMctpVersions (s : State) (t : Transport) : State :=
  let d := s.draw
  d.2.emit (.mctpControl t 4 ([0x00, 0x01] ++ leBytes 4 d.1))

/-- One message type, 0x7E. -/
def getMessageTypes (s : State) (t : Transport) : State := s.emit (.mctpControl t 5 [0x00, 0x01, 0x7E])

-- ## The commands of the family

/-- BOOT_START (R486). -/
def execBootStart (s : State) : Host.Outcome State Fault Refusal := finish (bootStart s)
/-- BOOT_FUSES_DONE (R486). -/
def execBootFusesDone (straps : Nat) (s : State) : Host.Outcome State Fault Refusal := finish (bootFusesDone s straps)
/-- BOOT_VERIFY_DONE (R485). -/
def execBootVerifyDone (s : State) : Host.Outcome State Fault Refusal := finish (bootVerifyDone s)
/-- BOOT_MEASURE_DONE (R485). -/
def execBootMeasureDone (s : State) : Host.Outcome State Fault Refusal := finish (bootMeasureDone s)
/-- BOOT_IDENTITY_DONE (R495). -/
def execBootIdentityDone (s : State) : Host.Outcome State Fault Refusal := finish (bootIdentityDone s)
/-- STAGING_BUFFER_WRITE (R489). -/
def execStagingBufferWrite (src : Src) (off : Nat) (data : List Byte) (s : State) : Host.Outcome State Fault Refusal :=
  finish (s.via src (fun s => stagingWrite s src off data))
/-- STAGE_WRITE (R489). -/
def execStageWrite (src : Src) (unit : Nat) (s : State) : Host.Outcome State Fault Refusal :=
  finish (s.via src (fun s => stageWrite s src unit))
/-- STAGE_COMMIT (R489). -/
def execStageCommit (src : Src) (s : State) : Host.Outcome State Fault Refusal :=
  finish (s.via src (fun s => stageCommit s src))
/-- STAGE_OPERATION_COMPLETE (R489). -/
def execStageOperationComplete (s : State) : Host.Outcome State Fault Refusal := finish (stageDone s)
/-- ACTIVATION_GO (R490). -/
def execActivationGo (src : Src) (v : Nat) (s : State) : Host.Outcome State Fault Refusal :=
  finish (s.via src (fun s => activationGo s src v))
/-- ACTIVATION_VERIFY_COMPLETE (R490). -/
def execActivationVerifyComplete (s : State) : Host.Outcome State Fault Refusal := finish (activationVerified s)
/-- ACTIVATION_SWITCH_COMPLETE (R490). -/
def execActivationSwitchComplete (s : State) : Host.Outcome State Fault Refusal := finish (activationSwitched s)
/-- ACTIVATION_HOLD_TIMEOUT (R491). -/
def execActivationHoldTimeout (s : State) : Host.Outcome State Fault Refusal := finish (activationTimeout s)
/-- ROLLBACK_COMMIT (R494). -/
def execRollbackCommit (src : Src) (v : Nat) (s : State) : Host.Outcome State Fault Refusal :=
  finish (s.via src (fun s => fusProg s src 1 v))
/-- KEY_REVOKE (R494). -/
def execKeyRevoke (src : Src) (v : Nat) (s : State) : Host.Outcome State Fault Refusal :=
  finish (s.via src (fun s => fusProg s src 2 v))
/-- DEBUG_LOCK (R494). -/
def execDebugLock (src : Src) (v : Nat) (s : State) : Host.Outcome State Fault Refusal :=
  finish (s.via src (fun s => fusProg s src 3 v))
/-- FUSE_PROGRAM_COMPLETE (R494). -/
def execFuseProgramComplete (failedBit : Option Nat) (s : State) : Host.Outcome State Fault Refusal := finish (fuseDone s failedBit)
/-- GET_IDENTITY (R497). -/
def execGetIdentity (t : Transport) (body : List Byte) (s : State) : Host.Outcome State Fault Refusal := finish (getIdentity s t body)
/-- GET_REPORT (R498). -/
def execGetReport (t : Transport) (body : List Byte) (s : State) : Host.Outcome State Fault Refusal := finish (getReport s t body)
/-- REPORT_SIGN_COMPLETE (R498). -/
def execReportSignComplete (s : State) : Host.Outcome State Fault Refusal := finish (reportSigned s)
/-- SET_ENDPOINT_ID (R497). -/
def execSetEndpointId (t : Transport) (eid : Nat) (s : State) : Host.Outcome State Fault Refusal := finish (setEndpointId s t eid)
/-- GET_ENDPOINT_ID (R497). -/
def execGetEndpointId (t : Transport) (s : State) : Host.Outcome State Fault Refusal := finish (getEndpointId s t)
/-- GET_MCTP_VERSION_SUPPORT (R497). -/
def execGetMctpVersionSupport (t : Transport) (s : State) : Host.Outcome State Fault Refusal := finish (getMctpVersions s t)
/-- GET_MESSAGE_TYPE_SUPPORT (R497). -/
def execGetMessageTypeSupport (t : Transport) (s : State) : Host.Outcome State Fault Refusal := finish (getMessageTypes s t)
/-- JTAG_SESSION (R493): a session is seen where JTAG is open. -/
def execJtagSession (s : State) : Host.Outcome State Fault Refusal :=
  finish (if s.trust.jtagClosed || s.secure then s else { s with trust := { s.trust with debugSeen := true } })

end Sys2Proof.Machine
end

