-- ==== Sys2Proof/Machine/Links.lean ====
section
/-!
DEFINITION. Machine/Links.lean: link enables, training, identification, replay and modes (R264 to R278, R531). What a data flit carries is
handed on as packets.
-/

namespace Sys2Proof.Machine

/-- The administrative PF or the manager logic, the writers of the WFL block (R299). -/
def State.wflWriter (s : State) (src : Src) : Bool := s.fromAdmin src || src == .manager

-- ## LINK_EN (R265, R267, R477)

/-- LINK_EN of one lane set: from DISABLED the link trains, in a dimension of extent 1 it fails, while DRAINING the enable is held. -/
def State.enableLink (s : State) (l : Nat) : State :=
  if s.linkEn l then s
  else
    let r := Reg.wflPortCfg (l / 16)
    let s1 := s.setReg r (setField (s.reg r) (l % 16) 1 1)
    let x := s1.link l
    if x.st = 9 then s1.setLink l { x with heldEnable := true }
    else if x.st ≠ 0 then s1
    else s1.trainLink l

/-- LINK_EN of one lane cleared: an ACTIVE link drains, any other is DISABLED; while it drains a held enable stands, and the disable runs after it
(R477). -/
def State.disableLink (s : State) (l : Nat) : State :=
  if !s.linkEn l then s
  else
    let r := Reg.wflPortCfg (l / 16)
    let s1 := s.setReg r (setField (s.reg r) (l % 16) 1 0)
    let x := s1.link l
    if x.st = 4 then s1.moveLink l 9 0
    else if x.st = 0 ∨ x.st = 9 then s1
    else (s1.moveLink l 0 0).retrainNext (l / 16)

/-- Every flit of a draining link is acknowledged: DISABLED; a held enable trains it again, and a disable that came after it ends that. -/
def linkDrained (s : State) (l : Nat) : State :=
  let x := s.link l
  if x.st ≠ 9 ∨ !x.replay.isEmpty then s
  else
    let s1 := s.moveLink l 0 0
    if !x.heldEnable then s1
    else
      let s2 := s1.trainLink l
      if s2.linkEn l then s2 else s2.moveLink l 0 0

-- ## Ident blocks (R268, R269)

/-- The block this end sends; its repetition until the partner acknowledges it is one emission here (DESIGN CHOICE, log 181). -/
def State.identBlock (s : State) (l : Nat) : List Byte :=
  let b := leBytes 2 s.moduleNum ++ leBytes 1 (l / 16 + 8 * (l % 16)) ++ leBytes 1 (b2n (s.link l).llq) ++ leBytes 2 s.domain ++
    leBytes 2 s.boot.image.protoMin ++ leBytes 2 s.boot.image.protoMax ++ zeros 18
  b ++ leBytes 4 (crc32 b)

/-- The version both ends run, if there is one (R269). -/
def State.commonVersion (s : State) (block : List Byte) : Option Nat :=
  let v := min s.boot.image.protoMax (le block 8 2)
  if max s.boot.image.protoMin (le block 6 2) ≤ v then some v else none

/-- Cause of the first check of R268 that fails, or 0. -/
def State.identCause (s : State) (l : Nat) (block : List Byte) : Nat :=
  let pl := le block 2 1
  if pl % 8 ≠ l / 16 / 2 * 2 + (1 - l / 16 % 2) ∨ field pl 3 4 ≠ l % 16 ∨ le block 0 2 ≠ s.neighbour (l / 16) then 3
  else if le block 4 2 ≠ s.domain then 4
  else if (s.commonVersion block).isNone then 5
  else 0

-- ## Modes (R276 to R278)

/-- MODE_POLICY of a link's port. -/
def State.modePolicy (s : State) (l : Nat) : Nat := s.fld (.wflPortCfg (l / 16)) 16 2

/-- A change is agreed: under version 1 by RETRAIN, under version 2 in service, once the replay buffer is empty (R278). -/
def State.startSwitch (s : State) (l m : Nat) : State :=
  let x := s.link l
  let s1 := s.setLink l { x with switching := some m, acked := false }
  if x.proto = 1 then s1.retrain l
  else if x.replay.isEmpty then s1.controlFlit l 3 m
  else s1

/-- To FEC when either end asks; to low-latency when both do, both qualify, and MODE_POLICY of this port permits it (R276, R278). -/
def State.agreeMode (s : State) (l : Nat) : State :=
  let x := s.link l
  if x.st ≠ 4 ∨ x.switching.isSome then s
  else if x.ll ∧ (x.want = some 0 ∨ x.peerWant = some 0) then s.startSwitch l 0
  else if !x.ll ∧ x.want = some 1 ∧ x.peerWant = some 1 ∧ x.llq ∧ x.peerLlq ∧ s.modePolicy l ≠ 0 then s.startSwitch l 1
  else s

/-- This end asks for a mode. -/
def State.requestMode (s : State) (l m : Nat) : State :=
  let x := s.link l
  ((s.setLink l { x with want := some m }).controlFlit l 2 m).agreeMode l

/-- The pin settings of the policy: 0 always FEC, 1 low-latency whenever permitted (R277). -/
def State.applyPolicy (s : State) (l : Nat) : State :=
  let x := s.link l
  if x.st ≠ 4 ∨ x.switching.isSome then s
  else if s.modePolicy l = 0 ∧ x.ll then s.requestMode l 0
  else if s.modePolicy l = 1 ∧ !x.ll ∧ x.llq ∧ x.peerLlq ∧ x.want ≠ some 1 then s.requestMode l 1
  else s

/-- Both ends have stopped and are empty: the mode changes at the next flit, and the policy of the port stands. -/
def State.finishSwitch (s : State) (l : Nat) : State :=
  let x := s.link l
  ((s.setLink l { x with ll := x.switching == some 1, switching := none, want := none, peerWant := none, acked := false }).pump).applyPolicy l

/-- The partner's MODE_REQ. -/
def State.modeReq (s : State) (l m : Nat) : State :=
  let x := s.link l
  if x.st ≠ 4 ∨ 2 ≤ m then s else (s.setLink l { x with peerWant := some m }).agreeMode l

/-- The partner's MODE_ACK. -/
def State.modeAck (s : State) (l m : Nat) : State :=
  let x := s.link l
  if x.switching ≠ some m ∨ x.proto = 1 then s
  else if x.replay.isEmpty then s.finishSwitch l
  else s.setLink l { x with acked := true }

/-- The end of a window, with the symbols FEC corrected and the codewords it could not correct in it: under policy 2 the temple judges, and the requests of
the window end with it; the window's counts start again (R278, R298). -/
def modeWindow (s : State) (l corrected uncorrected : Nat) : State :=
  let y := s.link l
  let x := if y.ll then y else { y with fecCorrected := satInc 32 y.fecCorrected corrected, fecUncorrected := satInc 32 y.fecUncorrected uncorrected }
  let temple := s.modePolicy l == 2
  let clean := if !x.ll ∧ x.fecCorrected ≤ s.fld .wflTemple 16 16 then min 8 (x.clean + 1) else 0
  let ask : Option Nat := if !temple || x.st != 4 || x.switching.isSome then none
    else if x.ll then (if s.fld .wflTemple 0 16 < x.resends then some 0 else none)
    else if x.llq ∧ clean = 8 then some 1 else none
  let s1 := s.setLink l { x with
    resends := 0, crcErrors := 0, fecCorrected := 0, fecUncorrected := 0, clean := clean, want := if temple then none else x.want }
  let s2 := match ask with | some m => s1.requestMode l m | none => s1
  if temple then s2.setLink l { s2.link l with peerWant := none } else s2

-- ## Training (R267, R268, R273)

/-- A RETRAIN that fails: RETIRED with cause VERSION where only the versions differ, else with cause REPLAY, and then for good (R273,
R444). -/
def State.retrainFailed (s : State) (l : Nat) (versionOnly : Bool) : State :=
  if versionOnly then s.dropLink l 5 else (s.dropLink l 6).retireUnit 3 l

/-- Every flit not acknowledged is sent again, in order; each resend is counted, towards the classifier too (R273, R443). -/
def State.replayAll (s : State) (l : Nat) : State :=
  let x := s.link l
  let n := x.replay.length
  let s1 := s.setLink l { x with replay := x.replay.map (fun f => { f with tries := f.tries + 1 }), resends := satInc 32 x.resends n }
  (List.range n).foldl (fun s _ => s.softEvent 3 l 1024) (x.replay.foldl (fun s f => s.dataFlit l f) s1)

/-- A link becomes ACTIVE: the partner and the version are recorded, replay resumes, waiting packets go. -/
def State.activate (s : State) (l v : Nat) (block : List Byte) : State :=
  let x := s.link l
  let peer := bitAt (le block 3 1) 0
  let s1 := s.setLink l { x with
    proto := v, peerLlq := peer, peerMin := le block 6 2, peerMax := le block 8 2, partner := some (le block 0 2, le block 2 1, le block 4 2)
    ll := x.switching == some 1 && x.llq && peer, switching := none, want := none, peerWant := none, acked := false }
  ((((s1.moveLink l 4 0).replayAll l).pump).applyPolicy l).retrainNext (l / 16)

/-- A receiver and a cable are there: the cable's memory is read, and equalisation begins (R267, R531). -/
def linkDetect (s : State) (l : Nat) (present receiver : Bool) : State :=
  if (s.link l).st = 1 ∧ present ∧ receiver then (s.emit (.cableRead (l / 16))).moveLink l 2 0 else s

/-- Adaptation has converged and the loss is measured; 12 dB or less qualifies the link for low latency (R276). -/
def linkEqualised (s : State) (l loss : Nat) : State :=
  let x := s.link l
  if x.st ≠ 2 ∧ x.st ≠ 5 then s
  else
    let s1 := s.setLink l { x with loss := loss, llq := decide (loss ≤ 120) }
    let s2 := if x.st = 2 then s1.moveLink l 3 0 else s1
    s2.emit (.ident l (s2.identBlock l))

def equaliseTimeout (s : State) (l : Nat) : State :=
  if (s.link l).st = 2 then s.failLink l 1 else if (s.link l).st = 5 then s.retrainFailed l false else s

def identifyTimeout (s : State) (l : Nat) : State :=
  if (s.link l).st = 3 then s.failLink l 2 else if (s.link l).st = 5 then s.retrainFailed l false else s

/-- A partner's ident block with a good CRC is checked (R268); in RETRAIN it must be the recorded partner's. -/
def identBlockIn (s : State) (l : Nat) (block : List Byte) : State :=
  let x := s.link l
  if block.length ≠ 32 ∨ crc32 (block.take 28) ≠ le block 28 4 then s
  else if x.st = 3 then
    let c := s.identCause l block
    if c ≠ 0 then s.failLink l c else s.activate l ((s.commonVersion block).getD 0) block
  else if x.st = 5 then
    if x.partner ≠ some (le block 0 2, le block 2 1, le block 4 2) then s.retrainFailed l false
    else match s.commonVersion block with
      | some v => s.activate l v block
      | none => s.retrainFailed l true
  else s

-- ## Replay (R272, R273)

/-- An ACK covers the flits up to its SEQ; an emptied buffer lets a mode change go on (R272, R278). -/
def State.ackFlits (s : State) (l a : Nat) : State :=
  let x := s.link l
  match x.replay.findIdx? (fun f => f.seq == a) with
  | none => s
  | some i =>
    let rest := x.replay.drop (i + 1)
    let s1 := s.setLink l { x with replay := rest }
    let s2 := match x.switching with
      | some m => if rest.isEmpty ∧ x.st = 4 then
          (let s2 := s1.controlFlit l 3 m
           if x.acked then s2.finishSwitch l else s2) else s1
      | none => s1
    s2.pump

/-- Credits come back on a channel (R282). -/
def State.creditBack (s : State) (l vc n : Nat) : State :=
  let x := s.link l
  if n = 0 then s else (s.setLink l { x with used := tset 0 x.used vc (tget 0 x.used vc - n) }).pump

/-- A NAK: the flits before it are acknowledged, the rest are sent again; when the eighth resend has failed too, the link retrains. -/
def State.nakIn (s : State) (l seq : Nat) : State :=
  if (s.link l).st ≠ 4 ∧ (s.link l).st ≠ 9 then s
  else
    let s1 := s.ackFlits l ((seq + 4095) % 4096)
    let x := s1.link l
    match x.replay.head? with
    | none => s1
    | some f =>
      if f.seq ≠ seq then s1
      else if 8 ≤ f.tries then (if x.st = 9 then s1.moveLink l 0 0 else s1.retrain l)
      else s1.replayAll l

/-- The partner idles the link (R464). -/
def State.idleIn (s : State) (l : Nat) : State := if (s.link l).st = 4 then s.moveLink l 6 0 else s

-- ## Receiving (R270 to R275)

/-- Packets in a flit body: `buf` is a packet begun and not complete. -/
def splitBody : Nat → List Byte → List Byte → List Packet × List Byte
  | 0, buf, _ => ([], buf)
  | fuel + 1, buf, body =>
    if buf.isEmpty ∧ (body.length < 16 ∨ le body 0 1 = 0) then ([], [])
    else
      let hd := if buf.isEmpty then body else buf
      let total := 16 + 64 * pktLines (pktOfBytes (hd.take 16))
      let need := total - buf.length
      if body.length < need then ([], buf ++ body)
      else
        let r := splitBody fuel [] (body.drop need)
        (pktOfBytes (buf ++ body.take need) :: r.1, r.2)

/-- A control message. -/
def State.controlIn (s : State) (l : Nat) (flit : List Byte) : State :=
  match le flit 12 1 with
  | 1 => s.nakIn l (field (le flit 13 2) 0 12)
  | 2 => s.modeReq l (le flit 13 1)
  | 3 => s.modeAck l (le flit 13 1)
  | 4 => s.idleIn l
  | _ => s

/-- The link by which a packet that has come to this module only in part begins to leave (R274): it is to go on to another module, and the link that
R284 picks can take it. -/
def State.cutLink (s : State) (l : Nat) (p : Packet) : Option (Nat × Packet) :=
  if !typeKnown p.ty || p.domain != s.domain || p.dst == s.moduleNum then none
  else match s.route (some (l / 16)) p with
    | .out port p' => (s.pickLink port p'.vc).bind (fun o => if (s.link o).takes p' then some (o, p') else none)
    | _ => none

/-- A packet that has come in part begins to leave: the link it goes by carries nothing else until then. The model lets its flits leave once it has come
whole (DESIGN CHOICE, log 94). -/
def State.beginForward (s : State) (l : Nat) : State :=
  let x := s.link l
  if x.rxBuf.length < 16 ∨ x.rxDrop ∨ x.fwd.isSome then s
  else match s.cutLink l (pktOfBytes (x.rxBuf.take 16)) with
    | some (o, _) =>
      let s1 := s.setLink l { x with fwd := some o }
      s1.setLink o { s1.link o with busy := some l }
    | none => s

/-- A packet that had begun to leave has come whole: it leaves by the same link, where it still goes that way; the flag says so (R274). -/
def State.finishForward (s : State) (l : Nat) (p : Packet) : State × Bool :=
  let x := s.link l
  match x.fwd with
  | none => (s, false)
  | some o =>
    let s1 := s.setLink l { x with fwd := none }
    let s2 := s1.setLink o { s1.link o with busy := none }
    match s2.route (some (l / 16)) p with
    | .out port p' =>
      if port = o / 16 ∧ (s2.link o).takes p' ∧ typeKnown p.ty ∧ p.domain = s.domain then ((s2.transmit o (l + 1) p p').creditsOut (l + 1) p, true) else (s2, false)
    | _ => (s2, false)

/-- A data flit that fails: what has begun to be forwarded of it leaves with STOMP (R274). A packet whose header lies in this very flit has begun too. -/
def State.stompOn (s : State) (l : Nat) (flit : List Byte) : State :=
  let x := s.link l
  let bytes := x.rxBuf ++ slice flit 12 496
  if x.rxDrop then s
  else match x.fwd with
    | some o => s.stompFlit o bytes
    | none => if x.rxBuf.isEmpty then (match s.cutLink l (pktOfBytes (bytes.take 16)) with | some (o, _) => s.stompFlit o bytes | none => s) else s

/-- A flit received: what its link layer does, and the packets that are now whole. A data flit with a bad CRC or out of sequence draws
one NAK for the SEQ expected; a STOMP flit is discarded without one (R272, R274). -/
def State.receiveFlit (s : State) (l : Nat) (flit : List Byte) : State × List Packet :=
  let x := s.link l
  let nakOut (s : State) : State := if (s.link l).naked then s
    else (s.setLink l { s.link l with naked := true }).controlFlit l 1 x.rxSeq
  let kind := field (le flit 0 1) 0 2
  let seq := field (le flit 2 2) 0 12
  if (x.st ≠ 4 ∧ x.st ≠ 9) ∨ flit.length ≠ 512 then (s, [])
  else if crc32 (flit.take 508) ≠ le flit 508 4 then
    let s1 := s.setLink l { x with crcErrors := satInc 32 x.crcErrors 1 }
    (if kind ≠ 0 then s1 else if seq = x.rxSeq ∧ !x.naked then nakOut (s1.stompOn l flit) else nakOut s1, [])
  else if bitAt (le flit 0 1) 2 then (s, [])
  else
    let heard (s : State) : State :=
      (s.ackFlits l (field (le flit 4 2) 0 12)).creditBack l (field (le flit 6 2) 0 3) (field (le flit 6 2) 3 9)
    match kind with
    | 0 =>
      if seq ≠ x.rxSeq then (nakOut s, [])
      else
        let r := splitBody 32 x.rxBuf (slice flit 12 496)
        let s1 := heard (s.setLink l { x with rxSeq := (seq + 1) % 4096, naked := false, rxBuf := r.2, rxDrop := x.rxDrop && r.1.isEmpty })
        (match r.1 with
         | [] => (s1.beginForward l, [])
         | p :: ps =>
           if x.rxDrop then ((s1.creditsOut (l + 1) p).beginForward l, ps)
           else
             let t := s1.finishForward l p
             (t.1.beginForward l, if t.2 then ps else p :: ps))
    | 1 => (heard s, [])
    | 2 => ((heard s).controlIn l flit, [])
    | _ => (s, [])

/-- The 16 MiB of reduction staging hold partial sums of 8 bytes (R293). -/
def State.stagingFull (s : State) : Bool :=
  decide (2097152 ≤ s.parts.foldl (fun n p => n + p.2.streams.foldl (fun n x => n + x.cells.length) 0) 0)

/-- A packet that has come whole: one of an unknown type or another domain is dropped, one for another module goes on; true when it is
for this module (R280, R284, R294). The credits of a packet that stays or is dropped return at once, but for those of reduction while the
staging is full (R293). -/
def State.arrive (s : State) (l : Nat) (p : Packet) : State × Bool :=
  let back (s : State) : State := s.idleFlit l p.vc (pktCredits p)
  if !typeKnown p.ty then (back (s.fabricCount (fun f => { f with badPackets := satInc 64 f.badPackets 1 })), false)
  else if p.domain ≠ s.domain then (back (s.fabricCount (fun f => { f with domainDrops := satInc 64 f.domainDrops 1 })), false)
  else if p.dst ≠ s.moduleNum then ((s.forward (l + 1) p).1, false)
  else if s.stagingFull ∧ 4 ≤ p.vc then
    (s.fabricCount (fun f => { f with owed := f.owed ++ [(l, p.vc, pktCredits p)] }), true)
  else (back s, true)

-- ## Commands

/-- LINK_ENABLE (R267). -/
def execLinkEnable (src : Src) (port lane : Nat) (s : State) : Host.Outcome State Fault Refusal :=
  finish (s.via src (fun s => if s.wflWriter src ∧ port < 6 ∧ lane < 16 then s.enableLink (16 * port + lane) else s))
/-- LINK_DISABLE (R267). -/
def execLinkDisable (src : Src) (port lane : Nat) (s : State) : Host.Outcome State Fault Refusal :=
  finish (s.via src (fun s => if s.wflWriter src ∧ port < 6 ∧ lane < 16 then s.disableLink (16 * port + lane) else s))
/-- LINK_DETECT (R267). -/
def execLinkDetect (l : Nat) (present receiver : Bool) (s : State) : Host.Outcome State Fault Refusal := finish (linkDetect s l present receiver)
/-- CABLE_MEMORY_TIMEOUT (R531): the default preset is used, which no rule makes visible. -/
def execCableMemoryTimeout (_port : Nat) (s : State) : Host.Outcome State Fault Refusal := finish s
/-- CABLE_MEMORY_READ_COMPLETE (R531): it changes only how soon EQUALISE converges. -/
def execCableMemoryReadComplete (_port _cableType _lengthDm : Nat) (s : State) : Host.Outcome State Fault Refusal := finish s
/-- LINK_EQUALISE_DONE (R267, R276). -/
def execLinkEqualiseDone (l loss : Nat) (s : State) : Host.Outcome State Fault Refusal := finish (linkEqualised s l loss)
/-- LINK_EQUALISE_TIMEOUT (R267). -/
def execLinkEqualiseTimeout (l : Nat) (s : State) : Host.Outcome State Fault Refusal := finish (equaliseTimeout s l)
/-- IDENT_BLOCK (R268). -/
def execIdentBlock (l : Nat) (block : List Byte) (s : State) : Host.Outcome State Fault Refusal := finish (identBlockIn s l block)
/-- LINK_IDENTIFY_TIMEOUT (R267). -/
def execLinkIdentifyTimeout (l : Nat) (s : State) : Host.Outcome State Fault Refusal := finish (identifyTimeout s l)
/-- LINK_LOSS_OF_LOCK (R267, R531). -/
def execLinkLossOfLock (l : Nat) (s : State) : Host.Outcome State Fault Refusal := finish (if (s.link l).st = 4 then s.retrain l else s)
/-- LINK_DRAIN_COMPLETE (R267). -/
def execLinkDrainComplete (l : Nat) (s : State) : Host.Outcome State Fault Refusal := finish (linkDrained s l)
/-- NAK (R272, R273). -/
def execNak (l seq : Nat) (s : State) : Host.Outcome State Fault Refusal := finish (s.nakIn l (seq % 4096))
/-- MODE_REQ (R278). -/
def execModeReq (l mode : Nat) (s : State) : Host.Outcome State Fault Refusal := finish (s.modeReq l mode)
/-- MODE_ACK (R278). -/
def execModeAck (l mode : Nat) (s : State) : Host.Outcome State Fault Refusal := finish (s.modeAck l mode)
/-- IDLE_ENTER (R464). -/
def execIdleEnter (l : Nat) (s : State) : Host.Outcome State Fault Refusal := finish (s.idleIn l)
/-- WAKE_FROM_IDLE (R267). -/
def execWakeFromIdle (l : Nat) (s : State) : Host.Outcome State Fault Refusal := finish (if (s.link l).st = 6 then s.retrain l else s)
/-- LINK_MODE_TEMPLE_WINDOW (R278). -/
def execLinkModeTempleWindow (w : FecWindow) (s : State) : Host.Outcome State Fault Refusal := finish (modeWindow s w.link w.corrected w.uncorrected)
/-- FABRIC_PAGE_TIMER (R298). -/
def execFabricPageTimer (s : State) : Host.Outcome State Fault Refusal := finish s.writeFabricPage

end Sys2Proof.Machine
end

