-- ==== Sys2Proof/Machine/Memory.lean ====
section
/-!
DEFINITION. Machine/Memory.lean: what the memory controllers, the looms' SRAMs and the handshake channels do with one access or transfer
(R50 to R53, R74, R75, R84, R85, R232 to R234), the pool's own commands (R247, R251).
-/

namespace Sys2Proof.Machine

-- ## Lines of HBM and tier 2 (R232, R233)

/-- One line is read: whether it can be used, and the state after correction or poisoning. -/
def State.readLine (s : State) (sp o : Nat) (first second : Decoded) (part : Option Nat) : State × Bool :=
  let k := s.dataKey sp (o / 64 * 64)
  let u := unitOf sp o
  if s.memCtl.poison.contains k then (s, false)
  else if s.memCtl.corrupt.contains k then (s.poisonLine sp o true part, false)
  else match first, second with
    | .clean, _ => (s, true)
    | .corrected, _ => (s.softEvent (unitClass sp) u 64, true)
    | .uncorrectable, .uncorrectable => (s.poisonLine sp o false part, false)
    | .uncorrectable, _ => (s.softEvent (unitClass sp) u 64, true)

/-- A line of the cache is read: a single-bit error is corrected and counted, an uncorrectable word drops a clean line, which is read again from
memory, and poisons the memory line of a dirty one (R239). -/
def State.readCached (s : State) (l : CacheLine) (sp o : Nat) (first second : Decoded) (part : Option Nat) : State × Bool :=
  match first with
  | .clean => (s, true)
  | .corrected => ({ s with memCtl := { s.memCtl with cacheFixed := s.memCtl.cacheFixed + 1 } }, true)
  | .uncorrectable =>
    if l.dirty then
      ((s.loseLine l).raise { source := 56, cls := 0x14, unit := l.way, unit2 := 0, address := s.moduleNum * 2 ^ 52 + spaceKey sp (o / 64 * 64),
                              detail := 0, island := 0x2E, part := part }, false)
    else (s.loseLine l).readLine sp o second second part

/-- A line is read through the cache (R236). -/
def State.readThrough (s : State) (sp o : Nat) (first second : Decoded) (part : Option Nat) : State × Bool :=
  let k := s.dataKey sp (o / 64 * 64)
  let r := match s.memCtl.cache.find? (fun l => l.key == k) with
    | some l => s.readCached l sp o first second part
    | none => s.readLine sp o first second part
  if r.2 then (r.1.passLine k false false, true) else r

/-- MEMORY_READ: the line of a local address; what its issuer sees of a line that cannot be used is RETRY_EXHAUSTED. -/
def memoryRead (s : State) (a : Nat) (first second : Decoded) (iss : Issuer) : State :=
  let sp := gSpace a
  let o := gOffset a
  if !s.isLocal a ∨ 2 ≤ sp ∨ !offsetValid sp o ∨ !s.serves sp o then s
  else
    let r := s.readThrough sp o first second (s.issuerPart iss)
    if r.2 then r.1.emit (.data ((List.range 64).map (fun i => r.1.rd (r.1.dataKey sp (o / 64 * 64 + i)))) true)
    else (r.1.failIssuer iss stRetryExhausted).emit (.data [] false)

/-- MEMORY_WRITE: bytes of one line. A whole line makes a poisoned one good; part of one is read first, and is not written where it
cannot be (R233). -/
def memoryWrite (s : State) (a : Nat) (bs : List Byte) (first second : Decoded) (iss : Issuer) : State :=
  let sp := gSpace a
  let o := gOffset a
  if !s.isLocal a ∨ 2 ≤ sp ∨ !offsetValid sp o ∨ 64 < o % 64 + bs.length ∨ bs.isEmpty ∨ !s.serves sp o then s
  else
    let k := s.dataKey sp (o / 64 * 64)
    let whole := decide (bs.length = 64)
    let r := if whole then (s, true) else s.readThrough sp o first second (s.issuerPart iss)
    if !r.2 then r.1.failIssuer iss stRetryExhausted
    else
      let s1 := (r.1.storeLine k whole).passLine k true false
      let s2 : State := if whole then { s1 with memCtl := { s1.memCtl with poison := s1.memCtl.poison.filter (· != k) } } else s1
      ((List.range bs.length).zip bs).foldl (fun s ib => s.wr (s.dataKey sp (o + ib.1)) ib.2) s2

/-- Lines of a channel, check lines included, and the offset of its `i`-th data line (R229, R230, R234). -/
def channelLines (sp : Nat) : Nat := if sp = 0 then 25165824 else 267386880
def channelData (sp : Nat) : Nat := if sp = 0 then 25165824 else 251658240
def channelLine (sp c i : Nat) : Nat :=
  let n := groupUnits sp
  c / n * groupBytes sp + i / 4 * (256 * n) + c % n * 256 + i % 4 * 64

/-- One scrub read of a channel. A check line holds the check symbols of sixteen data lines, and the outcome of its decode is that of one of them, which
the manual does not single out: a free value (log 178). -/
def State.scrubRead (s : State) (sp c : Nat) (first second : Decoded) : State :=
  let key := 256 * sp + c
  let i := tget 0 s.memCtl.scrubNext key
  let s1 : State := { s with memCtl := { s.memCtl with
    scrubNext := tset 0 s.memCtl.scrubNext key ((i + 1) % channelLines sp), scrubWait := s.memCtl.scrubWait.erase key } }
  let line := if i < channelData sp then (i, s1) else (16 * (i - channelData sp) + s1.draw.1 % 16, s1.draw.2)
  let o := channelLine sp c line.1
  if offsetValid sp o ∧ !s.offsetRetired sp o then ((line.2.lineAccess (s.dataKey sp o) false false).readLine sp o first second none).1 else line.2

/-- SCRUB_READ_DUE: the next line of the channel is read; one that cannot be made waits, and a further one is dropped (R234). -/
def scrubDue (s : State) (sp c : Nat) (first second : Decoded) : State :=
  let key := 256 * sp + c
  if !s.bit (.scrub (sp == 1)) 0 ∨ (if sp = 0 then 256 else 64) ≤ c then s
  else if s.serves sp (channelLine sp c 0) then s.scrubRead sp c first second
  else if s.memCtl.scrubWait.contains key then s
  else { s with memCtl := { s.memCtl with scrubWait := s.memCtl.scrubWait ++ [key] } }

/-- Scrub reads that waited are made once their controller serves: no command carries what they decode as, so that they find what is stored
uncorrectable and nothing else (log 178). -/
def State.issueScrubs (s : State) : State :=
  s.memCtl.scrubWait.foldl (fun s key =>
    if s.serves (key / 256) (channelLine (key / 256) (key % 256) 0) then s.scrubRead (key / 256) (key % 256) .clean .clean else s) s

-- ## Loom SRAM

/-- A word that reads with a single-bit error is corrected, written back and counted (R84). -/
def State.correctWord (s : State) (l a : Nat) : State :=
  let x := s.loom l
  s.setLoom l { x with corrected := x.corrected + 1, bad := x.bad.filter (· != localPhys x (a / 8 * 8)) }

/-- A word of loom SRAM is read for an issuer, with what its reads decode as; a word stored uncorrectable reads so both times (R84, R442). -/
def State.readWord (s : State) (l a : Nat) (first second : Decoded) (iss : Issuer) (scrub : Bool) : State :=
  if s.meetsBad l (a / 8 * 8) 8 then s.badWord l (a / 8 * 8) iss scrub
  else match first, second with
    | .clean, _ => s
    | .corrected, _ => s.correctWord l a
    | .uncorrectable, .clean => s
    | .uncorrectable, .corrected => s.correctWord l a
    | .uncorrectable, .uncorrectable => s.badWord l a iss scrub

/-- LOOM_SRAM_UNCORRECTABLE: the first read was uncorrectable; a second that is good goes on (R84). -/
def loomUncorrectable (s : State) (l a : Nat) (second : Decoded) (iss : Issuer) : State :=
  if l < Config.looms ∧ a < loomBytes then s.readWord l a .uncorrectable second iss false else s

/-- Who makes an access. -/
def State.issuerCtx (s : State) (iss : Issuer) (part : Option Nat) : Ctx :=
  match iss with
  | .node d n => (match s.draft d, s.node d n with
    | some x, some y => nodeCtx x y
    | _, _ => { part := none })
  | .entry e => (match s.entry e with
    | some x => s.entryCtx x
    | none => { part := none })
  | .shed p _ => { part := some p }
  | .fetch d _ => { part := (s.draft d).map (·.part) }
  | .outside => { part := part }

/-- The partition that holds the loom of a global address. -/
def State.loomPart (s : State) (a : Nat) : Option Nat := s.clusterPart (gOffset a / loomBytes / 8)

/-- EXTERNAL_WRITE: accepted, or refused and counted, and its issuer then ends (R74). -/
def externalWrite (s : State) (a : Nat) (bs : List Byte) (iss : Issuer) : State :=
  if !s.isLocal a ∨ gSpace a ≠ 2 then s
  else
    let r := s.put (s.issuerCtx iss (s.loomPart a)) iss a bs
    match r.2 with
    | some st => r.1.failIssuer iss st
    | none => r.1

/-- EXTERNAL_READ: whole 64-bit words, of any region at any time; none of a word that reads uncorrectable (R75, R84). -/
def externalRead (s : State) (a words : Nat) (iss : Issuer) : State :=
  let a0 := a / 8 * 8
  let c := s.issuerCtx iss (s.loomPart a)
  if !s.isLocal a ∨ gSpace a ≠ 2 then s
  else
    let r := s.mayRead c a0 (8 * words)
    match r.2 with
    | some st => (r.1.failIssuer iss st).emit (.data [] false)
    | none => s.emit (.data (s.valueAt c a0 (8 * words)) true)

-- ## Channels (R50 to R53)

/-- In T1 an island that a transfer ungated gates again once every channel into it is idle (R462). -/
def State.regate (s : State) (i : Nat) : State :=
  if s.treadle.state = 1 ∧ (i < 32 ∨ i = 0x2E) ∧ s.channels.all (fun c => c.2.isEmpty || c.1 % 256 != i) then
    s.setIsland i { s.island i with gated := (s.island i).on }
  else s

/-- CROSSING_DELIVER: the oldest transfer of a channel reaches an island that is powered; a gated one ungates itself for it (R50, R52), and one
whose PLL relocks holds it (R104). -/
def deliver (s : State) (src dst : Nat) : State :=
  match tget [] s.channels (256 * src + dst) with
  | [] => s
  | t :: rest =>
    if !(s.island dst).on || (s.island dst).relocking then s
    else
      let s0 := s.setIsland dst { s.island dst with gated := false }
      let s1 : State := { s0 with channels := tset [] s.channels (256 * src + dst) rest }
      let s2 := match t with
        | .pick p n =>
          let x := s1.island dst
          s1.setIsland dst { x with picks := tset 0 x.picks p n }
        | .plain iss => s1.ackIssuer iss
        | .store l a bs iss =>
          if s1.extWriteOk l a bs.length then (s1.extWrite l a bs).ackIssuer iss else (s1.countRefused l).nackIssuer iss stInvalid
      s2.regate dst

/-- HANDSHAKE_TIMEOUT: the oldest transfer is abandoned and recorded with both islands (R53). -/
def handshakeTimeout (s : State) (src dst : Nat) : State :=
  match tget [] s.channels (256 * src + dst) with
  | [] => s
  | _ :: rest =>
    let s1 : State := { s with channels := tset [] s.channels (256 * src + dst) rest }
    s1.raise { source := 59, cls := 0x06, unit := src, unit2 := dst, address := 0, detail := 0, island := src, part := none }

-- ## Commands

/-- MEMORY_READ (R232). -/
def execMemoryRead (addr : Nat) (first second : Decoded) (issuer : Issuer) (s : State) : Host.Outcome State Fault Refusal :=
  finish (memoryRead s addr first second issuer)
/-- MEMORY_WRITE (R233). -/
def execMemoryWrite (addr : Nat) (data : List Byte) (first second : Decoded) (issuer : Issuer) (s : State) : Host.Outcome State Fault Refusal :=
  finish (memoryWrite s addr data first second issuer)
/-- SCRUB_READ_DUE (R234). -/
def execScrubReadDue (tier2 : Bool) (channel : Nat) (first second : Decoded) (s : State) : Host.Outcome State Fault Refusal :=
  finish (scrubDue s (b2n tier2) channel first second)
/-- LOOM_SRAM_UNCORRECTABLE (R84). -/
def execLoomSramUncorrectable (l addr : Nat) (second : Decoded) (issuer : Issuer) (s : State) : Host.Outcome State Fault Refusal :=
  finish (loomUncorrectable s l addr second issuer)
/-- EXTERNAL_WRITE (R74). -/
def execExternalWrite (addr : Nat) (data : List Byte) (issuer : Issuer) (s : State) : Host.Outcome State Fault Refusal :=
  finish (externalWrite s addr data issuer)
/-- CROSSING_DELIVER (R50). -/
def execCrossingDeliver (src dst : Nat) (s : State) : Host.Outcome State Fault Refusal := finish (deliver s src dst)
/-- HANDSHAKE_TIMEOUT (R53). -/
def execHandshakeTimeout (src dst : Nat) (s : State) : Host.Outcome State Fault Refusal := finish (handshakeTimeout s src dst)
/-- POOL_ALLOCATE (R247). -/
def execPoolAllocate (p cls key blocks : Nat) (s : State) : Host.Outcome State Fault Refusal :=
  finish (if p < 16 ∧ cls < 8 then (s.alloc p cls key blocks 0).1 else s)
/-- POOL_AGE_TEMPLE_UPDATE (R251). -/
def execPoolAgeTempleUpdate (p : Nat) (s : State) : Host.Outcome State Fault Refusal := finish (poolAgeUpdate s p)

end Sys2Proof.Machine
end

