-- ==== Sys2Proof/Machine/Shuttle.lean ====
section
/-!
DEFINITION. Machine/Shuttle.lean: what a shuttle does (R252 to R257): plain copies and the descriptor operations COPY, CONVERT and FILL, with
the conversions of R118 and R129 to R132.
-/

namespace Sys2Proof.Machine

-- ## Reading and writing rows

/-- Source bytes of a request: where its own earlier writes overlap its source, each byte is the original or the written one, freely
(R257, log 23). `s0` is the state before the request. -/
def mixRead (s0 s : State) (c : Ctx) (a n : Nat) : List Byte :=
  (List.range n).zipWith (fun i b => if Config.freeOverlap s0.draws (a + i) then b.1 else b.2) ((s0.valueAt c a n).zip (s.valueAt c a n))

/-- The counts of R133 added in a partition. -/
def State.addArith (s : State) (p : Nat) (n : ArithCount) : State :=
  if n = .zero then s
  else (((s.count p 0 n.overflow).count p 1 n.scaleUnder).count p 2 n.saturate).count p 3 n.nonfinite

/-- A plain copy of `n` bytes (R191, R254), eight lines of the destination at a time. -/
def State.copyRange (s : State) (c : Ctx) (iss : Issuer) (src dst n : Nat) : Try :=
  let s0 := s
  match s.readErr c src n, s.writeErr c dst n with
  | some st, _ => (s.meet c src n, some st)
  | none, some _ => s.put c iss dst (zeros n)
  | none, none =>
    let h := dst % 64
    Try.each { s with draws := s.draws + 1 } (fun s i =>
      let lo := 512 * i - h
      s.put c iss (dst + lo) (mixRead s0 s c (src + lo) (min n (512 * (i + 1) - h) - lo))) (List.range (ceilDiv (n + h) 512))

/-- Element values of row `r` of a tensor, MX scales applied, with subnormals flushed (R255). -/
def rowValues (t : List Byte) (flush : Bool) (bs scales : List Byte) : List FVal :=
  let f := tdFmt t
  (List.range (tdDim t 0)).map (fun k =>
    let w := unpackElem f bs k
    if fmtMx f then mxScaled f w (le scales (k / 32) 1) else elemVal f flush w)

-- ## Conversion of one row (R255)

/-- A row converted: element bytes, scale bytes, counts. -/
structure RowOut where
  elems : List Byte
  scales : List Byte
  counts : ArithCount

/-- FP32 inputs of MX blocks: a pair source is rounded to FP32 first (R255). -/
def mxInput (c : FCtx) (pair : Bool) (v : FVal) : FVal × Bool :=
  if pair then let r := fp32F.ofVal c v; (fp32F.decode r.bits, r.ovf) else (v, false)

/-- Values into a row of format `f`; `square` gives the scale byte of each block where the sub-tile decides it (R132). -/
def convertRow (c : FCtx) (f : Nat) (pair : Bool) (square : Option (List Nat)) (vs : List FVal) : RowOut :=
  if fmtMx f then
    let ins := vs.map (mxInput c pair)
    let ovf : ArithCount := ⟨(ins.filter (·.2)).length, 0, 0, 0⟩
    let xs := ins.map (·.1)
    let blocks := (List.range (ceilDiv xs.length 32)).map (fun b =>
      let ys := (xs.drop (32 * b)).take 32
      match square with
      | some ss => let r := mxBlockWith f c.rm (ss.getD b 0) ys; (ss.getD b 0, r.1, r.2)
      | none => mxBlock f c.rm ys)
    ⟨packElems f (blocks.flatMap (fun b => b.2.1)), blocks.flatMap (fun b => leBytes 1 b.1),
      blocks.foldl (fun n b => n.plus b.2.2) ovf⟩
  else if f = 3 ∨ f = 4 then
    let rs := vs.map (pairOfVal (if f = 3 then bf16F else fp32F) c.o)
    ⟨packElems f (rs.map (·.1)), [], ⟨(rs.filter (·.2)).length, 0, 0, 0⟩⟩
  else
    let rs := vs.map (FFmt.ofVal (if f = 0 then fp32F else if f = 1 then bf16F else fp16F) c)
    ⟨packElems f (rs.map (·.bits)), [], ⟨(rs.filter (·.ovf)).length, 0, 0, 0⟩⟩

-- ## Descriptors (R253, R254)

def descOp (d : List Byte) : Nat := le d 0 1
def descConv (d : List Byte) : Nat := le d 1 1
def descSquare (d : List Byte) : Bool := bitAt (descConv d) 3
def descFlush (d : List Byte) : Bool := bitAt (descConv d) 4
def descCtx (d : List Byte) : FCtx := ⟨false, field (descConv d) 0 2, ovfOf (bitAt (descConv d) 2)⟩
def descSrc (d : List Byte) : List Byte := slice d 8 24
def descDst (d : List Byte) : List Byte := slice d 32 24
def descValue (d : List Byte) : Nat := le d 56 4

/-- Equal extents of two tensors. -/
def sameExtents (a b : List Byte) : Bool := (List.range 4).all (fun k => tdDim a k == tdDim b k)

/-- Whether a tensor descriptor addresses accumulator contents of a loom: space 0x2, a row that reaches the accumulator region (R149). -/
def tdInAcc (t : List Byte) : Bool :=
  tdValid t && gSpace (tdBase t) == 2 &&
  (List.range (tdRows t)).any (fun r => decide (accBase < (gOffset (tdBase t) + tdRowOff t r) % loomBytes + tdRowBytes t))

/-- Such a descriptor names FP32, INT32 or pairs, its rows are tile rows, and they start at tile-row starts (R142, R149). -/
def tdAccOk (t : List Byte) : Bool :=
  let row := if tdFmt t = 4 then 1024 else 512
  !tdInAcc t ||
  ((tdFmt t == 0 || tdFmt t == 0xF || tdFmt t == 4) && decide (tdDim t 0 ≤ 128) && tdBase t % row == 0 &&
   (tdDim t 1 == 1 || tdStride1 t == row))

/-- A descriptor that R254 accepts. -/
def descOk (d : List Byte) : Bool :=
  let op := descOp d
  let a := descSrc d
  let b := descDst d
  d.length == 64 && decide (1 ≤ op ∧ op ≤ 3) && field (descConv d) 5 3 == 0 && field (le d 2 1) 1 7 == 0 && zeroAt d 3 5 && zeroAt d 60 4 &&
  tdOk a && tdOk b && tdValid b && tdAccOk a && tdAccOk b &&
  (if op = 3 then !tdValid a else tdValid a && descValue d == 0 && sameExtents a b) &&
  (if op = 1 then descConv d == 0 && tdFmt a == tdFmt b
   else fmtShuttle (tdFmt b) && (op == 3 || fmtShuttle (tdFmt a)) &&
     (!descSquare d || (fmtMx (tdFmt b) && tdDim b 0 % 32 == 0 && tdDim b 1 % 32 == 0)))

/-- A plain copy from TD0 to TD1 is the descriptor operation COPY (R202). -/
def plainDesc (a b : List Byte) : List Byte := leBytes 1 1 ++ zeros 7 ++ a ++ b ++ zeros 8

/-- The source rows of a descriptor brought to this module: elements and scales. -/
def State.bringTd (s : State) (c : Ctx) (iss : Issuer) (t : List Byte) : Try :=
  if !tdValid t then (s, none)
  else Try.each s (fun s r =>
    (s.bring c iss (tdBase t + tdRowOff t r) (tdRowBytes t)).andThen (fun s =>
      if fmtMx (tdFmt t) then s.bring c iss (tdScaleAddr t r) (tdDim t 0 / 32) else (s, none))) (List.range (tdRows t))

/-- One row written to its tensor: elements, then scales. -/
def State.putRow (s : State) (c : Ctx) (iss : Issuer) (t : List Byte) (r : Nat) (elems scales : List Byte) : Try :=
  (s.put c iss (tdBase t + tdRowOff t r) elems).andThen (fun s => s.put c iss (tdScaleAddr t r) scales)

/-- The scale bytes of the aligned 32-row group of row `r` (R132), by block of the row. -/
def squareScales (f : Nat) (rows : List (List FVal)) (blocks : Nat) : List Nat :=
  (List.range blocks).map (fun b => mxScaleOf f (rows.flatMap (fun vs => (vs.drop (32 * b)).take 32)))

/-- One row of a request. -/
def shuttleRow (s0 : State) (c : Ctx) (iss : Issuer) (p : Nat) (d : List Byte) (s : State) (r : Nat) : Try :=
  let a := descSrc d
  let b := descDst d
  let x := descCtx d
  let pair := descOp d == 2 && (tdFmt a == 3 || tdFmt a == 4)
  let scaleBytes := if fmtMx (tdFmt a) then tdDim a 0 / 32 else 0
  let read (s : State) (r : Nat) : List Byte × List Byte :=
    (mixRead s0 s c (tdBase a + tdRowOff a r) (tdRowBytes a), mixRead s0 s c (tdScaleAddr a r) scaleBytes)
  let values (s : State) (r : Nat) : List FVal :=
    if descOp d = 3 then List.replicate (tdDim b 0) (elemVal 0 (descFlush d) (descValue d))
    else rowValues a (descFlush d) (read s r).1 (read s r).2
  let checked : Try :=
    if descOp d = 3 then (s, none)
    else (s.mayRead c (tdBase a + tdRowOff a r) (tdRowBytes a)).andThen (fun s => s.mayRead c (tdScaleAddr a r) scaleBytes)
  checked.andThen (fun s =>
    if descOp d = 1 then s.putRow c iss b r (read s r).1 (read s r).2
    else
      let square := if descSquare d then
          some (squareScales (tdFmt b) ((List.range 32).map (fun i => ((values s0 (r / 32 * 32 + i)).map (mxInput x pair)).map (·.1))) (tdDim b 0 / 32))
        else none
      let o := convertRow x (tdFmt b) pair square (values s r)
      (s.addArith p o.counts).putRow c iss b r o.elems o.scales)

/-- A whole request: refused before any byte moves when the descriptor breaks a condition, then row by row. -/
def State.shuttleRun (s : State) (c : Ctx) (iss : Issuer) (p : Nat) (d : List Byte) : Try :=
  if !descOk d then (s, some stInvalid)
  else Try.each { s with draws := s.draws + 1 } (shuttleRow s c iss p d) (List.range (tdRows (descDst d)))

-- ## Blocks that commands and nodes name

/-- A block of bytes a command or node names, read as it stands (log 24). -/
def State.block (s : State) (c : Ctx) (a n : Nat) : Option (List Byte) := s.fetch c a n

/-- The status of a block that cannot be read. -/
def State.blockErr (s : State) (c : Ctx) (a n : Nat) : Nat := (s.readErr c a n).getD stInvalid

/-- The descriptor of a COPY node: the one its KIND_ARGS name, or the plain copy of TD0 to TD1 (R202). -/
def State.copyDesc (s : State) (c : Ctx) (n : Node) : Option (List Byte) :=
  if n.arg 104 8 = 0 then some (plainDesc (n.td 0) (n.td 1))
  else if n.arg 104 8 % 64 = 0 then s.block c (n.arg 104 8) 64
  else some []

-- ## One part per shuttle (R252)

/-- The shuttles that share a request: the sixteen of the selvage die, or both of every cluster a mask names. -/
def shuttlesOf (p mask : Nat) : List Nat :=
  if mask = 0 then List.range 16
  else (bitList 32 mask).flatMap (fun c => [shuttleKey p c 0, shuttleKey p c 1])

/-- The outermost dimension of a tensor with an extent above one. -/
def splitDim (t : List Byte) : Nat := if 1 < tdDim t 3 then 3 else if 1 < tdDim t 2 then 2 else if 1 < tdDim t 1 then 1 else 0

/-- First index and extent of each of `n` parts of that dimension: equal contiguous parts, in units that a part keeps whole, and the remainder with the
first. -/
def splitParts (e unit n : Nat) : List (Nat × Nat) :=
  let k := e / n / unit * unit
  let k0 := e - k * (n - 1)
  (List.range n).map (fun i => if i = 0 then (0, k0) else (k0 + k * (i - 1), k))

/-- Units of a part: 32 rows with SQUARE, a block of a row of an MX tensor (the split of a single row is DESIGN CHOICE, log 180). -/
def splitUnit (d : List Byte) : Nat :=
  let k := splitDim (descDst d)
  if (k == 1 && descSquare d) || (k == 0 && (fmtMx (tdFmt (descSrc d)) || fmtMx (tdFmt (descDst d)))) then 32 else 1

/-- The bytes of a part of a tensor where they are one range: no scales, and rows that follow each other without a gap. -/
def partRange (t : List Byte) (lo n : Nat) : Option (Nat × Nat) :=
  let rows := match splitDim t with | 3 => tdDim t 1 * tdDim t 2 | 2 => tdDim t 1 | 1 => 1 | _ => 0
  let dense := (tdDim t 1 == 1 || tdStride1 t == tdRowBytes t) && ((tdDim t 2 == 1 && tdDim t 3 == 1) || tdStride2 t == tdDim t 1 * tdRowBytes t)
  if fmtMx (tdFmt t) then none
  else if splitDim t = 0 then some (tdBase t + lo * fmtBits (tdFmt t) / 8, ceilDiv (n * fmtBits (tdFmt t)) 8)
  else if dense || rows * n == 1 then some (tdBase t + tdRowOff t (lo * rows), n * rows * tdRowBytes t)
  else none

/-- The part a shuttle has of a request. -/
def shuttlePart (iss : Issuer) (p : Nat) (d : List Byte) (lo n : Nat) : ShPart :=
  match partRange (descSrc d) lo n, partRange (descDst d) lo n with
  | some a, some b => { issuers := [iss], part := p, copy := descOp d == 1 && !bitAt (le d 2 1) 0, src := a.1, dst := b.1, len := b.2 }
  | _, _ => { issuers := [iss], part := p, copy := false, src := 0, dst := 0, len := 0 }

-- ## Queues and merging (R256)

/-- Two consecutive parts of a queue become one request. -/
def ShPart.joins (x y : ShPart) : Bool :=
  x.part == y.part && x.copy && y.copy && decide (y.len ≤ 1024) && (x.merged || decide (x.len ≤ 1024)) &&
  y.src == x.src + x.len && y.dst == x.dst + x.len && decide (x.len + y.len ≤ 4096)

/-- Whether what an issuer asked of a shuttle is still to be done. -/
def State.asks (s : State) (iss : Issuer) : Bool :=
  match iss with
  | .node d n => (match s.node d n with | some y => y.running && !y.worked | none => false)
  | .entry e => (match s.entry e with | some x => !x.worked | none => false)
  | .fetch d i => (match s.draft d with | some x => !x.fetched.any (fun f => f.1 == i) && !x.fetchWorked.contains i | none => false)
  | _ => false

/-- A queue without what has been done or given up. -/
def State.liveQueue (s : State) (k : Nat) : List ShPart :=
  (tget [] s.shuttles k).filterMap (fun x =>
    let l := x.issuers.filter s.asks
    if l.isEmpty then none else some { x with issuers := l, copy := x.copy && l == x.issuers })

/-- A part joins a queue, at its end or in the request it merges with; requests merged are to complete together. -/
def State.joinQueue (s : State) (k : Nat) (y : ShPart) : State :=
  let q := s.liveQueue k
  match q.getLast? with
  | some x =>
    if x.joins y then
      { s with
        shuttles := tset [] s.shuttles k (q.dropLast ++ [{ x with issuers := x.issuers ++ y.issuers, len := x.len + y.len, merged := true }])
        mates := s.mates.filter (fun g => g.any (fun i => !s.settled i)) ++ [x.issuers ++ y.issuers] }
    else { s with shuttles := tset [] s.shuttles k (q ++ [y]) }
  | none => { s with shuttles := tset [] s.shuttles k [y] }

/-- A request joins the queues of the shuttles that share it. -/
def State.enqueue (s : State) (iss : Issuer) (p mask : Nat) (d : List Byte) : State :=
  let ks := shuttlesOf p mask
  ((ks.zip (splitParts (tdDim (descDst d) (splitDim (descDst d))) (splitUnit d) ks.length)).filter (fun x => x.2.2 != 0)).foldl
    (fun s x => s.joinQueue x.1 (shuttlePart iss p d x.2.1 x.2.2)) s

-- ## Taking a request (R213, R235, R238)

/-- Offsets a destination descriptor reaches, elements and scales, from its BASE. -/
def tdReach (t : List Byte) : Nat :=
  let rows := tdRows t
  let e := (List.range rows).foldl (fun m r => max m (tdRowOff t r + tdRowBytes t)) 0
  if fmtMx (tdFmt t) then max e ((tdScaleOff t).toNat + rows * (tdDim t 0 / 32)) else e

/-- The controllers of a tensor's elements and scales serve. -/
def State.tdOpen (s : State) (t : List Byte) : Bool :=
  !tdValid t || (s.rangeOpen (tdBase t) (tdReach t) && s.rangeOpen (tdScaleAddr t 0) (if fmtMx (tdFmt t) then tdRows t * (tdDim t 0 / 32) else 0))

/-- The accesses of a draft's prefetch entries: the partition's, with the reach of the host that submitted it (R243). -/
def fetchCtx (d : Draft) : Ctx := { part := some d.part, admin := d.admin, src := .port d.port 0 }

/-- Entry `i` of the prefetch schedule of a draft's slot (R258). -/
def State.pfEntry (s : State) (d : Draft) (i : Nat) : Option (List Byte) :=
  d.slot.bind (fun k => (tget {} (s.part d.part).slots k).schedule[i + 1]?)

/-- The descriptor of an entry, read now; DST.BASE of a staged one is its entry of the pool (R260). -/
def State.pfDesc (s : State) (d : Draft) (i : Nat) : Option (List Byte) :=
  (s.pfEntry d i).bind (fun b => (s.block (fetchCtx d) (le b 8 8) 64).map (fun desc =>
    match d.staged.find? (fun x => x.1 == i) with
    | some x => patch desc 32 (leBytes 8 (s.pentAddr d.part x.2))
    | none => desc))

/-- Whether a request could be taken now: its source has come, its partition's work moves, and the controllers of what it reads and writes
serve; one whose descriptor cannot be read any more is taken too, and ends. -/
def State.takeable (s : State) (iss : Issuer) : Bool :=
  let reach (d : Option (List Byte)) : Bool := match d with | some b => s.tdOpen (descSrc b) && s.tdOpen (descDst b) | none => true
  match iss with
  | .node d n => (match s.draft d, s.node d n with
    | some dr, some nd => nd.kind == 3 && nd.st == .running && !nd.worked && nd.acks == 0 && s.runs dr.part && reach (s.copyDesc (nodeCtx dr nd) nd)
    | _, _ => false)
  | .entry e => (match s.entry e with
    | some x => x.opcode == 2 && x.st == .running && !x.worked && x.acks == 0 && s.runs x.part &&
        s.rangeOpen x.arg0 (field x.arg2 0 40) && s.rangeOpen x.arg1 (field x.arg2 0 40)
    | none => false)
  | .fetch d i => (match s.draft d with
    | some x => s.asks iss && x.issued.contains i && tget 0 x.fetchAcks i == 0 && s.runs x.part && reach (s.pfDesc x i)
    | none => false)
  | _ => false

/-- The partition's next request at a shuttle. -/
def State.nextAt (s : State) (p k : Nat) : Option Issuer := ((s.liveQueue k).find? (fun x => x.part == p)).bind (fun x => x.issuers.head?)

/-- The queues that hold a request. -/
def State.queuesOf (s : State) (iss : Issuer) : List Nat := (s.shuttles.filter (fun k => k.2.any (fun x => x.issuers.contains iss))).map (·.1)

/-- The request is the next of its partition in every queue that holds part of it, and could be taken. -/
def State.nextRequest (s : State) (p : Nat) (iss : Issuer) : Bool := (s.queuesOf iss).all (fun k => s.nextAt p k == some iss) && s.takeable iss

/-- Partitions with a request that the selvage shuttles could take. -/
def State.selvageWaits (s : State) : List Nat :=
  (List.range 16).filter (fun p => (List.range 16).any (fun k => match s.nextAt p k with | some iss => s.nextRequest p iss | none => false))

/-- Whether a request of partition `p` has its turn: the selvage shuttles serve the partitions round-robin (R213). -/
def State.mayTake (s : State) (p : Nat) (iss : Issuer) : Bool :=
  s.nextRequest p iss && ((s.queuesOf iss).all (fun k => decide (16 ≤ k)) || s.hasTurn 0 p s.selvageWaits)

/-- A node's work outside the looms is done; its acknowledgements may be missing. -/
def nodeWorked (d n : Nat) (r : Try) : State :=
  match r.2 with
  | some st => r.1.endNode d n st
  | none => r.1.setNode d n (fun y => { y with worked := true })

/-- The copy of a COPY node. -/
def State.copyNode (s : State) (dr : Draft) (n : Nat) (nd : Node) : State :=
  match s.copyDesc (nodeCtx dr nd) nd with
  | none => (s.meet (nodeCtx dr nd) (nd.arg 104 8) 64).endNode dr.id n (s.blockErr (nodeCtx dr nd) (nd.arg 104 8) 64)
  | some desc => nodeWorked dr.id n (s.shuttleRun (nodeCtx dr nd) (.node dr.id n) dr.part desc)

/-- The copy of a prefetch entry (R260). -/
def State.copyFetch (s : State) (d : Draft) (i : Nat) : State :=
  match s.pfDesc d i with
  | none => s.fetchEnd d.id i stRetryExhausted
  | some desc =>
    let r := s.shuttleRun (fetchCtx d) (.fetch d.id i) d.part desc
    match r.2 with
    | some st => r.1.fetchEnd d.id i st
    | none => r.1.setDraft d.id (fun x => { x with fetchWorked := x.fetchWorked ++ [i] })

/-- What was merged with a request completes with it once all of it is acknowledged; nodes complete with NODE_COMPLETE. -/
def State.finishMates (s : State) (iss : Issuer) : State :=
  (s.matesOf iss).foldl (fun s i => if s.matesSettled i then s.finishIssuer i else s) s

/-- The shuttles take a request that is next and has its turn: its bytes move. -/
def State.shuttleTake (s : State) (iss : Issuer) : State :=
  let go (p : Nat) (f : State → State) : State :=
    if !s.mayTake p iss then s
    else
      let s1 := if (s.queuesOf iss).any (fun k => decide (k < 16)) then s.serve 0 p else s
      (f s1).finishMates iss
  match iss with
  | .node d n => (match s.draft d, s.node d n with
    | some dr, some nd => go dr.part (fun s => s.copyNode dr n nd)
    | _, _ => s)
  | .entry e => (match s.entry e with
    | some x => go x.part (fun s => s.workDone e (s.copyRange (s.entryCtx x) (.entry e) x.arg0 x.arg1 (field x.arg2 0 40)))
    | none => s)
  | .fetch d i => (match s.draft d with
    | some x => go x.part (fun s => s.copyFetch x i)
    | none => s)
  | _ => s

end Sys2Proof.Machine
end

