-- ==== Sys2Proof/Machine/Drafts.lean ====
section
/-!
DEFINITION. Machine/Drafts.lean: loading and validating a draft (R201 to R203, R206, R367), DRAFT_RUN and resident drafts (R191, R209, R214, R515),
prefetch schedules (R258 to R262), and which nodes are ready (R206, R210, R212, R260, R363, R366).
-/

namespace Sys2Proof.Machine

-- ## Node records (R201, R202)

/-- Stages of a CHAIN: 2 to 6, in ascending code order, FETCH at most twice, the bytes after them 0. -/
def chainOk (b : List Byte) : Bool :=
  let n := le b 110 1
  let st := (List.range n).map (fun i => le b (104 + i) 1)
  decide (2 ≤ n ∧ n ≤ 6) && st.all (fun x => decide (1 ≤ x ∧ x ≤ 5)) && zeroAt b (104 + n) (6 - n) && decide (st.count 1 ≤ 2) &&
  (st.zip (st.drop 1)).all (fun x => decide (x.1 < x.2) || (x.1 == 1 && x.2 == 1))

/-- KIND_ARGS of a kind, and what the kind asks of loom set and image. -/
def kindOk (b : List Byte) : Bool :=
  let n : Node := { bytes := b, succ := [], deps := 0 }
  let noSet := n.clusterMask == 0 && n.loomMask == 0
  let empty := noSet && n.image == 0
  match n.kind with
  | 1 => n.clusterMask != 0 && n.loomMask != 0 && n.image != 0 && zeroAt b 104 24
  | 2 => n.clusterMask != 0 && n.loomMask != 0 && n.image != 0 && chainOk b && zeroAt b 111 17
  | 3 => n.image == 0 && zeroAt b 112 16
  | 4 => empty && zeroAt b 116 12
  | 5 => empty && zeroAt b 116 12
  | 6 => (empty || (n.clusterMask != 0 && n.loomMask != 0)) && zeroAt b 116 12
  | 7 => empty && zeroAt b 116 12
  | 8 => empty && decide (n.arg 104 1 ≤ 1) && zeroAt b 105 23
  | 9 => empty && decide (n.arg 120 1 < 3) && zeroAt b 121 7
  | 0xA => empty && (gSpace (n.arg 104 8) == 4 || gSpace (n.arg 104 8) == 5) && decide (n.arg 120 1 < 3) && zeroAt b 121 3
  | _ => false

/-- One record by itself (R12, R13, R202, R205, R218). -/
def recordOk (clusters i : Nat) (b : List Byte) : Bool :=
  let n : Node := { bytes := b, succ := [], deps := 0 }
  b.length == 128 && le b 0 2 == i && field (le b 3 1) 4 4 == 0 && zeroAt b 9 1 && zeroAt b 26 6 && tdOk (n.td 0) && tdOk (n.td 1) && tdOk (n.td 2) &&
  decide (n.clusterMask < 2 ^ clusters) && kindOk b && (!n.preStep || n.kind == 3 || n.kind == 8 || n.kind == 9 || n.kind == 0xA)

-- ## Graphs (R203, R206, R367)

/-- How often a node is named in successor lists. -/
def timesNamed (ns : List Node) (i : Nat) : Nat := ns.foldl (fun a n => a + n.succ.count i) 0

/-- Nodes that remain when nodes without remaining predecessors are taken away `fuel` times: none in a graph without a cycle. -/
def peel (ns : List Node) : Nat → List Nat → List Nat
  | 0, left => left
  | fuel + 1, left => peel ns fuel (left.filter (fun i => left.any (fun j => match ns[j]? with | some n => n.succ.contains i | none => false)))

def acyclic (ns : List Node) : Bool := (peel ns ns.length (List.range ns.length)).isEmpty

/-- Nodes that successor lists lead to from a set. -/
def reaches (ns : List Node) : Nat → List Nat → List Nat
  | 0, seen => seen
  | fuel + 1, seen => reaches ns fuel (seen ++ ((seen.flatMap (fun i => match ns[i]? with | some n => n.succ | none => [])).filter (fun i => !seen.contains i)).dedup)

/-- A counting node of a layer (R366). -/
def Node.counts (n : Node) (layer : Nat) : Bool := (n.kind == 1 || n.kind == 2) && !n.bubble && n.layer == layer

/-- A node of a validated graph breaks R206 or R367, or its dependences are miscounted. -/
def nodeBad (clusters : Nat) (ns : List Node) (i : Nat) (n : Node) : Bool :=
  !recordOk clusters i n.bytes || n.succ.any (fun j => decide (ns.length ≤ j)) || le n.bytes 14 2 != timesNamed ns i ||
  (n.preStep && ns.any (fun m => !m.preStep && m.succ.contains i)) ||
  (n.kind == 6 && (reaches ns ns.length n.succ).any (fun j => match ns[j]? with | some m => m.counts n.layer | none => false))

/-- FAIL_NODE of a draft that fails validation: the lowest failing record, or all ones for a cycle (R203). -/
def draftFault (clusters : Nat) (ns : List Node) : Option Nat :=
  match (ns.zipIdx).find? (fun x => nodeBad clusters ns x.2 x.1) with
  | some x => some x.2
  | none => if acyclic ns then none else some 0xFFFFFFFF

-- ## Loading

/-- Nodes of a node array and a successor array. -/
def nodesOf (recs succs : List Byte) : List Node :=
  (List.range (recs.length / 128)).map (fun i =>
    let b := slice recs (128 * i) 128
    { bytes := b, deps := le b 14 2, succ := (List.range (le b 24 2)).map (fun k => le succs (2 * (le b 20 4 + k)) 2) })

/-- Entries of the successor array that a node array names. -/
def succLength (recs : List Byte) : Nat :=
  (List.range (recs.length / 128)).foldl (fun m i => let b := slice recs (128 * i) 128
    if le b 24 2 = 0 then m else max m (le b 20 4 + le b 24 2)) 0

/-- Offset of an area of a partition's draft store (R515). -/
def State.areaOff (s : State) (p a : Nat) : Nat := gOffset (s.addr (.partAddr p 6) (.partAddr p 7)) + a * 0x1000000

/-- Lowest area of 8 to 23 that no draft in flight holds. -/
def State.freeArea (s : State) (p : Nat) : Nat :=
  ((List.range 16).map (· + 8)).find? (fun a => s.drafts.all (fun d => d.part != p || d.area != a)) |>.getD 8

-- ## Prefetch schedules (R258, R259)

def entryStaged (b : List Byte) : Bool := bitAt (le b 3 1) 0
def entryConsumer (b : List Byte) : Nat := le b 0 2
def entrySelect (b : List Byte) : Nat := field (le b 2 1) 0 2

/-- One entry of a schedule. -/
def pfEntryOk (clusters nodes : Nat) (b : List Byte) : Bool :=
  let sel := entrySelect b
  let staged := entryStaged b
  decide (entryConsumer b < nodes) && field (le b 2 1) 2 6 == 0 && field (le b 3 1) 1 7 == 0 && (staged || (sel == 3 && le b 4 4 == 0)) &&
  le b 8 8 % 64 == 0 && (decide (le b 16 1 < clusters) || le b 16 1 == 0xFF) && zeroAt b 17 15

/-- The header and its entries. -/
def scheduleOk (clusters nodes : Nat) (h : List Byte) (es : List (List Byte)) : Bool :=
  let n := le h 0 4
  let lo := le h 4 1
  let hi := le h 6 1
  decide (1 ≤ n ∧ n ≤ 65536) && decide (1 ≤ lo ∧ lo ≤ le h 5 1) && decide (le h 5 1 ≤ hi ∧ hi ≤ 64) && zeroAt h 7 1 && decide (1 ≤ le h 8 2) &&
  zeroAt h 10 2 && zeroAt h 16 16 && es.all (pfEntryOk clusters nodes)

/-- The schedule a slot's register names, read now: none where there is none, an error where it is refused. -/
def State.readSchedule (s : State) (c : Ctx) (p a nodes : Nat) : Except Missed (List (List Byte)) :=
  if a = 0 then .ok []
  else if a % 64 ≠ 0 then .error badContents
  else match s.need c a 32 with
    | .error e => .error e
    | .ok h =>
      match s.need c (a + 32) (32 * min 65536 (le h 0 4)) with
      | .error e => .error e
      | .ok b =>
        let es := chunks 32 b
        if scheduleOk (s.clusterCount p) nodes h es then .ok (h :: es) else .error badContents

/-- A slot with a schedule just read: L is LEAD_INIT, and the first interval begins, with `evictions` of STAGING_EVICTIONS before it (R262). -/
def Slot.withSchedule (x : Slot) (sch : List (List Byte)) (evictions : Nat) : Slot :=
  match sch with
  | [] => { x with schedule := [] }
  | h :: _ => { x with
      schedule := sch, leadMin := le h 4 1, leadMax := le h 6 1, interval := le h 8 2, stallHi := le h 12 4, lead := le h 5 1
      prevS := none, noRaise := 0, picks := 0, evBase := evictions }

-- ## DRAFT_RUN

def Entry.slotArg (x : Entry) : Nat := field x.arg1 20 3
def Entry.resident (x : Entry) : Bool := bitAt x.arg1 23
def Entry.makeResident (x : Entry) : Bool := bitAt x.arg1 24
def Entry.noStep (x : Entry) : Bool := bitAt x.arg1 25

/-- The slot a RESIDENT run names runs its alias (R351). -/
def State.slotFor (s : State) (x : Entry) : Nat :=
  if x.resident then tget x.slotArg (s.part x.part).slotAlias x.slotArg else x.slotArg

/-- Held until the member has its answer; after a refusal it completes with the refusal's status (R341). The answer: go on, or the state. -/
def State.asMember (s : State) (x : Entry) (k : State → State) : State :=
  let j := (s.part x.part).job
  if j.joined then k s
  else match j.refusal with
    | some st => s.endEntry x.acc st
    | none => s.setEntry x.acc (fun y => { y with st := .held })

/-- The draft enters the Heddle. -/
def State.addDraft (s : State) (x : Entry) (ns : List Node) (slot : Option Nat) (area : Nat) : State :=
  let id := s.draftIds + 1
  let d : Draft := { id := id, part := x.part, acc := some x.acc, slot := slot, area := area, port := x.port, admin := s.isAdmin x.port x.func
                     noStep := x.noStep, begun := x.noStep, nodes := ns }
  { s.setEntry x.acc (fun y => { y with st := .running }) with draftIds := id, drafts := s.drafts ++ [d] }

/-- The RESULT of a draft that runs no node (R192, R203). -/
def State.rejectDraft (s : State) (x : Entry) (st failNode : Nat) : State := s.complete x.acc st failNode

/-- The records a slot keeps on die (R209): the first 64 nodes whose DEP_COUNT is 0. -/
def firstReady (ns : List Node) : List (Nat × List Byte) :=
  ((ns.zipIdx.filter (fun n => n.1.deps == 0)).take 64).map (fun n => (n.2, n.1.bytes))

/-- The draft of a filled slot runs again, nothing fetched from the host or validated: the records on die, the others from the draft store
(R209). -/
def State.runResident (s : State) (x : Entry) (k : Nat) : State :=
  let z := tget {} (s.part x.part).slots k
  let c := s.entryCtx x
  let a := s.moduleNum * 2 ^ 52 + s.areaOff x.part k
  if !z.loaded then s.rejectDraft x stInvalid 0xFFFFFFFF
  else match (List.range z.nodeCount).mapM (fun i => match (z.onDie.find? (·.1 == i)).map (·.2) with
      | some b => some b
      | none => s.fetch c (a + 128 * i) 128), s.fetch c (a + 0x800000) (2 * z.succCount) with
    | some r, some q => s.addDraft x (nodesOf r.flatten q) (some k) k
    | _, _ => ((s.meet c a (128 * z.nodeCount)).meet c (a + 0x800000) (2 * z.succCount)).rejectDraft x stRetryExhausted 0xFFFFFFFF

/-- A draft is fetched, validated, stored, and started (R203, R209, R515). -/
def State.runFetched (s : State) (x : Entry) : State :=
  let p := x.part
  let c := s.entryCtx x
  let n := field x.arg1 0 17
  if n = 0 ∨ 65536 < n then s.rejectDraft x stInvalid 0xFFFFFFFF
  else match s.need c x.arg0 (128 * n) with
    | .error e => (s.missed c e).rejectDraft x e.1 0xFFFFFFFF
    | .ok r =>
      let m := succLength r
      match s.need c x.arg2 (2 * m) with
      | .error e => (s.missed c e).rejectDraft x e.1 0xFFFFFFFF
      | .ok q =>
        let ns := nodesOf r q
        match draftFault (s.clusterCount p) ns with
        | some f => s.rejectDraft x stInvalid f
        | none =>
          let k := x.slotArg
          let sch := if x.makeResident then s.readSchedule c p (s.addr (.hdlPfs p k 0) (.hdlPfs p k 1)) n else .ok []
          match sch with
          | .error e => (s.missed c e).rejectDraft x e.1 0xFFFFFFFF
          | .ok es =>
            let area := if x.makeResident then k else s.freeArea p
            let s1 := (s.setHbm (s.areaOff p area) r).setHbm (s.areaOff p area + 0x800000) q
            let s2 := if x.makeResident then
                let y := s1.part p
                let z : Slot := { tget {} y.slots k with loaded := true, nodeCount := n, succCount := m, onDie := firstReady ns, bolts := [] }
                s1.setPart p { y with slots := tset {} y.slots k (z.withSchedule es y.pool.stagingEvictions) }
              else s1
            s2.addDraft x ns (if x.makeResident then some k else none) area

/-- DRAFT_RUN (R191, R203, R209, R214). On a secure part it needs attestation of the owner's port; R6 gives its INVALID no place among the
holds and refusals of R214 and R341, and the model tests it first (DESIGN CHOICE, log 159). -/
def draftRun (s : State) (e : Nat) : State :=
  match s.startable e 1 with
  | none => s
  | some x =>
    let p := x.part
    if (s.part p).st.idle ∨ !s.attestedFor p then s.rejectDraft x stInvalid 0xFFFFFFFF
    else s.asMember x (fun s =>
      let k := s.slotFor x
      let busy := (x.resident || x.makeResident) && s.drafts.any (fun d => d.part == p && d.slot == some k)
      if s.overLimit x ∨ busy then s.setEntry e (fun y => { y with st := .held })
      else if x.noStep ∧ x.effPick ≠ 0 ∧ (!s.due x ∨ s.behind x) then s.setEntry e (fun y => { y with st := .boundary })
      else
        let s := if x.noStep ∧ x.effPick ≠ 0 then s.mark x else s
        if x.resident then s.runResident x k else s.runFetched x)

-- ## Ready nodes

/-- Every entry of the schedule that names a node has completed (R260). -/
def State.fetchedFor (s : State) (d : Draft) (n : Nat) : Bool :=
  match d.slot with
  | none => true
  | some k =>
    let es := (tget {} (s.part d.part).slots k).schedule.drop 1
    (es.zipIdx).all (fun b => entryConsumer b.1 != n || d.fetched.any (fun f => f.1 == b.2))

/-- The layer-complete counter of an UPDATE's layer has reached its micro-batch count (R366): every counting node is done. -/
def layerComplete (d : Draft) (layer : Nat) : Bool := d.nodes.all (fun m => !m.counts layer || m.isDone)

/-- WAIT_MODE 1: every REDUCE node of the pick on the module has completed (R363). -/
def State.reducesDone (s : State) (p : Nat) : Bool :=
  s.drafts.all (fun d => d.part != p || d.noStep || !d.begun || d.nodes.all (fun m => m.kind != 4 || m.isDone))

/-- A node may be dispatched as far as its own draft goes (R206, R210, R260, R363, R366); of a draft that has failed only one that was dispatched
before and displaced, which still runs to its end (R197). -/
def State.nodeReady (s : State) (d : Draft) (i : Nat) (n : Node) : Bool :=
  (n.st == .blocked || n.st == .ready || (n.st == .stopped && n.bubble)) && n.deps == 0 && (!d.failed || n.st == .stopped) && (d.begun || n.preStep) &&
  (d.noStep || s.offJob d || (s.part d.part).job.st != .halted) && s.fetchedFor d i &&
  (n.kind != 6 || (layerComplete d n.layer && (!s.bit (.jobCtl d.part) 18 || s.reducesDone d.part)))

/-- The partition's Heddle dispatches now (R220, R462, R490). -/
def State.dispatches (s : State) (p : Nat) : Bool := s.treadle.state == 0 && (s.part p).st == .active && !bitAt s.boot.held p

-- ## Prefetch (R260 to R262)

/-- The lowest entry whose consumer has not completed. -/
def openEntry (d : Draft) (es : List (List Byte)) : Nat :=
  (es.findIdx? (fun b => match d.nodes[entryConsumer b]? with | some n => !n.isDone | none => false)).getD es.length

/-- The draft has no node running and none ready: entries go past the window (R261). -/
def State.starved (s : State) (d : Draft) : Bool :=
  !(d.nodes.zipIdx).any (fun x => x.1.running || s.nodeReady d x.2 x.1)

/-- BASE of a consumer's descriptor is replaced (R260, R361). -/
def Node.rebind (n : Node) (sel a : Nat) : Node := if 3 ≤ sel then n else { n with bytes := patch n.bytes (32 + 24 * sel) (leBytes 8 a) }

/-- An entry's copy begins: its source is brought, and it joins the queues of ENGINE, which take it at once where it is next (R241, R259, R260). -/
def State.startFetch (s : State) (d : Draft) (i : Nat) (b desc : List Byte) : State :=
  if !descOk desc then s.fetchEnd d.id i stInvalid
  else
    let r := s.bringTd (fetchCtx d) (.fetch d.id i) (descSrc desc)
    match r.2 with
    | some st => r.1.fetchEnd d.id i st
    | none => (r.1.enqueue (.fetch d.id i) d.part (if le b 16 1 = 0xFF then 0 else 2 ^ le b 16 1) desc).shuttleTake (.fetch d.id i)

/-- One entry is issued: into a class-3 entry where it is staged, for which it waits, but fails while its draft starves (R248, R260, R261). -/
def State.runPfEntry (s : State) (d : Draft) (i : Nat) (b : List Byte) : State :=
  let c := fetchCtx d
  let con := entryConsumer b
  let s0 := s.setDraft d.id (fun x => { x with issued := x.issued ++ [i] })
  match s.block c (le b 8 8) 64 with
  | none => (s0.meet c (le b 8 8) 64).fetchEnd d.id i (s.blockErr c (le b 8 8) 64)
  | some desc =>
    if !entryStaged b then s0.startFetch d i b desc
    else
      let r := s0.alloc d.part 3 i (ceilDiv (le b 4 4) 65536) 0
      match r.2 with
      | none => if s.starved d then r.1.fetchEnd d.id i stPoolExhausted
          else r.1.setDraft d.id (fun x => { x with issued := x.issued.filter (· != i) })
      | some e =>
        let a := r.1.pentAddr d.part e
        let s1 := r.1.setDraft d.id (fun x => { x with
          staged := x.staged ++ [(i, e)], nodes := x.nodes.modify con (fun y => y.rebind (entrySelect b) a) })
        if le b 4 4 < tdReach (descDst desc) ∨ tdScaleOff (descDst desc) < 0 then s1.fetchEnd d.id i stInvalid
        else s1.startFetch d i b (patch desc 32 (leBytes 8 a))

/-- PREFETCH_ISSUE: the next entry of a resident draft's schedule, inside the window of L, or one at a time past it while the draft starves. -/
def prefetchIssue (s : State) (d : Nat) : State :=
  match s.draft d with
  | none => s
  | some x =>
    match x.slot with
    | none => s
    | some k =>
      let es := (tget {} (s.part x.part).slots k).schedule.drop 1
      let i := (firstIdx es.length (fun i => !x.issued.contains i)).getD es.length
      match es[i]? with
      | none => s
      | some b =>
        let past := decide (openEntry x es + s.leadOf x.part k ≤ i)
        let alone := x.issued.all (fun j => x.fetched.any (fun f => f.1 == j))
        if !s.dispatches x.part ∨ x.failed ∨ (past ∧ !(s.starved x && alone)) then s else s.runPfEntry x i b

/-- PREFETCH_LEAD_TEMPLE_UPDATE: the end of an interval of INTERVAL picks, with S supplied (R262). -/
def leadUpdate (s : State) (p k stall : Nat) : State :=
  let y := s.part p
  let x := tget {} y.slots k
  let ev := y.pool.stagingEvictions - x.evBase
  let quiet := x.noRaise - 1
  let next : Slot :=
    if (match x.prevS with | some v => decide (7 * v ≤ 8 * stall) | none => false) then { x with lead := max x.leadMin (x.lead - 1), prevS := none, noRaise := 8 }
    else if 0 < ev ∧ x.leadMin < x.lead then { x with lead := x.lead - 1, prevS := none, noRaise := quiet }
    else if x.stallHi < stall ∧ x.lead < x.leadMax ∧ x.noRaise = 0 then { x with lead := x.lead + 1, prevS := some stall, noRaise := quiet }
    else { x with noRaise := quiet }
  if x.schedule.isEmpty ∨ x.picks < x.interval then s
  else s.setPart p { y with slots := tset {} y.slots k { next with picks := 0, evBase := y.pool.stagingEvictions } }

-- ## Commands

/-- PREFETCH_LEAD_TEMPLE_UPDATE (R262). -/
def execPrefetchLeadTempleUpdate (p slot stall : Nat) (s : State) : Host.Outcome State Fault Refusal := finish (leadUpdate s p slot stall)

end Sys2Proof.Machine
end

