-- ==== Sys2Proof/Machine/Plans.lean ====
section
/-!
DEFINITION. Machine/Plans.lean: collective plans (R308, R309, R360) and the parameter blocks of REDUCE and GATHER nodes (R306, R307, R319,
R359): what installing a stream checks.
-/

namespace Sys2Proof.Machine

-- ## Plans (R308)

/-- One plan entry. -/
structure PlanEnt where
  first : Nat
  elems : Nat
  loc : Bool
  result : Bool
  dist : Bool
  ctrl : Bool
  srcs : List Nat
  dsts : List Nat
  deriving DecidableEq, Repr

def planEnt (b : List Byte) : PlanEnt :=
  { first := le b 0 4, elems := le b 4 4, loc := bitAt (le b 8 1) 0, result := bitAt (le b 8 1) 1, dist := bitAt (le b 8 1) 2
    ctrl := bitAt (le b 8 1) 3, srcs := (List.range (min 6 (le b 9 1))).map (fun i => le b (12 + 2 * i) 2)
    dsts := (List.range (min 6 (le b 10 1))).map (fun i => le b (24 + 2 * i) 2) }

/-- The entries of an installed stream. -/
def Stream.entries (x : Stream) : List PlanEnt := x.plan.map planEnt

/-- The module's own contribution is source 4096. -/
def ownSource : Nat := 4096

/-- What an entry combines. -/
def PlanEnt.needs (e : PlanEnt) : List Nat := (if e.loc then [ownSource] else []) ++ e.srcs

def PlanEnt.holds (e : PlanEnt) (i : Nat) : Bool := !e.ctrl && decide (e.first ≤ i ∧ i < e.first + e.elems)

/-- An entry's reserved fields, counts and module numbers. -/
def planEntForm (b : List Byte) : Bool :=
  b.length == 40 && field (le b 8 1) 4 4 == 0 && decide (le b 9 1 ≤ 6 ∧ le b 10 1 ≤ 6) && zeroAt b 11 1 &&
  zeroAt b (12 + 2 * le b 9 1) (12 - 2 * le b 9 1) && zeroAt b (24 + 2 * le b 10 1) (12 - 2 * le b 10 1) && zeroAt b 36 4 &&
  ((planEnt b).srcs ++ (planEnt b).dsts).all (fun m => decide (m < 4096))

/-- Ranges in ascending order, each from its first element up to the end. -/
def ranges (es : List PlanEnt) : List (Nat × Nat) := sortBy (fun a b => decide (a.1 ≤ b.1)) (es.map (fun e => (e.first, e.first + e.elems)))

def disjoint (rs : List (Nat × Nat)) : Bool := (rs.zip (rs.drop 1)).all (fun p => decide (p.1.2 ≤ p.2.1))

/-- Ranges that cover [0, n). -/
def covers (n : Nat) (rs : List (Nat × Nat)) : Bool :=
  decide (n ≤ rs.foldl (fun hi r => if r.1 ≤ hi then max hi r.2 else hi) 0)

/-- What R308 asks of a plan's bytes. -/
def planForm (head body : List Byte) : Bool :=
  let n := le head 0 4
  decide (1 ≤ n ∧ n ≤ 65536) && decide (1 ≤ le head 4 4 ∧ le head 4 4 ≤ 4096) && zeroAt head 8 52 && body.length == 40 * n &&
  crc32 (head.take 60 ++ body) == le head 60 4 && (chunks 40 body).all planEntForm

/-- A payload entry lies in one granule of the stream; a control entry has no range; each has a source (R309). -/
def PlanEnt.ok (elements : Nat) (e : PlanEnt) : Bool :=
  (if e.ctrl then e.first == 0 && e.elems == 0
   else decide (1 ≤ e.elems ∧ e.first + e.elems ≤ elements) && e.first / 262144 == (e.first + e.elems - 1) / 262144) &&
  (e.loc || !e.srcs.isEmpty)

/-- A reduce-phase entry that neither writes nor sends feeds a distribute-phase entry (R309). -/
def PlanEnt.used (es : List PlanEnt) (e : PlanEnt) : Bool :=
  e.dist || e.result || !e.dsts.isEmpty ||
  (if e.ctrl then es.any (fun f => f.ctrl && f.dist && f.loc)
   else covers (e.first + e.elems) ((0, e.first) :: ranges (es.filter (fun f => !f.ctrl && f.dist && f.loc))))

/-- The rules of a REDUCE plan (R309). -/
def reducePlanOk (elements : Nat) (lowRank : Bool) (es : List PlanEnt) : Bool :=
  let pay (dist : Bool) := es.filter (fun e => !e.ctrl && e.dist == dist)
  let ctl (dist : Bool) := es.filter (fun e => e.ctrl && e.dist == dist)
  es.all (PlanEnt.ok elements) && (ctl false).length == 1 && decide ((ctl true).length ≤ 1) &&
  (es.filter (fun e => e.ctrl && e.result)).length == 1 &&
  disjoint (ranges (pay false)) && covers elements (ranges (pay false)) && disjoint (ranges (pay true)) && es.all (PlanEnt.used es) &&
  (!lowRank || covers elements (ranges (es.filter (fun e => !e.ctrl && e.result))))

/-- The rules of a gather plan (R309, R360). -/
def gatherPlanOk (elements : Nat) (es : List PlanEnt) : Bool :=
  let res := ranges (es.filter (·.result))
  es.all (PlanEnt.ok elements) && es.all (fun e => e.dist && !e.ctrl) && disjoint (ranges es) && disjoint res && covers elements res

/-- The entries of the plan a block names, or the status of what is wrong. -/
def State.readPlan (s : State) (c : Ctx) (a length : Nat) : Except Missed (List (List Byte)) :=
  match s.need c a 64 with
  | .error e => .error e
  | .ok h =>
    if length ≠ 64 + 40 * le h 0 4 ∨ 65536 < le h 0 4 then .error badContents
    else match s.need c (a + 64) (40 * le h 0 4) with
      | .error e => .error e
      | .ok b => if planForm h b then .ok (chunks 40 b) else .error badContents

-- ## Masks (R172, R173)

/-- A mask descriptor's own form (R172). That a broken form met at a node's dispatch ends the node INVALID is a DESIGN CHOICE (log 173): R172 gives
no outcome there. -/
def maskForm (b : List Byte) : Bool :=
  decide (le b 0 1 < 4) && zeroAt b 1 3 && zeroAt b 12 4 &&
  (if bitAt (le b 0 1) 0 then le b 16 8 % 64 == 0 else le b 16 8 == 0) && (if bitAt (le b 0 1) 1 then le b 24 8 % 64 == 0 else le b 24 8 == 0)

/-- Bits and blocks of a mask: row bitmap, block bitmap, ROWS, COLS. -/
abbrev Mask := List Byte × List Byte × Nat × Nat

/-- The bitmaps a descriptor names, read now, or the status of a read that fails. -/
def State.readMask (s : State) (c : Ctx) (b : List Byte) : Except Missed Mask :=
  let rows := le b 4 4
  let cols := le b 8 4
  let map (on : Bool) (a bits : Nat) : Except Missed (List Byte) :=
    if !on ∨ bits = 0 then .ok [] else s.need c a (ceilDiv bits 8)
  if !maskForm b then .error badContents
  else match map (bitAt (le b 0 1) 0) (le b 16 8) rows, map (bitAt (le b 0 1) 1) (le b 24 8) (ceilDiv rows 128 * ceilDiv cols 128) with
    | .ok r, .ok k => .ok (r, k, rows, cols)
    | .error e, _ => .error e
    | _, .error e => .error e

def mapBit (m : List Byte) (i : Nat) : Bool := bitAt (m.getD (i / 8) 0).toNat (i % 8)

/-- Row `k` of the tile in block row `i` and block column `j` is frozen (R173). -/
def Mask.frozen (m : Mask) (i j r : Nat) : Bool :=
  let t := ceilDiv m.2.2.2 128
  (decide (128 * i + r < m.2.2.1) && mapBit m.1 (128 * i + r)) ||
  (decide (i < ceilDiv m.2.2.1 128 ∧ j < t) && mapBit m.2.1 (i * t + j))

/-- Element `e` of an EXACT stream is frozen (R300, R312). -/
def Stream.frozen (x : Stream) (e : Nat) : Bool :=
  match x.mask with
  | none => false
  | some m => let t := ceilDiv m.2.2.2 128; Mask.frozen m (e / 16384 / t) (e / 16384 % t) (e % 16384 / 128)

-- ## Addresses

/-- A range in the partition's own HBM (R306). -/
def State.ownHbm (s : State) (c : Ctx) (p a len align : Nat) : Bool := s.placed p a len align [] && s.allowed c a len true

/-- An address that the partition may write: permitted here, or inside the torus. -/
def State.writable (s : State) (c : Ctx) (a n : Nat) : Bool := if s.isLocal a then s.allowed c a n true else s.inTorus (gModule a)

-- ## The REDUCE block (R306, R307)

/-- Fields that break R12, R13 or the MODE (R306). -/
def reduceForm (b : List Byte) : Bool :=
  let mode := le b 6 1
  let lo := field (le b 38 1) 0 4
  let hi := field (le b 38 1) 4 4
  let area := le b 16 8
  b.length == 128 && field (le b 4 2) 12 4 == 0 && decide (mode < 3) && field (le b 8 1) 2 6 == 0 && (le b 9 1 == 0 || le b 9 1 == 4) &&
  decide (le b 10 1 ≤ 0xFE) && decide (2 ≤ le b 11 1 ∧ le b 11 1 ≤ 16) && decide (lo ≤ hi ∧ hi ≤ 6 ∧ lo ≤ le b 39 1 ∧ le b 39 1 ≤ hi) &&
  zeroAt b 88 40 && area % 65536 == 0 && decide (1 ≤ le b 12 4) &&
  (if mode = 0 then le b 7 1 == 0 && le b 12 4 % 16384 == 0 && le b 72 8 == 0 && le b 62 2 == 0
   else decide (1 ≤ le b 7 1 ∧ le b 7 1 ≤ 64) && le b 9 1 == 0 && le b 48 8 == 0 && le b 56 4 == 0 && le b 64 8 == 0 && le b 72 8 % 64 == 0 &&
     (mode == 1 || le b 62 2 == 0))

/-- Span of the elements with RESULT: the first, and the end of the last. -/
def resultSpan (es : List PlanEnt) : Option (Nat × Nat) :=
  (es.filter (fun e => !e.ctrl && e.result)).foldl (fun a e => match a with
    | none => some (e.first, e.first + e.elems)
    | some r => some (min r.1 e.first, max r.2 (e.first + e.elems))) none

/-- The low-rank state block fits the parameter block (R319). -/
def State.lowRankOk (s : State) (c : Ctx) (p : Nat) (b lr : List Byte) : Bool :=
  let m := le lr 0 4
  let n := le lr 4 4
  let r := le lr 8 1
  let here (o len : Nat) : Bool := s.ownHbm c p (le lr o 8) len 64
  r == le b 7 1 && zeroAt lr 9 7 && le b 12 4 == (if le b 6 1 = 1 then m else n) * r &&
  here 16 (4 * m * r) && here 24 (4 * m * r) && here 32 (4 * n * r) && here 40 (4 * n * r) && here 48 (4 * m * n) && here 56 (4 * m * n)

/-- What R307 finds wrong with a block, its plan and its mask: a status; else the plan's entries and the mask. -/
def State.checkReduce (s : State) (d : Draft) (c : Ctx) (b : List Byte) : Except Missed (List (List Byte) × Option Mask) :=
  let p := d.part
  let elements := le b 12 4
  let inUse := (s.part p).streams.any (fun y => y.collective == field (le b 4 2) 0 12)
  if !reduceForm b ∨ d.nodes.length ≤ le b 36 2 ∨ inUse ∨ 8 * (s.clusters p).length ≤ le b 62 2 then .error badContents
  else if !s.ownHbm c p (le b 16 8) (65536 + le b 11 1 * 2 ^ (20 + field (le b 38 1) 4 4)) 65536 ∨
      !s.ownHbm c p (le b 40 8) (ceilDiv elements 262144) 1 ∨ !s.writable c (le b 80 8) 64 then .error badContents
  else match s.readPlan c (le b 24 8) (le b 32 4) with
    | .error e => .error e
    | .ok plan =>
      let es := plan.map planEnt
      let w := if le b 9 1 = 4 then 8 else 4
      let resultOk := match resultSpan es with
        | some r => r.1 == le b 56 4 && s.ownHbm c p (le b 48 8) (w * (r.2 - r.1)) w
        | none => true
      if !reducePlanOk elements (le b 6 1 != 0) es then .error badContents
      else if le b 6 1 ≠ 0 then
        (match s.need c (le b 72 8) 64 with
         | .error e => .error e
         | .ok lr => if s.lowRankOk c p b lr && s.ownHbm c p (le b 72 8) 64 64 then .ok (plan, none) else .error badContents)
      else if !resultOk then .error badContents
      else if le b 64 8 = 0 then .ok (plan, none)
      else match s.need c (le b 64 8) 32 with
        | .error e => .error e
        | .ok m =>
          if 16384 * ceilDiv (le m 4 4) 128 * ceilDiv (le m 8 4) 128 ≠ elements then .error badContents
          else match s.readMask c m with
            | .error e => .error e
            | .ok k => .ok (plan, some k)

-- ## The GATHER block (R359)

def gatherForm (nodes : Nat) (b : List Byte) : Bool :=
  b.length == 64 && field (le b 0 2) 12 4 == 0 && decide (le b 2 1 < 4) && decide (le b 3 1 < 4) && zeroAt b 10 2 &&
  decide (1 ≤ le b 12 4 ∧ le b 12 4 ≤ 2 ^ 28) && zeroAt b 48 16 && (le b 3 1 == 3 || decide (le b 4 2 < nodes))

end Sys2Proof.Machine
end

