-- ==== Sys2Proof/Machine/Reduce.lean ====
section
/-!
DEFINITION. Machine/Reduce.lean: gradient reduction (R300 to R331) and the collective engine (R290 to R293): emission, bolts, launch,
combination, the control result, results, orthonormalisation, and the bolt-size temple.
-/

namespace Sys2Proof.Machine

-- ## Streams and bolts (R300 to R305)

def State.stream (s : State) (p d n : Nat) : Option Stream := (s.part p).streams.find? (fun y => y.draft == d && y.node == n)

/-- First element of bolt `b`, its elements, and the bolt of an element. -/
def Stream.boltFirst (x : Stream) (b : Nat) : Nat := b * (262144 * 2 ^ x.size)
def Stream.boltCount (x : Stream) (b : Nat) : Nat := min (262144 * 2 ^ x.size) (x.elements - x.boltFirst b)
def Stream.boltOf (x : Stream) (e : Nat) : Nat := e / (262144 * 2 ^ x.size)
def Stream.boltElems (x : Stream) (b : Nat) : List Nat := (List.range (x.boltCount b)).map (x.boltFirst b + ·)
def Stream.slots (x : Stream) : Nat := le x.block 11 1
/-- Elements of granule `g`. -/
def Stream.granuleElems (x : Stream) (g : Nat) : List Nat := (List.range (min 262144 (x.elements - 262144 * g))).map (262144 * g + ·)
/-- Granules of bolt `b`. -/
def Stream.granulesOf (x : Stream) (b : Nat) : List Nat := (List.range (x.boltGranules b)).map (b * 2 ^ x.size + ·)

/-- Address of an element's word in the slot of its bolt (R305). -/
def Stream.word (x : Stream) (b : Bolt) (e : Nat) : Nat :=
  x.boltArea + 65536 + b.slot * 2 ^ (20 + x.sizeMax) + 4 * (e - x.boltFirst b.index)

/-- A granule of which every element is frozen on this module: nothing is sent of it and nothing expected (R313, R318). -/
def Stream.allFrozen (x : Stream) (g : Nat) : Bool := x.mask.isSome && (x.granuleElems g).all x.frozen

/-- Whether granule `g` is to be sent in its rerun form; none while the bolt's decision is not known (R314). -/
def Stream.form (x : Stream) (g : Nat) : Option Bool := ((x.bolt (g / 2 ^ x.size)).bind (·.ctl)).map (fun c => c.reruns (g % 2 ^ x.size))

/-- A granule from which no payload is expected once the decision is known (R318). -/
def Ctl.still (c : Ctl) (i : Nat) : Bool := bitAt c.frozen i

/-- The 128 bytes of a bolt header (R305). -/
def State.boltHeader (s : State) (p : Nat) (x : Stream) (b : Bolt) : List Byte :=
  let n := x.boltGranules b.index
  let bits (f : Ctl → Nat → Bool) : Nat := match b.ctl with
    | some c => (List.range n).foldl (fun a i => if f c i then a + 2 ^ i else a) 0
    | none => 0
  leBytes 4 x.id ++ leBytes 4 b.index ++ leBytes 8 x.pick ++ leBytes 1 x.attempt ++ leBytes 1 b.st ++ leBytes 1 n ++ leBytes 1 x.size ++
  leBytes 4 b.emitted.length ++ leBytes 8 (bits (fun c i => bitAt c.range i)) ++ leBytes 8 (bits (fun c i => bitAt c.poison i)) ++
  leBytes 8 (bits Ctl.frozenAll) ++ leBytes 8 (bits (fun c i => c.reruns i && !c.still i)) ++ zeros 8 ++
  (List.range 64).flatMap (fun i => leBytes 1 (if n ≤ i then 0 else
    let g := b.index * 2 ^ x.size + i
    match b.ctl with | some c => s.xFinal p x c g | none => s.xPred p x g))

/-- A bolt's record changes, and its header is written. -/
def State.setBolt (s : State) (p d n b : Nat) (f : Bolt → Bolt) : State :=
  let s1 := s.setStream p d n (fun x => x.setBolt b f)
  match (s1.stream p d n).bind (fun x => (x.bolt b).map (fun y => (x, y))) with
  | some (x, y) => (s1.put (partCtx p) .outside (x.boltArea + 128 * y.slot) (s1.boltHeader p x y)).1
  | none => s1

-- ## Staging (R290, R291)

/-- Cell kind of PART, DIST and RERUN. -/
def cellKind (part : Nat) (dist rerun : Bool) : Nat := part + 4 * b2n dist + 8 * b2n rerun

/-- Unsigned maximum byte by byte. -/
def maxBytes : Nat → Nat → Nat → Nat
  | 0, _, _ => 0
  | n + 1, a, b => max (a % 256) (b % 256) + 256 * maxBytes n (a / 256) (b / 256)

/-- The three operations of R290, by PART. -/
def combine (part a b : Nat) : Nat :=
  match part with
  | 0 => (a + b) % 2 ^ 64
  | 1 => a ||| b
  | _ => maxBytes 64 a b

def Stream.cell (x : Stream) (kind e : Nat) : Option Cell := x.cells.find? (fun c => c.kind == kind && c.elem == e)
def Stream.hasSrc (x : Stream) (kind e src : Nat) : Bool := match x.cell kind e with | some c => c.srcs.contains src | none => false

/-- One contribution joins the staging. -/
def Stream.add (x : Stream) (kind e src v : Nat) : Stream :=
  match x.cell kind e with
  | none => { x with cells := x.cells ++ [{ kind := kind, elem := e, sum := v, srcs := [src] }] }
  | some _ => { x with cells := x.cells.map (fun c => if c.kind = kind ∧ c.elem = e then
      { c with sum := combine (kind % 4) c.sum v, srcs := c.srcs ++ [src] } else c) }

/-- Every contribution an entry names has come for an element. -/
def Stream.whole (x : Stream) (kind e : Nat) (needs : List Nat) : Bool :=
  match x.cell kind e with
  | some c => needs.all (fun n => c.srcs.contains n)
  | none => false

def Stream.sum (x : Stream) (kind e : Nat) : Nat := match x.cell kind e with | some c => c.sum | none => 0

-- ## Sending (R279, R310)

/-- TAG of the step's packets (R292). -/
def Stream.tag (x : Stream) : Nat := x.pick % 256 + 256 * (x.attempt % 256)

/-- A RED packet of a stream. -/
def State.redPacket (s : State) (p : Nat) (x : Stream) (kind : Nat) (dst first : Nat) (data : List Byte) : Packet :=
  let part := kind % 4
  let id := x.collective + 4096 * part + 2 ^ 14 * (kind / 4 % 2) + 2 ^ 15 * (kind / 8 % 2)
  s.packet (if part = 0 then 0x10 else if part = 1 then 0x12 else 0x11) (ceilDiv data.length 64) dst 0 p x.tag (id * 2 ^ 32 + first) data

/-- Values combined for a range go to a destination: 64 elements of payload a packet, or one control line. -/
def State.sendRed (s : State) (p d n kind first : Nat) (bytes : List Byte) (dst : Nat) : State :=
  ((chunks 512 bytes).zipIdx).foldl (fun s b =>
    match s.stream p d n with
    | some x =>
      let pkt := s.redPacket p x kind dst (first + 64 * b.2) b.1
      (s.setStream p d n (fun y => { y with sent := y.sent ++ [pkt] })).sendOn 0 pkt
    | none => s) s

-- ## Quantisation (R312)

/-- The word sent for an FP32 value on exponent byte X, 0 for a non-finite one. -/
def quantise (x w : Nat) : Nat :=
  let f := field w 23 8
  if f = 255 then 0
  else if x < f then ofSigned 64 (if bitAt w 31 then -(2 ^ 39 - 1) else 2 ^ 39 - 1)
  else ofSigned 64 (int40q x (fp32F.decode w))

/-- The FP32 word of an element at launch: what was emitted, else +0. -/
def State.boltWord (s : State) (p : Nat) (x : Stream) (b : Bolt) (e : Nat) : Nat :=
  if b.emitted.contains e then le (s.valueAt (partCtx p) (x.word b e) 4) 0 4 else 0

/-- Own payload of the granules joins the reduce-phase entries that are LOCAL. -/
def State.ownPayload (s : State) (p d n : Nat) (b : Bolt) (gs : List Nat) (rerun : Bool) (expo : Nat → Nat) : State :=
  match s.stream p d n with
  | none => s
  | some x =>
    let es := x.entries.filter (fun e => !e.ctrl && !e.dist && e.loc)
    let adds := gs.flatMap (fun g => (x.granuleElems g).filterMap (fun i =>
      if es.any (fun e => e.holds i) then some (i, if x.frozen i then 0 else quantise (expo g) (s.boltWord p x b i)) else none))
    s.setStream p d n (fun x => adds.foldl (fun x a => x.add (cellKind 0 false rerun) a.1 ownSource a.2) x)

-- ## Failure of a stream

/-- The 64 bytes of the stream status record. -/
def Stream.record (x : Stream) (moduleNum : Nat) : List Byte :=
  leBytes 8 x.pick ++ leBytes 1 x.attempt ++ leBytes 1 x.size ++ leBytes 1 x.rounds ++ leBytes 1 x.replaced ++ leBytes 4 x.rerunGranules ++
  leBytes 4 x.poisonGranules ++ leBytes 4 x.zeroed ++ leBytes 4 x.duplicate ++ leBytes 4 x.late ++ leBytes 4 x.unfilled ++
  leBytes 4 (x.tail / 1024) ++ leBytes 4 (match x.locator with | some l => l.1 | none => 0xFFFFFFFF) ++
  leBytes 4 (match x.locator with | some l => l.2 | none => 0) ++ leBytes 2 (le x.block 60 2) ++ leBytes 2 moduleNum ++ zeros 12

/-- A stream fails on its module: its bolts are ABORTED, and its node will end with the status (R327). -/
def State.failStream (s : State) (p d n status : Nat) : State :=
  let s1 := s.setStream p d n (fun x => { x with status := some status, bolts := x.bolts.map (fun b => { b with st := 5 }) })
  let s2 := match s1.stream p d n with
    | some x => if x.gather then s1 else
        let s2 : State := x.bolts.foldl (fun (s : State) b => s.markAborted p x b) s1
        (s2.put (partCtx p) .outside x.statusAddr (x.record s1.moduleNum)).1
    | none => s1
  s2.endNode d n status

-- ## Slots and launch (R303, R312, R313)

/-- The next bolt whose slot is free takes it. -/
def Stream.slotNext (x : Stream) : Option Bolt :=
  (firstIdx x.bolts' (fun b => (x.bolt b).isNone &&
    (decide (b < x.slots) || (match x.bolt (b - x.slots) with | some y => y.st == 4 | none => false)))).map (fun b =>
      { index := b, slot := b % x.slots })

/-- The control words of a bolt on this module, the elements zeroed, and the lowest non-finite one. -/
structure Own where
  ctl : Ctl
  zeroed : Nat
  worst : Option Nat

def State.ownControl (s : State) (p : Nat) (x : Stream) (b : Bolt) : Own :=
  let gs := x.granulesOf b.index
  let live (g : Nat) : List Nat := (x.granuleElems g).filter (fun e => !x.frozen e && b.emitted.contains e)
  let expo (e : Nat) : Nat := field (s.boltWord p x b e) 23 8
  let bad := gs.flatMap (fun g => (live g).filter (fun e => expo e == 255))
  let maxOf (g : Nat) : Nat := (live g).foldl (fun m e => if expo e = 255 then m else max m (expo e)) 0
  let bits (f : Nat → Bool) : Nat := gs.zipIdx.foldl (fun a g => if f g.1 then a + 2 ^ g.2 else a) 0
  { ctl := { range := bits (fun g => decide (s.xPred p x g < maxOf g))
             poison := if x.zeroElement then 0 else bits (fun g => bad.any (fun e => e / 262144 == g))
             frozen := bits x.allFrozen, live := bits (fun g => !x.allFrozen g), max8 := gs.zipIdx.foldl (fun a g => a + maxOf g.1 * 256 ^ g.2) 0 }
    zeroed := if x.zeroElement then bad.length else 0
    worst := if x.zeroElement then none else bad.head? }

/-- Bolt `b` is launched: control lines and the first form of its payload join the staging. -/
def State.launch (s : State) (p d n b : Nat) : State :=
  match s.stream p d n with
  | none => s
  | some x =>
    match x.bolt b with
    | none => s
    | some y =>
      let c := partCtx p
      let hist := (x.granulesOf b).map (x.xhist + ·)
      if (y.emitted).any (fun e => (s.readErr c (x.word y e) 4).isSome) ∨ hist.any (fun a => (s.readErr c a 1).isSome) then
        (hist.foldl (fun s a => s.meet c a 1) (y.emitted.foldl (fun s e => s.meet c (x.word y e) 4) s)).failStream p d n stRetryExhausted
      else
        let o := s.ownControl p x y
        let unfilled := ((x.boltElems b).filter (fun e => !x.frozen e && !y.emitted.contains e)).length
        let line := o.ctl.range + 2 ^ 64 * o.ctl.poison + 2 ^ 128 * o.ctl.frozen + 2 ^ 192 * o.ctl.live
        let loc := match o.worst with
          | some e => (match x.locator with
            | some l => if e < l.2 then some (b, e) else some l
            | none => some (b, e))
          | none => x.locator
        let s0 := hist.foldl (fun s a => s.pass c a 1 false) (y.emitted.foldl (fun s e => s.pass c (x.word y e) 4 false) s)
        let s1 := s0.setStream p d n (fun z =>
          let z1 := { z with unfilled := z.unfilled + unfilled, zeroed := z.zeroed + o.zeroed, locator := loc }
          if z1.entries.any (fun e => e.ctrl && !e.dist && e.loc) then
            (z1.add (cellKind 1 false false) b ownSource line).add (cellKind 2 false false) b ownSource o.ctl.max8
          else z1)
        let s2 := s1.ownPayload p d n y ((x.granulesOf b).filter (fun g => !bitAt o.ctl.frozen (g % 2 ^ x.size))) false (s.xPred p x)
        s2.setBolt p d n b (fun z => { z with st := 2 })

/-- A bolt may be launched (R303). -/
def Stream.ready (x : Stream) (b : Nat) : Bool :=
  match x.bolt b with
  | some y => y.st == 1 && (x.lastDone || (x.boltElems b).all (fun e => x.frozen e || y.emitted.contains e))
  | none => false

-- ## Combination (R291, R309, R314, R318)

/-- The control result of a bolt is known: each granule is decided, forms that do not match are dropped, rerun forms are made. -/
def State.decideBolt (s : State) (p d n b : Nat) (c : Ctl) : State :=
  match s.stream p d n with
  | none => s
  | some x =>
    let gs := x.granulesOf b
    let idx (g : Nat) : Nat := g % 2 ^ x.size
    let again := gs.filter (fun g => c.reruns (idx g) && !c.still (idx g))
    let keep (cell : Cell) : Bool := cell.kind % 4 != 0 || x.boltOf cell.elem != b ||
      (!c.still (idx (cell.elem / 262144)) && decide (8 ≤ cell.kind) == c.reruns (idx (cell.elem / 262144)))
    let s1 := s.setStream p d n (fun z => { z with
      cells := z.cells.filter keep, rerunGranules := z.rerunGranules + again.length
      poisonGranules := z.poisonGranules + popCount 64 c.poison, poisoned := z.poisoned || c.poison != 0
      mismatch := z.mismatch || gs.any (fun g => c.freezeMismatch (idx g)) })
    let s2 := s1.setBolt p d n b (fun y => { y with ctl := some c, st := if again.isEmpty then 2 else 3 })
    match x.bolt b with
    | some y => s2.ownPayload p d n { y with ctl := some c } again true (fun g => s2.xFinal p x c g)
    | none => s2

/-- Marks of `made`: an entry's first form, its rerun form, either of them written, and a control entry for bolt b. -/
def madeForm (rerun : Bool) : Nat := b2n rerun
def madeWritten : Nat := 2
def madeCtrl (b : Nat) : Nat := 16 + b

def Stream.isMade (x : Stream) (i m : Nat) : Bool := x.made.contains (i, m)
def Stream.mark (x : Stream) (i m : Nat) : Stream := { x with made := x.made ++ [(i, m)] }

/-- A control entry that is complete for a bolt of the stream: entry index and bolt. One with RESULT waits for the bolt's launch. -/
def Stream.ctrlNext (x : Stream) : Option (Nat × PlanEnt × Nat) :=
  (x.entries.zipIdx.filter (fun e => e.1.ctrl)).findSome? (fun e =>
    (firstIdx x.bolts' (fun b => !x.isMade e.2 (madeCtrl b) &&
      x.whole (cellKind 1 e.1.dist false) b e.1.needs && x.whole (cellKind 2 e.1.dist false) b e.1.needs &&
      (!e.1.result || (match x.bolt b with | some y => y.st == 2 && y.ctl.isNone | none => false)))).map (fun b => (e.2, e.1, b)))

/-- Both control lines of a bolt go to the entry's destinations, to the distribute phase, and to the bolt where RESULT is set. -/
def State.makeCtrl (s : State) (p d n i : Nat) (e : PlanEnt) (b : Nat) : State :=
  match s.stream p d n with
  | none => s
  | some x =>
    let k1 := cellKind 1 e.dist false
    let k2 := cellKind 2 e.dist false
    let v1 := x.sum k1 b
    let v2 := x.sum k2 b
    let s1 := s.setStream p d n (fun z =>
      let z1 := z.mark i (madeCtrl b)
      if !e.dist ∧ z.entries.any (fun f => f.ctrl && f.dist && f.loc) then
        (z1.add (cellKind 1 true false) b ownSource v1).add (cellKind 2 true false) b ownSource v2
      else z1)
    let s2 := e.dsts.foldl (fun s t => (s.sendRed p d n k1 (8 * b) (leBytes 64 v1) t).sendRed p d n k2 (64 * b) (leBytes 64 v2) t) s1
    let s3 := s2.setStream p d n (fun z => { z with cells := z.cells.filter (fun c => !((c.kind == k1 || c.kind == k2) && c.elem == b)) })
    if e.result then s3.decideBolt p d n b ⟨field v1 0 64, field v1 64 64, field v1 128 64, field v1 192 64, v2⟩ else s3

/-- A payload entry and form that are complete and not yet sent; a decided granule uses its own form only. -/
def Stream.payNext (x : Stream) : Option (Nat × PlanEnt × Bool) :=
  (x.entries.zipIdx.filter (fun e => !e.1.ctrl)).findSome? (fun e =>
    ([false, true].find? (fun r => !x.isMade e.2 (madeForm r) &&
      (x.gather || (!x.allFrozen (e.1.first / 262144) && (match x.form (e.1.first / 262144) with | some f => f == r | none => true))) &&
      ((List.range e.1.elems).map (e.1.first + ·)).all (fun k => x.whole (cellKind 0 e.1.dist r) k e.1.needs))).map (fun r => (e.2, e.1, r)))

/-- A combined range goes to its destinations and to the distribute phase; without RESULT its staging is free. -/
def State.makePay (s : State) (p d n i : Nat) (e : PlanEnt) (rerun : Bool) : State :=
  match s.stream p d n with
  | none => s
  | some x =>
    let k := cellKind 0 e.dist rerun
    let ks := (List.range e.elems).map (e.first + ·)
    let vs := ks.map (fun j => (j, x.sum k j))
    let locals := if e.dist then [] else x.entries.filter (fun f => !f.ctrl && f.dist && f.loc)
    let s1 := s.setStream p d n (fun z =>
      (vs.filter (fun v => locals.any (fun f => f.holds v.1))).foldl (fun z v => z.add (cellKind 0 true rerun) v.1 ownSource v.2)
        (z.mark i (madeForm rerun)))
    let s2 := e.dsts.foldl (fun s t => s.sendRed p d n k e.first (vs.flatMap (fun v => leBytes 8 v.2)) t) s1
    if e.result then s2
    else s2.setStream p d n (fun z => { z with cells := z.cells.filter (fun c => !(c.kind == k && e.holds c.elem)) })

/-- A range with RESULT whose form is decided and that is not yet written. -/
def Stream.writeNext (x : Stream) : Option (Nat × PlanEnt × Bool) :=
  (x.entries.zipIdx.filter (fun e => !e.1.ctrl && e.1.result)).findSome? (fun e =>
    (if x.gather then some false else x.form (e.1.first / 262144)).bind (fun r =>
      if x.isMade e.2 (madeForm r) ∧ !x.isMade e.2 (madeWritten + madeForm r) then some (e.2, e.1, r) else none))

/-- Where result element `i` of a stream lies, and its bytes (R315, R359). -/
def State.resultAddr (s : State) (p : Nat) (x : Stream) (i : Nat) : Nat :=
  if x.gather then x.landing + 8 * i
  else
    let lr := s.valueAt (partCtx p) x.lrState 64
    match x.mode with
    | 0 => le x.block 48 8 + (if x.outPair then 8 else 4) * (i - le x.block 56 4)
    | 1 => le lr 16 8 + 4 * i
    | _ => le lr 40 8 + 4 * i

/-- A combined range is written (R315); overflows are counted. -/
def State.writeResult (s : State) (p d n i : Nat) (e : PlanEnt) (rerun : Bool) : State :=
  match s.stream p d n, s.draft d, s.node d n with
  | some x, some dr, some nd =>
    let k := cellKind 0 e.dist rerun
    let ks := (List.range e.elems).map (e.first + ·)
    let w := if x.gather ∨ x.outPair then 8 else 4
    let value (j : Nat) : Nat × Bool :=
      if x.gather then (x.sum k j, false)
      else match (x.bolt (x.boltOf j)).bind (·.ctl) with
        | some c => gridValue x.outPair (if x.mode = 0 then ovfOf (bitAt (le x.block 8 1) 1) else .saturate)
            (toSigned 64 (x.sum k j)) (s.xFinal p x c (j / 262144))
        | none => (0, false)
    let vs := ks.map value
    let r := s.put (nodeCtx dr nd) (.node d n) (s.resultAddr p x e.first) (vs.flatMap (fun v => leBytes w v.1))
    match r.2 with
    | some st => r.1.failStream p d n st
    | none => (r.1.count p 0 (vs.filter (·.2)).length).setStream p d n (fun z => { z.mark i (madeWritten + madeForm rerun) with
        cells := z.cells.filter (fun c => !(c.kind == k && e.holds c.elem)) })
  | _, _, _ => s

/-- A packet this module sent has not been acknowledged by the next module: it waits, is unacknowledged on a link, or is to be sent again (R272, R292). -/
def State.unacked (s : State) (q : Packet) : Bool :=
  s.fabric.queue.contains (0, q) || s.fabric.redRetry.contains q || (List.range 96).any (fun l => (s.link l).replay.any (fun f => f.pkt == some (0, q)))

/-- A bolt of which no payload sent is unacknowledged. -/
def State.boltAcked (s : State) (x : Stream) (b : Nat) : Bool :=
  (x.sent.filter (fun q => q.ty == 0x10 && x.boltOf (q.offset % 2 ^ 32) == b)).all (fun q => !s.unacked q)

/-- A bolt is DONE (R304) once this and `boltAcked` hold: decided, and every entry of its moving granules is sent, and written where RESULT is set, in
its final form. -/
def Stream.boltDone (x : Stream) (b : Nat) : Bool :=
  match (x.bolt b).bind (·.ctl) with
  | none => false
  | some c => (x.entries.zipIdx).all (fun e =>
      let g := e.1.first / 262144
      let r := c.reruns (g % 2 ^ x.size)
      e.1.ctrl || x.boltOf e.1.first != b || c.still (g % 2 ^ x.size) ||
      (x.isMade e.2 (madeForm r) && (!e.1.result || x.isMade e.2 (madeWritten + madeForm r))))

def State.doneNext (s : State) (x : Stream) : Option Nat :=
  (x.bolts.find? (fun y => (y.st == 2 || y.st == 3) && x.boltDone y.index && s.boltAcked x y.index)).map (·.index)

/-- What the engine does next for a stream, if anything. -/
def State.redNext (s : State) (p d n : Nat) : Option State :=
  match s.stream p d n with
  | none => none
  | some x =>
    if x.status.isSome then none
    else match x.slotNext, x.ctrlNext, x.payNext, x.writeNext, s.doneNext x with
      | some b, _, _, _, _ => if x.gather then (match x.payNext, x.writeNext with
          | some (i, e, r), _ => some (s.makePay p d n i e r)
          | none, some (i, e, r) => some (s.writeResult p d n i e r)
          | none, none => none)
        else some ((s.setStream p d n (fun z => { z with bolts := z.bolts ++ [b] })).setBolt p d n b.index id)
      | none, some (i, e, b), _, _, _ => some (s.makeCtrl p d n i e b)
      | none, none, some (i, e, r), _, _ => some (s.makePay p d n i e r)
      | none, none, none, some (i, e, r), _ => some (s.writeResult p d n i e r)
      | none, none, none, none, some b => some (s.setBolt p d n b (fun y => { y with st := 4 }))
      | none, none, none, none, none => none

def State.redRun (s : State) (p d n : Nat) : Nat → State
  | 0 => s
  | fuel + 1 => match s.redNext p d n with
    | none => s
    | some s' => s'.redRun p d n fuel

/-- Credits kept back return once the staging has room (R293). -/
def State.releaseOwed (s : State) : State :=
  if s.stagingFull then s
  else s.fabric.owed.foldl (fun s o => s.idleFlit o.1 o.2.1 o.2.2) (s.fabricCount (fun f => { f with owed := [] }))

/-- Everything the engine can do for a stream now. -/
def State.redSettle (s : State) (p d n : Nat) : State :=
  match s.stream p d n with
  | some x => (s.redRun p d n (8 * x.plan.length + (4 + 2 * x.plan.length) * x.bolts' + 8)).releaseOwed
  | none => s

/-- Every stream goes on as far as it can: acknowledgements have come. -/
def State.settleStreams (s : State) : State :=
  s.parts.foldl (fun s p => p.2.streams.foldl (fun s x => s.redSettle p.1 x.draft x.node) s) s

-- ## Emission (R302)

/-- One element is emitted into the stream of an id; none where the emission stalls. -/
def State.boltEmit (s : State) (p id e v : Nat) : Option State :=
  match (s.part p).streams.find? (fun x => !x.gather && x.id == id) with
  | none => none
  | some x =>
    let d := x.draft
    let n := x.node
    let late := s.setStream p d n (fun z => { z with late := z.late + 1 })
    if x.elements ≤ e then some s
    else if x.status.isSome then some late
    else match x.bolt (x.boltOf e) with
      | none => none
      | some b =>
        if b.st ≠ 1 then some late
        else if !s.rangeOpen (x.word b e) 4 then none
        else if b.emitted.contains e then some (s.setStream p d n (fun z => { z with duplicate := z.duplicate + 1 }))
        else
          let r := s.put (partCtx p) .outside (x.word b e) (leBytes 4 v)
          match r.2 with
          | some st => some (r.1.failStream p d n st)
          | none => some (r.1.setBolt p d n b.index (fun y => { y with emitted := y.emitted ++ [e] }))

/-- BOLT_EMIT: an emission by a loom of the partition. -/
def boltEmitNow (s : State) (p id e v loom : Nat) : State :=
  if p < 16 ∧ (s.clusters p).contains (loom / 8) then (s.boltEmit p id e (v % 2 ^ 32)).getD s else s

/-- Partitions with a bolt that may be launched. -/
def State.launchWaits (s : State) : List Nat :=
  (s.parts.filter (fun p => p.2.streams.any (fun x => !x.gather && x.status.isNone && x.bolts.any (fun b => x.ready b.index)))).map (·.1)

/-- BOLT_LAUNCH: a bolt that may be launched is, in its partition's turn at the reduction engine (R213, R303). -/
def boltLaunchNow (s : State) (p id b : Nat) : State :=
  match (s.part p).streams.find? (fun x => !x.gather && x.id == id) with
  | some x =>
    if x.status.isNone ∧ x.ready b ∧ s.hasTurn 1 p s.launchWaits then ((s.serve 1 p).launch p x.draft x.node b).redSettle p x.draft x.node else s
  | none => s

-- ## Installation (R301, R306, R307, R329)

/-- Size of a stream at its dispatch: the pin, the temple's of its slot, or SIZE_INIT. -/
def State.boltSize (s : State) (d : Draft) (b : List Byte) : Nat :=
  let lo := field (le b 38 1) 0 4
  let hi := field (le b 38 1) 4 4
  if s.bit (.tmpBolt d.part) 0 then clampTo lo hi (min 6 (s.fld (.tmpBolt d.part) 1 3))
  else match d.slot.bind (fun k => (tget {} (s.part d.part).slots k).bolts.find? (fun x => x.1 == le b 0 4)) with
    | some x => clampTo lo hi x.2.size
    | none => le b 39 1

/-- A block of KIND_ARGS: its address aligned and its length as the kind has it. -/
def State.nodeBlock (s : State) (c : Ctx) (n : Node) (len : Nat) : Except Missed (List Byte) :=
  if n.arg 104 8 % 64 ≠ 0 ∨ n.arg 112 4 ≠ len then .error badContents else s.need c (n.arg 104 8) len

/-- A REDUCE node is dispatched: its stream is installed, or the node ends. -/
def State.installReduce (s : State) (dr : Draft) (n : Nat) (nd : Node) : State :=
  let c := nodeCtx dr nd
  match s.nodeBlock c nd 128 with
  | .error e => (s.missed c e).endNode dr.id n e.1
  | .ok b =>
    match s.checkReduce dr c b with
    | .error e => (s.missed c e).endNode dr.id n e.1
    | .ok (plan, mask) =>
      let x := s.part dr.part
      let st : Stream := { draft := dr.id, node := n, block := b, plan := plan, size := s.boltSize dr b, pick := x.job.pick
                           attempt := x.job.attempt, mask := mask
                           lastDone := match dr.nodes[le b 36 2]? with | some m => m.isDone | none => false }
      (s.setPart dr.part { x with streams := x.streams ++ [st] }).redSettle dr.part dr.id n

-- ## GATHER (R359 to R361)

/-- A GATHER node's landing and its consumer's descriptor: BASE is replaced. -/
def State.rebindConsumer (s : State) (d : Nat) (b : List Byte) (landing : Nat) : State :=
  if le b 3 1 = 3 then s else s.setNode d (le b 4 2) (fun m => m.rebind (le b 3 1) landing)

/-- A GATHER node is dispatched: found in the pool, or its collective is installed and its own elements contributed. -/
def State.installGather (s : State) (dr : Draft) (n : Nat) (nd : Node) : State :=
  let c := nodeCtx dr nd
  let p := dr.part
  match s.nodeBlock c nd 64 with
  | .error e => (s.missed c e).endNode dr.id n e.1
  | .ok b =>
    let elements := le b 12 4
    let key := le b 6 4
    let inUse := (s.part p).streams.any (fun y => y.collective == field (le b 0 2) 0 12)
    if !gatherForm dr.nodes.length b ∨ inUse then s.endNode dr.id n stInvalid
    else match s.readPlan c (le b 16 8) (le b 24 4) with
      | .error e => (s.missed c e).endNode dr.id n e.1
      | .ok plan =>
        let es := plan.map planEnt
        let mine := es.filter (·.loc)
        if !gatherPlanOk elements es ∨ mine.any (fun e => decide (e.first < le b 28 4)) then s.endNode dr.id n stInvalid
        else match (if bitAt (le b 2 1) 1 then (s.pents p).find? (fun e => e.2.cls == 2 && e.2.key == key) else none) with
          | some e => ((s.rebindConsumer dr.id b (s.pentAddr p e.1)).endNode dr.id n stOK)
          | none =>
            let r := if bitAt (le b 2 1) 0 then s.alloc p 2 key (ceilDiv (8 * elements) 65536) 0 else (s, none)
            let s1 := r.1
            let landing := match r.2 with | some e => s1.pentAddr p e | none => le b 40 8
            let src (e : PlanEnt) : Nat := le b 32 8 + 8 * (e.first - le b 28 4)
            if r.2.isNone ∧ !s1.ownHbm c p landing (8 * elements) 8 then s1.endNode dr.id n stInvalid
            else match mine.findSome? (fun e => (s1.readErr c (src e) (8 * e.elems)).map (fun st => (st, src e, 8 * e.elems))) with
              | some e => (s1.missed c e).endNode dr.id n e.1
              | none =>
                let x := s1.part p
                let cells : List Cell := mine.flatMap (fun e => (List.range e.elems).map (fun i =>
                  { kind := cellKind 0 true false, elem := e.first + i, sum := le (s1.valueAt c (src e + 8 * i) 8) 0 8, srcs := [ownSource] }))
                let st : Stream := { draft := dr.id, node := n, gather := true, block := b, plan := plan, pick := x.job.pick
                                     attempt := x.job.attempt, landing := landing, cells := cells }
                ((mine.foldl (fun s e => s.pass c (src e) (8 * e.elems) false) s1).setPart p { x with streams := x.streams ++ [st] }).redSettle p dr.id n

-- ## Arrival of RED packets (R291, R292)

/-- PART a TYPE carries. -/
def redPart (ty : Nat) : Nat := if ty = 0x10 then 0 else if ty = 0x12 then 1 else 2

/-- Streams a packet may belong to: installed under its collective number, one whose plan names its source first. -/
def State.redStream (s : State) (coll src : Nat) : Option (Nat × Stream) :=
  let all := s.parts.flatMap (fun p => (p.2.streams.filter (fun x => x.collective == coll)).map (fun x => (p.1, x)))
  match all.find? (fun x => x.2.entries.any (fun e => e.srcs.contains src)) with
  | some x => some x
  | none => all.head?

/-- What becomes of one element or line of a packet. -/
inductive Fate where
  | take (kind elem value : Nat)
  | refuse
  | dup
  | drop

/-- The fate of payload element `i`; `base` is the first element of its line, whose entry the line belongs to. -/
def Stream.fate (x : Stream) (src : Nat) (dist rerun : Bool) (base i v : Nat) : Fate :=
  match x.entries.zipIdx.find? (fun e => e.1.holds base && e.1.dist == dist) with
  | none => .refuse
  | some e =>
    let kind := cellKind 0 dist rerun
    let g := base / 262144
    if !e.1.srcs.contains src then .refuse
    else if !e.1.holds i ∨ (!x.gather ∧ x.allFrozen g) then .drop
    else if x.isMade e.2 (madeForm rerun) ∨ x.hasSrc kind i src then .dup
    else match (if x.gather then none else (x.bolt (g / 2 ^ x.size)).bind (·.ctl)) with
      | some c => if c.still (g % 2 ^ x.size) ∨ c.reruns (g % 2 ^ x.size) ≠ rerun then .drop else .take kind i v
      | none => .take kind i v

/-- The fate of a control line. -/
def Stream.ctrlFate (x : Stream) (src part : Nat) (dist : Bool) (b v : Nat) : Fate :=
  match x.entries.zipIdx.find? (fun e => e.1.ctrl && e.1.dist == dist) with
  | none => .refuse
  | some e =>
    let kind := cellKind part dist false
    if !e.1.srcs.contains src ∨ x.bolts' ≤ b then .refuse
    else if x.isMade e.2 (madeCtrl b) ∨ x.hasSrc kind b src then .dup
    else .take kind b v

/-- Elements that one fate stands for: a payload element, or a whole control line (R280, R310). -/
def lineElems (ty : Nat) : Nat := if ty = 0x10 then 1 else if ty = 0x12 then 8 else 64

/-- The fates of what a packet carries: of each payload element, or of each control line. -/
def Stream.fates (x : Stream) (q : Packet) : List Fate :=
  let id := q.offset / 2 ^ 32
  let part := field id 12 2
  let dist := bitAt id 14
  let first := q.offset % 2 ^ 32
  if part ≠ redPart q.ty then List.replicate (if q.ty = 0x10 then 8 * q.len else q.len) .refuse
  else if part = 0 then (List.range (8 * q.len)).map (fun j => x.fate q.src dist (bitAt id 15) (first + j / 8 * 8) (first + j) (le q.data (8 * j) 8))
  else (List.range q.len).map (fun j => x.ctrlFate q.src part dist (first / lineElems q.ty + j) (le q.data (64 * j) 64))

/-- A RED packet of this module's (R291, R292): one of a collective that is not installed draws NACK RETRY. Every contribution to an element
that is discarded is counted (log 185). -/
def State.redArrive (s : State) (q : Packet) : State :=
  match s.redStream (field (q.offset / 2 ^ 32) 0 12) q.src with
  | none => (s.post (s.nackOf q 1)).fabricCount (fun f => { f with nackSent := satInc 64 f.nackSent 1 })
  | some (p, x) =>
    if x.tag ≠ q.tag then s.fabricCount (fun f => { f with redStale := satInc 64 f.redStale 1 })
    else
      let fs := x.fates q
      let refused := fs.countP (fun f => match f with | .refuse => true | _ => false)
      let dups := fs.countP (fun f => match f with | .dup => true | _ => false)
      let s1 := s.setStream p x.draft x.node (fun z => fs.foldl (fun z f => match f with
        | .take k i v => z.add k i q.src v
        | _ => z) z)
      (s1.fabricCount (fun f => { f with
        redRefused := satInc 64 f.redRefused (lineElems q.ty * refused), dupDrops := satInc 64 f.dupDrops (lineElems q.ty * dups) })).redSettle p x.draft x.node

/-- NACK RETRY of a RED packet: what was sent to that module in that window is sent again after the wait (R292). -/
def State.redNacked (s : State) (q : Packet) : State :=
  let again := (s.parts.flatMap (fun p => p.2.streams)).flatMap (fun x =>
    x.sent.filter (fun y => y.dst == q.src && y.tag == q.tag && y.offset / 256 == q.offset / 256))
  s.fabricCount (fun f => { f with redRetry := f.redRetry ++ again.filter (fun y => !f.redRetry.contains y) })

/-- RED_RETRY_TIMER: what waits is sent again; packets of streams that are gone are not (R292). -/
def redRetry (s : State) : State :=
  let live := (s.parts.flatMap (fun p => p.2.streams)).flatMap (·.sent)
  let ps := s.fabric.redRetry.filter (fun y => live.contains y)
  ps.foldl (fun s y => s.sendOn 0 y) (s.fabricCount (fun f => { f with redRetry := [] }))

-- ## Completion (R328, R331)

/-- Every bolt is DONE, and P̂ is written. -/
def Stream.finished (x : Stream) : Bool :=
  if x.gather then x.entries.zipIdx.all (fun e => x.isMade e.2 (madeForm false) && (!e.1.result || x.isMade e.2 (madeWritten + madeForm false)))
  else (List.range x.bolts').all (fun b => match x.bolt b with | some y => y.st == 4 | none => false) && (x.mode != 1 || x.orthoDone)

/-- NODE_COMPLETE of a REDUCE node whose stream is finished. TAIL is a free value where LAST_NODE has completed (log 32). -/
def State.completeReduce (s : State) (d n : Nat) (nd : Node) (x : Stream) (p : Nat) : State :=
  if !x.finished ∨ nd.acks ≠ 0 then s
  else
    let t := if x.lastDone then s.draw else (0, s)
    let x1 := { x with tail := t.1 }
    let st := if x.mismatch then stInvalid else if x.poisoned then stSkippedNonfinite
      else if x.replaced ≠ 0 then stDegenerate else stOK
    let s1 := t.2.setStream p d n (fun z => { z with tail := t.1, status := some st })
    match s1.draft d with
    | none => s1
    | some dr =>
      let r := s1.put (nodeCtx dr nd) (.node d n) x.statusAddr (x1.record s.moduleNum)
      r.1.endNode d n (match r.2 with | some e => e | none => st)

/-- NODE_COMPLETE of a GATHER node: the consumer's descriptor names the landing. -/
def State.completeGather (s : State) (d n : Nat) (nd : Node) (x : Stream) (p : Nat) : State :=
  if !x.finished ∨ nd.acks ≠ 0 then s
  else
    let z := s.part p
    let s1 := s.setPart p { z with streams := z.streams.filter (fun y => !(y.draft == d && y.node == n)) }
    (s1.rebindConsumer d x.block x.landing).endNode d n stOK

-- ## Orthonormalisation (R321 to R323)

/-- A matrix of FP32 words by rows. -/
abbrev Mat := List (List Nat)
def Mat.get (a : Mat) (i j : Nat) : Nat := (a.getD i []).getD j 0
def matOf (rows cols : Nat) (f : Nat → Nat → Nat) : Mat := (List.range rows).map (fun i => (List.range cols).map (f i))

/-- The context of the microcode's array products: fast mode, nearest even; overflow saturates (log 33). -/
def orthoCtx : FCtx := ⟨false, 0, .saturate⟩

/-- One array product: BF16x2 operands, groups of 32 in index order, FP32x2 accumulation from the first group's result, rounded once to
FP32. -/
def pairDot (xs ys : List Nat) : Nat :=
  let pair (w : Nat) : Nat := (pairOfVal bf16F .saturate (fp32F.decode w)).1
  let terms := (xs.map pair).zip (ys.map pair)
  let groups := (List.range (ceilDiv terms.length 32)).map (fun g =>
    (blockResultPair orthoCtx false 0 (blockSum (((terms.drop (32 * g)).take 32).flatMap (fun t => products 3 false t.1 t.2)))).1)
  let acc := match groups with
    | [] => 0
    | g :: r => r.foldl (fun a b => (dwAdd orthoCtx a b).1) g
  (fp32F.ofVal orthoCtx (elemVal 4 false acc)).bits

def neg32 (w : Nat) : Nat := w ^^^ 2 ^ 31
def sAdd (a b : Nat) : Nat := (fp32F.add strictRne a b).bits
def sMul (a b : Nat) : Nat := (fp32F.mul strictRne a b).bits
def sFma (a b c : Nat) : Nat := (fp32F.fma strictRne a b c).bits
def sRcp (a : Nat) : Nat := (fp32F.rcp strictRne a).bits
def sRsqrt (a : Nat) : Nat := (fp32F.rsqrt strictRne a).bits
/-- An unsigned integer as FP32. -/
def f32OfNat (n : Nat) : Nat := (fp32F.ofVal strictRne (.fin false n 0)).bits
/-- a > b as IEEE compares. -/
def fGt (a b : Nat) : Bool :=
  match fp32F.decode a, fp32F.decode b with
  | .nan .., _ => false
  | _, .nan .. => false
  | _, _ => decide (ordKey b < ordKey a) && !(a % 2 ^ 31 == 0 && b % 2 ^ 31 == 0)

/-- A strict FP32 value with the IEEE flags raised on the way to it (R138, R375). -/
abbrev FV := Nat × Nat
def vAdd (a b : FV) : FV := let r := fp32F.add strictRne a.1 b.1; (r.bits, a.2 ||| b.2 ||| r.flags)
def vMul (a b : FV) : FV := let r := fp32F.mul strictRne a.1 b.1; (r.bits, a.2 ||| b.2 ||| r.flags)
def vFma (a b c : FV) : FV := let r := fp32F.fma strictRne a.1 b.1 c.1; (r.bits, a.2 ||| b.2 ||| c.2 ||| r.flags)
def vRcp (a : FV) : FV := let r := fp32F.rcp strictRne a.1; (r.bits, a.2 ||| r.flags)
def vRsqrt (a : FV) : FV := let r := fp32F.rsqrt strictRne a.1; (r.bits, a.2 ||| r.flags)
def vNeg (a : FV) : FV := (neg32 a.1, a.2)

/-- Cholesky columns: L so far by columns, and the dead columns, for a pivot threshold `lim` (R321, R395). -/
def cholesky (n : Nat) (a : Nat → Nat → FV) (lim : Nat) : List (List FV) × List Nat :=
  (List.range n).foldl (fun (acc : List (List FV) × List Nat) j =>
    let l (i k : Nat) : FV := (acc.1.getD k []).getD i (0, 0)
    let d := (List.range j).foldl (fun d k => vFma (vNeg (l j k)) (l j k) d) (a j j)
    if !fGt d.1 lim then (acc.1 ++ [List.replicate n (0, 0)], acc.2 ++ [j])
    else
      let r := vRsqrt d
      let col := (List.range n).map (fun i =>
        if i < j then (0, 0) else if i = j then vMul d r
        else vMul ((List.range j).foldl (fun x k => vFma (vNeg (l i k)) (l j k) x) (a i j)) r)
      (acc.1 ++ [col], acc.2)) ([], [])

/-- Column `c` of the inverse of transpose(L) on the live columns, from the bottom (the order of each element's operations is read from
R321 by inference: log 34). -/
def backColumn (l : List (List FV)) (dead : List Nat) (n c : Nat) : List FV :=
  let ent (k i : Nat) : FV := (l.getD i []).getD k (0, 0)
  if dead.contains c then List.replicate n (0, 0)
  else
    ((List.range (c + 1)).reverse).foldl (fun (x : List FV) i =>
      if dead.contains i then x
      else
        let rhs : FV := if i = c then (0x3F800000, 0) else (0, 0)
        let v := ((List.range (c + 1)).filter (fun k => decide (i < k))).foldl (fun a k => vFma (vNeg (ent k i)) (x.getD k (0, 0)) a) rhs
        x.set i (vMul v (vRcp (ent i i)))) (List.replicate n (0, 0))

/-- U, the inverse of transpose(L), by columns. -/
def invUpper (l : List (List FV)) (dead : List Nat) (n : Nat) : List (List FV) := (List.range n).map (backColumn l dead n)

/-- The replacement column of round `k` (R323), element `i`, as FP32. -/
def replacement (pick layer k j i : Nat) : Nat :=
  let m := 2 ^ 64
  let seed := (pick * 2 ^ 24 + layer * 2 ^ 8 + 64 * k + j) % m
  let z0 := (seed + (i + 1) * 0x9E3779B97F4A7C15) % m
  let z1 := ((z0 ^^^ (z0 / 2 ^ 30)) * 0xBF58476D1CE4E5B9) % m
  let z2 := ((z1 ^^^ (z1 / 2 ^ 27)) * 0x94D049BB133111EB) % m
  let z3 := z2 ^^^ (z2 / 2 ^ 31)
  let v : Int := (z3 / 2 ^ 40 : Nat) - (2 ^ 23 : Nat)
  (fp32F.ofVal strictRne (.fin (decide (v < 0)) v.natAbs (-23))).bits

/-- One round on a working copy of P: P̂ so far, DEAD, and t. -/
def orthoRound (m r : Nat) (p : Mat) : Mat × List Nat × Nat :=
  let col (j : Nat) : List Nat := (List.range m).map (fun i => Mat.get p i j)
  let a := matOf r r (fun i j => pairDot (col i) (col j))
  let t := (List.range r).foldl (fun (t : Option Nat) j => match t with | none => some (Mat.get a j j) | some x => some (sAdd x (Mat.get a j j))) none |>.getD 0
  let l := cholesky r (fun i j => (Mat.get a i j, 0)) (sMul 0x35800000 t)
  let u := invUpper l.1 l.2 r
  (matOf m r (fun i j => pairDot (p.getD i []) ((u.getD j []).map (·.1))), l.2, t)

/-- Rounds 0 to 2: P̂, the last round run, and the columns replaced. -/
def orthoRounds (m r pick layer : Nat) (p : Mat) (replaced : Nat) : Nat → Nat → Mat × Nat × Nat
  | 0, k => ((orthoRound m r p).1, k, replaced)
  | fuel + 1, k =>
    let o := orthoRound m r p
    if o.2.1.isEmpty then (o.1, k, replaced)
    else
      let t' := if fGt o.2.2 0 && fGt 0x7F800000 o.2.2 then o.2.2 else 0x3F800000
      let v := sMul (sMul 0x40400000 t') (sRcp (f32OfNat (r * m)))
      let sigma := sMul v (sRsqrt v)
      let p' := matOf m r (fun i j => if o.2.1.contains j then sMul sigma (replacement pick layer (k + 1) j i) else Mat.get p i j)
      orthoRounds m r pick layer p' (replaced + o.2.1.length) fuel (k + 1)

/-- Logical loom of the orthonormalisation (R306). -/
def Stream.orthoLoom (x : Stream) : Nat := le x.block 62 2

/-- A LOWRANK_P stream whose PSUM is complete and whose P̂ is not (R321). -/
def Stream.orthoWaits (x : Stream) : Bool :=
  !x.gather && x.mode == 1 && !x.orthoDone && x.status.isNone &&
  (List.range x.bolts').all (fun b => match x.bolt b with | some y => y.st == 4 | none => false)

/-- P̂ of a LOWRANK_P stream whose PSUM is complete, on ORTHO_LOOM when it is free. -/
def orthoNow (s : State) (p id : Nat) : State :=
  match (s.part p).streams.find? (fun x => !x.gather && x.id == id) with
  | none => s
  | some x =>
    if !x.orthoWaits ∨ (s.loom (s.physLoom p x.orthoLoom)).node.isSome then s
    else match s.draft x.draft, s.node x.draft x.node with
      | some dr, some nd =>
        let c := nodeCtx dr nd
        match s.need c x.lrState 64 with
        | .error e => (s.missed c e).failStream p x.draft x.node e.1
        | .ok lr =>
          let m := le lr 0 4
          let r := le lr 8 1
          match s.need c (le lr 16 8) (4 * m * r) with
          | .error e => (s.missed c e).failStream p x.draft x.node e.1
          | .ok bs =>
            let o := orthoRounds m r x.pick (le x.block 60 2) (matOf m r (fun i j => le bs (4 * (r * i + j)) 4)) 0 2 0
            let w := s.put c (.node x.draft x.node) (le lr 24 8) (o.1.flatMap (fun row => row.flatMap (leBytes 4)))
            match w.2 with
            | some st => w.1.failStream p x.draft x.node st
            | none => w.1.setStream p x.draft x.node (fun z => { z with orthoDone := true, rounds := o.2.1, replaced := o.2.2 })
      | _, _ => s

-- ## The bolt-size temple (R329, R330)

/-- BOLT_SIZE_TEMPLE_UPDATE: the end of an interval for one stream of a slot. -/
def boltTemple (s : State) (p k id : Nat) : State :=
  let z := s.part p
  let y := tget {} z.slots k
  match y.bolts.find? (fun b => b.1 == id) with
  | none => s
  | some (_, b) =>
    let hi := 1024 * s.fld (.tmpBoltTail p) 0 16
    let lo := 1024 * min (s.fld (.tmpBoltTail p) 0 16) (s.fld (.tmpBoltTail p) 16 16)
    let size' := if s.bit (.tmpBolt p) 0 then clampTo b.lo b.hi (min 6 (s.fld (.tmpBolt p) 1 3))
      else if hi * b.count < b.sum ∧ b.lo < b.size then b.size - 1
      else if b.sum < lo * b.count ∧ b.size < b.hi then b.size + 1
      else b.size
    if b.picks < max 1 (s.fld (.tmpBolt p) 8 8) then s
    else s.setPart p { z with slots := tset {} z.slots k { y with
      bolts := (id, { b with size := size', sum := 0, count := 0, picks := 0 }) :: y.bolts.filter (fun b => b.1 != id) } }

-- ## Commands

/-- BOLT_SIZE_TEMPLE_UPDATE (R329). -/
def execBoltSizeTempleUpdate (p slot stream : Nat) (s : State) : Host.Outcome State Fault Refusal := finish (boltTemple s p slot stream)
/-- RED_RETRY_TIMER (R292). -/
def execRedRetryTimer (s : State) : Host.Outcome State Fault Refusal := finish (redRetry s)

end Sys2Proof.Machine
end

