-- ==== Sys2Proof/Machine/Loom.lean ====
section
/-!
DEFINITION. Machine/Loom.lean: the looms at work: array rows in their four modes (R76 to R84, R117 to R128, R136, R145 to R150, R162 to
R175), warp loads, images and their switches (R91, R95, R96), swaps (R97 to R100), and the output path (R86, R151 to R157, R541).
-/

namespace Sys2Proof.Machine

-- ## What a loom works on

/-- The node a loom runs, with its draft and the active image. -/
structure Work where
  d : Nat
  n : Nat
  draft : Draft
  node : Node
  img : Img

/-- The resident image of an id (R95). -/
def Loom.imageOf (x : Loom) (id : Nat) : Option Img := (x.images.find? (fun y => Img.id y.2 == id)).map (fun y => (y.2 : Img))

/-- The active image is the one of an id. -/
def Loom.isActive (x : Loom) (id : Nat) : Bool := x.image.map Img.id == some id

/-- The node dispatched on a loom, with its resident image. -/
def State.holding (s : State) (l : Nat) : Option Work :=
  match (s.loom l).node with
  | none => none
  | some (d, n) => match s.draft d, s.node d n with
    | some dr, some nd => if nd.kind ≤ 2 then ((s.loom l).imageOf nd.image).map (fun i => ⟨d, n, dr, nd, i⟩) else none
    | _, _ => none

/-- Array steps of a node: operand rows, or row pairs in the output-stationary mode (R165). -/
def Img.arraySteps (i : Img) : Nat :=
  match i.mode, i.gen 0 with
  | 0, some g => g.steps
  | 1, some g => g.steps
  | 2, some g => g.steps / 2
  | _, _ => 0

/-- Generators whose rows the output path reads, in table order: input streams 0x40 on (R86). -/
def Img.reads (i : Img) : List Gen := i.gens.filter (fun g => g.port == 2 || g.port == 4 || g.port == 6 || (g.port == 0 && i.mode == 3))

/-- Rows the output path processes (R151). -/
def Img.outRows (i : Img) : Nat :=
  if !i.epilogue then 0
  else match i.reads with
    | [] => 0
    | g :: r => r.foldl (fun n h => min n h.steps) g.steps

/-- The loom has entered every array row and sent every output row. -/
def Loom.finished (x : Loom) (i : Img) : Bool := decide (i.arraySteps ≤ x.run.step ∧ i.outRows ≤ x.run.out)

/-- The port-2 address of output row `n`. -/
def Img.outAddr (i : Img) (n : Nat) : Option Int := (i.gen 2).map (fun g => g.addr n)

/-- Every tile of an output-stationary node was skipped and nothing of it is emitted: its image need not become the active one (R174). -/
def Loom.allSkipped (x : Loom) (i : Img) : Bool :=
  i.mode == 2 && !x.run.entered && decide (i.arraySteps ≤ x.run.step) &&
  (List.range i.outRows).all (fun n => match i.outAddr n with | some a => x.run.withheld.contains a.toNat | none => false)

/-- The work of a loom whose node runs under its own image, in a partition whose work moves and a cluster whose clock runs (R52, R104). -/
def State.work (s : State) (l : Nat) : Option Work :=
  match s.holding l with
  | some w =>
    if w.node.st = .running ∧ w.node.failing.isNone ∧ s.runs w.draft.part ∧ s.clocked l ∧ ((s.loom l).isActive w.img.id ∨ (s.loom l).allSkipped w.img) then some w else none
  | none => none

/-- FEED_ROWS of the swap-table entry in force has been reached (R98). -/
def Loom.swapDue (x : Loom) (i : Img) : Bool := decide (0 < i.swapCount ∧ (i.swap x.run.swapPos).1 ≤ x.run.feedRows)

/-- Whether a loom still has something of its node to do. -/
def State.busyLoom (s : State) (l : Nat) : Bool :=
  match s.work l with
  | some w => !(s.loom l).finished w.img
  | none => false

/-- The part of loom `l` becomes the resident one of its host, once the resident part has nothing left to do (R448). -/
def State.makeResident (s : State) (l : Nat) : Option State :=
  let h := s.hostOf l
  match s.guests.find? (fun g => g.host == h && g.resident), s.guests.find? (fun g => g.retired == l) with
  | none, none => some s
  | none, some g => if s.busyLoom h then none else some (s.exchange g)
  | some r, want =>
    if r.retired = l then some s
    else if s.busyLoom r.retired then none
    else match want with
      | none => some (s.exchange r)
      | some g => some ((s.exchange r).exchange g)

/-- `n` bytes of a loom from a local address. -/
def State.localBytes (s : State) (l a n : Nat) : List Byte := (List.range n).map (fun i => s.rd (s.localKey l (a + i)))

def State.setRun (s : State) (l : Nat) (f : Run → Run) : State := let x := s.loom l; s.setLoom l { x with run := f x.run }

/-- Flags of strict operations enter the draft's byte (R138). -/
def State.addFlags (s : State) (d flags : Nat) : State := if flags = 0 then s else s.setDraft d (fun x => { x with strict := x.strict ||| flags })

-- ## Elements of the array (R117, R121 to R128, R136, R145, R146)

/-- The exact products one pair of raw operand words gives. -/
def Img.exactProducts (i : Img) (fa fb a b : Nat) : List FVal :=
  if fa = 3 then products 3 i.flush a b else [exactMul (elemVal fa i.flush a) (elemVal fb i.flush b)]

/-- A result: bits, IEEE flags, counts. -/
abbrev Elem := Nat × Nat × ArithCount

/-- A block result enters an element: FP32 addition or double-word addition. An exact zero sum is +0, or -0 under rounding toward minus infinity,
whatever the signs of the operands (R127). -/
def Img.accAdd (i : Img) (acc v : Nat) : Nat × ArithCount :=
  if i.acc = 4 then let r := dwAdd i.ctx acc v; (r.1, .ofOvf r.2)
  else
    let r := fp32F.add i.ctx acc v
    (if r.bits % 2 ^ 31 = 0 then fp32F.withSign (i.rm == 3) 0 else r.bits, .ofOvf r.ovf)

/-- Block results added in order to an element; with `clear` the first replaces it. -/
def Img.accBlocks (i : Img) (clear : Bool) (old : Nat) (bs : List (Nat × ArithCount)) : Elem :=
  let add (z : Nat × ArithCount) (b : Nat × ArithCount) : Nat × ArithCount :=
    let r := i.accAdd z.1 b.1
    (r.1, (z.2.plus b.2).plus r.2)
  let r := match clear, bs with
    | true, b :: rest => rest.foldl add b
    | _, _ => bs.foldl add (old, .zero)
  (r.1, 0, r.2)

/-- A binary16 pattern as its exact binary32 equivalent. -/
def widen16 (w : Nat) : Nat := (fp32F.ofVal strictRne (fp16F.decode w)).bits

/-- The strict chain of R136 over pairs of raw words. A starting value that overflows binary16 is counted (R130). -/
def Img.chain (i : Img) (half clear : Bool) (old : Nat) (ws : List (Nat × Nat)) : Elem :=
  let f := if half then fp16F else fp32F
  let start : FRes := if clear then ⟨0, 0, false⟩ else if half then fp16F.ofVal i.ctx (fp32F.decode old) else ⟨old, 0, false⟩
  let r := ws.foldl (fun (z : Nat × Nat) w =>
    let p := f.mul i.ctx w.1 w.2
    let a := f.add i.ctx z.1 p.bits
    (a.bits, z.2 ||| p.flags ||| a.flags)) (start.bits, start.flags)
  (if half then widen16 r.1 else r.1, r.2, .ofOvf start.ovf)

/-- One element after a run of operand pairs in reduction order, with the scale bytes of each block of 32. -/
def Img.element (i : Img) (fa fb : Nat) (clear : Bool) (old : Nat) (ws : List (Nat × Nat)) (scales : List (Nat × Nat)) : Elem :=
  if i.acc = 15 then
    let v := ws.foldl (fun (z : Int) w => z + toSigned 8 w.1 * toSigned 8 w.2) (if clear then 0 else (old : Int))
    (ofSigned 32 v, 0, .zero)
  else if i.strict then i.chain (fa == 2) clear old ws
  else
    let blocks := (List.range (ceilDiv ws.length 32)).map (fun b =>
      let ps := ((ws.drop (32 * b)).take 32).flatMap (fun w => i.exactProducts fa fb w.1 w.2)
      let sc := scales.getD b (127, 127)
      let nan := (fmtMx fa && sc.1 == 255) || (fmtMx fb && sc.2 == 255)
      let sx : Int := (if fmtMx fa then (sc.1 : Int) - 127 else 0) + (if fmtMx fb then (sc.2 : Int) - 127 else 0)
      if i.acc = 4 then blockResultPair i.ctx nan sx (blockSum ps) else blockResult i.ctx nan sx (blockSum ps))
    i.accBlocks clear old blocks

/-- New bytes of a tile row from its old bytes and each column's element. -/
def Img.newRow (i : Img) (old : List Byte) (f : Nat → Nat → Elem) : List Byte × Nat × ArithCount :=
  let es := (List.range 128).map (fun j => f j (le old (i.accBytes * j) i.accBytes))
  (es.flatMap (fun e => leBytes i.accBytes e.1), es.foldl (fun z e => z ||| e.2.1) 0, es.foldl (fun z e => z.plus e.2.2) .zero)

/-- Column `j` of the result of one operand row against the active warp (R76, R80, R162); `k0` is the first reduction row of the half met. -/
def Img.rowElem (i : Img) (x w : List Byte) (k0 : Nat) (clear : Bool) (j old : Nat) : Elem :=
  let n := i.rowElems
  let so := tileElemBytes i.warp
  let ws := (List.range n).map (fun k =>
    (unpackElem i.weft x k, unpackElem i.warp w (if i.mode = 1 then 128 * j + k else (k0 + k) * 128 + j)))
  let scales := (List.range (n / 32)).map (fun b =>
    (le x (n * fmtBits i.weft / 8 + b) 1, le w (so + (if i.mode = 1 then 128 * (j / 32) + 32 * b else (k0 / 32 + b) * 128 + j)) 1))
  i.element i.weft i.warp clear old ws scales

/-- Element (r, j) of an output-stationary tile after a block of row pairs; the scales are those of the block's first token (R166). -/
def Img.tileElem (i : Img) (pairs : List (List Byte × List Byte)) (clear : Bool) (r j old : Nat) : Elem :=
  let ws := pairs.map (fun p => (unpackElem i.warp p.1 r, unpackElem i.weft p.2 j))
  let p0 := pairs.headD ([], [])
  let sa := le p0.1 (128 * fmtBits i.warp / 8 + r / 32) 1
  let sb := le p0.2 (128 * fmtBits i.weft / 8 + j / 32) 1
  i.element i.warp i.weft clear old ws ((List.range (ceilDiv pairs.length 32)).map (fun _ => (sa, sb)))

-- ## The reduction loop of port 3 (R146, R147)

/-- Whether step `n` of the port-3 walk stands at the first and at the last index of REDUCE_LOOP. -/
def Img.reduceEnds (i : Img) (g : Gen) (n : Nat) : Bool × Bool :=
  let k := (g.indices n).getD i.reduceLoop 0
  (k == 0, k + 1 == g.counts.getD i.reduceLoop 1)

/-- Row-ready bits of tile rows. -/
def Run.tileRows (i : Img) (base : Nat) : List Nat := (List.range 128).map (fun r => base + r * i.tileRow)

def State.setReady (s : State) (l : Nat) (rows : List Nat) (ready : Bool) : State :=
  let x := s.loom l
  let rest := x.notReady.filter (fun a => !rows.contains a)
  s.setLoom l { x with notReady := if ready then rest else rest ++ rows }

-- ## The output path (R151 to R157, R541)

/-- Row and first column in TD2 of tile row `n` of a loom, and the number of its tile. -/
def Run.place (r : Run) (td : List Byte) (n : Nat) : Nat × Nat × Nat :=
  let tc := ceilDiv (tdDim td 0) 128
  let t := r.rank + r.looms * (n / 128)
  (128 * (t / tc) + n % 128, 128 * (t % tc), t)

/-- FP32 values of a row of packed elements, each widened exactly, subnormal operands flushed in their own format first (R128, R129, DEDUCED,
log 165); in strict mode a signalling NaN raises invalid (R135). -/
def rowF32 (c : FCtx) (flush : Bool) (fmt : Nat) (bs : List Byte) : RowRes :=
  let g := Machine.gather ((List.range 128).map (fun k =>
    let w := unpackElem fmt bs k
    if fmt = 0 then ⟨fp32F.flush flush w, 0, false⟩
    else fp32F.ofVal c (if fmtMx fmt then mxScaled fmt w (le bs (128 * fmtBits fmt / 8 + k / 32) 1) else elemVal fmt flush w)))
  ⟨g.vals, if c.strict then g.flags else 0, 0⟩

/-- An accumulator row in FP32 (R122, R129). -/
def Img.accF32 (i : Img) (bs : List Byte) : RowRes :=
  if i.acc = 0 then ⟨(List.range 128).map (fun k => le bs (4 * k) 4), 0, 0⟩
  else
    let rs := (List.range 128).map (fun k => fp32F.ofVal i.ctx (elemVal i.acc false (le bs (i.accBytes * k) i.accBytes)))
    let g := Machine.gather rs
    { g with flags := if i.strict then g.flags else 0 }

/-- The format in which the output path reads a port's rows, and their bytes. -/
def Img.readFmt (i : Img) (port : Nat) : Nat := if port = 6 then i.fuseFmt else if port = 0 then i.weft else 0
def Img.readLen (i : Img) (port : Nat) : Nat := if port = 2 then i.tileRow else rowBytes (i.readFmt port) 128

/-- A row's input stream. -/
def State.streamRow (s : State) (l : Nat) (i : Img) (g : Gen) (n : Nat) : RowRes :=
  let bs := s.localBytes l (g.addr n).toNat (i.readLen g.port)
  if g.port = 2 then i.accF32 bs else rowF32 i.ctx i.flush (i.readFmt g.port) bs

/-- The fused operation (R154). -/
def Img.fuse (i : Img) (xs ys : List Nat) : RowRes :=
  let r := Machine.gather ((xs.zip ys).map (fun p =>
    let a := fp32F.flush i.flush p.1
    let b := fp32F.flush i.flush p.2
    if i.fuseOp = 1 then fp32F.add i.ctx a b else fp32F.mul i.ctx a b))
  ⟨r.vals, if i.strict then r.flags else 0, if i.strict then 0 else r.ovf⟩

/-- The FP32 row the output path hands on: conversion, graph, fused operation (steps 1 to 4 of R151). -/
def State.rowResult (s : State) (l : Nat) (i : Img) (n : Nat) : RowRes :=
  let rows := i.reads.map (fun g => (g.port, s.streamRow l i g n))
  let first := ((rows.find? (fun r => r.1 == 2)).map (·.2)).getD ⟨List.replicate 128 0, 0, 0⟩
  let y := if i.graphNodes = 0 then ⟨first.vals, 0, 0⟩ else runGraph i.ctx i.flush i.graph (rows.map (·.2.vals))
  let z := if i.fuseOp = 0 then ⟨y.vals, 0, 0⟩
    else i.fuse y.vals (((rows.find? (fun r => r.1 == 6)).map (·.2.vals)).getD (List.replicate 128 0))
  ⟨z.vals, (rows.foldl (fun f r => f ||| r.2.flags) 0) ||| y.flags ||| z.flags, first.ovf + y.ovf + z.ovf⟩

/-- The elements of a row emitted into its stream, all together; none while the emission stalls (R157, R300, R302). -/
def State.emitRow (s : State) (p : Nat) (i : Img) (pos : Nat × Nat × Nat) (n : Nat) (vals : List Nat) : Option State :=
  match (s.part p).streams.find? (fun x => !x.gather && x.id == i.boltStream) with
  | none => none
  | some x =>
    (vals.zipIdx).foldl (fun acc vj =>
      let col := pos.2.1 + vj.2
      let e := if x.mode = 0 then 16384 * pos.2.2 + 128 * (n % 128) + vj.2 else x.rank * pos.1 + col
      match acc with
      | none => none
      | some s => if x.mode ≠ 0 ∧ x.rank ≤ col then some s else s.boltEmit p i.boltStream e vj.1) (some s)

/-- A converted row: bytes with the scales after the elements, and what the conversion counts and raises (R129 to R131). -/
structure OutRow where
  elems : List Byte
  scales : List Byte
  counts : ArithCount
  flags : Nat

def Img.convertOut (i : Img) (vals : List Nat) : OutRow :=
  let vs := vals.map fp32F.decode
  let r := convertRow i.ctx i.out false none vs
  let f := if i.out = 1 then bf16F else if i.out = 2 then fp16F else fp32F
  ⟨r.elems, r.scales, r.counts, if i.strict ∧ i.out ≤ 2 then (vs.map (FFmt.ofVal f i.ctx)).foldl (fun z x => z ||| x.flags) 0 else 0⟩

/-- A row leaves for the destination of OUT_DEST (R156): a status where it may not. A row whose place lies partly beyond DIM0 is taken as beyond the
extents (DESIGN CHOICE, log 166). -/
def State.writeRow (s : State) (l : Nat) (w : Work) (n : Nat) (o : OutRow) : Try :=
  let i := w.img
  let bytes := o.elems ++ o.scales
  match i.outDest with
  | 0 =>
    (match i.gen 7 with
     | some g =>
       let a := g.addr n
       if portReaches 7 a bytes.length then (s.loomStore l a.toNat bytes, none) else (s, some stInvalid)
     | none => (s, some stInvalid))
  | 1 =>
    let t := s.physLoom w.draft.part i.targetLoom
    let off := (s.loom t).fillBytes
    if off + bytes.length ≤ 0x60000 then (s.extWrite t (fillBase + off) bytes, none) else (s.countRefused t, some stInvalid)
  | 2 =>
    let td := w.node.td 2
    let pos := (s.loom l).run.place td n
    let c := nodeCtx w.draft w.node
    let iss : Issuer := .node w.d w.n
    if tdDim td 1 ≤ pos.1 ∨ tdDim td 0 < pos.2.1 + 128 then (s, some stInvalid)
    else (s.put c iss (tdBase td + pos.1 * tdStride1 td + pos.2.1 * fmtBits i.out / 8) o.elems).andThen (fun s =>
      s.put c iss (tdScaleAddr td pos.1 + pos.2.1 / 32) o.scales)
  | _ => (s, none)

/-- One row of the output path done: the next is at hand. -/
def State.rowOut (s : State) (l : Nat) (w : Work) : State :=
  let read := (w.img.gens.filter (fun g => g.port == 2)).map (fun g => (g.addr (s.loom l).run.out).toNat)
  s.setRun l (fun r => { r with out := r.out + 1, unread := r.unread.filter (fun a => !read.contains a), feedRows := if w.img.mode = 3 ∧ (w.img.gen 0).isSome then r.feedRows + 1 else r.feedRows })

/-- Whether the output path may not read its next row yet: its tile row is not ready (R147), or a row of the FEED half waits for a swap
(R98, R155). -/
def Loom.rowWaits (x : Loom) (i : Img) : Bool :=
  let n := x.run.out
  i.reads.any (fun g => g.port == 2 && x.notReady.contains (g.addr n).toNat) ||
  (i.reads.any (fun g => (g.port == 0 || g.port == 6) && decide ((feedBase : Int) ≤ g.addr n ∧ g.addr n < scratchBase)) &&
    (x.pendingSwap.isSome || (i.mode == 3 && (i.gen 0).isSome && x.swapDue i)))

/-- The first address of row `n` that a port may not reach, or a word that reads uncorrectable there. -/
def State.rowFault (s : State) (l : Nat) (i : Img) (n : Nat) : Option (Option Nat) :=
  (i.reads.findSome? (fun g =>
    let a := g.addr n
    if !(if g.port = 2 then i.tileRowStart a else i.reaches g.port a (i.readLen g.port)) then some none
    else (s.badIn l a.toNat (i.readLen g.port)).map some)).or
  (i.gens.findSome? (fun g => if g.port = 5 ∧ !portReaches 5 (g.addr n) 512 then some none else none))

/-- What a row leaves in the vector scratch through port 5: the manual names the port and its region (R93, R94) and no value, so that the row of 128
FP32 words is a free value (log 77). -/
def State.scratchRow (s : State) (l : Nat) (i : Img) (n : Nat) : State :=
  (i.gens.filter (fun g => g.port == 5)).foldl (fun s g =>
    let v := s.draw
    v.2.loomStore l (g.addr n).toNat (leBytes 512 v.1)) s

/-- The target of a reed send holds what comes to it (R104): the row waits. -/
def State.reedHeld (s : State) (w : Work) : Bool :=
  w.img.outDest == 1 && (s.loomIsland (s.physLoom w.draft.part w.img.targetLoom)).relocking

/-- The controller of a row's place in memory does not serve: the row waits (R235, R238). -/
def State.placeHeld (s : State) (l : Nat) (w : Work) : Bool :=
  let td := w.node.td 2
  let pos := (s.loom l).run.place td (s.loom l).run.out
  w.img.outDest == 2 && tdValid td && !(s.rangeOpen (tdBase td + pos.1 * tdStride1 td) (tdRowBytes td))

/-- One row through the output path; none where it waits. -/
def State.outRow (s : State) (l : Nat) (w : Work) : Option State :=
  let x := s.loom l
  let i := w.img
  let p := w.draft.part
  let n := x.run.out
  if i.outRows ≤ n then none
  else match s.rowFault l i n with
    | some none => some (s.endNode w.d w.n stInvalid)
    | some (some a) => some (s.badWord l a (.node w.d w.n) false)
    | none =>
      if x.rowWaits i ∨ s.reedHeld w ∨ s.placeHeld l w then none
      else if (match i.outAddr n with | some a => x.run.withheld.contains a.toNat | none => false) then some (s.rowOut l w)
      else if i.out = 4 ∨ i.out = 15 then
        let bs := match i.outAddr n with | some a => s.localBytes l a.toNat i.tileRow | none => []
        let r := s.writeRow l w n ⟨bs, [], .zero, 0⟩
        (match r.2 with
         | some st => some (r.1.endNode w.d w.n st)
         | none => some ((r.1.scratchRow l i n).rowOut l w))
      else
        let y := s.rowResult l i n
        let emitted := if i.emits then s.emitRow p i (x.run.place (w.node.td 2) n) n y.vals else some s
        match emitted with
        | none => none
        | some s1 =>
          let o : OutRow := if i.outDest = 3 then ⟨[], [], .zero, 0⟩ else i.convertOut y.vals
          let s2 := (s1.addArith p (o.counts.plus ⟨y.ovf, 0, 0, 0⟩)).addFlags w.d (y.flags ||| o.flags)
          let r := s2.writeRow l w n o
          match r.2 with
          | some st => some (r.1.endNode w.d w.n st)
          | none => some ((r.1.scratchRow l i n).rowOut l w)

/-- Rows leave as long as one is at hand. -/
def State.drain (s : State) (l : Nat) : Nat → State
  | 0 => s
  | fuel + 1 => match s.work l with
    | none => s
    | some w => match s.outRow l w with
      | none => s
      | some s1 => State.drain s1 l fuel

/-- The output path does what it can. -/
def State.drainAll (s : State) (l : Nat) : State :=
  match s.work l with
  | some w => s.drain l (w.img.outRows + 1 - (s.loom l).run.out)
  | none => s

-- ## Array rows

/-- The warp in use for array step `n`: the active one, or the shadow one that becomes active at this row boundary (R77). -/
def Loom.warpFor (x : Loom) (a : Int) : Option Loom :=
  let is (w : Option (Nat × List Byte)) : Bool := match w with | some t => decide ((t.1 : Int) = a) | none => false
  if is x.warp then some x
  else if is x.shadow then some { x with warp := x.shadow, shadow := none, run := { x.run with onWarp := 0 } }
  else none

/-- First reduction row of the half of a 256-deep warp that a 128-element row meets (R121): the rows assigned to the warp form two runs of
equal length. -/
def Img.halfStart (i : Img) (g : Gen) (n onWarp : Nat) : Nat :=
  if i.rowElems = 128 ∧ tileDepth i.warp = 256 then
    let first := n - onWarp
    let total := (((List.range (i.arraySteps - first)).map (fun k => g.addr (first + k))).takeWhile (fun a => a == g.addr n)).length
    if 2 * onWarp < total then 0 else 128
  else 0

/-- The next array step begins new sums in rows whose finished sums the output path has still to read: the array stalls (R102). -/
def Loom.outputStalls (x : Loom) (i : Img) : Bool :=
  match i.gen 3 with
  | some g =>
    let a := (g.addr x.run.step).toNat
    (i.reduceEnds g x.run.step).1 && (if i.mode = 2 then x.run.tile.isNone && (Run.tileRows i a).any x.run.unread.contains else x.run.unread.contains a)
  | none => false

/-- The array may enter its next row: its image is active, no retry, no swap to wait for, no stalled output, rows left (R82, R98, R102). -/
def Loom.mayEnter (x : Loom) (i : Img) : Bool :=
  !x.retry && decide (x.run.step < i.arraySteps) && x.pendingSwap.isNone && !x.swapDue i && !x.outputStalls i

/-- What the generators give for the next array step: the accesses it makes, each with its port's check; a status, or a bad word, where
one stops the node. -/
def State.arrayFault (s : State) (l : Nat) (i : Img) (n : Nat) : Option (Option Nat) :=
  let look (a : Int) (len : Nat) (ok : Bool) : Option (Option Nat) :=
    if !ok then some none else (s.badIn l a.toNat len).map some
  match i.gen 0, i.gen 3 with
  | some g0, some g3 =>
    if i.mode = 2 then
      let la := rowBytes i.warp 128
      let lb := rowBytes i.weft 128
      (look (g0.addr (2 * n)) la (portReaches 0 (g0.addr (2 * n)) la)).or
        ((look (g0.addr (2 * n + 1)) lb (portReaches 0 (g0.addr (2 * n + 1)) lb)).or
          (if (s.loom l).run.tile.isNone then
            look (g3.addr n) (128 * i.tileRow) (i.tileRowStart (g3.addr n) && portReaches 3 (g3.addr n) (128 * i.tileRow))
           else none))
    else
      let len := rowBytes i.weft i.rowElems
      (look (g0.addr n) len (portReaches 0 (g0.addr n) len)).or (look (g3.addr n) i.tileRow (i.tileRowStart (g3.addr n)))
  | _, _ => some none

/-- A row's sums enter the accumulator. -/
def State.storeRow (s : State) (l : Nat) (w : Work) (a : Nat) (f : Nat → Nat → Elem) : State :=
  let r := w.img.newRow (s.localBytes l a w.img.tileRow) f
  ((s.loomStore l a r.1).addArith w.draft.part r.2.2).addFlags w.d r.2.1

/-- The result row of array step `n` is accumulated (R145 to R147). -/
def State.addRow (s : State) (l : Nat) (w : Work) : State :=
  let i := w.img
  let x := s.loom l
  let n := x.run.step
  match i.gen 0, i.gen 1, i.gen 3, x.warp with
  | some g0, some g1, some g3, some wp =>
    let ends := i.reduceEnds g3 n
    let a := (g3.addr n).toNat
    let row := s.localBytes l (g0.addr n).toNat (rowBytes i.weft i.rowElems)
    let k0 := i.halfStart g1 n x.run.onWarp
    let s1 := if ends.1 then s.setReady l [a] false else s
    let s2 := s1.storeRow l w a (i.rowElem row wp.2 k0 (i.clearFirst && ends.1))
    let s3 := if ends.2 then s2.setReady l [a] true else s2
    s3.setRun l (fun r => { r with
      step := r.step + 1, feedRows := r.feedRows + 1, onWarp := r.onWarp + 1, entered := true
      unread := if ends.2 && i.epilogue then r.unread ++ [a] else r.unread })
  | _, _, _, _ => s

/-- The tile an output-stationary step belongs to, begun where none is open: its place decides what the masks freeze (R174, R541). The manual does not
say how the port-3 generator walks in this mode: the model takes one step for each row pair; the address at the tile's opening is that of its first
tile row, the other 127 follow it, and the tile closes at the last index of REDUCE_LOOP (DESIGN CHOICE, log 167). -/
def State.openTile (s : State) (l : Nat) (w : Work) (g3 : Gen) : State :=
  let x := s.loom l
  if x.run.tile.isSome then s
  else
    let i := w.img
    let base := (g3.addr x.run.step).toNat
    let rows := Run.tileRows i base
    let tc := ceilDiv (tdDim (w.node.td 2) 0) 128
    let t := x.run.rank + x.run.looms * x.run.tiles
    let frozen := match x.run.mask with
      | some m => (List.range 128).filter (fun r => Mask.frozen m (t / tc) (t % tc) r)
      | none => []
    let skip := frozen.length == 128
    let gone := frozen.map (fun r => base + r * i.tileRow)
    let s1 := s.setReady l rows skip
    let s2 := s1.setRun l (fun r => { r with
      tile := some { base := base, frozen := frozen, skip := skip, fresh := i.clearFirst && (i.reduceEnds g3 r.step).1 }
      withheld := r.withheld.filter (fun a => !rows.contains a) ++ gone })
    if skip then s2.count w.draft.part 4 1 else if frozen.isEmpty then s2 else s2.count w.draft.part 5 frozen.length

/-- The open block of a tile is added to its rows (R167). -/
def State.flushTile (s : State) (l : Nat) (w : Work) (t : Tile) : State :=
  let s1 := ((List.range 128).filter (fun r => !t.frozen.contains r)).foldl (fun s r =>
    s.storeRow l w (t.base + r * w.img.tileRow) (w.img.tileElem t.pairs t.fresh r)) s
  s1.setRun l (fun r => { r with tile := some { t with pairs := [], fresh := false } })

/-- One row pair enters (R165 to R167, R174). R165 asks for a multiple of 32 pairs in an MX format and gives no status for an image that walks another
number: the model sums a short last block (DESIGN CHOICE, log 168). -/
def State.addPair (s : State) (l : Nat) (w : Work) : State :=
  let i := w.img
  match i.gen 0, i.gen 3 with
  | some g0, some g3 =>
    let s1 := s.openTile l w g3
    let n := (s1.loom l).run.step
    let last := (i.reduceEnds g3 n).2
    (match (s1.loom l).run.tile with
     | none => s1
     | some t =>
       let pair := (s1.localBytes l (g0.addr (2 * n)).toNat (rowBytes i.warp 128), s1.localBytes l (g0.addr (2 * n + 1)).toNat (rowBytes i.weft 128))
       let t1 : Tile := if t.skip then t else { t with pairs := t.pairs ++ [pair] }
       let s2 := s1.setRun l (fun r => { r with tile := some t1 })
       let s3 := if !t1.pairs.isEmpty ∧ (t1.pairs.length = 32 ∨ last) then s2.flushTile l w t1 else s2
       let rows := Run.tileRows i t.base
       let s4 := if last then (s3.setReady l rows true).setRun l (fun r => { r with
           tile := none, tiles := r.tiles + 1
           unread := if i.epilogue && !t.skip then r.unread ++ rows.filter (fun a => !r.withheld.contains a) else r.unread })
         else s3
       s4.setRun l (fun r => { r with step := r.step + 1, feedRows := r.feedRows + 1, entered := r.entered || !t.skip }))
  | _, _ => s

/-- Row pairs of skipped tiles pass without entering the array, as far as no swap is due: they count as operand rows (R170, R174). -/
def State.skipPairs (s : State) (l : Nat) (w : Work) : Nat → State
  | 0 => s
  | fuel + 1 =>
    let x := s.loom l
    if w.img.mode ≠ 2 ∨ w.img.arraySteps ≤ x.run.step ∨ x.pendingSwap.isSome ∨ x.swapDue w.img then s
    else match w.img.gen 3 with
      | none => s
      | some g =>
        let s1 := s.openTile l w g
        if (match (s1.loom l).run.tile with | some t => t.skip | none => false) then (s1.addPair l w).skipPairs l w fuel else s

/-- Skipped tiles at hand are passed. -/
def State.skipTiles (s : State) (l : Nat) : State :=
  match s.holding l with
  | some w => s.skipPairs l w (w.img.arraySteps - (s.loom l).run.step)
  | none => s

/-- The row or row pair at hand is accumulated, and what becomes ready leaves. -/
def State.accumulate (s : State) (l : Nat) (w : Work) : State :=
  (((if w.img.mode = 2 then s.addPair l w else s.addRow l w)).skipTiles l).drainAll l

/-- An operand row (or row pair) has passed the array with this outcome of the row check (R81 to R83). -/
def State.enterRow (s : State) (l : Nat) (w : Work) (check : RowCheck) : State :=
  match s.arrayFault l w.img (s.loom l).run.step with
  | some none => s.endNode w.d w.n stInvalid
  | some (some a) => s.badWord l a (.node w.d w.n) false
  | none =>
    let x := s.loom l
    let forced := tget 0 x.armed 1
    if forced ≠ 0 then
      s.setLoom l { x with retry := true, retryParity := false, armed := tset 0 (tset 0 x.armed 1 (forced - 1)) 512 1 }
    else match check with
      | .matches => s.accumulate l w
      | .mismatch => s.setLoom l { x with retry := true, retryParity := false }
      | .parity => s.setLoom l { x with retry := true, retryParity := true }

-- ## The FETCH stages of a CHAIN (R101)

/-- FETCH stages a CHAIN names: the first reads TD0, the operand, and the second TD1, the fused input (R101, R202; DESIGN CHOICE, log 169). -/
def Node.fetches (n : Node) : List (List Byte) :=
  if n.kind ≠ 2 then []
  else (List.range (((List.range (n.arg 110 1)).filter (fun i => n.arg (104 + i) 1 == 1)).length)).map n.td |>.filter tdValid

/-- Part `q` of `k` of `n` things in order: equal parts, the remainder to the lowest (R252). -/
def partOf (n k q : Nat) : List Nat := (List.range (n / k + b2n (decide (q < n % k)))).map (fun i => q * (n / k) + min q (n % k) + i)

/-- Rows a loom's FETCH stages bring, in order: each loom of the set takes its part of the rows of each tensor (DESIGN CHOICE, log 169). -/
def Run.fetchList (r : Run) (n : Node) : List (List Byte × Nat) :=
  n.fetches.flatMap (fun t => (partOf (tdRows t) r.looms r.rank).map (fun i => (t, i)))

/-- A swap of this image waits for no more bytes in the FILL half. -/
def Loom.filled (x : Loom) (i : Img) : Bool := decide (0 < i.swapCount ∧ (i.swap x.run.swapPos).2 ≤ x.fillBytes) || x.pendingSwap.any (· ≤ x.fillBytes)

/-- FETCH stages bring rows, each appended at the FILL byte counter as the loom reads it (R98, log 18), until the half holds what its swap waits for,
or has no room: then they wait, and nothing is dropped (R102). -/
def State.fetchRows (s : State) (l : Nat) (w : Work) : Nat → State
  | 0 => s
  | fuel + 1 =>
    let x := s.loom l
    match (x.run.fetchList w.node)[x.run.fetched]?, s.node w.d w.n with
    | some (t, r), some nd =>
      let c := nodeCtx w.draft w.node
      let a := tdBase t + tdRowOff t r
      let m := if fmtMx (tdFmt t) then tdDim t 0 / 32 else 0
      if nd.acks ≠ 0 ∨ nd.isDone ∨ x.filled w.img ∨ 0x60000 < x.fillBytes + tdRowBytes t + m ∨ (s.loomIsland l).relocking then s
      else match (s.mayRead c a (tdRowBytes t)).andThen (fun s => s.mayRead c (tdScaleAddr t r) m) with
        | (s1, some st) => s1.endNode w.d w.n st
        | (s1, none) =>
          let s2 := s1.extWrite l (fillBase + x.fillBytes) (s1.valueAt c a (tdRowBytes t) ++ s1.valueAt c (tdScaleAddr t r) m)
          (s2.setRun l (fun r => { r with fetched := r.fetched + 1 })).fetchRows l w fuel
    | _, _ => s

/-- The FETCH stages of a loom's node do what they can. -/
def State.fetchAll (s : State) (l : Nat) : State :=
  match s.holding l with
  | some w => if w.node.st = .running ∧ s.runs w.draft.part then s.fetchRows l w (((s.loom l).run.fetchList w.node).length - (s.loom l).run.fetched) else s
  | none => s

/-- ARRAY_ROW_COMPLETE: nothing where the array may not enter a row now. -/
def arrayRow (s : State) (l : Nat) (check : RowCheck) : State :=
  match (s.fetchAll l).makeResident l with
  | none => s
  | some s1 => match s1.work l with
    | none => s
    | some w =>
      let x := s1.loom l
      if !x.mayEnter w.img then s1
      else if w.img.mode = 2 then s1.enterRow l w check
      else match w.img.gen 1 with
        | some g => (match x.warpFor (g.addr x.run.step) with
          | some y => (s1.setLoom l y).enterRow l w check
          | none => s)
        | none => s

/-- The work whose row a loom enters again: a pre-emption stops the node only once a retry that has begun is over (R103). -/
def State.retryWork (s : State) (l : Nat) : Option Work :=
  match s.work l, s.holding l with
  | some w, _ => some w
  | none, some w => if (s.part w.draft.part).st = .preempting ∧ w.node.st = .stopped ∧ s.clocked l then some w else none
  | none, none => none

/-- ROW_CHECK_RETRY_COMPLETE: the row entered again matches and counts as corrected, or the node stops (R82). -/
def rowRetried (s : State) (l : Nat) (again : Bool) (column : Nat) : State :=
  let x := s.loom l
  match s.retryWork l with
  | none => s
  | some w =>
    if !x.retry then s
    else
      let injected := tget 0 x.armed 512 != 0
      let more := tget 0 x.armed 1
      if again ∨ more ≠ 0 then
        let a := match w.img.gen 3 with | some g => (g.addr x.run.step).toNat | none => accBase
        let row := match x.run.tile with | some t => t.base | none => a
        let ev := s.loomEvent l (if x.retryParity then 2 else 1) ((row - accBase) / 512 % 1024 + 65536 * (if column < 128 then column else 0xFF))
          0 (s.loomDetail l)
        let s1 := s.setLoom l { x with retry := false, retryParity := false, armed := tset 0 (tset 0 x.armed 1 (more - 1)) 512 0 }
        ((s1.raiseLoom ev injected)).endNode w.d w.n stRetryExhausted
      else
        let s1 := s.setLoom l { x with
          retry := false, retryParity := false, corrected := x.corrected + 1, armed := tset 0 x.armed 512 0 }
        let s2 := if injected ∧ tget 0 x.armed 257 = 0 then s1 else s1.softEvent 0 l 1
        s2.accumulate l w

-- ## Warps (R77)

/-- The warp tile the array needs next: the first step from now on whose tile is neither active nor loaded. -/
def Loom.nextWarp (x : Loom) (i : Img) (g : Gen) : Option Int :=
  let cur := g.addr x.run.step
  let isActive := match x.warp with | some t => decide ((t.1 : Int) = cur) | none => false
  if !isActive then some cur
  else ((List.range (i.arraySteps - x.run.step)).map (fun k => g.addr (x.run.step + k))).find? (fun a => a != cur)

/-- The shadow load under way when a node has ended: towards the tile the image's walk comes to next, its walk starting over (R77, R169). -/
def Loom.loadBegun (x : Loom) : Option (Nat × Nat) :=
  match x.loadingWarp, x.image with
  | some y, _ => some y
  | none, some i =>
    if 2 ≤ i.mode then none
    else match (i.gen 1).bind (fun g => x.nextWarp i g) with
      | some a => if x.shadow.any (fun t => (t.1 : Int) == a) ∨ !portReaches 1 a (tileBytes i.warp) then none else some (a.toNat, tileBytes i.warp)
      | none => none
  | none, none => none

/-- A shadow load begun under an image that is no longer at work ends (R169). -/
def State.keptLoad (s : State) (l : Nat) : State :=
  let x := s.loom l
  match x.loadingWarp with
  | none => s
  | some (a, n) =>
    if !s.clocked l then s
    else match s.badIn l a n, x.node with
      | some b, some (d, m) => (s.setLoom l { x with loadingWarp := none }).badWord l b (.node d m) false
      | some b, none => (s.setLoom l { x with loadingWarp := none }).badWord l b .outside false
      | none, _ => s.setLoom l { x with shadow := some (a, s.localBytes l a n), loadingWarp := none }

/-- WARP_SHADOW_LOAD_COMPLETE: the next warp tile stands in the shadow registers. -/
def warpLoaded (s : State) (l : Nat) : State :=
  match s.work l with
  | none => s.keptLoad l
  | some w =>
    let i := w.img
    let x := s.loom l
    if 2 ≤ i.mode then s.keptLoad l
    else if i.arraySteps ≤ x.run.step then s
    else match (i.gen 1).bind (fun g => x.nextWarp i g) with
      | none => s
      | some a =>
        let n := tileBytes i.warp
        if !portReaches 1 a n then s.endNode w.d w.n stInvalid
        else if (match x.shadow with | some t => decide ((t.1 : Int) = a) | none => false) then s
        else match s.badIn l a.toNat n with
          | some b => s.badWord l b (.node w.d w.n) false
          | none => s.setLoom l { x with shadow := some (a.toNat, s.localBytes l a.toNat n), loadingWarp := none }

-- ## Images (R91, R95, R96)

/-- IMAGE_LOAD_COMPLETE: the image is validated and resident, or the nodes that wait for it end. -/
def imageLoaded (s : State) (l slot : Nat) : State :=
  let x := s.loom l
  match x.loading.find? (fun y => y.slot == slot), s.clusterPart (l / 8) with
  | some y, some p =>
    if !s.runs p ∨ !s.clocked l then s
    else
      let s1 := s.setLoom l { x with loading := x.loading.filter (fun z => z.slot != slot) }
      let st := match s.block (partCtx p) y.addr y.length with
        | none => s.blockErr (partCtx p) y.addr y.length
        | some b => Img.check b y.id y.length s.boot.image.numeric
      let s1 := s1.meet (partCtx p) y.addr y.length
      if st = stOK then
        let b := (s.block (partCtx p) y.addr y.length).getD []
        s1.setLoom l { (s1.loom l) with images := (slot, b) :: (s1.loom l).images.filter (fun z => z.1 != slot) }
      else
        let waiting := s1.drafts.flatMap (fun d => if d.part ≠ p then [] else
          (d.nodes.zipIdx.filter (fun ni => !ni.1.isDone && !ni.1.running && ni.1.seen == some 0 && ni.1.image == y.id &&
            (s1.nodeLooms d ni.1).contains l)).map (fun ni => (d.id, ni.2)))
        waiting.foldl (fun s dn => s.endNode dn.1 dn.2 st) s1
  | _, _ => s

/-- IMAGE_SWITCH: the dispatched node's image becomes the active one (R96). -/
def imageSwitch (s : State) (l slot : Nat) : State :=
  let x := s.loom l
  match x.node, (x.images.find? (fun i => i.1 == slot)).map (fun i => (i.2 : Img)) with
  | some (d, n), some i =>
    (match s.node d n with
     | some nd =>
       if nd.image ≠ i.id ∨ x.active = some slot ∨ !s.clocked l then s
       else (s.setLoom l { x with
         active := some slot
         warp := if i.warpKeep then x.warp else none
         shadow := if i.warpKeep then x.shadow else none
         loadingWarp := if i.warpKeep then x.loadingWarp else none }).drainAll l
     | none => s)
  | _, _ => s

/-- The slot a load takes (R95): one that holds no image the loom runs. The manual orders such slots by the last dispatch of the image they hold; the
model takes an empty one first, then one whose image was dispatched least recently, one never dispatched before all, and on a tie the lowest
(DESIGN CHOICE, log 170). -/
def State.loadSlot (s : State) (l : Nat) : Option Nat :=
  let x := s.loom l
  let running : Option Nat := match x.node with | some (d, n) => (s.node d n).map (·.image) | none => none
  let held (k : Nat) : Option Nat := (x.images.find? (fun i => i.1 == k)).map (fun i => Img.id i.2)
  let free := (List.range 4).filter (fun k => !x.loading.any (fun y => y.slot == k) && !((held k).isSome && held k == running))
  match free.find? (fun k => (held k).isNone) with
  | some k => some k
  | none => free.foldl (fun best k => match best with
    | none => some k
    | some b => if tget 0 x.used k < tget 0 x.used b then some k else some b) none

def Loom.holds (x : Loom) (id : Nat) : Option Nat := (x.images.find? (fun i => Img.id i.2 == id)).map (·.1)

/-- An image's load begins on the looms of a set that lack it; false where the table holds no such image. -/
def State.startLoads (s : State) (p id : Nat) (ls : List Nat) : State × Bool :=
  match s.imageEntry p id with
  | none => (s, false)
  | some (len, a) => (ls.foldl (fun s l =>
      let x := s.loom l
      if (x.holds id).isSome ∨ x.loading.any (fun y => y.id == id) then s
      else match s.loadSlot l with
        | some k => s.setLoom l { x with
            loading := x.loading ++ [{ slot := k, id := id, length := len, addr := a }], images := x.images.filter (fun i => i.1 != k)
            used := tset 0 x.used k 0, active := if x.active = some k then none else x.active }
        | none => s) s, true)

-- ## Dispatch on looms (R95, R98, R147, R153, R156, R172 to R175, R211)

/-- The freeze table of a partition (R390). -/
def State.freezeTable (s : State) (p : Nat) : Option Nat :=
  let a := s.addr (.updFreeze p 0) (.updFreeze p 1)
  if a = 0 then none else some a

/-- Its 1,024 entries. -/
def State.freezeEntries (s : State) (p : Nat) : List (List Byte) :=
  match s.freezeTable p with
  | some a => (List.range 1024).map (fun k => s.valueAt (partCtx p) (a + 1024 + 64 * k) 64)
  | none => []

/-- A valid entry of a layer, and the one of a key. -/
def freezeOf (layer : Nat) (e : List Byte) : Bool := bitAt (le e 2 1) 0 && le e 0 2 == layer
def freezeKey (layer base : Nat) (e : List Byte) : Bool := freezeOf layer e && le e 8 8 == base

/-- The mask descriptor of a layer's tensor, and whether a layer has any. -/
def State.freezeEntry (s : State) (p layer base : Nat) : Option (List Byte) :=
  ((s.freezeEntries p).find? (freezeKey layer base)).map (fun e => slice e 32 32)
def State.freezeLayer (s : State) (p layer : Nat) : Bool := (s.freezeEntries p).any (freezeOf layer)

/-- The mask of a node's layer: none without a descriptor, or the status it stops with. -/
def State.nodeMask (s : State) (dr : Draft) (nd : Node) (i : Img) : Except Missed (Option Mask) :=
  let td := nd.td 2
  let c := partCtx dr.part
  let t := s.freezeEntry dr.part nd.layer (tdBase td)
  if i.mode ≠ 2 then .ok none
  else match t with
    | none => if s.freezeLayer dr.part nd.layer ∧ !tdValid td then .error badContents else .ok none
    | some b =>
      if !tdValid td then .error badContents
      else match s.readMask c b with
        | .error e => .error e
        | .ok m => if m.2.2.1 < tdDim td 1 ∨ m.2.2.2 < tdDim td 0 then .error badContents else .ok (some m)

/-- What refuses a loom node at its dispatch, given its image. -/
def State.loomRefusal (s : State) (dr : Draft) (nd : Node) (i : Img) : Option Nat :=
  let td := nd.td 2
  let p := dr.part
  let clusters := s.clusterCount p
  if i.epilogue ∧ i.outDest = 1 ∧ s.isVacant p i.targetLoom then some stRetired
  else if i.epilogue ∧ i.outDest = 1 ∧ 8 * clusters ≤ i.targetLoom then some stInvalid
  else if nd.kind = 2 ∧ !i.chainStage then some stInvalid
  else if i.epilogue ∧ i.outDest = 2 ∧ (!tdValid td ∨ tdFmt td ≠ i.out) then some stInvalid
  else if i.emits ∧ !tdValid td then some stInvalid
  else none

/-- A dispatch carries the count of operand rows on: under alternation a dX tile and its dW partner, nodes of one draft in the two modes, count as one
stream (R170). Any other dispatch returns the swap-table position and the row count to the start (R98). DEDUCED, log 171. -/
def Loom.alternates (x : Loom) (d : Nat) (i : Img) : Bool :=
  x.run.draft == d && (match x.image with | some o => (o.mode == 1 && i.mode == 2) || (o.mode == 2 && i.mode == 1) | none => false)

/-- One loom takes a node: its walks start over, the image's slot is the one dispatched last, the row-ready bits of its tile rows clear. R96 speaks of
switches only: a node dispatched again under the image that is active finds both warps discarded unless WARP_KEEP is set, as after a switch
(DESIGN CHOICE, log 172). -/
def State.takeNode (s : State) (l d n rank looms : Nat) (mask : Option Mask) (id : Nat) : State :=
  let x := s.loom l
  match x.holds id with
  | none => s
  | some k =>
    let i : Img := ((x.images.find? (fun y => y.1 == k)).map (·.2)).getD []
    let same := x.active == some k
    let rows := match i.mode, i.gen 3 with
      | 3, _ => []
      | _, none => []
      | m, some g =>
        let starts := ((List.range g.steps).map (fun k => (g.addr k).toNat)).dedup
        if m = 2 then starts.flatMap (Run.tileRows i) else starts
    let rest := x.notReady.filter (fun a => !rows.contains a)
    s.setLoom l { x with
      node := some (d, n)
      run := { rank := rank, looms := looms, mask := mask, draft := d,
               swapPos := if x.alternates d i then x.run.swapPos else 0, feedRows := if x.alternates d i then x.run.feedRows else 0 }
      loadingWarp := if same then none else x.loadBegun, tick := x.tick + 1, used := tset 0 x.used k (x.tick + 1)
      notReady := rest ++ rows
      warp := if same && !i.warpKeep then none else x.warp
      shadow := if same && !i.warpKeep then none else x.shadow }

/-- A loom node is dispatched to all of its looms together, once its image, of the partition's table, is resident on them; a load goes on while a loom
runs under another image (R95, R208, R211). Its dispatch may end it. -/
def State.dispatchLooms (s : State) (dr : Draft) (n : Nat) (nd : Node) : State :=
  let p := dr.part
  let ls := s.nodeLooms dr nd
  let d := dr.id
  if nd.loomSet.any (fun lg => s.isVacant p lg) then s.endNode d n stRetired
  else if (s.imageEntry p nd.image).isNone then s.endNode d n stInvalid
  else if ls.any (fun l => ((s.loom l).holds nd.image).isNone) then
    (s.startLoads p nd.image ls).1.setNode d n (fun y => { y with seen := some 0 })
  else if ls.any (fun l => (s.loom l).node.isSome) then s
  else
    let i : Img := (ls.head?.bind (fun l => ((s.loom l).images.find? (fun y => Img.id y.2 == nd.image)).map (·.2))).getD []
    match s.loomRefusal dr nd i, s.nodeMask dr nd i with
    | some st, _ => s.endNode d n st
    | none, .error e => (s.missed (partCtx p) e).endNode d n e.1
    | none, .ok mask =>
      let s1 := (ls.zipIdx).foldl (fun s lr => s.takeNode lr.1 d n lr.2 ls.length mask nd.image) s
      let s2 := s1.setNode d n (fun y => { y with st := .running })
      let r := Try.each s2 (fun s t => s.bringTd (nodeCtx dr nd) (.node d n) t) nd.fetches
      (match r.2 with
       | some st => r.1.endNode d n st
       | none => ls.foldl (fun s l => ((s.skipTiles l).fetchAll l).drainAll l) r.1)

/-- Every loom of a loom node has done its part (R210, R448). -/
def State.loomsDone (s : State) (dr : Draft) (nd : Node) : Bool :=
  (s.nodeLooms dr nd).all (fun l => match s.work l with
    | some w => (s.loom l).finished w.img && !(s.loom l).retry
    | none => false)

-- ## Swaps (R97 to R100)

/-- The halves exchange their roles. -/
def Loom.swapHalves (x : Loom) : Loom := { x with feedH1 := !x.feedH1, fillBytes := 0 }

/-- WEFT_SWAP: a pending swap, or the swap the node has come to, takes place once the FILL half holds what it must. -/
def weftSwap (s : State) (l : Nat) : State :=
  let x := s.loom l
  if !s.clocked l then s
  else match x.pendingSwap with
  | some fb => if fb ≤ x.fillBytes then (((s.setLoom l { x.swapHalves with pendingSwap := none }).skipTiles l).fetchAll l).drainAll l else s
  | none => match s.work l with
    | none => s
    | some w =>
      if x.swapDue w.img ∧ (w.img.swap x.run.swapPos).2 ≤ x.fillBytes ∧ !x.retry then
        (((s.setLoom l { x.swapHalves with run := { x.run with feedRows := 0, swapPos := x.run.swapPos + 1 } }).skipTiles l).fetchAll l).drainAll l
      else s

/-- FILL_BYTES of the swap a dispatched node waits for. -/
def State.swapWaits (s : State) (l : Nat) : Option (Work × Nat) :=
  let x := s.loom l
  match s.work l with
  | none => none
  | some w =>
    if x.finished w.img then none
    else match x.pendingSwap with
      | some fb => if fb ≤ x.fillBytes then none else some (w, fb)
      | none =>
        let fb := (w.img.swap x.run.swapPos).2
        if x.swapDue w.img ∧ x.fillBytes < fb then some (w, fb) else none

/-- SWAP_TIMEOUT: the wait reached LM_SWAP_WDOG (R100). -/
def swapTimedOut (s : State) (l : Nat) : State :=
  match s.swapWaits l with
  | some (w, fb) => (s.raise (s.loomEvent l 4 0 0 (fb + (s.loom l).fillBytes * 2 ^ 32))).endNode w.d w.n stInvalid
  | none => s

/-- READY_TIMEOUT: the output path waits for this tile row, and the wait reached ACC_READY_WDOG (R148). -/
def readyTimedOut (s : State) (l row : Nat) : State :=
  match s.work l with
  | some w =>
    let x := s.loom l
    let a := accBase + row * w.img.tileRow
    if x.run.out < w.img.outRows ∧ x.notReady.contains a ∧ w.img.reads.any (fun g => g.port == 2 && g.addr x.run.out == (a : Int)) then
      (s.raise (s.loomEvent l 5 row 0 (s.loomDetail l))).endNode w.d w.n stInvalid
    else s
  | none => s

-- ## The idle scrub (R85)

/-- The array enters rows or enters one again; the vector fabric never waits with a row it could take. -/
def State.loomRuns (s : State) (l : Nat) : Bool :=
  match s.work l with
  | some w => (s.loom l).retry || (s.loom l).mayEnter w.img
  | none => false

/-- LOOM_SCRUB_READ: one word of a loom whose clock runs while neither its array nor its vector fabric does (R85, R104). -/
def scrubWord (s : State) (l : Nat) (first second : Decoded) : State :=
  let x := s.loom l
  if !s.bit .lmCfg 0 ∨ Config.looms ≤ l ∨ !s.clocked l ∨ s.loomRuns l then s
  else
    (s.setLoom l { x with scrubAt := (x.scrubAt + 1) % 2 ^ 19 }).readWord l (localPhys x (8 * x.scrubAt)) first second .outside true

-- ## Meanings

/-- LOOM_SCRUB_READ (R85). -/
def execLoomScrubRead (read : LoomScrub) (s : State) : Host.Outcome State Fault Refusal := finish (scrubWord s read.loom read.first read.second)
/-- SWAP_TIMEOUT (R100). -/
def execSwapTimeout (l : Nat) (s : State) : Host.Outcome State Fault Refusal := finish (swapTimedOut s l)
/-- READY_TIMEOUT (R148). -/
def execReadyTimeout (l row : Nat) (s : State) : Host.Outcome State Fault Refusal := finish (readyTimedOut s l row)

end Sys2Proof.Machine
end

