-- ==== Sys2Proof/Machine/Update.lean ====
section
/-!
DEFINITION. Machine/Update.lean: parameter updates (R373 to R397), step sizes and their schedules (R383 to R387), freezing (R390 to R393).
Every operation is strict binary32 to nearest (R375); a value carries the flags raised on the way to it.
-/

namespace Sys2Proof.Machine

-- ## The parameter block (R378)

/-- Bytes of an UPDATE parameter block. -/
abbrev UBlock := List Byte

def UBlock.rule (b : UBlock) : Nat := le b 0 1
def UBlock.sparse (b : UBlock) : Bool := bitAt (le b 1 1) 0
def UBlock.nonZeroRow (b : UBlock) : Bool := bitAt (le b 1 1) 1
def UBlock.outEn (b : UBlock) : Bool := bitAt (le b 1 1) 2
def UBlock.factMomentum (b : UBlock) : Bool := bitAt (le b 1 1) 3
def UBlock.gradFmt (b : UBlock) : Nat := field (le b 2 1) 0 4
def UBlock.masterFmt (b : UBlock) : Nat := field (le b 2 1) 4 4
def UBlock.outFmt (b : UBlock) : Nat := field (le b 3 1) 0 4
def UBlock.group (b : UBlock) : Nat := le b 4 2
def UBlock.size (b : UBlock) : Nat := le b 6 2
def UBlock.rows (b : UBlock) : Nat := le b 8 4
def UBlock.cols (b : UBlock) : Nat := le b 12 4
def UBlock.count (b : UBlock) : Nat := UBlock.rows b * UBlock.cols b
def UBlock.grad (b : UBlock) : Nat := le b 16 8
def UBlock.master (b : UBlock) : Nat := le b 24 8
def UBlock.m1 (b : UBlock) : Nat := le b 32 8
def UBlock.m2 (b : UBlock) : Nat := le b 40 8
def UBlock.aux (b : UBlock) : Nat := le b 48 8
def UBlock.out (b : UBlock) : Nat := le b 56 8
def UBlock.touched (b : UBlock) : Nat := le b 64 8
def UBlock.mask (b : UBlock) : Nat := le b 72 8
def UBlock.state (b : UBlock) : Nat := le b 80 8
def UBlock.status (b : UBlock) : Nat := le b 88 8
def UBlock.beta1 (b : UBlock) : FV := (le b 96 4, 0)
def UBlock.beta2 (b : UBlock) : FV := (le b 100 4, 0)
def UBlock.eps (b : UBlock) : FV := (le b 104 4, 0)
def UBlock.decay (b : UBlock) : FV := (le b 108 4, 0)
def UBlock.damp (b : UBlock) : FV := (le b 112 4, 0)
def UBlock.invEvery (b : UBlock) : Nat := le b 116 2

/-- Whether the rule keeps a first moment, and the bytes of M2 and AUX (R382, R394). -/
def UBlock.hasM1 (b : UBlock) : Bool := UBlock.rule b != 6 || UBlock.factMomentum b
def UBlock.blocksAcross (b : UBlock) : Nat := ceilDiv (UBlock.cols b) (UBlock.size b)
def UBlock.blocks (b : UBlock) : Nat := ceilDiv (UBlock.rows b) (UBlock.size b) * UBlock.blocksAcross b
def UBlock.m2Bytes (b : UBlock) : Nat :=
  match UBlock.rule b with
  | 3 => 4 * UBlock.count b
  | 4 => 4 * UBlock.count b
  | 6 => 4 * UBlock.rows b
  | 7 => 16 * UBlock.size b ^ 2 * UBlock.blocks b
  | _ => 0
def UBlock.auxBytes (b : UBlock) : Nat :=
  match UBlock.rule b with
  | 6 => 4 * UBlock.cols b
  | 7 => 16 * UBlock.blocks b
  | _ => if UBlock.sparse b then 4 * UBlock.rows b else 0
def UBlock.masterBytes (b : UBlock) : Nat := (if UBlock.masterFmt b = 4 then 8 else 4) * UBlock.count b
def UBlock.gradBytes (b : UBlock) : Nat := (if UBlock.gradFmt b = 4 then 8 else 4) * UBlock.count b
def UBlock.outBytes (b : UBlock) : Nat := if UBlock.outEn b then (if UBlock.outFmt b = 1 then 2 else 4) * UBlock.count b else 0

/-- What an UPDATE writes: every range, but STATUS. -/
def UBlock.written (b : UBlock) : List (Nat × Nat) :=
  [(UBlock.master b, UBlock.masterBytes b), (UBlock.m1 b, if UBlock.hasM1 b then 4 * UBlock.count b else 0), (UBlock.m2 b, UBlock.m2Bytes b),
   (UBlock.aux b, UBlock.auxBytes b), (UBlock.out b, UBlock.outBytes b), (UBlock.state b, 64)].filter (fun r => r.2 != 0)

/-- 0 ≤ x < 1 as IEEE compares. -/
def unitRange (w : Nat) : Bool := !fGt 0 w && fGt 0x3F800000 w

/-- Fields that break R12, R13, the table of R378, or R379. -/
def UBlock.formOk (b : UBlock) : Bool :=
  let r := UBlock.rule b
  let f := UBlock.outFmt b
  b.length == 128 && decide (1 ≤ r ∧ r ≤ 7) && field (le b 1 1) 4 4 == 0 &&
  (UBlock.gradFmt b == 0 || UBlock.gradFmt b == 4) && (UBlock.masterFmt b == 0 || UBlock.masterFmt b == 4) &&
  field (le b 3 1) 4 4 == 0 && (if UBlock.outEn b then f == 0 || f == 1 || f == 3 else f == 0) && decide (UBlock.group b < 4096) &&
  (if r = 7 then (UBlock.size b == 128 || UBlock.size b == 256 || UBlock.size b == 512 || UBlock.size b == 1024) && UBlock.invEvery b != 0
   else UBlock.size b == 0) &&
  (UBlock.hasM1 b || UBlock.m1 b == 0) && (decide (r = 3 ∨ r = 4 ∨ 6 ≤ r) || UBlock.m2 b == 0) &&
  (decide (6 ≤ r) || UBlock.sparse b || UBlock.aux b == 0) && zeroAt b 118 10 &&
  (decide (r ≤ 2) || (unitRange (UBlock.beta1 b).1 && unitRange (UBlock.beta2 b).1)) && (r != 6 || fGt (UBlock.eps b).1 0) &&
  !(UBlock.sparse b && decide (6 ≤ r))

-- ## Addresses (R373, R379)

/-- Every byte of a range lies in an enabled flip region of the partition: from its first byte, region after region, the range is reached to its end. -/
def State.inFlip (s : State) (p a n : Nat) : Bool :=
  let fs := sortBy (fun f g => decide (f.base ≤ g.base)) (s.flips.filter (fun f => f.part == p && f.space == gSpace a))
  s.isLocal a && decide (gOffset a + n ≤ fs.foldl (fun hi f => if f.base ≤ hi ∧ hi < f.base + 65536 * f.units then f.base + 65536 * f.units else hi) (gOffset a))

/-- A range meets a flip region. -/
def State.meetsFlip (s : State) (a n : Nat) : Bool :=
  s.isLocal a && s.flips.any (fun f => f.space == gSpace a && decide (f.base < gOffset a + n ∧ gOffset a < f.base + 65536 * f.units))

/-- Ranges an UPDATE reads beside those it writes. -/
def UBlock.reads (b : UBlock) : List (Nat × Nat) :=
  [(UBlock.grad b, UBlock.gradBytes b),
   (UBlock.touched b, if UBlock.sparse b && !UBlock.nonZeroRow b then ceilDiv (UBlock.rows b) 8 else 0),
   (UBlock.mask b, if UBlock.mask b = 0 then 0 else 32)].filter (fun r => r.2 != 0)

/-- The step-size table (R383). -/
def State.stepTable (s : State) (p : Nat) : Option Nat :=
  let a := s.addr (.updStep p 0) (.updStep p 1)
  if a = 0 then none else some a

/-- The block of an UPDATE node, or what its dispatch ends with. -/
def State.checkUpdate (s : State) (dr : Draft) (nd : Node) : Except Missed UBlock :=
  let c := nodeCtx dr nd
  let p := dr.part
  if (s.stepTable p).isNone then .error badContents
  else match s.nodeBlock c nd 128 with
    | .error e => .error e
    | .ok b =>
      if !UBlock.formOk b ∨ (nd.loomSet.isEmpty ∧ 6 ≤ UBlock.rule b) then .error badContents
      else if (UBlock.written b).any (fun r => !s.inFlip p r.1 r.2 || !s.allowed c r.1 r.2 true) then .error badContents
      else if (UBlock.reads b).any (fun r => s.readErr c r.1 r.2 == some stInvalid) then .error badContents
      else if s.meetsFlip (UBlock.status b) 64 ∨ s.writeErr (partCtx p) (UBlock.status b) 64 = some stInvalid then .error badContents
      else .ok b

-- ## Arithmetic (R380 to R382)

def vOne : FV := (0x3F800000, 0)

/-- POW by binary exponentiation over the bits of the exponent. -/
def vPow (b : FV) : Nat → Nat → FV → FV
  | 0, _, acc => acc
  | fuel + 1, k, acc =>
    if k = 0 then acc
    else
      let acc' := if k % 2 = 1 then vMul acc b else acc
      if k / 2 = 0 then acc' else vPow (vMul b b) fuel (k / 2) acc'

/-- RCP(1 - POW(beta, k)). -/
def biasOf (beta : FV) (k : Nat) : FV := vRcp (vAdd vOne (vNeg (vPow beta 64 k vOne)))

/-- SIGN of R380. -/
def vSign (x : FV) : FV :=
  match fp32F.decode x.1 with
  | .nan .. => x
  | .inf n => (if n then 0xBF800000 else 0x3F800000, x.2)
  | .fin n m _ => (if m = 0 then 0 else if n then 0xBF800000 else 0x3F800000, x.2)

/-- A value of format FP32 or FP32x2 rounded once to FP32. -/
def vOfFmt (fmt w : Nat) : FV := if fmt = 4 then let r := fp32F.ofVal strictRne (elemVal 4 false w); (r.bits, r.flags) else (w, 0)

/-- One element of rules 0x01 to 0x05: u, m and v from g, w, m and v, with the bias terms of k. -/
def UBlock.step (b : UBlock) (bias : FV × FV) (g w m v : FV) : FV × FV × FV :=
  let b1 := UBlock.beta1 b
  let b2 := UBlock.beta2 b
  let c1 := vAdd vOne (vNeg b1)
  let c2 := vAdd vOne (vNeg b2)
  let gd := if UBlock.rule b ≤ 3 then vFma (UBlock.decay b) w g else g
  match UBlock.rule b with
  | 1 => let m' := vFma b1 m gd; (m', m', v)
  | 2 => let m' := vFma b1 m gd; (vFma b1 m' gd, m', v)
  | 5 => (vSign (vFma b1 m (vMul c1 gd)), vFma b2 m (vMul c2 gd), v)
  | _ =>
    let m' := vFma b1 m (vMul c1 gd)
    let v' := vFma b2 v (vMul (vMul c2 gd) gd)
    let mh := vMul m' bias.1
    let vh := vMul v' bias.2
    let root := if vh.1 % 2 ^ 31 = 0 then (0, vh.2) else vMul vh (vRsqrt vh)
    (vMul mh (vRcp (vAdd root (UBlock.eps b))), m', v')

/-- The new master of an element from its direction u: bits in MASTER_FMT, and flags. -/
def UBlock.apply (b : UBlock) (eta : Nat) (u : FV) (old : Nat) : Nat × Nat :=
  let w := vOfFmt (UBlock.masterFmt b) old
  let u' := if 4 ≤ UBlock.rule b then vFma (UBlock.decay b) w u else u
  if UBlock.masterFmt b = 4 then
    let p := vMul (vNeg (eta, 0)) u'
    ((dwAdd ⟨false, 0, .infinity⟩ old p.1).1, p.2)
  else vFma (vNeg (eta, 0)) u' w

/-- A master converted to OUT_FMT (R382): bits, flags, and whether it overflowed. -/
def UBlock.convert (b : UBlock) (w : Nat) : FRes :=
  let v := if UBlock.masterFmt b = 4 then elemVal 4 false w else fp32F.decode w
  match UBlock.outFmt b with
  | 1 => bf16F.ofVal strictRne v
  | 3 => let r := pairOfVal bf16F .infinity v; ⟨r.1, 0, r.2⟩
  | _ => if UBlock.masterFmt b = 4 then fp32F.ofVal strictRne v else ⟨w, 0, false⟩

/-- The ascending sum of a list. -/
def vSum (xs : List FV) : FV :=
  match xs with
  | [] => (0, 0)
  | x :: r => r.foldl vAdd x

/-- A word list as FP32 values, and back. -/
def wordsOf (bs : List Byte) : List Nat := (List.range (bs.length / 4)).map (fun i => le bs (4 * i) 4)
def bytesOf (k : Nat) (ws : List Nat) : List Byte := ws.flatMap (leBytes k)

/-- What an update computes: masters, first moments, M2 bytes, AUX bytes, the flags, and the fields of the record. -/
structure UOut where
  master : List Nat
  m1 : List Nat
  m2 : List Byte
  aux : List Byte
  flags : Nat
  updated : Nat
  frozen : Nat := 0
  untouched : Nat := 0
  level : Nat := 0
  inversions : Nat := 0
  fallback : Nat := 0

/-- What an update reads: gradients, masters, moments, M2 and AUX bytes, touched rows, frozen elements, STEP, step size. -/
structure UIn where
  grad : List Nat
  master : List Nat
  m1 : List Nat
  m2 : List Byte
  aux : List Byte
  touched : Nat → Bool
  frozen : Nat → Nat → Bool
  step : Nat
  eta : Nat

def UIn.g (x : UIn) (b : UBlock) (e : Nat) : FV := vOfFmt (UBlock.gradFmt b) (x.grad.getD e 0)

/-- Elements written back: those frozen or in untouched rows keep their values. -/
def UIn.live (x : UIn) (b : UBlock) (e : Nat) : Bool := x.touched (e / UBlock.cols b) && !x.frozen (e / UBlock.cols b) (e % UBlock.cols b)

/-- The end every rule shares: masters and first moments from each element's direction and new moment. -/
def UIn.close (x : UIn) (b : UBlock) (f : Nat → FV × FV) : UOut :=
  let rs := (List.range (UBlock.count b)).map (fun e =>
    if x.live b e then
      let um := f e
      let w := UBlock.apply b x.eta um.1 (x.master.getD e 0)
      (w.1, um.2.1, w.2 ||| um.1.2 ||| um.2.2)
    else (x.master.getD e 0, x.m1.getD e 0, 0))
  let es := List.range (UBlock.count b)
  { master := rs.map (·.1), m1 := rs.map (·.2.1), m2 := x.m2, aux := x.aux, flags := rs.foldl (fun z r => z ||| r.2.2) 0
    updated := (es.filter (x.live b)).length
    frozen := (es.filter (fun e => x.frozen (e / UBlock.cols b) (e % UBlock.cols b))).length
    untouched := ((List.range (UBlock.rows b)).filter (fun i => !x.touched i)).length }

/-- Rules 0x01 to 0x05, with the per-row counts of R389. -/
def UIn.plain (x : UIn) (b : UBlock) : UOut :=
  let counts := (List.range (UBlock.rows b)).map (fun i =>
    let n := le x.aux (4 * i) 4
    if x.touched i then min 0xFFFFFFFF (n + 1) else n)
  let biasAt (k : Nat) : FV × FV := (biasOf (UBlock.beta1 b) k, biasOf (UBlock.beta2 b) k)
  let all := biasAt (x.step + 1)
  let biases := if UBlock.sparse b then counts.map biasAt else []
  let res (e : Nat) : FV × FV × FV :=
    UBlock.step b (if UBlock.sparse b then biases.getD (e / UBlock.cols b) all else all) (x.g b e)
      (vOfFmt (UBlock.masterFmt b) (x.master.getD e 0)) (x.m1.getD e 0, 0) (le x.m2 (4 * e) 4, 0)
  let o := x.close b (fun e => ((res e).1, (res e).2.1))
  let vs := (List.range (UBlock.count b)).map (fun e => if x.live b e then (res e).2.2 else (le x.m2 (4 * e) 4, 0))
  { o with
    m2 := if UBlock.m2Bytes b = 0 then [] else bytesOf 4 (vs.map (·.1))
    aux := if UBlock.sparse b then bytesOf 4 counts else []
    flags := vs.foldl (fun z v => z ||| v.2) o.flags }

/-- Rule 0x06 (R381): the accumulators run over the whole shard; a row's sum is formed before its product with RCP(COLS) (log 191). -/
def UIn.factored (x : UIn) (b : UBlock) : UOut :=
  let nr := UBlock.rows b
  let nc := UBlock.cols b
  let c1 := vAdd vOne (vNeg (UBlock.beta1 b))
  let c2 := vAdd vOne (vNeg (UBlock.beta2 b))
  let q (i j : Nat) : FV := let g := x.g b (nc * i + j); vFma g g (UBlock.eps b)
  let inv (n : Nat) : FV := vRcp (f32OfNat n, 0)
  let rs := (List.range nr).map (fun i =>
    vFma (UBlock.beta2 b) (le x.m2 (4 * i) 4, 0) (vMul c2 (vMul (vSum ((List.range nc).map (q i))) (inv nc))))
  let cs := (List.range nc).map (fun j =>
    vFma (UBlock.beta2 b) (le x.aux (4 * j) 4, 0) (vMul c2 (vMul (vSum ((List.range nr).map (fun i => q i j))) (inv nr))))
  let rbar := vMul (vSum rs) (inv nr)
  let o := x.close b (fun e =>
    let u := vMul (x.g b e) (vRsqrt (vMul (vMul (rs.getD (e / nc) (0, 0)) (cs.getD (e % nc) (0, 0))) (vRcp rbar)))
    if UBlock.factMomentum b then
      let m := vFma (UBlock.beta1 b) (x.m1.getD e 0, 0) (vMul c1 u)
      (m, m)
    else (u, (x.m1.getD e 0, 0)))
  { o with m2 := bytesOf 4 (rs.map (·.1)), aux := bytesOf 4 (cs.map (·.1)), flags := (rs ++ cs).foldl (fun z v => z ||| v.2) o.flags }

-- ## Block Kronecker (R394 to R396)

/-- One factor after an update: its entries, its inverse, the damping level it was last inverted at, its fallback bit, the level-0 damping, whether it was inverted,
and flags. -/
structure Factor where
  f : Mat
  inv : Mat
  level : Nat
  /-- The highest level tried. -/
  reached : Nat
  fall : Bool
  delta : Nat
  done : Bool
  flags : Nat

/-- The damping of a level. -/
def dampAt (b : UBlock) (n : Nat) (f : Mat) (level : Nat) : FV :=
  let t := vSum ((List.range n).map (fun i => (Mat.get f i i, 0)))
  let t' := if fGt t.1 0 && fGt 0x7F800000 t.1 then t else (0x3F800000, t.2)
  vMul (vMul (vMul (UBlock.damp b) t') (vRcp (f32OfNat n, 0))) (f32OfNat (2 ^ level), 0)

/-- The inversion of a factor (R395): the first level whose every pivot passes. The inverse is U times its transpose, formed as R394's products (log 192). -/
def invertFactor (b : UBlock) (n : Nat) (f : Mat) : Nat → Nat → Option (Mat × Nat) × Nat
  | 0, _ => (none, 0)
  | fuel + 1, level =>
    let d := dampAt b n f level
    let a (i j : Nat) : FV := if i = j then vAdd (Mat.get f i j, 0) d else (Mat.get f i j, 0)
    let t := vSum ((List.range n).map (fun i => a i i))
    let l := cholesky n a (sMul 0x35800000 t.1)
    let fl := l.1.foldl (fun z c => c.foldl (fun z v => z ||| v.2) z) (d.2 ||| t.2)
    if l.2.isEmpty then
      let cols := invUpper l.1 [] n
      let u (i : Nat) : List Nat := cols.map (fun c => (c.getD i (0, 0)).1)
      (some (matOf n n (fun i j => pairDot (u i) (u j)), level), cols.foldl (fun z c => c.foldl (fun z v => z ||| v.2) z) fl)
    else
      let r := invertFactor b n f fuel (level + 1)
      (r.1, r.2 ||| fl)

/-- A factor's update: FMA(BETA2, F, c2 * product), and its inversion when it is due. -/
def updateFactor (b : UBlock) (n : Nat) (old oldInv prod : Mat) (oldLevel : Nat) (oldFall invert : Bool) : Factor :=
  let c2 := vAdd vOne (vNeg (UBlock.beta2 b))
  let f := (List.range n).map (fun i => (List.range n).map (fun j => vFma (UBlock.beta2 b) (Mat.get old i j, 0) (vMul c2 (Mat.get prod i j, 0))))
  let fm : Mat := f.map (fun r => r.map (·.1))
  let fl := f.foldl (fun z r => r.foldl (fun z v => z ||| v.2) z) 0
  let d := dampAt b n fm 0
  if !invert then ⟨fm, oldInv, oldLevel, 0, oldFall, d.1, false, fl ||| d.2⟩
  else
    let r := invertFactor b n fm 5 0
    match r.1 with
    | some (m, k) => ⟨fm, m, k, k, false, d.1, true, fl ||| d.2 ||| r.2⟩
    | none => ⟨fm, oldInv, oldLevel, 4, true, d.1, false, fl ||| d.2 ||| r.2⟩

/-- One block after an update: its two factors, its direction D, and the flags. -/
structure KBlock where
  l : Factor
  r : Factor
  d : List (List FV)

/-- A matrix of `n` rows of a factor area with row length `b`. -/
def factorMat (m2 : List Byte) (off b n : Nat) : Mat := matOf n n (fun i j => le m2 (off + 4 * (b * i + j)) 4)

def UIn.block (x : UIn) (b : UBlock) (n : Nat) : KBlock :=
  let sz := UBlock.size b
  let i0 := n / UBlock.blocksAcross b * sz
  let j0 := n % UBlock.blocksAcross b * sz
  let rb := min sz (UBlock.rows b - i0)
  let cb := min sz (UBlock.cols b - j0)
  let g : Mat := matOf rb cb (fun i j => (x.g b (UBlock.cols b * (i0 + i) + j0 + j)).1)
  let col (j : Nat) : List Nat := (List.range rb).map (fun i => Mat.get g i j)
  let off := 16 * sz ^ 2 * n
  let k := x.step + 1
  let invert := k == 1 || k % UBlock.invEvery b == 0
  let rec8 := slice x.aux (16 * n) 16
  let l := updateFactor b rb (factorMat x.m2 off sz rb) (factorMat x.m2 (off + 8 * sz ^ 2) sz rb)
    (matOf rb rb (fun i j => pairDot (g.getD i []) (g.getD j []))) (le rec8 0 1) (bitAt (le rec8 2 1) 0) invert
  let r := updateFactor b cb (factorMat x.m2 (off + 4 * sz ^ 2) sz cb) (factorMat x.m2 (off + 12 * sz ^ 2) sz cb)
    (matOf cb cb (fun i j => pairDot (col i) (col j))) (le rec8 1 1) (bitAt (le rec8 2 1) 1) invert
  let d : List (List FV) :=
    if l.fall ∨ r.fall then
      (List.range rb).map (fun i => (List.range cb).map (fun j =>
        vMul (vMul (x.g b (UBlock.cols b * (i0 + i) + j0 + j)) (vRcp (vAdd (Mat.get l.f i i, 0) (l.delta, 0))))
          (vRcp (vAdd (Mat.get r.f j j, 0) (r.delta, 0)))))
    else
      let h := matOf rb cb (fun i j => pairDot (l.inv.getD i []) (col j))
      (List.range rb).map (fun i => (List.range cb).map (fun j =>
        (pairDot (h.getD i []) ((List.range cb).map (fun t => Mat.get r.inv t j)), 0)))
  ⟨l, r, d⟩

/-- The bytes of one factor matrix in its place of b rows. -/
def factorBytes (old : List Byte) (off b : Nat) (m : Mat) : List Byte :=
  bytesOf 4 ((List.range (b * b)).map (fun e =>
    match (m[e / b]?).bind (fun r => r[e % b]?) with
    | some w => w
    | none => le old (off + 4 * e) 4))

/-- Rule 0x07. -/
def UIn.kronecker (x : UIn) (b : UBlock) (pick : Nat) : UOut :=
  let sz := UBlock.size b
  let bs := (List.range (UBlock.blocks b)).map (x.block b)
  let o := x.close b (fun e =>
    let i := e / UBlock.cols b
    let j := e % UBlock.cols b
    let d := match bs[i / sz * UBlock.blocksAcross b + j / sz]? with
      | some k => (k.d.getD (i % sz) []).getD (j % sz) (0, 0)
      | none => (0, 0)
    let m := vFma (UBlock.beta1 b) (x.m1.getD e 0, 0) d
    (m, m))
  { o with
    m2 := (bs.zipIdx).flatMap (fun kn =>
      let off := 16 * sz ^ 2 * kn.2
      factorBytes x.m2 off sz kn.1.l.f ++ factorBytes x.m2 (off + 4 * sz ^ 2) sz kn.1.r.f ++
      factorBytes x.m2 (off + 8 * sz ^ 2) sz kn.1.l.inv ++ factorBytes x.m2 (off + 12 * sz ^ 2) sz kn.1.r.inv)
    aux := (bs.zipIdx).flatMap (fun kn =>
      let k := kn.1
      leBytes 1 k.l.level ++ leBytes 1 k.r.level ++ leBytes 1 (b2n k.l.fall + 2 * b2n k.r.fall) ++ zeros 5 ++
      (if k.l.done || k.r.done then leBytes 8 pick else slice x.aux (16 * kn.2 + 8) 8))
    flags := bs.foldl (fun z k => z ||| k.l.flags ||| k.r.flags) o.flags
    level := bs.foldl (fun z k => max z (max k.l.reached k.r.reached)) 0
    inversions := bs.foldl (fun z k => z + b2n k.l.done + b2n k.r.done) 0
    fallback := (bs.filter (fun k => k.l.fall || k.r.fall)).length }

/-- The update of a shard by its rule. -/
def UIn.run (x : UIn) (b : UBlock) (pick : Nat) : UOut :=
  match UBlock.rule b with
  | 6 => x.factored b
  | 7 => x.kronecker b pick
  | _ => x.plain b

-- ## The node (R371, R379, R392, R397)

/-- Bit of a group in the group-freeze bitmap. -/
def State.groupFrozen (s : State) (p g : Nat) : Bool :=
  match s.freezeTable p with
  | some a => bitAt (le (s.valueAt (partCtx p) (a + g / 8) 1) 0 1) (g % 8)
  | none => false

/-- Units a held update copies before its first write: clean units it does not cover whole (R371). -/
def State.unitsCopied (s : State) (rs : List (Nat × Nat)) : Nat :=
  let us := rs.flatMap (fun r => (s.touched r.1 r.2).map (fun fu => (fu, r)))
  let copied := us.filter (fun u =>
    let f := u.1.1
    let start := f.base + 65536 * u.1.2
    !bitAt (s.rd (s.flipByteKey f u.1.2)).toNat 1 && !decide (gOffset u.2.1 ≤ start ∧ start + 65536 ≤ gOffset u.2.1 + u.2.2))
  (copied.map (fun u => (u.1.1.part, u.1.1.i, u.1.2))).dedup.length

/-- The update status record. -/
def updateRecord (pick attempt units : Nat) (o : UOut) : List Byte :=
  leBytes 8 pick ++ leBytes 1 attempt ++ leBytes 1 o.level ++ leBytes 2 o.inversions ++ leBytes 4 o.fallback ++ leBytes 8 o.updated ++
  leBytes 8 o.frozen ++ leBytes 4 o.untouched ++ leBytes 4 units ++ zeros 24

/-- Elements of `k` bytes. -/
def elemsOf (k : Nat) (bs : List Byte) : List Nat := (List.range (bs.length / k)).map (fun i => le bs (k * i) k)

/-- Which status an update that ran completes with (R197, R392, R396): under STRICT_FREEZE the failing one goes first. -/
def State.updateStatus (s : State) (p : Nat) (o : UOut) : Nat :=
  if o.frozen ≠ 0 ∧ ((s.part p).strictFreeze ∨ o.fallback = 0) then stFrozenSkip
  else if o.fallback ≠ 0 then stFallback
  else stOK

/-- What an update that computed nothing leaves. -/
def UOut.none (frozen : Nat) : UOut := { master := [], m1 := [], m2 := [], aux := [], flags := 0, updated := 0, frozen := frozen }

/-- An update completes: its record is written, and the node ends once every write is acknowledged (R210, R397). -/
def State.closeUpdate (s : State) (dr : Draft) (n : Nat) (b : UBlock) (o : UOut) (units st : Nat) : State :=
  let p := dr.part
  let j := (s.part p).job
  let r := s.put (partCtx p) (.node dr.id n) (UBlock.status b) (updateRecord j.pick j.attempt units o)
  let st := if failing st then st else r.2.getD st
  let s1 := r.1.setNode dr.id n (fun y => { y with worked := true, failing := some st })
  match s1.node dr.id n with
  | some y => if y.acks = 0 then s1.endNode dr.id n st else s1
  | none => s1

/-- The update runs: its reads, its arithmetic, its held writes, its record. -/
def State.runUpdate (s : State) (dr : Draft) (n : Nat) (nd : Node) (b : UBlock) : State :=
  let c := nodeCtx dr nd
  let p := dr.part
  let d := dr.id
  let j := (s.part p).job
  let iss : Issuer := .node d n
  if s.groupFrozen p (UBlock.group b) then s.closeUpdate dr n b (UOut.none (UBlock.count b)) 0 stFrozenSkip
  else
    let mask : Except Missed (Option Mask) :=
      if UBlock.mask b = 0 then .ok none
      else match s.need c (UBlock.mask b) 32 with
        | .error e => .error e
        | .ok m => (match s.readMask c m with | .ok k => .ok (some k) | .error e => .error e)
    match (UBlock.written b ++ UBlock.reads b).findSome? (fun r => (s.readErr c r.1 r.2).map (fun st => (st, r.1, r.2))), mask with
    | some e, _ => (s.missed c e).closeUpdate dr n b (UOut.none 0) 0 e.1
    | none, .error e => (s.missed c e).closeUpdate dr n b (UOut.none 0) 0 e.1
    | none, .ok m =>
      let val (r : Nat × Nat) : List Byte := s.valueAt c r.1 r.2
      let gb := if UBlock.gradFmt b = 4 then 8 else 4
      let mb := if UBlock.masterFmt b = 4 then 8 else 4
      let grad := elemsOf gb (val (UBlock.grad b, UBlock.gradBytes b))
      let map := if UBlock.sparse b && !UBlock.nonZeroRow b then val (UBlock.touched b, ceilDiv (UBlock.rows b) 8) else []
      let head := val (UBlock.state b, 16)
      let x : UIn := {
        grad := grad
        master := elemsOf mb (val (UBlock.master b, UBlock.masterBytes b))
        m1 := if UBlock.hasM1 b then elemsOf 4 (val (UBlock.m1 b, 4 * UBlock.count b)) else []
        m2 := val (UBlock.m2 b, UBlock.m2Bytes b)
        aux := val (UBlock.aux b, UBlock.auxBytes b)
        touched := fun i =>
          if !UBlock.sparse b then true
          else if UBlock.nonZeroRow b then
            ((grad.drop (UBlock.cols b * i)).take (UBlock.cols b)).any (fun w => (vOfFmt (UBlock.gradFmt b) w).1 % 2 ^ 31 != 0)
          else mapBit map i
        frozen := fun i k => match m with | some msk => Mask.frozen msk (i / 128) (k / 128) (i % 128) | none => false
        step := le head 0 8
        eta := tget 0 (s.part p).lr (UBlock.group b) }
      let o := x.run b j.pick
      let outs := if UBlock.outEn b then o.master.map (UBlock.convert b) else []
      let ob := if UBlock.outFmt b = 1 then 2 else 4
      let units := if c.held then s.unitsCopied (UBlock.written b) else 0
      let s1 := (s.addFlags d (outs.foldl (fun z r => z ||| r.flags) o.flags)).addArith p ⟨(outs.filter (·.ovf)).length, 0, 0, 0⟩
      let w := Try.each s1 (fun s r => s.put c iss r.1 r.2)
        ([(UBlock.master b, bytesOf mb o.master), (UBlock.m1 b, if UBlock.hasM1 b then bytesOf 4 o.m1 else []), (UBlock.m2 b, o.m2),
          (UBlock.aux b, o.aux), (UBlock.out b, bytesOf ob (outs.map (·.bits))), (UBlock.state b, leBytes 8 (x.step + 1) ++ leBytes 8 j.pick)].filter
            (fun r => !r.2.isEmpty))
      match w.2 with
      | some st => w.1.closeUpdate dr n b o units st
      | none => (w.1.setJob p (fun j => if c.held then { j with updated := true } else { j with weightGen := j.weightGen + 1 })).closeUpdate dr n b o units
          (s.updateStatus p o)

/-- An UPDATE node is dispatched: its loom set is taken, or it ends. -/
def State.dispatchUpdate (s : State) (dr : Draft) (n : Nat) (nd : Node) : State :=
  let ls := s.nodeLooms dr nd
  if nd.loomSet.any (fun lg => s.isVacant dr.part lg) then s.endNode dr.id n stRetired
  else if ls.any (fun l => (s.loom l).node.isSome) then s
  else match s.checkUpdate dr nd with
    | .error e => (s.missed (nodeCtx dr nd) e).endNode dr.id n e.1
    | .ok b =>
      let s1 := ls.foldl (fun s l => s.setLoom l { s.loom l with node := some (dr.id, n), run := {} }) s
      let s2 := s1.setNode dr.id n (fun y => { y with st := .running })
      let r := Try.each s2 (fun s r => s.bring (nodeCtx dr nd) (.node dr.id n) r.1 r.2) (UBlock.reads b)
      match r.2 with
      | some st => r.1.closeUpdate dr n b (UOut.none 0) 0 st
      | none => r.1

/-- NODE_COMPLETE of an UPDATE. -/
def State.completeUpdate (s : State) (dr : Draft) (n : Nat) (nd : Node) : State :=
  if nd.acks ≠ 0 then s
  else if nd.worked then s.endNode dr.id n (nd.failing.getD stOK)
  else match s.nodeBlock (nodeCtx dr nd) nd 128 with
    | .ok b => if (UBlock.written b ++ UBlock.reads b).all (fun r => s.rangeOpen r.1 r.2) then s.runUpdate dr n nd b else s
    | .error e => (s.missed (nodeCtx dr nd) e).endNode dr.id n e.1

-- ## Step sizes (R383 to R387)

/-- Bytes of the table's parts. -/
def State.lrEntry (s : State) (p a g : Nat) : List Byte := s.valueAt (partCtx p) (a + 1024 + 32 * g) 32

/-- LR and APPLIED_PICK of a group are set by the module. -/
def State.setLr (s : State) (p a g lr pick : Nat) : State :=
  (s.put (partCtx p) .outside (a + 1024 + 32 * g + 12) (leBytes 4 lr ++ leBytes 8 pick)).1

/-- Schedule slots with EN set. -/
def State.schedules (s : State) (p a : Nat) : List (List Byte) :=
  ((List.range 8).map (fun k => s.valueAt (partCtx p) (a + 128 * k) 128)).filter (fun b => bitAt (le b 3 1) 0)

def segStart (b : List Byte) (k : Nat) : Nat := le b (16 + 16 * k) 8
def segValue (b : List Byte) (k : Nat) : Nat := le b (24 + 16 * k) 4
def segShape (b : List Byte) (k : Nat) : Nat := le b (28 + 16 * k) 1

/-- A slot of the schedule area that breaks no rule of R385 and R387. -/
def scheduleSlotOk (b : List Byte) : Bool :=
  let n := le b 2 1
  decide (le b 0 2 < 4096 ∧ 1 ≤ n ∧ n ≤ 7) && field (le b 3 1) 1 7 == 0 && zeroAt b 4 12 &&
  (List.range n).all (fun k =>
    zeroAt b (29 + 16 * k) 3 && decide (n ≤ k + 1 ∨ segShape b k < 3) && !nonFinite (fp32F.decode (segValue b k)) &&
    (decide (n ≤ k + 1) || (decide (segStart b k < segStart b (k + 1)) &&
      (segShape b k != 2 || (fGt (segValue b k) 0 && fGt (segValue b (k + 1)) 0)))))

/-- The schedule area is well formed (R387). -/
def schedulesOk (bs : List (List Byte)) : Bool := bs.all scheduleSlotOk && decide ((bs.map (fun b => le b 0 2)).Nodup)

/-- The value of a schedule at pick `q` (R386). -/
def scheduleValue (b : List Byte) (q : Nat) : Nat :=
  let n := le b 2 1
  match ((List.range n).filter (fun k => decide (segStart b k ≤ q))).getLast? with
  | none => segValue b 0
  | some k =>
    if segShape b k = 0 ∨ n ≤ k + 1 then segValue b k
    else
      let a := segValue b k
      let z := segValue b (k + 1)
      let t := sMul (f32OfNat (q - segStart b k)) (sRcp (f32OfNat (segStart b (k + 1) - segStart b k)))
      if segShape b k = 1 then sFma t (sAdd z (neg32 a)) a
      else sMul a (fexp2 strictRne (sMul t (flog2 strictRne (sMul z (sRcp a))).bits)).bits

/-- Groups that a schedule governs. -/
def State.privileged (s : State) (p g : Nat) : Bool :=
  match s.stepTable p with
  | some a => (s.schedules p a).any (fun b => le b 0 2 == g)
  | none => false

/-- Pending values of the table that apply at pick `q` (R384, 1). -/
def State.applyPending (s : State) (p q : Nat) : State :=
  match s.stepTable p with
  | none => s
  | some a => (List.range 4096).foldl (fun s g =>
      let e := s.lrEntry p a g
      let pp := le e 0 8
      if pp ≠ 0 ∧ pp ≤ q ∧ le e 16 8 < pp ∧ !s.privileged p g then s.setLr p a g (le e 8 4) pp else s) s

/-- Schedules at pick `q` (R384, 3), unless the area is malformed. -/
def State.applySchedules (s : State) (p q : Nat) : State :=
  match s.stepTable p with
  | none => s
  | some a => if !schedulesOk (s.schedules p a) then s
    else (s.schedules p a).foldl (fun s b => s.setLr p a (le b 0 2) (scheduleValue b q) q) s

/-- Whether the schedule area refuses the step of pick `q` (R387). -/
def State.schedulesBad (s : State) (p : Nat) : Bool :=
  match s.stepTable p with
  | some a => !schedulesOk (s.schedules p a)
  | none => false

/-- The snapshot of every LR. -/
def State.snapLr (s : State) (p : Nat) : State :=
  match s.stepTable p with
  | none => s
  | some a => s.setPart p { s.part p with
      lr := ((List.range 4096).map (fun g => (g, le (s.lrEntry p a g) 12 4))).filter (fun x => x.2 != 0) }

/-- STEP_SIZE_WRITE at its boundary: the pick that begins is the entry's. -/
def stepSizeNow (s : State) (x : Entry) : State :=
  let p := x.part
  let q := match s.entry x.acc with | some y => y.pick | none => 0
  match s.stepTable p with
  | none => s.invalid x.acc
  | some a =>
    if 4096 ≤ x.arg0 ∨ s.privileged p x.arg0 then s.invalid x.acc
    else (s.setLr p a x.arg0 x.arg1 q).complete x.acc stOK 0

-- ## FREEZE_SET (R391)

/-- An entry of a FREEZE_SET that R12, R13 and its table accept. -/
def freezeEntryOk (b : List Byte) : Bool :=
  let op := le b 0 1
  decide (1 ≤ op ∧ op ≤ 4) && zeroAt b 1 1 && zeroAt b 6 2 && zeroAt b 16 16 && (op == 3 || zeroAt b 32 32) && (op != 3 || maskForm (slice b 32 32)) &&
  (decide (2 < op) || decide (le b 2 2 < 4096))

/-- The table's entries, or none where an install finds no place; group bits beside them. -/
def freezeApply (es : List (List Byte)) (bits : Nat) : List (List Byte) → Option (List (List Byte) × Nat)
  | [] => some (es, bits)
  | b :: rest =>
    let layer := le b 4 2
    let base := le b 8 8
    match le b 0 1 with
    | 1 => freezeApply es (setField bits (le b 2 2) 1 1) rest
    | 2 => freezeApply es (setField bits (le b 2 2) 1 0) rest
    | 3 =>
      let e := leBytes 2 layer ++ leBytes 1 1 ++ zeros 5 ++ leBytes 8 base ++ zeros 16 ++ slice b 32 32
      (match (es.findIdx? (freezeKey layer base)).or (es.findIdx? (fun e => !bitAt (le e 2 1) 0)) with
       | some k => freezeApply (es.set k e) bits rest
       | none => none)
    | _ => freezeApply (es.map (fun e => if freezeKey layer base e then zeros 64 else e)) bits rest

/-- FREEZE_SET at its boundary. -/
def freezeNow (s : State) (x : Entry) : State :=
  let p := x.part
  let n := x.arg1
  let c := s.entryCtx x
  match s.freezeTable p with
  | none => s.invalid x.acc
  | some a =>
    if x.arg0 % 64 ≠ 0 then s.invalid x.acc
    else match s.need c x.arg0 (64 * n) with
      | .error e => (s.missed c e).complete x.acc e.1 0
      | .ok bs =>
        let news := (List.range n).map (fun i => slice bs (64 * i) 64)
        if !news.all freezeEntryOk then s.invalid x.acc
        else match freezeApply (s.freezeEntries p) (le (s.valueAt (partCtx p) a 512) 0 512) news with
          | none => s.complete x.acc stPoolExhausted 0
          | some (es, bits) =>
            let r := (s.put (partCtx p) .outside a (leBytes 512 bits)).1.put (partCtx p) .outside (a + 1024) es.flatten
            r.1.complete x.acc (r.2.getD stOK) 0

/-- STEP_SIZE_WRITE (R384). -/
def execStepSizeWrite (e : Nat) (s : State) : Host.Outcome State Fault Refusal := finish (s.takeEffect e 0x30 stepSizeNow)

end Sys2Proof.Machine
end

