-- ==== Sys2Proof/Machine/Bubble.lean ====
section
/-!
DEFINITION. Machine/Bubble.lean: bubble-fill work that gives way (R42, R227): its looms go to bank 1 of the save area and come back from there
when the Heddle dispatches it again.
-/

namespace Sys2Proof.Machine

/-- Bank 1 of a partition. -/
def State.bubbleBank (s : State) (p : Nat) : Option Nat := (s.saveBase p).map (· + bankBytes (s.clusterCount p))

/-- A running bubble-fill node stops and the sections of its clusters are written in bank 1, but for looms that hold other displaced work there; without a
save area nothing moves (log 36), and while a loom enters a row again its retry finishes first (R103). -/
def State.displace (s : State) (d n : Nat) : State :=
  match s.draft d, s.node d n with
  | some x, some y =>
    let p := x.part
    let z := s.part p
    (match s.bubbleBank p with
     | none => s
     | some bank =>
       if y.st ≠ .running ∨ !y.bubble ∨ y.loomSet.isEmpty ∨ y.loomSet.any (fun lg => (s.loom (s.physLoom p lg)).retry) then s
       else
         let kept := z.savedBubble.filter (fun b => !y.loomSet.contains b.1)
         let cs := (y.loomSet.map (· / 8)).dedup
         let s1 := cs.foldl (fun s c => s.saveCluster p bank c (fun lg => kept.any (fun b => b.1 == lg))) s
         let saved := tcanon {} (y.loomSet.map (fun lg => (lg, s.loom (s.physLoom p lg))) ++ kept)
         let s2 := (s1.setNode d n (fun y => { y with st := .stopped })).writeHeddle p bank
         let h := s2.saveHeader p 1 ((saved.map (fun b => b.1 / 8)).dedup) (s.jobCode p)
         let s3 := ((s2.writeHeader bank h).setPart p { z with savedBubble := saved }).count p 8 1
         (y.loomSet.map (s3.physLoom p)).foldl (fun s l => s.setLoom l (s.loom l).vacate) s3)
  | _, _ => s

/-- Whether bank 1 holds displaced work of another node on a loom of this one: it would be lost (R227), so that other bubble-fill work waits for it
(DESIGN CHOICE, log 179). -/
def State.bankTaken (s : State) (dr : Draft) (n : Nat) (nd : Node) : Bool :=
  nd.bubble && nd.loomSet.any (fun lg => (s.part dr.part).savedBubble.any (fun b => b.1 == lg && b.2.node != some (dr.id, n)))

/-- The saved looms of a displaced node return from bank 1 and it runs on; none where bank 1 does not hold it. -/
def State.restoreBubble (s : State) (dr : Draft) (n : Nat) (nd : Node) : Option State :=
  let p := dr.part
  let z := s.part p
  match s.bubbleBank p with
  | none => none
  | some bank =>
    if nd.loomSet.isEmpty ∨ !nd.loomSet.all (fun lg => z.savedBubble.any (fun b => b.1 == lg && b.2.node == some (dr.id, n))) then none
    else
      let s1 := nd.loomSet.foldl (fun s lg => s.loadLoom p bank lg (tget {} z.savedBubble lg)) s
      let s2 := s1.setPart p { s1.part p with savedBubble := z.savedBubble.filter (fun b => !nd.loomSet.contains b.1) }
      some (s2.setNode dr.id n (fun y => { y with st := .running }))

/-- Every running bubble-fill node on the given physical looms gives way. -/
def State.displaceOn (s : State) (ls : List Nat) : State :=
  ls.foldl (fun s l => match (s.loom l).node with
    | some (d, n) => s.displace d n
    | none => s) s

end Sys2Proof.Machine
end

