-- ==== Sys2Proof/Machine/Shed.lean ====
section
/-!
DEFINITION. Machine/Shed.lean: the shed change on a member (R17 to R20, R31, R351 to R358): the plan and its validation, its move entries, its
end; what a lost member makes a survivor do (R326, R348, R350).
-/

namespace Sys2Proof.Machine

-- ## The plan (R351)

def planId (b : List Byte) : Nat := le b 0 4
def planFlags (b : List Byte) : Nat := le b 6 1
def planCross (b : List Byte) : Bool := bitAt (planFlags b) 0
def planResume (b : List Byte) : Bool := bitAt (planFlags b) 2
def planBuild (b : List Byte) : Nat := le b 12 4
def planMemberCount (b : List Byte) : Nat := le b 18 2
def planTensorCount (b : List Byte) : Nat := le b 20 4
def planEntryCount (b : List Byte) : Nat := le b 24 4
def planBindCount (b : List Byte) : Nat := le b 28 4
def planLanding (b : List Byte) : Nat := le b 32 4
def planProgress (b : List Byte) : Nat := le b 40 8
def planMembersAt (b : List Byte) : Nat := 64 + 32 * planTensorCount b
def planMemberBytes (b : List Byte) : Nat := ceilDiv (4 * planMemberCount b) 64 * 64
def planBindsAt (b : List Byte) : Nat := planMembersAt b + planMemberBytes b
def planMovesAt (b : List Byte) : Nat := planBindsAt b + 16 * planBindCount b
def planLength (b : List Byte) : Nat := planMovesAt b + 32 * planEntryCount b
def planTensor (b : List Byte) (i : Nat) : List Byte := slice b (64 + 32 * i) 32
def planTensors (b : List Byte) : List (List Byte) := (List.range (planTensorCount b)).map (planTensor b)
/-- The member list after the change: entry bits [15:0] (R338). -/
def planMembers (b : List Byte) : List Nat := (List.range (planMemberCount b)).map (fun i => le b (planMembersAt b + 4 * i) 2)
def planBinds (b : List Byte) : List (List Byte) := (List.range (planBindCount b)).map (fun i => slice b (planBindsAt b + 16 * i) 16)
def planMove (b : List Byte) (i : Nat) : List Byte := slice b (planMovesAt b + 32 * i) 32
def planMoves (b : List Byte) : List (List Byte) := (List.range (planEntryCount b)).map (planMove b)

def tensorClass (t : List Byte) : Nat := le t 4 1
def tensorSrc (t : List Byte) : Nat := le t 8 8
def tensorDst (t : List Byte) : Nat := le t 16 8
def tensorBytes (t : List Byte) : Nat := le t 24 8
/-- A tensor whose form is a class-4 pool entry (R351). -/
def tensorPooled (t : List Byte) : Bool := (tensorClass t == 1 || tensorClass t == 2) && tensorDst t == 0

def moveOp (m : List Byte) : Nat := le m 0 1
def moveTensor (m : List Byte) : Nat := le m 2 2
def moveCycle (m : List Byte) : Nat := le m 4 4
def moveStep (m : List Byte) : Nat := le m 8 4
def movePeer (m : List Byte) : Nat := field (le m 12 2) 0 12
def moveDesc (m : List Byte) : Nat := le m 16 8
def moveBytes (m : List Byte) : Nat := le m 24 4
def moveAfter (m : List Byte) : Nat := le m 28 4

/-- The header and tables obey R12 and R13, the counts their ranges, and the CRC matches (R352). -/
def planFormOk (b : List Byte) : Bool :=
  decide (64 ≤ b.length) && field (planFlags b) 3 5 == 0 && zeroAt b 7 1 && decide (1 ≤ planMemberCount b ∧ planMemberCount b ≤ 64) &&
  decide (1 ≤ planTensorCount b ∧ planTensorCount b ≤ 4096) && decide (planEntryCount b ≤ 1048576) && decide (planBindCount b ≤ 64) &&
  planLanding b % 65536 == 0 && zeroAt b 36 4 && zeroAt b 48 12 && b.length == planLength b && crc32 (patch b 60 (zeros 4)) == le b 60 4 &&
  (planTensors b).all (fun t => decide (tensorClass t ≤ 5) && field (le t 5 1) 1 7 == 0 && zeroAt t 6 2) &&
  (List.range (planMemberCount b)).all (fun i => zeroAt b (planMembersAt b + 4 * i + 2) 2) &&
  zeroAt b (planMembersAt b + 4 * planMemberCount b) (planMemberBytes b - 4 * planMemberCount b) &&
  (planBinds b).all (fun x => decide (1 ≤ le x 0 1 ∧ le x 0 1 ≤ 3 ∧ le x 1 1 ≤ 7 ∧ le x 2 1 ≤ 7) && zeroAt x 3 5 &&
    (le x 0 1 != 3 || le x 8 8 == 0)) &&
  (planMoves b).zipIdx.all (fun mi =>
    let m := mi.1
    decide (1 ≤ moveOp m ∧ moveOp m ≤ 3) && (decide (le m 1 1 ≤ 0x1F) || le m 1 1 == 0xFF) && decide (moveTensor m < planTensorCount b) &&
    field (le m 12 2) 12 4 == 0 && zeroAt m 14 2 && decide (moveAfter m ≤ mi.2) &&
    (moveOp m == 2 || moveDesc m % 64 == 0) &&
    !(decide (4 ≤ tensorClass (planTensor b (moveTensor m)) ∧ tensorClass (planTensor b (moveTensor m)) ≤ 5)))

/-- A cycle needs a landing area only where a step of it starts or ends here (R351, R356). -/
def planLandingOk (b : List Byte) : Bool :=
  planLanding b != 0 || (planMoves b).all (fun m => moveCycle m == 0 || moveStep m != 0 || moveOp m != 3)

-- ## Validation (R352)

/-- A module number as an address of this module gives it. -/
def State.moduleOf (s : State) (a : Nat) : Nat := if s.isLocal a then s.moduleNum else gModule a

/-- The range of a tensor descriptor may be accessed here; one on another module is that module's to check. -/
def State.tdReachable (s : State) (c : Ctx) (t : List Byte) (write : Bool) : Bool :=
  !tdValid t || !s.isLocal (tdBase t) || s.allowed c (tdBase t) (tdReach t) write

/-- Weight data moves only among loom SRAM, HBM and tier 2, here and on other modules (R18). -/
def weightSpace (a : Nat) : Bool := decide (gSpace a ≤ 2)

/-- A descriptor of a move entry; the weights of classes 0 to 2 neither come from a host window nor go to one (R18). -/
def State.moveOk (s : State) (c : Ctx) (b m : List Byte) : Bool :=
  if moveOp m = 2 then true
  else match s.block c (moveDesc m) 64 with
    | none => false
    | some d =>
      let dst := s.moduleOf (tdBase (descDst d))
      descOk d && (decide (3 ≤ tensorClass (planTensor b (moveTensor m))) || (weightSpace (tdBase (descSrc d)) && weightSpace (tdBase (descDst d)))) &&
      (!planCross b || descOp d == 1) && s.tdReachable c (descSrc d) false && s.tdReachable c (descDst d) true &&
      (if moveOp m = 3 then dst == s.moduleNum && s.isLocal (tdBase (descSrc d)) else (planMembers b).any (fun k => k % 4096 == dst))

/-- The regions of a tensor entry (R18, R67, R219). -/
def State.tensorOk (s : State) (c : Ctx) (t : List Byte) : Bool :=
  (decide (3 ≤ tensorClass t) || (weightSpace (tensorSrc t) && weightSpace (tensorDst t))) &&
  (tensorSrc t == 0 || s.allowed c (tensorSrc t) 1 false) && (tensorDst t == 0 || s.allowed c (tensorDst t) (max 1 (tensorBytes t)) true)

/-- The status of a plan's validation; a member that the list keeps must run the numeric version the plan names (R364, R365). -/
def State.checkPlan (s : State) (p : Nat) (b : List Byte) (version : Nat) : Nat :=
  let c := partCtx p
  let j := (s.part p).job
  if !planFormOk b ∨ !planLandingOk b ∨ le b 4 2 ≠ s.jobId p ∨ le b 8 4 ≠ j.memberGen ∨ (j.st == .halted) && !planResume b ∨
      (planEntryCount b ≠ 0 ∧ !s.ownHbm c p (planProgress b) (4 * planEntryCount b) 4) ∨
      !(planTensors b).all (s.tensorOk c) ∨ !(planMoves b).all (s.moveOk c b) ∨
      (planBuild b ≠ 0 ∧ version ≠ 0 ∧ version ≠ planBuild b) then stInvalid
  else if (planMembers b).any (fun k => k % 4096 == s.moduleNum) ∧ le b 16 2 ≠ s.boot.image.numeric then stVersionMismatch
  else if planBuild b = 0 then stOK
  else match s.version p (planBuild b) with
    | some v => if v.gen = j.weightGen then stOK else stVersionMismatch
    | none => stVersionMismatch

/-- The class-4 entry a halted change of the same version left for a tensor of `n` blocks, which a plan with RESUME goes on with (R357). -/
def State.leftEntry (s : State) (p w n : Nat) (taken : List (Nat × Nat)) : Option Nat :=
  let built : List Nat := match s.version p w with | some v => v.formAt.map (·.2) | none => []
  ((s.pents p).find? (fun e => e.2.cls == 4 && e.2.key == w && e.2.blocks == n && !built.contains (s.pentAddr p e.1) &&
    !taken.any (fun a => a.2 == e.1))).map (·.1)

/-- The entry of a pooled tensor. -/
def State.tensorEntry (s : State) (p : Nat) (b t : List Byte) (taken : List (Nat × Nat)) : State × Option Nat :=
  let n := max 1 (ceilDiv (tensorBytes t) 65536)
  match (if planResume b then s.leftEntry p (planBuild b) n taken else none) with
  | some e => (s, some e)
  | none => s.alloc p 4 (planBuild b) n 0

/-- The pool entries a plan asks for: class 4 by tensor, class 6 for the landing area (R246, R248, R351, R356). -/
def State.planAllocs (s : State) (p : Nat) (b : List Byte) : State × List (Nat × Nat) × Option Nat × Bool :=
  let r := ((planTensors b).zipIdx).foldl (fun (a : State × List (Nat × Nat) × Bool) ti =>
    if !a.2.2 ∨ !tensorPooled ti.1 then a
    else match a.1.tensorEntry p b ti.1 a.2.1 with
      | (s1, some e) => (s1, a.2.1 ++ [(ti.2, e)], true)
      | (s1, none) => (s1, a.2.1, false)) (s, [], true)
  if !r.2.2 ∨ planLanding b = 0 then (r.1, r.2.1, none, r.2.2)
  else match r.1.alloc p 6 0 (planLanding b / 65536) 0 with
    | (s1, some e) => (s1, r.2.1, some e, true)
    | (s1, none) => (s1, r.2.1, none, false)

-- ## Messages

/-- The data line of a SHED_REPORT (R340). -/
def shedLine (plan status phase : Nat) : List Byte := leBytes 4 plan ++ leBytes 2 status ++ leBytes 1 phase

def State.shedReport (s : State) (p plan status phase : Nat) : State := s.report p 6 (shedLine plan status phase)

-- ## The end of a job (R220, R347, R348, R357)

/-- The job halts with JOB_STATE 5; its step runs no further node. -/
def State.haltJob (s : State) (p : Nat) : State :=
  let s1 : State := { s with drafts := s.drafts.map (fun d =>
    if d.part = p ∧ !d.noStep ∧ (s.part p).job.step = some d.id then { d with failed := true } else d) }
  (s1.setJob p (fun j => { j with st := .halted, reported := false, barriers := [] })).writePages p

/-- The DRAFT_RUN of the pick completes with a status, its nodes stopped (R326, R348). -/
def State.endStep (s : State) (p status : Nat) : State :=
  match (s.part p).job.step.bind s.draft with
  | none => s
  | some d =>
    let s2 := s.cutDraft d status
    s2.setJob p (fun j => { j with step := none })

/-- A halt that a loss brings (R348): the DRAFT_RUN of the pick completes RESOURCE_RETIRED. -/
def State.haltLost (s : State) (p status : Nat) : State := ((s.settleFlips p false).endStep p status).haltJob p

-- ## The end of a shed change

/-- Who asked for a shed change gets its status. -/
def State.answerShed (s : State) (iss : Issuer) (status build : Nat) : State :=
  match iss with
  | .entry e => s.complete e status (if status = stOK then build else 0)
  | .node d n => s.endNode d n status
  | _ => s

def State.dropShed (s : State) (p : Nat) : State := s.setPart p { s.part p with shed := none }

/-- Entries the change allocated and does not keep go back at once; those of a plan with RESUME hold what the halted change moved. -/
def State.freeAllocs (s : State) (p : Nat) (x : Shed) : State :=
  ((if planResume x.plan then [] else x.allocs.map (·.2)) ++ x.landing.toList).foldl (fun s e => s.release p e) s

/-- This module itself is lost to the job: every outstanding command of the job completes RESOURCE_RETIRED (R347); a running shed change ends, and
its landing area is freed (R249). -/
def State.haltSelf (s : State) (p : Nat) : State :=
  let s0 := match (s.part p).shed.bind (·.landing) with | some e => s.release p e | none => s
  let s1 := (s0.dropWork p stRetired).settleFlips p false
  (s1.setPart p { s1.part p with streams := [], shed := none }).haltJob p

/-- A shed change ends before anything moved (R353, R358). After a loss the job cannot go on without it (R348). -/
def State.refuseShed (s : State) (p : Nat) (x : Shed) (status : Nat) : State :=
  let s1 := ((s.freeAllocs p x).dropShed p).answerShed x.issuer status 0
  if x.recovery then s1.haltLost p stRetired else s1

/-- A shed change ends after `go` without a commit: the job halts (R357, R358). -/
def State.breakShed (s : State) (p : Nat) (x : Shed) (status : Nat) : State :=
  let s1 := match x.landing with | some e => s.release p e | none => s
  let s2 := ((s1.dropShed p).answerShed x.issuer status 0)
  if x.recovery then s2.haltLost p stRetired else s2.haltJob p

-- ## Binding and release (R20, R351, R354)

/-- A bind entry takes effect; false where a schedule fails its validation (R258). -/
def State.applyBind (s : State) (p : Nat) (x : List Byte) : State × Bool :=
  let z := s.part p
  let k := le x 1 1
  match le x 0 1 with
  | 1 => (s.setPart p { z with imageTable := some (le x 8 8) }, true)
  | 2 =>
    let y := tget {} z.slots k
    (match s.readSchedule (partCtx p) p (le x 8 8) y.nodeCount with
     | .ok es => (s.setPart p { z with slots := tset {} z.slots k (y.withSchedule es z.pool.stagingEvictions) }, true)
     | .error _ => (s, false))
  | _ => (s.setPart p { z with slotAlias := tset k z.slotAlias k (le x 2 1) }, true)

/-- Storage that a FREE_SOURCE tensor leaves is released unless a form of a version that is not FREED lies there: the current one, one with
latched users, or a published one under its hold still needs it (R20, R40, R41). -/
def State.freeSource (s : State) (p : Nat) (t : List Byte) : State :=
  if !bitAt (le t 5 1) 0 ∨ tensorSrc t = 0 then s
  else match (s.pents p).find? (fun e => s.pentAddr p e.1 == tensorSrc t) with
    | none => s
    | some e =>
      if e.2.cls = 4 ∧ (s.version p e.2.key).isSome then s else s.release p e.1

/-- Where a tensor lies after the change. -/
def State.tensorAddr (s : State) (p : Nat) (x : Shed) (i : Nat) (t : List Byte) : Nat :=
  match x.allocs.find? (fun a => a.1 == i) with
  | some a => s.pentAddr p a.2
  | none => tensorDst t

/-- The forms a plan builds are marked; without their version they go back (R20, R41, R200). -/
def State.markForms (s : State) (p : Nat) (x : Shed) : State :=
  let w := planBuild x.plan
  if w = 0 then s
  else match s.version p w with
    | none => (x.allocs.map (·.2)).foldl (fun s e => s.release p e) s
    | some _ => ((planTensors x.plan).zipIdx).foldl (fun s ti =>
        let k := tensorClass ti.1 - 1
        if tensorClass ti.1 = 1 ∨ tensorClass ti.1 = 2 then
          s.setVersion p w (fun v => { v with
            forms := v.forms ||| 2 ^ k, formAt := if (v.formAt.find? (fun f => f.1 == k)).isSome ∧ bitAt v.forms k then v.formAt
              else (k, s.tensorAddr p x ti.2 ti.1) :: v.formAt.filter (fun f => f.1 != k) })
        else s) s

/-- A step's draft returns to its start under the new attempt (R326): nodes, prefetch and gathered places as at its load. -/
def State.restartDraft (s : State) (d : Draft) : State :=
  let s1 := s.freeDraft d
  s1.setDraft d.id (fun x => { x with
    nodes := x.nodes.map (fun n => { bytes := n.bytes, succ := n.succ, deps := le n.bytes 14 2 }), info := 0, strict := 0, failed := false
    issued := [], fetched := [], fetchAcks := [], fetchWorked := [], staged := [] })

/-- A member that the committed list leaves out has left the job (R365). -/
def State.leaveJob (s : State) (p : Nat) : State :=
  (s.setJob p (fun _ => {})).writePages p

/-- The nodes of the resident drafts that a partition's slots run, through their aliases (R351, R449; log 196). -/
def State.residentNodes (s : State) (p : Nat) : List Node :=
  (((List.range 8).map (fun k => tget k (s.part p).slotAlias k)).dedup).flatMap (fun k =>
    let z := tget {} (s.part p).slots k
    if z.loaded then (List.range z.nodeCount).map (fun i =>
      { bytes := (z.onDie.find? (·.1 == i)).elim (s.hbm (s.areaOff p k + 128 * i) 128) (·.2), succ := [], deps := 0 }) else [])

/-- A node names a logical loom: its loom set, or TARGET_LOOM of its image. -/
def State.namesLoom (s : State) (p lg : Nat) (n : Node) : Bool :=
  n.loomSet.contains lg || (n.onLooms && (match s.imageEntry p n.image with
    | some (len, a) => let i : Img := (s.fetch (partCtx p) a len).getD []; i.epilogue && i.outDest == 1 && i.targetLoom == lg
    | none => false))

/-- A committed shed change ends the guest mappings that no resident draft names any more (R449). -/
def State.endGuests (s : State) (p : Nat) : State :=
  let ns := s.residentNodes p
  (s.guests.filter (fun g => g.part == p && !ns.any (s.namesLoom p g.logical))).foldl State.endGuest s

/-- SHED_DECIDE commit, or a SOLO member's own (R354): member list and MEMBER_GEN, FORMS, the completion; a halted job returns to the step
boundary (R357, R358), a recovered one runs its draft again (R348). No message carries the list before: where the member does not know it,
whether MEMBER_GEN rises is free (log 35). -/
def State.commitShed (s : State) (p : Nat) (x : Shed) : State :=
  let list := planMembers x.plan
  let old := (s.part p).members
  let s0 := if old.isEmpty then s.draw.2 else s
  let rise := if s.solo p then 0 else if old.isEmpty then s.draw.1 % 2 else if old.all list.contains && list.all old.contains then 0 else 1
  let s1 := (s0.markForms p x)
  let s2 := match x.landing with | some e => s1.release p e | none => s1
  let z := s2.part p
  let s3 := s2.setPart p { z with members := list, shed := none, job := { z.job with
    memberGen := z.job.memberGen + rise, st := if z.job.st = .halted then .boundary else z.job.st } }
  let s4 := ((s3.answerShed x.issuer stOK (planBuild x.plan)).endGuests p).writePages p
  if !s.solo p ∧ !list.any (fun k => k % 4096 == s.moduleNum) then s4.leaveJob p else s4

-- ## Move entries (R354, R356)

/-- Bytes that RECV entries of a peer have taken. -/
def Shed.taken (x : Shed) (peer : Nat) : Nat :=
  x.done.foldl (fun n i => let m := planMove x.plan i; if moveOp m = 2 ∧ movePeer m = peer then n + moveBytes m else n) 0

/-- Entry `i` of a cycle on another module waits for its SHED_CLEAR: as many from the peer as such entries have been issued to it (log 37). -/
def Shed.gated (m : List Byte) : Bool := moveOp m == 1 && moveCycle m != 0 && moveStep m != 0

def Shed.clear (x : Shed) (m : List Byte) : Bool :=
  !Shed.gated m || decide ((x.issued.filter (fun i => let y := planMove x.plan i; Shed.gated y && movePeer y == movePeer m)).length <
    (x.cleared.filter (fun k => k % 4096 == movePeer m)).length)

/-- Entries of a cycle run in STEP order, and one cycle at a time through the landing area in ascending id. -/
def Shed.inOrder (x : Shed) (m : List Byte) : Bool :=
  let ms := (planMoves x.plan).zipIdx
  moveCycle m == 0 ||
  (ms.all (fun y => moveCycle y.1 != moveCycle m || decide (moveStep m ≤ moveStep y.1) || x.done.contains y.2) &&
   (!(moveOp m == 3 && moveStep m == 0) ||
     ms.all (fun y => moveCycle y.1 == 0 || decide (moveCycle m ≤ moveCycle y.1) || x.done.contains y.2 ||
       !ms.any (fun w => moveCycle w.1 == moveCycle y.1 && moveOp w.1 == 3 && moveStep w.1 == 0))))

/-- A SEND or LOCAL entry may be issued now. -/
def Shed.mayIssue (x : Shed) (i : Nat) : Bool :=
  let m := planMove x.plan i
  x.go && x.failing.isNone && !x.issued.contains i && !x.done.contains i && moveOp m != 2 &&
  (moveAfter m == 0 || x.done.contains (moveAfter m - 1)) && x.inOrder m && x.clear m

/-- SHED_CLEAR for an entry of a cycle that is done: to every peer whose next step writes what it emptied here (R356). -/
def State.sendClear (s : State) (p : Nat) (x : Shed) (i : Nat) : State :=
  let m := planMove x.plan i
  if moveCycle m = 0 then s
  else ((planMoves x.plan).filter (fun y => moveOp y == 2 && moveCycle y == moveCycle m && moveStep y == moveStep m + 1)).foldl (fun s y =>
    s.sendMgr p (movePeer y) 0xC (s.jobId p) (leBytes 4 (planId x.plan) ++ leBytes 4 i)) s

/-- Entry `i` is done: its PROGRESS word is 1, and what waits for it is told (R356, R357). -/
def State.moveDone (s : State) (p i : Nat) : State :=
  match (s.part p).shed with
  | none => s
  | some x =>
    let s1 := (s.put (partCtx p) .outside (planProgress x.plan + 4 * i) (leBytes 4 1)).1
    (s1.setShed p (fun x => { x with done := x.done ++ [i], issued := if x.issued.contains i then x.issued else x.issued ++ [i] })).sendClear p x i

/-- Looms whose SRAM a descriptor writes here (R355). -/
def State.writtenLooms (s : State) (d : List Byte) : List Nat :=
  let t := descDst d
  if s.isLocal (tdBase t) ∧ gSpace (tdBase t) = 2 then (loomPieces (gOffset (tdBase t)) (tdReach t)).map (·.1) else []

/-- A SEND or LOCAL entry runs its descriptor on the committed banks (R351, R370). -/
def State.issueMove (s : State) (p i : Nat) (x : Shed) : State :=
  match s.block (partCtx p) (moveDesc (planMove x.plan i)) 64 with
  | none => (s.meet (partCtx p) (moveDesc (planMove x.plan i)) 64).failIssuer (.shed p i) (s.blockErr (partCtx p) (moveDesc (planMove x.plan i)) 64)
  | some d =>
    let s1 := (s.displaceOn (s.writtenLooms d)).setShed p (fun x => { x with issued := x.issued ++ [i] })
    let r := s1.shuttleRun (partCtx p) (.shed p i) p d
    match r.2 with
    | some st => r.1.failIssuer (.shed p i) st
    | none => match (r.1.part p).shed with
      | some y => if tget 0 y.acks i = 0 then r.1.moveDone p i else r.1
      | none => r.1

/-- Work of a SEND or LOCAL entry that was issued and is not done. -/
def Shed.atWork (x : Shed) : Bool := x.issued.any (fun i => !x.done.contains i)

/-- A SEND or LOCAL entry is at work or can be issued: what a member finishes after another has failed; an entry that waits for another member's bytes
or SHED_CLEAR is not its own to finish (R357, log 188). -/
def Shed.canGoOn (x : Shed) : Bool := x.atWork || (List.range (planEntryCount x.plan)).any x.mayIssue

/-- A RECV entry has its bytes; one whose PEER is lost is abandoned (R354, R358). -/
def State.recvWhole (s : State) (p : Nat) (x : Shed) (i : Nat) : Bool :=
  let m := planMove x.plan i
  moveOp m == 2 && !x.done.contains i && decide (x.taken (movePeer m) + moveBytes m ≤ tget 0 x.arrived (movePeer m)) &&
  !(x.failing.isSome && (s.part p).job.lost.contains (movePeer m))

/-- RECV entries whose bytes have come are done (R354). -/
def State.takeArrived (s : State) (p : Nat) (x : Shed) : State :=
  (List.range (planEntryCount x.plan)).foldl (fun s i => match (s.part p).shed with
    | some y => if s.recvWhole p y i then s.moveDone p i else s
    | none => s) s

/-- Every entry is done. -/
def Shed.allDone (x : Shed) : Bool := (List.range (planEntryCount x.plan)).all x.done.contains

/-- What a change of the entries leads to (R354, R357): a failure here is reported and ends the change once nothing is at work, one
elsewhere once nothing can go on; the last entry binds, releases and reports phase 1. -/
def State.settleShed (s : State) (p : Nat) : State :=
  match (s.part p).shed with
  | none => s
  | some x =>
    if !x.go then s
    else match x.failing with
      | some st =>
        let s1 := if x.reported ∨ s.solo p then s
          else (s.shedReport p (planId x.plan) st 1).setShed p (fun x => { x with reported := true })
        if x.atWork then s1 else (s1.takeArrived p x).breakShed p x st
      | none =>
        if x.peerFailing.isSome then
          let s1 := s.takeArrived p x
          match (s1.part p).shed with
          | some y => if y.canGoOn then s1 else s1.breakShed p y (x.peerFailing.getD stInvalid)
          | none => s1
        else if !x.allDone ∨ x.reported then s
        else
          let r := (planBinds x.plan).foldl (fun (a : State × Bool) b => let t := a.1.applyBind p b; (t.1, a.2 && t.2)) (s, true)
          if !r.2 then
            let s1 := if s.solo p then r.1 else r.1.shedReport p (planId x.plan) stInvalid 1
            s1.breakShed p x stInvalid
          else
            let s1 := (planTensors x.plan).foldl (fun s t => s.freeSource p t) r.1
            if s.solo p then s1.commitShed p x
            else (s1.setShed p (fun x => { x with reported := true })).shedReport p (planId x.plan) stOK 1

/-- `go` (R354): a RESUME plan skips the entries PROGRESS records and sends their SHED_CLEAR again (R357). -/
def State.goShed (s : State) (p : Nat) (x : Shed) : State :=
  let old := if planResume x.plan then (List.range (planEntryCount x.plan)).filter (fun i =>
      le (s.valueAt (partCtx p) (planProgress x.plan + 4 * i) 4) 0 4 == 1) else []
  let s1 := s.setShed p (fun x => { x with go := true, done := old, issued := old })
  (old.foldl (fun s i => s.sendClear p x i) s1).settleShed p

-- ## The beginning (R353)

/-- The shed change of a plan begins: validation, allocations, SHED_REPORT phase 0; a SOLO member goes on or ends at once. -/
def State.startShed (s : State) (p : Nat) (iss : Issuer) (a len version : Nat) (recovery : Bool) (c : Ctx) : State :=
  let plan := if 64 ≤ len then s.block c a len else some []
  let b := plan.getD []
  let st := match plan with
    | none => s.blockErr c a len
    | some b => s.checkPlan p b version
  let r := if st = stOK then s.planAllocs p b else (if plan.isNone then s.meet c a len else s, [], none, true)
  let x : Shed := { issuer := iss, plan := b, version := version, recovery := recovery, allocs := r.2.1, landing := r.2.2.1
                    status := if st ≠ stOK then st else if r.2.2.2 then stOK else stPoolExhausted }
  let s1 := r.1.setPart p { r.1.part p with shed := some x }
  if s.solo p then (if x.status = stOK then s1.goShed p x else s1.refuseShed p x x.status)
  else s1.shedReport p (planId b) x.status 0

-- ## SHED_DECIDE and SHED_CLEAR

/-- SHED_DECIDE on a member (R353, R354, R357, R358). -/
def State.decideShed (s : State) (p plan status phase : Nat) : State :=
  match (s.part p).shed with
  | none => s
  | some x =>
    if planId x.plan ≠ plan then s
    else if phase = 0 then
      if x.go then s
      else if status = stOK ∧ x.status = stOK then s.goShed p x
      else s.refuseShed p x (if status = stOK then x.status else status)
    else if !x.go then s
    else if status ≠ stOK then
      (s.setShed p (fun x => { x with peerFailing := if x.peerFailing.isSome then x.peerFailing else some status, reported := true })).settleShed p
    else if x.reported ∧ x.failing.isNone then
      let s1 := s.commitShed p x
      if x.recovery then
        (match (s1.part p).job.step.bind s1.draft with
         | some d => s1.restartDraft d
         | none => s1)
      else s1
    else s

/-- SHED_CLEAR: the peer's entry is done (R356). -/
def State.clearShed (s : State) (p src plan i : Nat) : State :=
  match (s.part p).shed with
  | some x => if planId x.plan = plan ∧ !x.cleared.contains (src + 4096 * i) then s.setShed p (fun x => { x with cleared := x.cleared ++ [src + 4096 * i] }) else s
  | none => s

/-- Bytes of a peer's write that has landed in the partition (R354). -/
def State.shedBytes (s : State) (p src n : Nat) : State :=
  s.setShed p (fun x => { x with arrived := tset 0 x.arrived src (tget 0 x.arrived src + n) })

-- ## A lost member (R326, R347, R348, R350)

/-- Steps 1 to 3 of R326; at a boundary the new attempt is the next pick's (R358). -/
def State.abortPick (s : State) (p : Nat) : State :=
  let mine (d : Draft) : Bool := d.part == p && ((s.part p).job.step == some d.id || (match d.loop with | some l => (tget {} (s.part p).loops l).bound | none => false))
  let ids := (s.drafts.filter mine).map (fun (d : Draft) => d.id)
  let s1 := ids.foldl (fun s d => s.abortBolts p d) s
  let s2 : State := { s1.vacateLooms ids.contains with
    fabric := { s1.fabric with requests := s1.fabric.requests.map (fun r => match r.issuer with
      | .node d _ => if ids.contains d then { r with issuer := .outside } else r
      | _ => r) } }
  let s3 := (s2.drafts.filter mine).foldl State.restartDraft s2
  let x := s3.part p
  let s4 := s3.setPart p { x with
    streams := x.streams.filter (fun y => !ids.contains y.draft)
    job := { x.job with attempt := x.job.attempt + 1, verdict := 0, reported := false, rerun := true, barriers := [], updated := false, ended := none } }
  s4.settleFlips p false

/-- The entry of the recovery directory for a generation and a lost module: plan address and length (R350). -/
def State.recoveryPlan (s : State) (p gen lost : Nat) : Option (Nat × Nat) :=
  let a := s.addr (.jobRec p 0) (.jobRec p 1)
  let c := partCtx p
  if a = 0 then none
  else match s.block c a 64 with
    | none => none
    | some h =>
      if 256 < le h 0 4 ∨ !zeroAt h 4 60 then none
      else match s.block c (a + 64) (32 * le h 0 4) with
        | none => none
        | some es => ((chunks 32 es).find? (fun e => le e 0 4 == gen && field (le e 4 2) 0 12 == lost)).map (fun e => (le e 8 8, le e 16 4))

/-- A survivor's part after a loss: the recovery plan found for the generation before, or a failing report (R348). -/
def State.recover (s : State) (p gen lost : Nat) : State :=
  match s.recoveryPlan p gen lost with
  | some (a, len) => s.startShed p .outside a len 0 true (partCtx p)
  | none =>
    let x : Shed := { issuer := .outside, plan := [], status := stRetired, recovery := true }
    (s.setPart p { s.part p with shed := some x }).shedReport p 0 stRetired 0

/-- LOST on a member (R326, R347, R348, R358). A generation it already holds is ignored (R340). -/
def State.lostMember (s : State) (p lost gen : Nat) : State :=
  let j := (s.part p).job
  if !j.joined ∨ j.st = .halted ∨ gen ≤ j.memberGen then s
  else if lost = s.moduleNum then s.haltSelf p
  else
    let s1 := s.setJob p (fun j => { j with memberGen := gen, lost := j.lost ++ [lost] })
    let go (s : State) : State :=
      let s2 := s.abortPick p
      if 256 ≤ (s2.part p).job.attempt then (s2.endStep p stRetryExhausted).haltJob p else s2.recover p j.memberGen lost
    match (s1.part p).shed with
    | none => go s1
    | some x =>
      if x.recovery then
        (if x.go then (s1.setShed p (fun x => { x with failing := some stRetired, reported := true })).settleShed p else s1.refuseShed p x stRetired)
      else if !x.go then go (s1.refuseShed p x stRetired)
      else (s1.setShed p (fun x => { x with failing := some stRetired, reported := true })).settleShed p

-- ## Commands

/-- SHED_CHANGE (R17, R189, R353): it takes effect at its boundary, one at a time; a halted job takes a plan with RESUME (R357). -/
def shedChange (s : State) (e : Nat) : State :=
  match s.startable e 0x22 with
  | none => s
  | some x =>
    let p := x.part
    if (s.part p).st.idle ∨ !s.hasJob p then s.invalid e
    else s.asMember x (fun s =>
      let c := s.entryCtx x
      let begin (s : State) : State := (s.mark x).startShed p (.entry e) x.arg0 x.arg1 x.arg2 false c
      let resume := match s.block c x.arg0 64 with | some b => planResume b | none => false
      if (s.part p).shed.isNone && (s.due x || ((s.part p).job.st == .halted && resume)) then begin s
      else s.setEntry e (fun y => { y with st := .boundary }))

/-- SHED_ENTRY_COMPLETE (R354, R356, R357): a SEND or LOCAL entry is issued, or its last acknowledgement has come; a RECV entry has its
bytes; `failed` is a read that met a poisoned line. -/
def shedEntry (s : State) (p i : Nat) (failed : Bool) : State :=
  match (s.part p).shed with
  | none => s
  | some x =>
    let m := planMove x.plan i
    if !x.go ∨ planEntryCount x.plan ≤ i ∨ x.done.contains i ∨ !s.runs p then s
    else if moveOp m = 2 then
      if s.recvWhole p x i then (s.moveDone p i).settleShed p else s
    else if x.issued.contains i then
      if failed then (s.failIssuer (.shed p i) stRetryExhausted).settleShed p
      else if tget 0 x.acks i = 0 then (s.moveDone p i).settleShed p else s
    else if !x.mayIssue i then s
    else if failed then (s.failIssuer (.shed p i) stRetryExhausted).settleShed p
    else (s.issueMove p i x).settleShed p

end Sys2Proof.Machine
end

