-- ==== Sys2Proof/Machine/Manager.lean ====
section
/-!
DEFINITION. Machine/Manager.lean: the manager logic (R333 to R349): roles, job-table slots, joining, step consensus, barriers, the decisions of a
shed change, losses, pods that report upward, standbys, heartbeats, the job page. Members are numbered by bits [15:0] of their table entry.
-/

namespace Sys2Proof.Machine

-- ## Roles (R333, R335)

/-- The module decides: a manager, or a standby that has taken over. -/
def State.acts (s : State) : Bool := s.role == 1 || s.role == 2 || (s.role == 3 && s.manager.tookOver)

/-- Heartbeat periods missed before a loss (R336: 0 acts as 1). -/
def State.hbMiss (s : State) : Nat := max 1 (s.fld .mgrHb 8 4)

/-- Modules of the manager list (R336). -/
def State.mgrList (s : State) : List Nat :=
  (List.range 8).filterMap (fun i => if s.bit (.mgrList i) 12 then some (s.fld (.mgrList i) 0 12) else none)

/-- A module that a takeover has replaced by another (R349). -/
def State.standIn (s : State) (m : Nat) : Nat :=
  match s.manager.replaced.find? (fun r => r.1 == m) with
  | some r => r.2
  | none => m

/-- The parents of a pod manager: PARENT, and PARENT_STBY. -/
def State.parents (s : State) : List Nat :=
  (if s.bit .mgrCfg 24 then [s.standIn (s.fld .mgrCfg 0 12)] else []) ++ (if s.bit .mgrCfg 25 then [s.fld .mgrCfg 12 12] else [])

/-- Modules that mirror this manager: those of the manager list that are neither itself nor a parent (log 38). -/
def State.mirrorers (s : State) : List Nat :=
  s.mgrList.filter (fun m => m != s.moduleNum && !(s.bit .mgrCfg 24 && m == s.fld .mgrCfg 0 12) && !(s.bit .mgrCfg 25 && m == s.fld .mgrCfg 12 12))

-- ## Job-table slots (R337, R338)

def State.slotOn (s : State) (i : Nat) : Bool := s.bit (.jtCtl i) 16
def State.slotUp (s : State) (i : Nat) : Bool := s.bit (.jtCtl i) 17 && s.role == 1
def State.slotJob (s : State) (i : Nat) : Nat := s.fld (.jtCtl i) 0 16
def State.floor (s : State) (i : Nat) : Nat := s.fld (.jtVer i) 0 16
def State.numericOf (s : State) (i : Nat) : Nat := s.fld (.jtVer i) 16 16

def State.mjob (s : State) (i : Nat) : MgrJob := tget {} s.manager.jobs i
def State.setMjob (s : State) (i : Nat) (f : MgrJob → MgrJob) : State :=
  { s with manager := { s.manager with jobs := tset {} s.manager.jobs i (f (s.mjob i)) } }

/-- The active slot of a job. -/
def State.slotOf (s : State) (job : Nat) : Option Nat :=
  if s.role = 0 then none else firstIdx 64 (fun i => s.slotOn i && s.slotJob i == job)

/-- The member table as it stands: none where R338 does not accept it or it cannot be read. -/
def State.memberTable (s : State) (i : Nat) : Option (List Nat) :=
  let a := s.addr (.jtAddr i 0) (.jtAddr i 1)
  let c : Ctx := { part := none, admin := true }
  if !s.isLocal a ∨ gSpace a ≠ 0 then none
  else match s.block c a 64 with
    | none => none
    | some h =>
      let n := le h 0 4
      if n = 0 ∨ 64 < n ∨ !zeroAt h 4 60 then none
      else match s.block c (a + 64) (4 * n) with
        | none => none
        | some b => if (List.range n).all (fun k => zeroAt b (4 * k + 2) 2) then some ((List.range n).map (fun k => le b (4 * k) 2)) else none

-- ## The job page (R345)

/-- The locators of the last SKIP: 16 bytes each, ascending by module. -/
def MgrJob.locatorBytes (j : MgrJob) : List Byte :=
  let b := ((sortBy (fun a b => decide (a.1 % 4096 ≤ b.1 % 4096)) j.locators).take 16).flatMap (fun l => (l.2 ++ zeros 12).take 12 ++ zeros 4)
  b ++ zeros (256 - b.length)

def State.mgrPageBytes (s : State) (i : Nat) : List Byte :=
  let j := s.mjob i
  leBytes 8 j.page ++ s.stamp 0x21 none ++ leBytes 8 j.pick ++ leBytes 1 j.attempt ++ leBytes 1 j.verdict ++ leBytes 1 j.st ++ zeros 1 ++
  leBytes 4 j.gen ++ leBytes 2 j.members.length ++ leBytes 2 j.lostCount ++ leBytes 2 j.lastLost ++ zeros 2 ++ leBytes 8 j.skipped ++ zeros 8 ++
  j.locatorBytes

/-- The page written, GEN advanced by two (R198). -/
def State.writeMgrPage (s : State) (i : Nat) : State :=
  let s1 := s.setMjob i (fun j => { j with page := (j.page + 2) % 2 ^ 64 })
  s1.putAdminPage (s1.addr (.jtAddr i 2) (.jtAddr i 3)) (s1.mgrPageBytes i)

/-- The page of the job that a partition is a member of, where this module manages it (R345: on QUERY). -/
def State.queryMgrPage (s : State) (p : Nat) : State :=
  match s.slotOf (s.jobId p) with
  | some i => s.writeMgrPage i
  | none => s

-- ## Sending

/-- A message of the manager logic to modules; a standby that has not taken over sends nothing (R349). -/
def State.mgrSend (s : State) (i msg : Nat) (line : List Byte) (mods : List Nat) : State :=
  if s.acts then mods.dedup.foldl (fun s m => s.sendMgr 0 m msg (s.slotJob i) line) s else s

/-- A decision goes to every member of a slot, and to what mirrors this manager. -/
def State.decideAll (s : State) (i msg : Nat) (line : List Byte) : State :=
  s.mgrSend i msg line (((s.mjob i).members.map (· % 4096)) ++ (if s.role = 3 then [] else s.mirrorers))

/-- A pod's report to its parents, kept until the matching decision (R340). -/
def State.reportUp (s : State) (i msg : Nat) (line : List Byte) : State :=
  (s.setMjob i (fun j => { j with upward := j.upward.filter (fun u => u.1 != msg) ++ [(msg, line)] })).mgrSend i msg line s.parents

def stepLineOf (pick attempt verdict gen : Nat) (loc : List Byte) : List Byte :=
  leBytes 8 pick ++ leBytes 1 attempt ++ leBytes 1 verdict ++ zeros 2 ++ leBytes 4 gen ++ (loc ++ zeros 12).take 12

-- ## Joining (R341, R342)

def ackLine (status pick gen : Nat) : List Byte := leBytes 2 status ++ zeros 6 ++ leBytes 8 pick ++ leBytes 4 gen

def State.ackJoin (s : State) (i member status : Nat) : State :=
  s.mgrSend i 3 (ackLine status (s.mjob i).pick (s.mjob i).gen) [member % 4096]

/-- Every member has joined: the job runs, or a pod joins its parent first (log 39). -/
def State.formed (s : State) (i : Nat) : State :=
  let j := s.mjob i
  if j.st ≠ 0 ∨ !j.members.all j.joined.contains then s
  else if s.slotUp i then
    s.reportUp i 2 (leBytes 2 s.boot.image.version ++ leBytes 2 s.boot.image.numeric ++ leBytes 4 0)
  else
    let s1 := s.setMjob i (fun j => { j with st := 1 })
    (j.members.foldl (fun s m => s.ackJoin i m stOK) s1).writeMgrPage i

/-- A module joins the running job: MEMBER_GEN rises by one, and its first step is the next pick. -/
def State.takeMember (s : State) (i m : Nat) : State :=
  let s1 := s.setMjob i (fun j => { j with
    members := if j.members.contains m then j.members else j.members ++ [m]
    joined := if j.joined.contains m then j.joined else j.joined ++ [m], waiting := j.waiting.filter (· != m), gen := j.gen + 1 })
  (s1.ackJoin i m stOK).writeMgrPage i

/-- JOIN (R341): the first status that applies; OK is answered once the job forms, or at the job's next boundary. -/
def State.joinIn (s : State) (i src : Nat) (line : List Byte) : State :=
  let m := src + 4096 * (le line 4 4 % 16)
  let s1 := s.setMjob i (fun j => { j with versions := tset 0 j.versions m (le line 0 4) })
  let j := s1.mjob i
  if le line 0 2 < s.floor i then s1.ackJoin i m stCompatFloor
  else if le line 2 2 ≠ s.numericOf i then s1.ackJoin i m stVersionMismatch
  else if j.st = 0 then
    if j.members.contains m then
      (s1.setMjob i (fun j => { j with joined := if j.joined.contains m then j.joined else j.joined ++ [m] })).formed i
    else s1
  else if j.members.contains m ∨ j.members.isEmpty then s1.takeMember i m
  else s1.setMjob i (fun j => { j with waiting := if j.waiting.contains m then j.waiting else j.waiting ++ [m] })

-- ## Step consensus (R324, R340, R343)

/-- The decision of a pick: state, STEP_DECIDE, joiners, page. -/
def State.decideStep (s : State) (i pick attempt verdict : Nat) : State :=
  let j := s.mjob i
  let mine := j.reports.filter (fun r => r.pick == pick && r.attempt == attempt)
  let s1 := s.setMjob i (fun j => { j with
    pick := pick, attempt := attempt, verdict := verdict, current := 0, reports := j.reports.filter (fun r => decide (pick < r.pick))
    barriers := [], upward := j.upward.filter (fun u => u.1 != 4)
    skipped := if verdict = 1 then j.skipped + 1 else j.skipped
    locators := if verdict = 1 then (mine.filter (fun r => r.verdict == 1)).map (fun r => (r.member, r.locator)) else j.locators })
  let s2 := s1.decideAll i 5 (leBytes 8 pick ++ leBytes 1 attempt ++ leBytes 1 verdict)
  (j.waiting.foldl (fun s m => s.takeMember i m) s2).writeMgrPage i

/-- The report of the lowest-numbered member among some. -/
def lowestRep (rs : List StepRep) : Option StepRep :=
  rs.foldl (fun b r => match b with
    | none => some r
    | some x => if r.member % 4096 < x.member % 4096 then some r else some x) none

/-- Once every present member's report for a pick and the current attempt has come, the manager decides; a pod reports upward. -/
def State.tryDecide (s : State) (i pick : Nat) : State :=
  let j := s.mjob i
  let rs := j.reports.filter (fun r => r.pick == pick && r.attempt == j.current % 256)
  if j.members.isEmpty ∨ !j.members.all (fun m => rs.any (fun r => r.member == m)) then s
  else
    let v := rs.foldl (fun v r => max v r.verdict) 0
    if s.slotUp i then
      let loc := match lowestRep (rs.filter (fun r => le r.locator 0 4 != 0xFFFFFFFF)) with | some r => r.locator | none => leBytes 4 0xFFFFFFFF
      s.reportUp i 4 (stepLineOf pick (j.current % 256) v j.gen loc)
    else s.decideStep i pick (j.current % 256) v

/-- STEP_REPORT on the manager; one that it already holds or has decided is ignored (R340), and one of an older MEMBER_GEN than the members have been
told (R346, log 189). -/
def State.stepReportIn (s : State) (i m : Nat) (line : List Byte) : State :=
  let j := s.mjob i
  let pick := le line 0 8
  let attempt := le line 8 1
  if !j.members.contains m ∨ le line 12 4 < j.told ∨ pick ≤ j.pick then s
  else if attempt ≠ j.current % 256 ∨ j.reports.any (fun r => r.member == m && r.pick == pick && r.attempt == attempt) then s
  else (s.setMjob i (fun j => { j with
    reports := j.reports ++ [{ member := m, pick := pick, attempt := attempt, verdict := min 2 (le line 9 1), locator := slice line 16 12 }] })).tryDecide i pick

-- ## Barriers (R344)

def State.barrierReportIn (s : State) (i m : Nat) (line : List Byte) : State :=
  let pick := le line 0 8
  let node := le line 8 2
  let j := s.mjob i
  if !j.members.contains m then s
  else
    let s1 := s.setMjob i (fun j => { j with barriers := if j.barriers.contains (m, pick, node) then j.barriers else j.barriers ++ [(m, pick, node)] })
    if !j.members.all (fun k => k == m || j.barriers.contains (k, pick, node)) then s1
    else
      let l := leBytes 8 pick ++ leBytes 2 node
      let s2 := s1.setMjob i (fun j => { j with barriers := j.barriers.filter (fun b => !(b.2.1 == pick && b.2.2 == node)) })
      if s.slotUp i then s2.reportUp i 0xA l else s2.decideAll i 0xB l

-- ## Shed changes (R353, R354, R357, R364, R365)

/-- The plan of this module's own shed change in a job, where it is a member. -/
def State.ownPlan (s : State) (job plan : Nat) : Option (List Byte) :=
  (s.parts.find? (fun p => s.hasJob p.1 && s.jobId p.1 == job && (match p.2.shed with | some x => planId x.plan == plan | none => false))).bind
    (fun p => p.2.shed.map (·.plan))

/-- The status of a list that names a module below FLOOR or of another numeric version, as far as the manager knows them (R365, log 35). -/
def State.listStatus (s : State) (i plan : Nat) : Nat :=
  match s.ownPlan (s.slotJob i) plan with
  | none => stOK
  | some b =>
    let num := if planCross b then le b 16 2 else s.numericOf i
    let known := (planMembers b).filterMap (fun m => ((s.mjob i).versions.find? (fun v => v.1 == m)).map (·.2))
    if known.any (fun v => decide (v % 65536 < s.floor i)) then stCompatFloor
    else if known.any (fun v => v / 65536 != num) then stVersionMismatch else stOK

/-- SHED_DECIDE to each member that reported, under the PLAN_ID it reported. -/
def State.sendShed (s : State) (i status phase : Nat) (rs : List ShedRep) : State :=
  let s1 := rs.foldl (fun s r => s.mgrSend i 7 (shedLine r.plan status phase) [r.member % 4096]) s
  match rs.head? with
  | some r => if s.role = 3 then s1 else s1.mgrSend i 7 (shedLine r.plan status phase) s.mirrorers
  | none => s1

/-- The first failing status, that of the lowest-numbered failing member; INVALID where the plans differ (R353). -/
def shedVerdict (rs : List ShedRep) : Nat :=
  let bad := sortBy (fun a b => decide (a.member % 4096 ≤ b.member % 4096)) (rs.filter (fun r => r.status != 0))
  match bad.head? with
  | some r => r.status
  | none => if rs.all (fun r => some r.plan == rs.head?.map (·.plan)) then stOK else stInvalid

/-- The decision of phase 0. -/
def State.decidePhase0 (s : State) (i status : Nat) : State :=
  let j := s.mjob i
  let rs := j.sheds
  let s1 := s.setMjob i (fun j => { j with
    sheds := [], upward := j.upward.filter (fun u => u.1 != 6)
    going := if status = stOK then rs.head?.map (·.plan) else none
    st := if status = stOK then 2 else if j.recovering then 3 else j.st })
  (s1.sendShed i status 0 rs).writeMgrPage i

/-- Commit (R346, R354, R364): the member list, MEMBER_GEN, and under CROSS_VERSION the job's NUMERIC. Where the manager has not seen the
plan, no message tells it the list, which is then free (log 35). -/
def State.commitMembers (s : State) (i plan : Nat) : State :=
  let own := s.ownPlan (s.slotJob i) plan
  let s0 := if own.isSome then s else s.draw.2
  let list := match own with | some b => planMembers b | none => ((Config.freeMembers s.draws).map (· % 65536)).dedup.take 64
  let j := s.mjob i
  let same := j.members.all list.contains && list.all j.members.contains
  let gen := if same then j.gen else j.gen + 1
  let rs := (j.members ++ list).dedup.map (fun m => ({ member := m, plan := plan, status := 0, phase := 1 } : ShedRep))
  let s1 := s0.setMjob i (fun j => { j with
    members := list, joined := j.joined.filter list.contains, gen := gen, told := gen, sheds := [], going := none, st := 1, recovering := false
    upward := j.upward.filter (fun u => u.1 != 6) })
  let s2 := match own with
    | some b => if planCross b then s1.setReg (.jtVer i) (setField (s1.reg (.jtVer i)) 16 16 (le b 16 2)) else s1
    | none => s1
  (s2.sendShed i stOK 1 rs).writeMgrPage i

/-- A failure after go: every member is told, and the job is halted (R357). -/
def State.failPhase1 (s : State) (i plan status : Nat) : State :=
  let rs := (s.mjob i).members.map (fun m => ({ member := m, plan := plan, status := status, phase := 1 } : ShedRep))
  let s1 := s.setMjob i (fun j => { j with sheds := [], going := none, st := 3, upward := j.upward.filter (fun u => u.1 != 6) })
  (s1.sendShed i status 1 rs).writeMgrPage i

def State.shedReportIn (s : State) (i m : Nat) (line : List Byte) : State :=
  let r : ShedRep := { member := m, plan := le line 0 4, status := le line 4 2, phase := le line 6 1 }
  let j := s.mjob i
  if !j.members.contains m ∨ j.sheds.any (fun x => x.member == m && x.phase == r.phase) then s
  else if r.phase = 0 then
    if j.going.isSome then s
    else
      let s1 := s.setMjob i (fun j => { j with sheds := j.sheds ++ [r] })
      let rs := j.sheds ++ [r]
      if !j.members.all (fun k => rs.any (fun x => x.member == k)) then s1
      else
        let v := shedVerdict rs
        let st := if v = stOK then s.listStatus i r.plan else v
        if s.slotUp i then s1.reportUp i 6 (shedLine r.plan st 0) else s1.decidePhase0 i st
  else if j.going ≠ some r.plan then s
  else if r.status ≠ 0 then
    if s.slotUp i then s.reportUp i 6 (shedLine r.plan r.status 1) else s.failPhase1 i r.plan r.status
  else
    let rs := j.sheds ++ [r]
    let s1 := s.setMjob i (fun j => { j with sheds := rs })
    if !j.members.all (fun k => rs.any (fun x => x.member == k)) then s1
    else if s.slotUp i then s1.reportUp i 6 (shedLine r.plan 0 1)
    else s1.commitMembers i r.plan

-- ## Losses (R326, R346 to R348, R358)

/-- The loss of a module in a slot's state: the pick that has not committed begins a new attempt, unless a shed change at its boundary ends instead
(R326, R358). -/
def State.dropMember (s : State) (i lost gen : Nat) : State :=
  s.setMjob i (fun j => { j with
    members := j.members.filter (fun m => m % 4096 != lost), joined := j.joined.filter (fun m => m % 4096 != lost)
    waiting := j.waiting.filter (fun m => m % 4096 != lost), lostCount := j.lostCount + 1, lastLost := lost, gen := gen, told := gen
    current := if j.st = 0 ∨ j.going.isSome ∧ !j.recovering then j.current else j.current + 1, reports := [], barriers := [], sheds := []
    upward := [], missed := j.missed.filter (fun x => x.1 % 4096 != lost)
    st := if j.recovering ∨ j.going.isSome then 3 else j.st, going := none, recovering := decide (j.st ≠ 0) })

/-- The manager declares a module lost: a shed change not begun ends RESOURCE_RETIRED, LOST goes to the members and to the named module, and
upward from a pod (log 40). -/
def State.declareLost (s : State) (i lost : Nat) : State :=
  let j := s.mjob i
  if !s.slotOn i ∨ !j.members.any (fun m => m % 4096 == lost) then s
  else
    let s1 := if j.going.isNone then s.sendShed i stRetired 0 (j.sheds.filter (fun r => r.phase == 0 && r.member % 4096 != lost)) else s
    let s2 := s1.dropMember i lost (j.gen + 1)
    let line := leBytes 2 lost ++ zeros 2 ++ leBytes 4 (j.gen + 1)
    let s3 := (s2.mgrSend i 8 line [lost]).decideAll i 8 line
    let s4 := if s.slotUp i then s3.mgrSend i 8 line s.parents else s3
    (s4.formed i).writeMgrPage i

-- ## Messages for a manager

/-- A manager message of a module stands for its heartbeat (R347). -/
def State.heard (s : State) (i src : Nat) : State :=
  s.setMjob i (fun j => { j with missed := j.missed.filter (fun x => x.1 % 4096 != src) })

/-- The module that mirrors another heard it (R349). -/
def State.heardManager (s : State) (src : Nat) : State :=
  if s.role = 3 ∧ !s.manager.tookOver ∧ s.mgrList.contains src ∧ src ≠ s.moduleNum then
    { s with manager := { s.manager with mirrors := some src, silent := 0 } }
  else s

def mgrMsg (q : Packet) : Nat := q.offset % 256
def mgrJobId (q : Packet) : Nat := q.offset / 256 % 65536

/-- A packet that is a manager message of a kind for this module. -/
def State.isMgr (s : State) (q : Packet) (msg : Nat) : Bool :=
  q.ty == 0x20 && mgrMsg q == msg && q.offset / 2 ^ 24 == 0 && q.dst == s.moduleNum && q.domain == s.domain &&
  (if msg = 1 then q.len == 0 else q.len == 1 && q.data.length == 64)

/-- A report of a member reaches the manager logic of its job's slot. -/
def State.mgrIn (s : State) (q : Packet) (msg : Nat) (f : State → Nat → Nat → State) : State :=
  if !s.isMgr q msg then s
  else match s.slotOf (mgrJobId q) with
    | some i => f (s.heard i q.src) i (q.src + 4096 * q.srcPart)
    | none => s

/-- A decision of a pod's parent is relayed to its members (R340). -/
def State.relayed (s : State) (q : Packet) : Option Nat :=
  match s.slotOf (mgrJobId q) with
  | some i => if s.slotUp i ∧ s.parents.contains q.src then some i else none
  | none => none

/-- Partitions that are members of the job a decision names, under the manager that sent it (R339). -/
def State.membersOf (s : State) (q : Packet) : List Nat :=
  (List.range 16).filter (fun p => s.hasJob p && !s.solo p && s.jobId p == mgrJobId q &&
    (s.managerOf p == q.src || (s.bit (.jobMgr p) 24 && s.fld (.jobMgr p) 12 12 == q.src)))

-- ## Member side

/-- Commands held before the JOIN's answer complete with its refusal (R341). -/
def State.refuseHeld (s : State) (p status : Nat) : State :=
  (s.entries.filter (fun e => e.part == p && e.st == .held && decide (e.opcode ∈ [0x01, 0x10, 0x11, 0x20, 0x21, 0x22]))).foldl
    (fun s e => s.complete e.acc status 0) s

/-- JOIN_ACK on a member. -/
def State.joinAckIn (s : State) (p : Nat) (line : List Byte) : State :=
  let j := (s.part p).job
  let st := le line 0 2
  if !j.joining then s
  else if st = stOK then
    (s.setJob p (fun j => { j with
      joined := true, joining := false, refusal := none, st := .boundary, pick := le line 8 8, memberGen := le line 16 4, attempt := 0 })).writePages p
  else (s.setJob p (fun j => { j with joining := false, joined := false, refusal := some st })).refuseHeld p st

/-- STEP_DECIDE on a member (R325, R343): the commit of the pick it has reported. A pre-empted job keeps the boundary for its resume. -/
def State.stepDecideIn (s : State) (p : Nat) (line : List Byte) : State :=
  let j := (s.part p).job
  if !j.reported ∨ le line 0 8 ≠ j.pick ∨ le line 8 1 ≠ j.attempt % 256 ∨ 2 < le line 9 1 then s
  else
    let s1 := s.applyVerdict p (le line 9 1)
    let x := s1.part p
    if j.st = .preempted then s1.setPart p { x with savedJob := .boundary, job := { x.job with st := .preempted } }
    else if x.st = .preempting ∨ x.st = .resuming then s1.setPart p { x with savedJob := .boundary }
    else s1.actHold

/-- BARRIER_GO on a member (R344). -/
def State.barrierGoIn (s : State) (p pick node : Nat) : State :=
  let j := (s.part p).job
  if j.pick ≠ pick then s
  else (j.barriers.filter (fun b => b.2 == node)).foldl (fun s b =>
    (s.setJob p (fun j => { j with barriers := j.barriers.filter (· != b) })).endNode b.1 b.2 stOK) s

/-- A report is sent again while its decision is missing (R340). -/
def State.resendReports (s : State) (p : Nat) : State :=
  let x := s.part p
  let s1 := if x.job.reported then s.report p 4 (s.stepLine p x.job.verdict) else s
  let s2 := x.job.barriers.foldl (fun s b => s.report p 0xA (leBytes 8 x.job.pick ++ leBytes 2 b.2)) s1
  match x.shed with
  | some y => if !y.go then s2.shedReport p (planId y.plan) y.status 0
      else if y.reported then s2.shedReport p (planId y.plan) (y.failing.getD stOK) 1 else s2
  | none => s2

-- ## Heartbeats (R340, R347)

/-- A partition whose membership is alive: what is HALTED or disabled falls silent (R347, log 40). -/
def State.beats (s : State) (p : Nat) : Bool :=
  s.hasJob p && !s.solo p && ((s.part p).job.joined || (s.part p).job.joining) && (s.part p).st != .halted && (s.part p).st != .disabling

/-- HEARTBEAT_PERIOD: a period of this module's fabric clock ends. -/
def heartbeatPeriod (s : State) : State :=
  let s1 := (List.range 16).foldl (fun s p => if s.beats p then (s.report p 1 []).resendReports p else s) s
  if s.role = 0 then s1
  else
    let s2 := (List.range 64).foldl (fun s i =>
      if !s.slotOn i then s
      else
        let s1 := s.setMjob i (fun j => { j with missed := j.members.foldl (fun t m => tset 0 t m (tget 0 t m + 1)) j.missed })
        let s2 := s1.mgrSend i 1 [] ((if s.slotUp i then s.parents else []) ++ (if s.role = 3 then [] else s.mirrorers))
        (s2.mjob i).upward.foldl (fun s u => s.mgrSend i u.1 u.2 s.parents) s2) s1
    if s.role = 3 ∧ !s.manager.tookOver then { s2 with manager := { s2.manager with silent := s2.manager.silent + 1 } } else s2

/-- HEARTBEAT_MISS: a member not heard of for HB_MISS periods is declared lost (R347). -/
def heartbeatMiss (s : State) (i member : Nat) : State :=
  if s.acts && s.slotOn i && (s.mjob i).missed.any (fun x => x.1 % 4096 == member && decide (s.hbMiss ≤ x.2)) then s.declareLost i member else s

-- ## Takeover (R349)

/-- STANDBY_TAKEOVER: the standby stands for the manager it has not heard of, and sends again what is due. -/
def standbyTakeover (s : State) : State :=
  if s.role ≠ 3 ∨ s.manager.tookOver ∨ s.manager.silent < s.hbMiss then s
  else
    let s1 : State := { s with manager := { s.manager with tookOver := true } }
    let old := s.manager.mirrors.getD 0
    (List.range 64).foldl (fun s i =>
      if !s.slotOn i then s
      else
        let j := s.mjob i
        let mods := j.members.map (· % 4096)
        let s1 := s.mgrSend i 9 (leBytes 2 old) (mods ++ s.parents)
        let s2 := if j.pick = 0 then s1 else s1.mgrSend i 5 (leBytes 8 j.pick ++ leBytes 1 j.attempt ++ leBytes 1 j.verdict) mods
        match j.going with
        | some plan => s2.mgrSend i 7 (shedLine plan stOK 0) mods
        | none => s2) s1

/-- TAKEOVER on a member and on a parent: the standby replaces the manager. -/
def takeover (s : State) (q : Packet) : State :=
  if !s.isMgr q 9 then s
  else
    let old := le q.data 0 2 % 4096
    let known := (List.range 16).any (fun p => s.hasJob p && s.fld (.jobMgr p) 0 12 == old && s.bit (.jobMgr p) 24 && s.fld (.jobMgr p) 12 12 == q.src)
    let parent := s.bit .mgrCfg 24 && s.fld .mgrCfg 0 12 == old && s.bit .mgrCfg 25 && s.fld .mgrCfg 12 12 == q.src
    let child := (List.range 64).any (fun i => s.slotOn i && (s.mjob i).members.any (fun m => m % 4096 == old))
    let s1 : State := if known ∨ parent then
        { s with manager := { s.manager with replaced := (old, q.src) :: s.manager.replaced.filter (fun r => r.1 != old) } } else s
    let move (m : Nat) : Nat := if m % 4096 = old then m / 4096 * 4096 + q.src else m
    if child then (List.range 64).foldl (fun s i => if !s.slotOn i then s else s.setMjob i (fun j => { j with
        members := j.members.map move, joined := j.joined.map move, missed := j.missed.filter (fun x => x.1 % 4096 != old) })) s1
    else s1

-- ## Register operations (R336 to R339, R341)

/-- The administrative PF, and the manager logic of the modules in MGR_LIST, write the MGR block (R335). -/
def State.mgrWriter (s : State) (src : Src) : Bool := s.fromAdmin src || src == .manager

/-- A write of MGR_JT_CTL: setting EN reads the member table, and a table R338 does not accept leaves EN 0 (log 41). -/
def jobSlotEnable (s : State) (src : Src) (i v : Nat) : State :=
  if !s.mgrWriter src ∨ 64 ≤ i then s
  else
    let v := v &&& 0x3FFFF
    let was := s.slotOn i
    if bitAt v 16 ∧ !was then
      match s.memberTable i with
      | none => s.setReg (.jtCtl i) (setField v 16 1 0)
      | some ms => ((s.setReg (.jtCtl i) v).setMjob i (fun _ => { members := ms })).writeMgrPage i
    else if !bitAt v 16 ∧ was then (s.setReg (.jtCtl i) v).setMjob i (fun _ => {})
    else s.setReg (.jtCtl i) v

/-- A write of MGR_DECLARE (R347). -/
def memberDeclareLost (s : State) (src : Src) (v : Nat) : State :=
  if s.mgrWriter src && bitAt v 31 && s.acts then s.declareLost (field v 12 6) (field v 0 12) else s

/-- The owner of a partition may write its member registers while it is UNCONFIGURED or CONFIGURED (R339). -/
def State.memberWriter (s : State) (src : Src) (p : Nat) : Bool :=
  s.mgrWriter src || (match src with | .port q f => s.owns q f p && (s.part p).st.idle | _ => false)

/-- A write of MGR_JOB_CTL (R339, R341): EN sends JOIN, and again when it is rewritten after a refusal; a SOLO job stands at its first
boundary; clearing EN ends the membership (log 42). -/
def jobJoinEnable (s : State) (src : Src) (p v : Nat) : State :=
  if !s.memberWriter src p ∨ 16 ≤ p then s
  else
    let j := (s.part p).job
    let s1 := s.setReg (.jobCtl p) (v &&& 0x7FFFF)
    if !bitAt v 16 then (if s.hasJob p then (s1.setJob p (fun _ => {})).writePages p else s1)
    else if j.joined ∧ j.st ≠ .halted then s1
    else if bitAt v 17 then (s1.setJob p (fun _ => { st := .boundary, joined := true, memberGen := 1 })).writePages p
    else if j.joining then s1
    else (s1.setJob p (fun j => { j with joined := false, refusal := none, st := .none, versions := [], pick := 0 })).sendJoin p

-- ## Commands

/-- A manager message of kind `msg` as a command: another domain's is dropped, one for another module goes on, one for this module acts
(R284, R294). -/
def mgrRow (s : State) (msg : Nat) (q : Packet) (act : State → Packet → State) : State :=
  if q.ty ≠ 0x20 ∨ mgrMsg q ≠ msg then s
  else if q.domain ≠ s.domain then s.fabricCount (fun f => { f with domainDrops := satInc 64 f.domainDrops 1 })
  else if q.dst ≠ s.moduleNum then s.sendOn 0 q
  else act s q

/-- A HEARTBEAT: of a member, and of this member's manager. -/
def heartbeatMsg (s : State) (q : Packet) : State :=
  if s.isMgr q 1 then (s.mgrIn q 1 (fun s _ _ => s)).heardManager q.src else s

def joinMsg (s : State) (q : Packet) : State := s.mgrIn q 2 (fun s i _ => s.joinIn i q.src q.data)
def stepReportMsg (s : State) (q : Packet) : State := s.mgrIn q 4 (fun s i m => s.stepReportIn i m q.data)
def shedReportMsg (s : State) (q : Packet) : State := s.mgrIn q 6 (fun s i m => s.shedReportIn i m q.data)
def barrierReportMsg (s : State) (q : Packet) : State := s.mgrIn q 0xA (fun s i m => s.barrierReportIn i m q.data)

/-- SHED_CLEAR from another member (R356). -/
def shedClearMsg (s : State) (q : Packet) : State :=
  if s.isMgr q 0xC then
    ((List.range 16).filter (fun p => s.hasJob p && s.jobId p == mgrJobId q)).foldl
      (fun s p => s.clearShed p q.src (le q.data 0 4) (le q.data 4 4)) s
  else s

/-- HEARTBEAT (R347). -/
def execHeartbeat (pkt : Packet) (s : State) : Host.Outcome State Fault Refusal := finish (mgrRow s 1 pkt heartbeatMsg)
/-- HEARTBEAT_PERIOD (R340, R347). -/
def execHeartbeatPeriod (s : State) : Host.Outcome State Fault Refusal := finish (heartbeatPeriod s)
/-- JOIN (R341). -/
def execJoin (pkt : Packet) (s : State) : Host.Outcome State Fault Refusal := finish (mgrRow s 2 pkt joinMsg)
/-- JOIN_ACK (R341): for the members here, and for a pod's own members. -/
def joinAckMsg (s : State) (q : Packet) : State :=
  if !s.isMgr q 3 then s
  else
    let s1 := (s.membersOf q).foldl (fun s p => s.joinAckIn p q.data) (s.heardManager q.src)
    match s1.relayed q with
    | some i =>
      let st := le q.data 0 2
      let s2 := s1.setMjob i (fun j => { j with
        st := if st = stOK then 1 else j.st, pick := if st = stOK then le q.data 8 8 else j.pick, gen := if st = stOK then le q.data 16 4 else j.gen
        upward := j.upward.filter (fun u => u.1 != 2) })
      (s2.mgrSend i 3 (q.data.take 20) ((s2.mjob i).members.map (· % 4096))).writeMgrPage i
    | none => s1

/-- JOIN_ACK (R341): its effect is the definition above. -/
def execJoinAck (pkt : Packet) (s : State) : Host.Outcome State Fault Refusal := finish (mgrRow s 3 pkt joinAckMsg)
/-- STEP_REPORT (R343). -/
def execStepReport (pkt : Packet) (s : State) : Host.Outcome State Fault Refusal := finish (mgrRow s 4 pkt stepReportMsg)
/-- STEP_DECIDE (R325, R343). -/
def stepDecideMsg (s : State) (q : Packet) : State :=
  if !s.isMgr q 5 then s
  else
    let s1 := (s.membersOf q).foldl (fun s p => s.stepDecideIn p q.data) (s.heardManager q.src)
    match s1.relayed q with
    | some i => if (s1.mjob i).pick < le q.data 0 8 then s1.decideStep i (le q.data 0 8) (le q.data 8 1) (le q.data 9 1) else s1
    | none => s1

/-- STEP_DECIDE (R325, R343): its effect is the definition above. -/
def execStepDecide (pkt : Packet) (s : State) : Host.Outcome State Fault Refusal := finish (mgrRow s 5 pkt stepDecideMsg)
/-- SHED_REPORT (R353, R354). -/
def execShedReport (pkt : Packet) (s : State) : Host.Outcome State Fault Refusal := finish (mgrRow s 6 pkt shedReportMsg)
/-- SHED_DECIDE (R353, R354, R357). -/
def shedDecideMsg (s : State) (q : Packet) : State :=
  if !s.isMgr q 7 then s
  else
    let plan := le q.data 0 4
    let st := le q.data 4 2
    let ph := le q.data 6 1
    let s0 := s.heardManager q.src
    let s1 := match s0.relayed q with
      | some i => if ph = 0 then s0.decidePhase0 i st else if st = stOK then s0.commitMembers i plan else s0.failPhase1 i plan st
      | none => s0
    (s.membersOf q).foldl (fun s p => s.decideShed p plan st ph) s1

/-- SHED_CLEAR (R356): from another member. -/
def execShedClear (pkt : Packet) (s : State) : Host.Outcome State Fault Refusal := finish (mgrRow s 0xC pkt shedClearMsg)
/-- LOST (R326, R347, R348, R358). -/
def lostMsg (s : State) (q : Packet) : State :=
  if !s.isMgr q 8 then s
  else
    let lost := le q.data 0 2 % 4096
    let gen := le q.data 4 4
    let s1 := (s.membersOf q).foldl (fun s p => s.lostMember p lost gen) (s.heardManager q.src)
    match s1.slotOf (mgrJobId q) with
    | none => s1
    | some i =>
      if s1.slotUp i ∧ s1.parents.contains q.src then
        (((s1.dropMember i lost gen).mgrSend i 8 q.data ((s1.mjob i).members.map (· % 4096)))).writeMgrPage i
      else if s1.role = 3 ∧ !s1.manager.tookOver ∧ s1.manager.mirrors = some q.src then s1.dropMember i lost gen
      else if s1.role = 2 ∧ (s1.mjob i).members.any (fun m => m % 4096 == q.src) then
        let j := s1.mjob i
        let s2 := s1.setMjob i (fun j => { j with
          lostCount := j.lostCount + 1, lastLost := lost, gen := j.gen + 1, told := j.gen + 1, current := j.current + 1, reports := [], barriers := []
          sheds := [], st := if j.recovering ∨ j.going.isSome then 3 else j.st, going := none, recovering := true })
        ((s2.decideAll i 8 (leBytes 2 lost ++ zeros 2 ++ leBytes 4 (j.gen + 1)))).writeMgrPage i
      else s1

/-- TAKEOVER (R349). -/
def execTakeover (pkt : Packet) (s : State) : Host.Outcome State Fault Refusal := finish (mgrRow s 9 pkt takeover)
/-- STANDBY_TAKEOVER (R349). -/
def execStandbyTakeover (s : State) : Host.Outcome State Fault Refusal := finish (standbyTakeover s)
/-- BARRIER_REPORT (R344). -/
def execBarrierReport (pkt : Packet) (s : State) : Host.Outcome State Fault Refusal := finish (mgrRow s 0xA pkt barrierReportMsg)
/-- BARRIER_GO (R344). -/
def barrierGoMsg (s : State) (q : Packet) : State :=
  if !s.isMgr q 0xB then s
  else
    let s1 := (s.membersOf q).foldl (fun s p => s.barrierGoIn p (le q.data 0 8) (le q.data 8 2)) (s.heardManager q.src)
    match s1.relayed q with
    | some i => (s1.setMjob i (fun j => { j with upward := j.upward.filter (fun u => u.1 != 0xA) })).mgrSend i 0xB q.data ((s1.mjob i).members.map (· % 4096))
    | none => s1

/-- BARRIER_GO (R344): its effect is the definition above. -/
def execBarrierGo (pkt : Packet) (s : State) : Host.Outcome State Fault Refusal := finish (mgrRow s 0xB pkt barrierGoMsg)
/-- JOB_SLOT_ENABLE (R337). -/
def execJobSlotEnable (src : Src) (slot v : Nat) (s : State) : Host.Outcome State Fault Refusal :=
  finish (s.via src (fun s => jobSlotEnable s src slot v))
/-- JOB_JOIN_ENABLE (R341). -/
def execJobJoinEnable (src : Src) (p v : Nat) (s : State) : Host.Outcome State Fault Refusal :=
  finish (s.via src (fun s => jobJoinEnable s src p v))

end Sys2Proof.Machine
end

