-- ==== Sys2Proof/Machine/Power.lean ====
section
/-!
DEFINITION. Machine/Power.lean: the rails, the treadle's states, requests and wakes, thermal protection, the power cap
(15, R454 to R479).
-/

namespace Sys2Proof.Machine

/-- An event of the treadle (class 0x39) or of a sensor (class 0x38), stamped by the always-on island (R472). -/
def treadleEvent (cls unit unit2 detail : Nat) : FaultEv :=
  { source := if cls = 0x38 then 58 else 57, cls := cls, unit := unit, unit2 := unit2, address := 0, detail := detail
    island := 0x31, part := none }

/-- The emergency path (R457): every VMAIN domain goes off, the module is in T4, partitions that are not UNCONFIGURED become CONFIGURED,
a class 0x39 record is written and FAULT_N asserted; the module leaves T4 once VMAIN is good again. -/
def State.emergency (s : State) (ev : FaultEv) : State :=
  let s1 := s.setDomains [0]
  let s2 := { s1 with treadle := { s1.treadle with
    state := 4, moving := none, pending := none, hold := 0, awaiting := true,
    pinSupply := true, temps := [], warm := false, level := 0, hotRun := 0, critRun := 0, coolRun := 0, preempted := [] } }
  ((List.range 16).foldl (fun s p => s.forceConfigured p) s2).raise ev

/-- The module after VSTBY has been lost and has returned: a cold start that keeps what VSTBY does not feed, the fuses, the flash and the
hosts' memory, and what lies outside the module (R457). -/
def State.coldStart (s : State) : State :=
  { mem := s.mem.filter (fun c => decide (spaceKey 4 0 ≤ c.1 ∧ c.1 < spaceKey 6 0) || decide (spaceKey flashSpace 0 ≤ c.1 ∧ c.1 < spaceKey (flashSpace + 1) 0)),
    fuses := s.fuses, out := s.out, draws := s.draws, pending := s.pending, retired := s.retired,
    ports := tcanon {} (s.ports.map (fun p => (p.1, { maxWidth := p.2.maxWidth : Port }))), memCtl := { relocated := s.memCtl.relocated },
    islands := [(0x31, { on := true, risen := true })]
    boot := { idNumeric := s.boot.idNumeric, idProtoMax := s.boot.idProtoMax } }

-- ## Requests and wakes (R461, R468, R469)

/-- States a wake source wakes from (R469). -/
def wakesFrom (source t : Nat) : Bool :=
  match source with
  | 0 => t == 4
  | 1 => t != 0
  | 2 => t != 0
  | 3 => t == 1 || t == 2 || t == 3
  | 4 => t == 2
  | 5 => t != 0
  | 6 => t == 1 || t == 2
  | _ => t == 4

/-- A wake (R469): ignored where its source is disabled or does not wake from the state; from T4 VMAIN must be good. -/
def State.wake (s : State) (source port : Nat) : State :=
  let cur := match s.treadle.moving with | some (.entry r) => r | _ => s.treadle.state
  if !(s.bit .trdWakeEn source || source == 0 || source == 7) then s
  else if !wakesFrom source cur || (cur == 4 && !s.treadle.vmainGood) || s.boot.state != .ready then s
  else s.request 0 (source, port)

/-- A write of TRD_REQ (R468, R478). Codes 5 to 7 are ignored, and so is a source other than the administrative PF, the manager logic
and SMBus. A request for T0 is wake source 5. -/
def trdRequest (s : State) (src : Src) (v : Nat) : State :=
  let t := v % 8
  let ok := match src with
    | .port q f => s.isAdmin q f
    | .manager => true
    | .smbus => s.boot.state != .fail
  if !ok ∨ 5 ≤ t then s
  else if t = 0 then (if s.treadle.state = 0 ∧ s.treadle.moving ≠ none then s.request 0 (5, 0) else s.wake 5 0)
  else if s.boot.state ≠ .ready then s
  else s.request t (5, 0)

/-- No transfer waits in a channel into one of these islands (R53). -/
def State.channelsIdle (s : State) (islands : List Nat) : Bool := s.channels.all (fun c => c.2.isEmpty || !islands.contains (c.1 % 256))

/-- POWER_STATE_ENTRY_COMPLETE, once every channel into an island that goes off is idle (R53): the domains of the state are on and no others, T1 gates its islands, and the pending request runs
(R458, R461, R462). -/
def entryDone (s : State) : State :=
  match s.treadle.moving with
  | some (.entry t) =>
    if !s.channelsIdle ((s.treadle.domains.filter (fun d => !(domainsOn t).contains d)).flatMap domainIslands) then s
    else
    let s1 := s.setDomains (domainsOn t)
    let s2 := { s1 with treadle := { s1.treadle with state := t, moving := none } }
    let s3 := if t = 1 then
        ((List.range 32) ++ [0x2E]).foldl (fun s i => s.setIsland i { s.island i with gated := (s.island i).on }) s2
      else s2
    s3.runPending
  | _ => s

/-- POWER_STATE_EXIT_COMPLETE: every domain is on, each island that came up started its counter, links train again, and the pending
request runs (R460). -/
def exitDone (s : State) : State :=
  match s.treadle.moving with
  | some (.exit _) =>
    let from' := s.treadle.state
    let s1 := s.setDomains allDomains
    let s2 := (List.range Config.islands).foldl (fun s i => s.setIsland i { s.island i with gated := false }) s1
    let s3 := { s2 with treadle := { s2.treadle with state := 0, moving := none, served := true, pinSupply := false } }
    (s3.wakeLinks from').runPending
  | _ => s

/-- EXIT_STEP_TIMEOUT: training exceeded step 9's limit (R460): a class 0x39 record with cause 5, back to T4, FAULT_N; wake source 7
then starts another exit (R469). -/
def exitTimeout (s : State) (domain mv : Nat) : State :=
  match s.treadle.moving with
  | some (.exit _) =>
    let s1 := s.setDomains [0]
    let s2 := { s1 with treadle := { s1.treadle with state := 4, moving := none, pinSupply := true } }
    let s3 := (List.range 16).foldl (fun s p => s.forceConfigured p) s2
    (s3.raise (treadleEvent 0x39 domain 5 mv)).wake 7 0
  | _ => s

-- ## Rails (R457)

/-- RAIL_SAMPLE, in mV. VMAIN becomes good above 31.5 V and stays good from 30.5 to 41.0 V. -/
def railSample (s : State) (vmain vside vstby : Nat) : State :=
  if vstby < 2900 then s.coldStart
  else
    let good := if s.treadle.vmainGood then decide (30500 ≤ vmain ∧ vmain ≤ 41000) else decide (31500 < vmain ∧ vmain ≤ 41000)
    let lost := s.treadle.vmainGood && !good && (s.treadle.state != 4 || s.treadle.moving.isSome)
    let sideLow := s.treadle.vsideGood && decide (vside < 1620)
    let s1 := { s with treadle := { s.treadle with vmainGood := good, vsideGood := decide (1620 ≤ vside) } }
    let s2 := if lost then s1.emergency (treadleEvent 0x39 0xFF (if 41000 < vmain then 2 else 1) vmain) else s1
    let s3 := if sideLow then s2.raise (treadleEvent 0x39 0xFF 3 vside) else s2
    if s3.boot.state = .ready ∧ s3.treadle.state = 4 ∧ s3.treadle.moving = none ∧ s3.treadle.awaiting ∧ good ∧ s3.treadle.vsideGood then
      { s3.startExit 0 0 with treadle := { (s3.startExit 0 0).treadle with awaiting := false } }
    else s3

/-- A domain's power-good is lost outside a transition (R473). -/
def powerGoodLost (s : State) (d mv : Nat) : State :=
  if s.treadle.moving ≠ none ∨ !s.treadle.domains.contains d then s
  else if 0x10 ≤ d ∧ d < 0x30 then
    let c := d - 0x10
    let u := s.unit 0 (8 * c)
    let s1 := (s.setUnit 0 (8 * c) { u with fails := u.fails + 1 }).raise (treadleEvent 0x39 d 4 mv)
    let s2 := ((s1.resetCluster c).islandOff c).islandUp c
    if 1 ≤ u.fails then (List.range 8).foldl (fun s j => s.retireLoom (8 * c + j)) s2 else s2
  else s.emergency (treadleEvent 0x39 d 4 mv)

-- ## Thermal protection (R470 to R472)

/-- Sensors read: those of a die whose analogue domain is on; none in T4. -/
def State.sensors (s : State) : List Nat :=
  (List.range 16).filter (fun i => s.treadle.domains.contains (if i < 6 then 2 else if i < 12 then 3 else 1))

/-- Thresholds in eighths of a degree: T_WARN (above T_HOT acts as T_HOT), T_HOT (above 104 acts as 104), T_CRIT, the trip. -/
def State.tHot (s : State) : Nat := min 104 (s.fld .trdTherm 8 8)
def State.tWarn (s : State) : Nat := min s.tHot (s.fld .trdTherm 0 8)
def State.thresholds (s : State) : List Nat := [8 * s.tWarn, 8 * s.tHot, 840, 920]

/-- A thermal entry (R471): a hold begins; the state is entered from T0, or after the move in progress. -/
def State.thermalEntry (s : State) (t : Nat) : State :=
  let s1 := { s with treadle := { s.treadle with hold := max s.treadle.hold t } }
  if t ≤ s1.treadle.state ∧ s1.treadle.moving = none then s1
  else if s1.treadle.moving = none then s1.startEntry t
  else { s1 with treadle := { s1.treadle with pending := some t } }

/-- Every ACTIVE partition is pre-empted; one whose save cannot be made is halted as by the trap (R471). -/
def State.thermalStop (s : State) (ev : FaultEv) : State :=
  (List.range 16).foldl (fun s p =>
    if (s.part p).st = .active then
      match s.thermalPreempt p with
      | some s' => { s' with treadle := { s'.treadle with preempted := s'.treadle.preempted ++ [p] } }
      | none => s.trap (s.faultRecord ev false false 0) p
    else s) s

/-- One reading of the sensors, in eighths of a degree. -/
def thermalReading (s : State) (eighths : List Nat) : State :=
  let ss := s.sensors
  if ss.isEmpty then { s with treadle := { s.treadle with temps := [], warm := false, pinTrip := false, level := 0, hotRun := 0, critRun := 0, coolRun := 0 } }
  else
    let temps := ss.map (fun i => (i, eighths.getD i 0))
    let hot := temps.foldl (fun m p => max m p.2) 0
    let sensor := ((temps.find? (fun p => p.2 == hot)).map (·.1)).getD 0
    let level := (s.thresholds.filter (fun t => decide (t ≤ hot))).length
    let old := s.treadle.level
    let isHot := decide (8 * s.tHot ≤ hot)
    let isCrit := decide (840 ≤ hot)
    let cool := decide (hot < 8 * s.tWarn - 40)
    let t := s.treadle
    let s1 := { s with treadle := { t with
      temps := temps.filter (fun p => p.2 != 0), warm := decide (8 * s.tWarn ≤ hot), pinTrip := decide (920 ≤ hot), level := level
      hotRun := if isHot then min 2 (t.hotRun + 1) else 0
      critRun := if isCrit then min 2 (t.critRun + 1) else 0
      coolRun := if cool then min 1000 (t.coolRun + 1) else 0 } }
    let ups := (List.range (level - old)).map (fun i => treadleEvent 0x38 sensor (old + 1 + i) hot)
    let downs := (List.range (old - level)).map (fun _ => treadleEvent 0x38 sensor 0 hot)
    let s2 := (ups ++ downs).foldl State.raise s1
    if t.critRun = 1 ∧ isCrit ∧ t.hold < 2 then (s2.thermalStop (treadleEvent 0x38 sensor 3 hot)).thermalEntry 2
    else if t.hotRun = 1 ∧ isHot ∧ t.hold < 1 then s2.thermalEntry 1
    else if t.hold ≠ 0 ∧ 1000 ≤ s2.treadle.coolRun then
      let s3 := { s2 with treadle := { s2.treadle with hold := 0, coolRun := 0 } }
      let asked := s3.treadle.pending
      let s4 := { s3 with treadle := { s3.treadle with pending := none } }.wake 6 0
      let s5 := s3.treadle.preempted.foldl (fun s p => s.thermalResume p) s4
      let s6 := { s5 with treadle := { s5.treadle with preempted := [], pending := if asked = none then s5.treadle.pending else asked } }
      s6.runPending
    else s2

-- ## The power cap (R474, R475)

/-- CAP in watts and the bounds and pinned clock of a cluster island, each acting as its nearer bound. -/
def State.cap (s : State) : Nat := clampTo 800 2200 (s.fld .trdCap 0 12)

/-- The end of a power-cap interval with its mean power in watts (R474). -/
def capInterval (s : State) (watts : Nat) : State :=
  let p := min 4095 watts
  let pinned := s.bit .tmpCapCtl 0
  let s1 := { s with treadle := { s.treadle with
    power := p, overCap := if pinned then s.treadle.overCap else 0, capThrottle := s.treadle.capThrottle && (pinned || decide (s.cap ≤ p)) } }
  let cs := (List.range 32).filter (fun c => (s.island c).on)
  let hi := cs.foldl (fun m c => max m (s.fNow c)) 0
  let lo := cs.foldl (fun m c => min m (s.fNow c)) 31
  if pinned then
    let above := if s.cap < p then min 4 (s.treadle.overCap + 1) else 0
    let s2 := { s1 with treadle := { s1.treadle with
      overCap := above
      capThrottle := if above = 4 then true else if p < s.cap then false else s1.treadle.capThrottle } }
    s2.runPinned
  else if s.cap < p ∨ s.treadle.warm then
    cs.foldl (fun s' c => if s.fNow c = hi ∧ s.fMin c < s.fNow c then s'.setFreq c (s.fNow c - 1) else s') s1
  else if p + 8 * s.fld .tmpCapCtl 16 8 < s.cap then
    cs.foldl (fun s' c => if s.fNow c = lo ∧ s.fNow c < s.fMax c then s'.setFreq c (s.fNow c + 1) else s') s1
  else s1

-- ## The commands of the family

/-- RAIL_SAMPLE (R457). -/
def execRailSample (vmain vside vstby : Nat) (s : State) : Host.Outcome State Fault Refusal := finish (railSample s vmain vside vstby)
/-- VSTBY_LOSS (R457). -/
def execVstbyLoss (s : State) : Host.Outcome State Fault Refusal := finish s.coldStart
/-- DOMAIN_POWER_GOOD_LOST (R473). -/
def execDomainPowerGoodLost (domain mv : Nat) (s : State) : Host.Outcome State Fault Refusal := finish (powerGoodLost s domain mv)
/-- TRD_REQ (R468). -/
def execTrdReq (src : Src) (v : Nat) (s : State) : Host.Outcome State Fault Refusal :=
  finish (s.via src (fun s => trdRequest s src v))
/-- POWER_STATE_ENTRY_COMPLETE (R461). -/
def execPowerStateEntryComplete (s : State) : Host.Outcome State Fault Refusal := finish (entryDone s)
/-- POWER_STATE_EXIT_COMPLETE (R460). -/
def execPowerStateExitComplete (s : State) : Host.Outcome State Fault Refusal := finish (exitDone s)
/-- EXIT_STEP_TIMEOUT (R460). -/
def execExitStepTimeout (domain mv : Nat) (s : State) : Host.Outcome State Fault Refusal := finish (exitTimeout s domain mv)
/-- WAKE_N_ASSERT (R469). -/
def execWakeNAssert (s : State) : Host.Outcome State Fault Refusal := finish (s.wake 1 0)
/-- PORT_WAKE_ASSERT (R530): ignored while this module drives the pin and for the window after it. -/
def execPortWakeAssert (port : Nat) (s : State) : Host.Outcome State Fault Refusal :=
  finish (if s.treadle.driving || s.treadle.ignoring then s else s.wake 2 port)
/-- PORT_WAKE_DRIVE_END (R530): the drive ends, and with `ignoreToo` the window after it. -/
def execPortWakeDriveEnd (ignoreToo : Bool) (s : State) : Host.Outcome State Fault Refusal :=
  finish { s with treadle := { s.treadle with driving := false, ignoring := s.treadle.ignoring && !ignoreToo } }
/-- THERMAL_READING (R470). -/
def execThermalReading (eighths : List Nat) (s : State) : Host.Outcome State Fault Refusal := finish (thermalReading s eighths)
/-- PWR_BRAKE_ASSERT (R475). -/
def execPwrBrakeAssert (s : State) : Host.Outcome State Fault Refusal :=
  finish { s with treadle := { s.treadle with brake := true } }
/-- PWR_BRAKE_RELEASE (R475). -/
def execPwrBrakeRelease (s : State) : Host.Outcome State Fault Refusal :=
  finish { s with treadle := { s.treadle with brake := false } }
/-- POWER_CAP_INTERVAL (R474). -/
def execPowerCapInterval (watts : Nat) (s : State) : Host.Outcome State Fault Refusal := finish (capInterval s watts)
/-- DVFS_RELOCK_COMPLETE (R474, R104). -/
def execDvfsRelockComplete (cluster : Nat) (s : State) : Host.Outcome State Fault Refusal :=
  finish (if cluster < 32 then s.setIsland cluster { s.island cluster with relocking := false } else s)

end Sys2Proof.Machine
end

