-- ==== Sys2Proof/Machine/Rings.lean ====
section
/-!
DEFINITION. Machine/Rings.lean: ring pairs, doorbells, acceptance, completions (R178 to R190, R513) and the commands that need no other unit:
COPY, FENCE, SIGNAL, QUERY (R191 to R195).
-/

namespace Sys2Proof.Machine

-- ## Enable and disable of a ring pair (R477, R513)

/-- Whether a source may write the registers of a ring pair: the port's PF or the owning function (R513). -/
def State.ringWriter (s : State) (src : Src) (q k : Nat) : Bool :=
  match src with
  | .port q' f' => s.serving src && q' == q && (f' == 0 || f' == s.ringFunc q k)
  | _ => false

/-- A write of HIF_RQ_CTL: while EN is 0 the other fields take the value; then EN. -/
def ringCtl (s : State) (src : Src) (q k v : Nat) : State :=
  if !s.ringWriter src q k ∨ 2 ≤ q ∨ 256 ≤ k then s
  else
    let s1 := if (s.ring q k).en then s else s.setReg (.rqCtl q k) (v &&& 0x3F001F)
    s1.ringOp q k (bitAt v 8)

-- ## Doorbells (R179 to R181)

/-- A doorbell write reaches the pair: it comes through the owning function and the pair is ACTIVE (R506, R513). -/
def State.doorbell (s : State) (q f k : Nat) : Bool := s.arrives (.port q f) && (s.ring q k).active && f == s.ringFunc q k

def sqTail (s : State) (q f k v : Nat) : State :=
  if !s.doorbell q f k then s
  else
    let r := s.ring q k
    let n := s.ringSize q k
    let v := v % 65536
    let r0 := { r with window := [] }
    if n ≤ v then s.setRing q k { r0 with errors := satInc 32 r.errors 1 }
    else
      let whole := (List.range 64).all (fun i => r.window.any (fun w => w.1 == i))
      let bytes := (List.range 64).map (fun i => tget 0 r.window i)
      let r1 := if whole ∧ v = (r.sqTail + 1) % n then { r0 with inlined := r.inlined ++ [(r.sqTail, bytes)] } else r0
      (s.setRing q k { r1 with sqTail := v }).writeRingRecord q k

def cqHead (s : State) (q f k v : Nat) : State :=
  if !s.doorbell q f k then s
  else
    let r := s.ring q k
    let n := s.ringSize q k
    let v := v % 65536
    if n ≤ v then s.setRing q k { r with errors := satInc 32 r.errors 1 }
    else (s.setRing q k { r with cqHead := v, cqUsed := r.cqUsed - (v + n - r.cqHead) % n }).unpark q k

/-- A read of a HOST_WAIT node's semaphore is issued (R207). -/
def State.pollWait (s : State) (d n : Nat) : State :=
  match s.draft d, s.node d n with
  | some x, some y =>
    if y.kind = 0xA ∧ y.st = .running ∧ s.runs x.part then
      let r := s.bring (nodeCtx x y) (.node d n) (y.arg 104 8) 8
      (match r.2 with
       | some st => r.1.endNode d n st
       | none => r.1)
    else s
  | _, _ => s

/-- WAIT_KICK: every HOST_WAIT node of the partitions the pair may name reads its semaphore. -/
def waitKick (s : State) (q f k v : Nat) : State :=
  if !s.doorbell q f k ∨ !bitAt v 0 then s
  else
    let ws := s.drafts.flatMap (fun d => if s.owns q f d.part then
      (d.nodes.zipIdx.filter (fun ni => ni.1.kind == 0xA && ni.1.st == .running)).map (fun ni => (d.id, ni.2)) else [])
    ws.foldl (fun s dn => s.pollWait dn.1 dn.2) s

/-- Bytes written into the inline window (R180). -/
def inlineEntry (s : State) (q f k off : Nat) (data : List Byte) : State :=
  if !s.doorbell q f k then s
  else
    let r := s.ring q k
    let put (w : List (Nat × Byte)) (ib : Nat × Byte) : List (Nat × Byte) :=
      if off + ib.1 < 64 then tinsert (off + ib.1) ib.2 (terase w (off + ib.1)) else w
    s.setRing q k { r with window := ((List.range data.length).zip data).foldl put r.window }

-- ## Acceptance (R182, R183)

/-- The next announced entry of a ring is accepted, and the ring's record rewritten with the SQ_HEAD it leaves (R185, log 175); a malformed or
forbidden one completes INVALID. -/
def submissionEntryAccept (s : State) (q k : Nat) : State :=
  let r := s.ring q k
  let n := s.ringSize q k
  if !r.active ∨ r.sqHead = r.sqTail ∨ s.submitHeld q k ∨ !(s.port q).linkUp then s
  else
    let slot := s.rdBytes (spaceKey (4 + q) (s.addr (.rqAddr q k 0) (.rqAddr q k 1) + 64 * r.sqHead)) 64
    let bytes := match r.inlined.find? (fun i => i.1 == r.sqHead) with | some i => i.2 | none => slot
    let s1 := s.setRing q k { r with sqHead := (r.sqHead + 1) % n, inlined := r.inlined.filter (fun i => i.1 != r.sqHead) }
    let acc := s.accepted + 1
    let f := s.ringFunc q k
    let x : Entry := { acc := acc, port := q, ring := k, func := f, admin := s.isAdmin q f, bytes := bytes, st := .ready, home := (q, k) }
    let s2 := ({ s1 with accepted := acc, entries := s1.entries ++ [x] } : State).writeRingRecord q k
    if !x.formOk ∨ !s.entryAllowed x then s2.invalid acc else s2.startWait x

/-- The status of the entry waited for is in (R188). -/
def waitSatisfied (s : State) (e : Nat) : State :=
  match s.entry e with
  | some x => (match x.waitDone with
    | some st => if x.st = .waiting then s.judgeWait x st else s
    | none => s)
  | none => s

-- ## Completions (R184)

/-- The oldest completion of a pair is written into a free slot, or discarded while the link is down. -/
def completionWrite (s : State) (q k : Nat) : State :=
  let r := s.ring q k
  let n := s.ringSize q k
  match r.held with
  | [] => s
  | c :: rest =>
    if !(s.port q).linkUp then
      let pt := s.port q
      let s1 := ((s.setPort q { pt with lost := satInc 16 pt.lost 1 }).setRing q k { r with held := rest }).unpark q k
      s1.ringRun q k (2 * r.ops.length + 4)
    else if n ≤ r.cqUsed then s
    else
      let key := spaceKey (4 + q) (s.addr (.rqAddr q k 2) (.rqAddr q k 3) + 32 * r.cqTail)
      let f := s.ringFunc q k
      let s1 := s.setRing q k { r with
        held := rest, cqUsed := r.cqUsed + 1, cqTail := (r.cqTail + 1) % n,
        phase := if r.cqTail + 1 = n then !r.phase else r.phase }
      let s2 := s1.hostPut q f key (c.bytes r.phase)
      let s3 := if c.irq then s2.msix q f (s.fld (.rqVec q k) 0 11) else s2
      ((s3.unpark q k).writeRingRecord q k).ringRun q k (2 * r.ops.length + 4)

-- ## Commands

/-- Whether a range of space 0x2, of any module, reaches the accumulator region of a loom (R149). -/
def inAcc (a n : Nat) : Bool := gSpace a == 2 && decide (accBase < gOffset a % loomBytes + n)

/-- COPY (R149, R191, R192): a source elsewhere is brought first; the first selvage shuttle makes the copy in its turn, at once where it is next. No rule
names the shuttle (DESIGN CHOICE, log 180). -/
def State.copyNow (s : State) (x : Entry) : State :=
  let c := s.entryCtx x
  let n := field x.arg2 0 40
  if n ≠ 0 ∧ (inAcc x.arg0 n ∨ inAcc x.arg1 n) then s.complete x.acc stInvalid 0
  else
    match s.readErr c x.arg0 n, s.writeErr c x.arg1 n with
    | none, none =>
      let r := s.bring c (.entry x.acc) x.arg0 n
      (match r.2 with
       | some st => r.1.complete x.acc st 0
       | none =>
         (r.1.joinQueue 0 { issuers := [.entry x.acc], part := x.part, copy := true, src := x.arg0, dst := x.arg1, len := n }).shuttleTake (.entry x.acc))
    | _, _ => s.workDone x.acc (s.copyRange c (.entry x.acc) x.arg0 x.arg1 n)

/-- Completions a FENCE waits for: entries not completed, and completions not written, accepted earlier in its ring or partition (R194). -/
def State.fenceOpen (s : State) (x : Entry) : Bool :=
  let mine (acc part : Nat) (o : Nat × Nat) := decide (acc < x.acc) && (if bitAt x.arg0 0 then part == x.part else o == (x.port, x.ring))
  s.entries.all (fun y => !mine y.acc y.part (y.port, y.ring)) && s.rings.all (fun r => r.2.held.all (fun c => !mine c.acc c.part c.origin))

def fence (s : State) (e : Nat) : State :=
  match s.startable e 3 with
  | some x => if s.fenceOpen x then s.complete e stOK 0 else s
  | none => s

/-- SIGNAL starts once every earlier entry of its ring has completed (R195). -/
def signalCmd (s : State) (e : Nat) : State :=
  match s.startable e 4 with
  | some x =>
    if s.entries.any (fun y => y.before x) then s
    else s.workDone e ((s.setEntry e (fun y => { y with st := .running })).signal (s.entryCtx x) (.entry e) x.arg0 x.arg1 x.arg2)
  | none => s

/-- The entry a QUERY names in ARG1 is the one whose enable is held (R221). -/
def State.enableHeld (s : State) (x : Entry) : Bool :=
  s.entries.any (fun e => e.port == x.port && e.ring == field x.arg1 32 8 && e.tag == field x.arg1 0 32 &&
    ((s.part e.part).ops.contains (.resume e.acc) ||
     (s.part e.part).loops.any (fun l => l.2.st == .disabling && l.2.ops.contains (e.acc, true))))

/-- The state code a QUERY of a record or an entry answers: the manual states none (log 25), so the value is free. -/
def State.unstatedCode (s : State) : Nat × State := (s.draw.1 % 256, s.draw.2)

/-- QUERY (R191, R192, R221): the page or record is written, with the fabric and retirement pages (R298, R452) and the manager's job page (R345)
beside them; RESTART_PENDING while an enable of the object is held. -/
def query (s : State) (e : Nat) : State :=
  match s.entry e with
  | none => s
  | some x =>
    if x.opcode ≠ 0x60 ∨ (x.st ≠ .ready ∧ x.st ≠ .held) ∨ s.fenced x then s
    else
      let y := s.part x.part
      let ans (s : State) (pending : Bool) (code : Nat) := s.complete e (if pending then stRestartPending else stOK) code
      match field x.arg0 0 8 with
      | 0 => ans ((s.writePartPage x.part).writeFabricPage.writeRetirePage) y.restartPending y.st.code
      | 1 => ans ((s.writeJobPage x.part).queryMgrPage x.part) (y.loops.any (·.2.restartPending)) (s.jobCode x.part)
      | 2 =>
        let u := s.unstatedCode
        ans (u.2.writeRingRecord x.port x.ring) (s.ring x.port x.ring).restartPending u.1
      | _ =>
        let u := s.unstatedCode
        ans u.2 (s.enableHeld x) u.1

-- ## The commands of the family

/-- SQ_TAIL (R181). -/
def execSqTail (q f k v : Nat) (s : State) : Host.Outcome State Fault Refusal := finish (s.via (.port q f) (fun s => (sqTail s q f k v).wake 3 0))
/-- CQ_HEAD (R181). -/
def execCqHead (q f k v : Nat) (s : State) : Host.Outcome State Fault Refusal := finish (s.via (.port q f) (fun s => (cqHead s q f k v).wake 3 0))
/-- WAIT_KICK (R207). -/
def execWaitKick (q f k v : Nat) (s : State) : Host.Outcome State Fault Refusal := finish (s.via (.port q f) (fun s => (waitKick s q f k v).wake 3 0))
/-- INLINE_ENTRY (R180). -/
def execInlineEntry (q f k off : Nat) (data : List Byte) (s : State) : Host.Outcome State Fault Refusal := finish (inlineEntry s q f k off data)
/-- SUBMISSION_ENTRY_ACCEPT (R182). -/
def execSubmissionEntryAccept (q k : Nat) (s : State) : Host.Outcome State Fault Refusal := finish (submissionEntryAccept s q k)
/-- WAIT_SATISFIED (R188). -/
def execWaitSatisfied (e : Nat) (s : State) : Host.Outcome State Fault Refusal := finish (waitSatisfied s e)
/-- COMPLETION_WRITE (R184). -/
def execCompletionWrite (q k : Nat) (s : State) : Host.Outcome State Fault Refusal := finish (completionWrite s q k).flrEnd
/-- FENCE (R194). -/
def execFence (e : Nat) (s : State) : Host.Outcome State Fault Refusal := finish (fence s e)
/-- QUERY (R192). -/
def execQuery (e : Nat) (s : State) : Host.Outcome State Fault Refusal := finish (query s e)
/-- HOST_WAIT_POLL (R207). -/
def execHostWaitPoll (d n : Nat) (s : State) : Host.Outcome State Fault Refusal := finish (s.pollWait d n)
/-- RING_PAIR_ENABLE (R513): a write of HIF_RQ_CTL with EN 1. -/
def execRingPairEnable (src : Src) (q k v : Nat) (s : State) : Host.Outcome State Fault Refusal :=
  finish (s.via src (fun s => ringCtl s src q k (setField v 8 1 1)))
/-- RING_PAIR_DISABLE (R513): a write of HIF_RQ_CTL with EN 0. -/
def execRingPairDisable (src : Src) (q k : Nat) (s : State) : Host.Outcome State Fault Refusal :=
  finish (s.via src (fun s => if s.ringWriter src q k ∧ q < 2 ∧ k < 256 then s.ringOp q k false else s))

end Sys2Proof.Machine
end

