-- ==== Sys2Proof/Machine/Loops.lean ====
section
/-!
DEFINITION. Machine/Loops.lean: what a serving loop keeps (R399, R402, R406, R415 to R419, R423, R425, R426): its configuration, its tables in
HBM, references on pages and adapters, and how a sequence or a loop ends (R37, R401, R406 to R408, R421).
-/

namespace Sys2Proof.Machine

-- ## Configuration (R399)

def Loop.slot (x : Loop) : Nat := field (le x.cfg 0 1) 0 3
def Loop.form (x : Loop) : Nat := field (le x.cfg 1 1) 0 1
def Loop.ringOn (x : Loop) : Bool := bitAt (le x.cfg 1 1) 1
def Loop.tokenBytes (x : Loop) : Nat := le x.cfg 4 4
def Loop.maxContext (x : Loop) : Nat := le x.cfg 8 4
def Loop.maxSeqs (x : Loop) : Nat := le x.cfg 12 2
def Loop.maxBatch (x : Loop) : Nat := le x.cfg 14 2
def Loop.queues (x : Loop) : Nat := le x.cfg 16 2
def Loop.bInit (x : Loop) : Nat := le x.cfg 18 2
def Loop.bMin (x : Loop) : Nat := le x.cfg 20 2
def Loop.bMax (x : Loop) : Nat := le x.cfg 22 2
def Loop.interval (x : Loop) : Nat := le x.cfg 24 2
def Loop.target (x : Loop) : Nat := le x.cfg 28 4
def Loop.queueTable (x : Loop) : Nat := le x.cfg 32 8
def Loop.seqTable (x : Loop) : Nat := le x.cfg 40 8
def Loop.ptArea (x : Loop) : Nat := le x.cfg 48 8
def Loop.batchTable (x : Loop) : Nat := le x.cfg 56 8
def Loop.ringSize (x : Loop) : Nat := le x.cfg 65 1
def Loop.ringBlock (x : Loop) : Nat := le x.cfg 68 4
def Loop.ringNext (x : Loop) : Nat := field (le x.cfg 72 2) 0 12

/-- Page-table entries of a slot, blocks of a KV page, bytes of a swap slot (R415, R423). -/
def Loop.ptEntries (x : Loop) : Nat := x.maxContext / 256
def Loop.pageBlocks (x : Loop) : Nat := max 1 (ceilDiv (256 * x.tokenBytes) 65536)
def Loop.swapBytesEach (x : Loop) : Nat := x.pageBlocks * 65536

def State.loop (s : State) (p l : Nat) : Loop := tget {} (s.part p).loops l
def State.setLoop (s : State) (p l : Nat) (f : Loop → Loop) : State :=
  let x := s.part p
  s.setPart p { x with loops := tset {} x.loops l (f (s.loop p l)) }

/-- COUNTER of the pool entries of a loop, and its pick (R245, R402). -/
def State.loopCounter (s : State) (p l : Nat) : Nat := if (s.loop p l).bound then 0 else l + 1
def State.loopPick (s : State) (p l : Nat) : Nat := if (s.loop p l).bound then s.pickOf p else (s.loop p l).pick

/-- WEIGHT of a queue as it stands now, in tokens' units of 256 (R412). -/
def State.weight (s : State) (p l q : Nat) : Nat := le (s.readAt (partCtx p) ((s.loop p l).queueTable + 8 * q) 2) 0 2

-- ## The sequence table (R406)

/-- `n` bytes of a slot's entry from byte `o`. -/
def State.seqGet (s : State) (p l k o n : Nat) : Nat := le (s.readAt (partCtx p) ((s.loop p l).seqTable + 128 * k + o) n) 0 n
def State.seqPut (s : State) (p l k o n v : Nat) : State := s.writeAt (partCtx p) ((s.loop p l).seqTable + 128 * k + o) (leBytes n v)

def State.seqState (s : State) (p l k : Nat) : Nat := s.seqGet p l k 5 1
def State.seqQueue (s : State) (p l k : Nat) : Nat := s.seqGet p l k 6 1
def State.seqBubble (s : State) (p l k : Nat) : Bool := bitAt (s.seqGet p l k 7 1) 0
def State.seqCancelled (s : State) (p l k : Nat) : Bool := bitAt (s.seqGet p l k 7 1) 1
def State.seqPos (s : State) (p l k : Nat) : Nat := s.seqGet p l k 24 4
def State.seqEnd (s : State) (p l k : Nat) : Nat := s.seqGet p l k 28 4
def State.seqOrder (s : State) (p l k : Nat) : Nat := s.seqGet p l k 40 8

def State.seqX (s : State) (p l k : Nat) : Option SeqX := (s.loop p l).seqs.find? (fun q => q.slot == k)
def State.setSeqX (s : State) (p l k : Nat) (f : SeqX → SeqX) : State :=
  s.setLoop p l (fun x => { x with seqs := x.seqs.map (fun q => if q.slot = k then f q else q) })

/-- Slots in an order of a field, ascending. -/
def State.seqsBy (s : State) (p l : Nat) (keep : SeqX → Bool) (key : Nat → Nat) : List Nat :=
  (sortBy (fun a b => decide (a.1 ≤ b.1)) (((s.loop p l).seqs.filter keep).map (fun q => (key q.slot, q.slot)))).map (·.2)

/-- Sequences in PREFILL or DECODE (R399). -/
def State.activeSeqs (s : State) (p l : Nat) : Nat := s.seqsIn p (s.loop p l) 2 + s.seqsIn p (s.loop p l) 3

-- ## Page tables (R415)

def State.ptGet (s : State) (p l k i : Nat) : Nat :=
  let x := s.loop p l
  le (s.readAt (partCtx p) (x.ptArea + 4 * (k * x.ptEntries + i)) 4) 0 4
def State.ptPut (s : State) (p l k i v : Nat) : State :=
  let x := s.loop p l
  s.writeAt (partCtx p) (x.ptArea + 4 * (k * x.ptEntries + i)) (leBytes 4 v)

def ptIndex (v : Nat) : Nat := field v 0 16
def ptShared (v : Nat) : Bool := bitAt v 16
def ptValid (v : Nat) : Bool := bitAt v 17
def ptSwapped (v : Nat) : Bool := bitAt v 18
/-- An entry in use: INDEX, SHARED, SWAPPED. -/
def ptWord (index : Nat) (shared swapped : Bool) : Nat := index % 65536 + 65536 * b2n shared + 131072 + 262144 * b2n swapped

/-- Entries of a slot's page table that are in use, by index. -/
def State.ptUsed (s : State) (p l k : Nat) : List (Nat × Nat) :=
  ((List.range (s.loop p l).ptEntries).map (fun i => (i, s.ptGet p l k i))).filter (fun e => ptValid e.2)

/-- Private pages of a slot that lie in the pool. -/
def State.privatePages (s : State) (p l k : Nat) : List (Nat × Nat) :=
  ((s.ptUsed p l k).filter (fun e => !ptShared e.2 && !ptSwapped e.2)).map (fun e => (e.1, ptIndex e.2))

-- ## Prefix handles and adapters

def State.handle (s : State) (p l id : Nat) : Option Handle := (s.loop p l).handles.find? (fun h => h.id == id)
def State.setHandle (s : State) (p l id : Nat) (f : Handle → Handle) : State :=
  s.setLoop p l (fun x => { x with handles := x.handles.map (fun h => if h.id = id then f h else h) })

/-- Every position of the handle is stored: its pages can be referenced (R419). -/
def Handle.filled (h : Handle) : Bool := h.st != .evicted && decide (h.tokens ≤ h.pos)

/-- The current generation of an adapter, once its copy has ended (R425). -/
def State.adapterNow (s : State) (p id : Nat) : Option Adapter :=
  (s.part p).adapters.find? (fun a => a.id == id && a.current && a.loading.isNone)

/-- REFS of a directory entry up or down. -/
def State.addRef (s : State) (p e : Nat) : State := let y := s.pent p e; s.setPent p e { y with refs := y.refs + 1 }

/-- A reference on a class-1 page ends: without one its handle's RELEASED state decides (R416, R417). -/
def State.dropPageRef (s : State) (p l e : Nat) : State :=
  let y := s.pent p e
  let kept := match s.handle p l y.key with | some h => h.st != .released | none => false
  s.setPent p e { y with refs := y.refs - 1, freePending := y.freePending || (decide (y.refs ≤ 1) && !kept) }

/-- A generation of an adapter: the one in pool entry `e`, since an id that was removed and loaded again begins at generation 1 anew (R425, R426). -/
def State.adapterGen (s : State) (p id gen e : Nat) : Option Adapter :=
  let as := (s.part p).adapters.filter (fun a => a.id == id && a.gen == gen)
  (as.find? (fun a => a.entry == e)).or as.head?

/-- Pool entry of an adapter's current generation. -/
def State.adapterPlace (s : State) (p id : Nat) : Nat := match s.adapterNow p id with | some a => a.entry | none => 0

/-- A reference on an adapter generation ends; one that is not current goes at the first boundary without references (R426). -/
def State.dropAdapterRef (s : State) (p id gen e : Nat) : State :=
  match s.adapterGen p id gen e with
  | none => s
  | some a =>
    let y := s.pent p a.entry
    s.setPent p a.entry { y with refs := y.refs - 1, freePending := y.freePending || (decide (y.refs ≤ 1) && !a.current && a.loading.isNone) }

def State.takeAdapterRef (s : State) (p id gen e : Nat) : State :=
  match s.adapterGen p id gen e with
  | some a => s.addRef p a.entry
  | none => s

/-- A private page leaves its sequence: REFS 0, and it is free now or from the next boundary (R416, R421). -/
def State.dropPage (s : State) (p e : Nat) (now : Bool) : State :=
  let y := s.pent p e
  if y.blocks = 0 then s
  else if now ∧ y.pins = 0 then s.clearPent p e
  else s.setPent p e { y with refs := 0, ownerPin := false, freePending := true }

-- ## The end of a sequence (R406 to R408, R411, R421)

/-- The 32-byte status record (R407). -/
def State.seqRecord (s : State) (p l k code : Nat) : List Byte :=
  let x := (s.seqX p l k).getD { slot := k, acc := 0, admitPick := 0 }
  let prefixLen := match s.handle p l (s.seqGet p l k 20 4) with | some h => h.tokens | none => 0
  let pos := min (s.seqPos p l k) (s.seqEnd p l k)
  leBytes 4 (pos - prefixLen) ++ leBytes 4 (s.seqGet p l k 36 4) ++ leBytes 8 x.admitPick ++ leBytes 8 (s.loopPick p l) ++ leBytes 1 code ++
  zeros 1 ++ leBytes 2 (x.swaps % 65536) ++ leBytes 4 (s.seqGet p l k 8 4)

/-- The record is written at STATUS, with the accesses of the SEQ_ADMIT. -/
def State.putSeqRecord (s : State) (p l k code : Nat) : State :=
  match s.seqX p l k with
  | none => s
  | some x => match s.entry x.acc with
    | some e => (s.put (s.entryCtx e) (.entry x.acc) (s.seqGet p l k 80 8) (s.seqRecord p l k code)).1
    | none => (s.put (partCtx p) .outside (s.seqGet p l k 80 8) (s.seqRecord p l k code)).1

/-- Pool entry of the adapter generation a sequence has latched. -/
def State.seqAdapterAt (s : State) (p l k : Nat) : Nat := match s.seqX p l k with | some x => x.adapterAt | none => 0

/-- Every page, swap slot, reference and latch of a sequence ends; `now` frees its pages at once. -/
def State.clearSeq (s : State) (p l k : Nat) (now : Bool) : State :=
  let used := s.ptUsed p l k
  let moving := match s.seqX p l k with | some x => x.pages | none => []
  let s1 := used.foldl (fun s e =>
    let s1 := if ptShared e.2 then s.dropPageRef p l (ptIndex e.2)
      else if ptSwapped e.2 then s.setLoop p l (fun x => { x with swapUsed := x.swapUsed.filter (· != ptIndex e.2) })
      else s.dropPage p (ptIndex e.2) now
    s1.ptPut p l k e.1 0) s
  let s2 := moving.foldl (fun s e => s.dropPage p e now) s1
  let s3 := (s2.dropAdapterRef p (s2.seqGet p l k 12 4) (s2.seqGet p l k 16 4) (s2.seqAdapterAt p l k)).unlatch p (s2.seqGet p l k 8 4)
  (s3.seqPut p l k 5 1 5).setLoop p l (fun x => { x with seqs := x.seqs.filter (fun q => q.slot != k) })

/-- A sequence ends with END `code`; its SEQ_ADMIT completes with the status once its writes are acknowledged. -/
def State.endSeq (s : State) (p l k code status : Nat) (now : Bool) : State :=
  match s.seqX p l k with
  | none => s
  | some x =>
    let s1 := (s.putSeqRecord p l k code).clearSeq p l k now
    if status = stOK then s1.workDone x.acc (s1, none)
    else match s1.entry x.acc with
      | some e => s1.complete x.acc status e.result
      | none => s1

/-- A sequence whose SEQ_ADMIT an access has ended ends as failed (R241, R411). -/
def State.sweepSeqs (s : State) (p l : Nat) : State :=
  ((s.loop p l).seqs.filter (fun x => (s.entry x.acc).isNone)).foldl (fun s x => (s.putSeqRecord p l x.slot 6).clearSeq p l x.slot false) s

-- ## The end of a loop (R401)

/-- Pages of the handles of a loop are freed with it, and the references of those that were filling end. -/
def State.dropHandles (s : State) (p l : Nat) : State :=
  let s1 := (s.loop p l).handles.foldl (fun s h =>
    let s1 := h.pages.foldl (fun s e => s.dropPage p e true) s
    if h.st = .filling then s1.dropAdapterRef p h.adapter h.adapterGen h.adapterAt else s1) s
  s1.setLoop p l (fun x => { x with handles := [] })

/-- DISABLING ends: sequences complete CANCELLED, everything the loop holds is freed, and it is DISABLED. -/
def State.closeLoop (s : State) (p l : Nat) : State :=
  let s1 := (s.loop p l).seqs.foldl (fun s x => s.endSeq p l x.slot 5 stCancelled true) s
  let s2 := s1.dropHandles p l
  let s3 := ((s2.loop p l).ring.filter (fun r => r.2 != 0)).foldl (fun s r => s.release p (r.2 - 1)) s2
  (s3.unlatch p (s3.loop p l).version).setLoop p l (fun x => { pick := x.pick, ops := x.ops })

end Sys2Proof.Machine
end

