-- ==== Sys2Proof/Machine/ServeCmds.lean ====
section
/-!
DEFINITION. Machine/ServeCmds.lean: the commands of serving and of weight versions: loops (R399 to R401), sequences (R403, R404, R420), prefix handles
(R418, R419), swap areas (R423), adapters (R425, R426), publication and switch of versions (R27 to R34).
-/

namespace Sys2Proof.Machine

-- ## When a loop's command takes effect (R21, R189)

/-- The loop an entry names. -/
def Entry.loop (x : Entry) : Nat := field x.arg1 0 2

/-- The command follows the job's pick: its loop is bound, or it binds one. -/
def State.followsJob (s : State) (x : Entry) : Bool :=
  let y := s.loop x.part x.loop
  if y.st = .disabled then x.opcode == 0x10 && bitAt x.arg1 2 && bitAt x.arg1 3 else y.bound

/-- The boundary a loop's command waits for is here: the job's, or the loop's own; a loop that is disabled has none and acts at once. -/
def State.loopDue (s : State) (x : Entry) : Bool :=
  let y := s.loop x.part x.loop
  if s.followsJob x then s.due x
  else y.st == .disabled || (y.step.isNone && y.stage == 0 && decide (x.effPick ≤ y.pick + 1))

/-- The entry takes effect at this boundary of its loop or job. -/
def State.loopMark (s : State) (x : Entry) : State :=
  if s.followsJob x then s.mark x
  else
    let y := s.loop x.part x.loop
    s.setEntry x.acc (fun z => { z with st := .running, pick := if y.st = .disabled then 0 else y.pick + 1 })

/-- A loop's command takes effect now or waits for its boundary; `member` holds it until the member has joined (R341). -/
def State.takeLoop (s : State) (e op : Nat) (member : Bool) (f : State → Entry → State) : State :=
  match s.startable e op with
  | none => s
  | some x =>
    let go (s : State) : State := if s.loopDue x && !(s.followsJob x && s.behind x) then f (s.loopMark x) x else s.setEntry e (fun y => { y with st := .boundary })
    if (s.part x.part).st.idle then s.invalid e else if member then s.asMember x go else go s

-- ## SERVE_LOOP_CONFIG (R399 to R401)

/-- A module that differs from this one only in one coordinate. -/
def State.alongDim (s : State) (dim m : Nat) : Bool := (List.range 3).all (fun d => d == dim || coord m d == coord s.moduleNum d)

/-- The fields of a configuration block (R12, R13, R399, R400). -/
def State.loopCfgOk (s : State) (c : Ctx) (p l : Nat) (bind : Bool) (b : List Byte) : Bool :=
  let x : Loop := { cfg := b }
  let kv := le b 2 1
  let dim := le b 64 1
  let others := (s.part p).loops.filter (fun y => y.1 != l && y.2.st != .disabled)
  b.length == 128 && field (le b 0 1) 3 5 == 0 && field (le b 1 1) 2 6 == 0 && zeroAt b 3 1 && zeroAt b 26 2 && zeroAt b 67 1 && zeroAt b 76 52 &&
  field (le b 72 2) 12 4 == 0 && field (le b 74 2) 12 4 == 0 && (kv == 1 || kv == 8 || kv == 9) &&
  decide (1 ≤ x.tokenBytes ∧ x.tokenBytes ≤ 1048576) && x.maxContext % 256 == 0 && decide (256 ≤ x.maxContext ∧ x.maxContext ≤ 2097152) &&
  decide (1 ≤ x.maxSeqs ∧ x.maxSeqs ≤ 4096) && decide (1 ≤ x.maxBatch ∧ x.maxBatch ≤ x.maxSeqs) && decide (1 ≤ x.queues ∧ x.queues ≤ 256) &&
  decide (1 ≤ x.bMin ∧ x.bMin ≤ x.bInit ∧ x.bInit ≤ x.bMax) && decide (1 ≤ x.interval) && decide (1 ≤ x.target) &&
  s.ownHbm c p x.queueTable (8 * x.queues) 1 && s.ownHbm c p x.seqTable (128 * x.maxSeqs) 1 &&
  s.ownHbm c p x.ptArea (4 * x.maxSeqs * x.ptEntries) 1 && s.ownHbm c p x.batchTable (64 + 64 * x.maxSeqs) 1 &&
  (if x.ringOn then decide (dim < 3) && decide (2 ≤ x.ringSize ∧ x.ringSize ≤ 16) && decide (le b 66 1 < x.ringSize) && x.ringBlock % 256 == 0 && bind &&
      s.alongDim dim x.ringNext && s.alongDim dim (field (le b 74 2) 0 12)
   else dim == 0) &&
  (tget {} (s.part p).slots x.slot).loaded && !(bind && others.any (fun y => y.2.bound)) &&
  decide (others.foldl (fun n y => n + y.2.queues) 0 + x.queues ≤ 256)

/-- SERVE_LOOP_CONFIG completes with the state code in byte 24. -/
def State.loopAnswer (s : State) (p l acc status : Nat) : State := s.complete acc status (s.loop p l).st.code

/-- An enable runs with the configuration that stands now (R401, R477); its status. -/
def State.enableLoop (s : State) (x : Entry) : State × Nat :=
  let p := x.part
  let l := x.loop
  let c := s.entryCtx x
  let bind := bitAt x.arg1 2
  if x.arg0 % 64 ≠ 0 ∨ (s.loop p l).st ≠ .disabled then (s, stInvalid)
  else match s.need c x.arg0 128 with
    | .error e => (s.missed c e, e.1)
    | .ok b =>
      if !s.loopCfgOk c p l bind b then (s, stInvalid)
      else
        let s1 := s.setLoop p l (fun y => { st := .running, cfg := b, bound := bind, prio := field x.arg1 4 2, pick := y.pick
                                            budget := le b 18 2, ops := y.ops })
        let y := s1.loop p l
        ((List.range y.maxSeqs).foldl (fun s k => s.writeAt (partCtx p) (y.seqTable + 128 * k) (zeros 128)) s1, stOK)

/-- A disable runs: the loop is DISABLING, and DISABLED at once where no step is in flight. -/
def State.disableLoop (s : State) (p l : Nat) : State :=
  let s1 := s.setLoop p l (fun y => { y with st := .disabling })
  if (s1.loop p l).step.isNone then s1.closeLoop p l else s1

/-- Operations kept run in order: those at the head of one kind run together (R477). -/
def State.loopRun (s : State) (p l : Nat) : Nat → State
  | 0 => s
  | fuel + 1 =>
    let x := s.loop p l
    match x.ops with
    | [] => s
    | (acc, en) :: _ =>
      let mine := (x.ops.takeWhile (fun o => o.2 == en)).map (·.1)
      let drop (s : State) : State := s.setLoop p l (fun y => { y with ops := y.ops.drop mine.length })
      if en then
        if x.st = .disabling then s
        else match s.entry acc with
          | none => (s.setLoop p l (fun y => { y with ops := y.ops.drop 1 })).loopRun p l fuel
          | some e =>
            let r := s.enableLoop e
            (mine.foldl (fun s a => s.loopAnswer p l a r.2) (drop r.1)).loopRun p l fuel
      else if x.st = .running then (s.disableLoop p l).loopRun p l fuel
      else if x.st = .disabling then s
      else (mine.foldl (fun s a => s.loopAnswer p l a stOK) (drop s)).loopRun p l fuel

/-- SERVE_LOOP_CONFIG at its boundary; on a secure part an enable and a disable alike need attestation of the owner's port (R6). -/
def serveConfigNow (s : State) (x : Entry) : State :=
  let p := x.part
  let l := x.loop
  if !s.attestedFor p then s.loopAnswer p l x.acc stInvalid
  else
  let s1 := s.setLoop p l (fun y => { y with ops := y.ops ++ [(x.acc, bitAt x.arg1 3)] })
  (s1.loopRun p l ((s1.loop p l).ops.length + 2)).writeJobPage p

-- ## Sequences (R403, R404)

/-- An address range is not refused under R67 or R219. -/
def State.readable (s : State) (c : Ctx) (a n : Nat) : Bool :=
  if s.isLocal a then decide (a % 2 ^ 48 + n ≤ 2 ^ 48) && s.allowed c a n false else s.inTorus (gModule a)

/-- The version check of R404 for a form, and the current version. -/
def State.formNow (s : State) (p l : Nat) : Option Version :=
  ((s.part p).job.versions.find? (fun v => v.st == .current)).bind (fun v => if bitAt v.forms (s.loop p l).form then some v else none)

/-- The adapter an id names: generation 0 for none (R404). -/
def State.adapterOk (s : State) (p id : Nat) : Option Nat :=
  if id = 0 then some 0 else (s.adapterNow p id).map (·.gen)

/-- The fields of a sequence descriptor (R12, R403). -/
def descriptorOk (b : List Byte) : Bool := b.length == 64 && decide (1 ≤ le b 0 4) && zeroAt b 36 4 && zeroAt b 56 8

/-- The INVALID cases of R404 in the descriptor. -/
def State.admitOk (s : State) (c : Ctx) (p l q : Nat) (bubble : Bool) (b : List Byte) : Bool :=
  let x := s.loop p l
  let h := s.handle p l (le b 24 4)
  let adapter := le b 28 4
  let pre := if le b 24 4 = 0 then 0 else match h with | some h => h.tokens | none => 0
  descriptorOk b && decide (q < x.queues) && s.weight p l q != 0 && decide (pre + le b 0 4 + le b 4 4 ≤ x.maxContext) &&
  (le b 24 4 == 0 || (match h with | some h => h.st != .released && h.adapter == adapter | none => false)) && (s.adapterOk p adapter).isSome &&
  (!bubble || x.bound) && s.readable c (le b 8 8) (4 * le b 0 4) && (le b 4 4 == 0 || s.writable c (le b 16 8) (8 * le b 4 4)) && s.writable c (le b 48 8) 32

/-- Pages of a handle allocated in class 1: none where one cannot be had, and then nothing is kept (R418, R419). -/
def State.handlePages (s : State) (p l id : Nat) : Nat → State × Option (List Nat)
  | 0 => (s, some [])
  | n + 1 =>
    match s.handlePages p l id n with
    | (s1, none) => (s1, none)
    | (s1, some es) =>
      match s1.alloc p 1 id (s1.loop p l).pageBlocks (s1.loopCounter p l) with
      | (s2, some e) => (s2, some (es ++ [e]))
      | (s2, none) => (es.foldl (fun s e => s.clearPent p e) s2, none)

/-- A handle that was evicted is filled again (R419). -/
def State.refill (s : State) (p l : Nat) (h : Handle) : State × Bool :=
  if h.st ≠ .evicted then (s, true)
  else match s.handlePages p l h.id (ceilDiv h.tokens 256) with
    | (s1, none) => (s1, false)
    | (s1, some es) =>
      let e := s1.adapterPlace p h.adapter
      ((s1.setHandle p l h.id (fun h => { h with st := .filling, pages := es, pos := 0, adapterAt := e })).takeAdapterRef p h.adapter h.adapterGen e, true)

/-- The sequence enters WAITING in a slot: its entry, the references on its handle's pages, its latches (R35, R404, R416). -/
def State.enterSeq (s : State) (x : Entry) (b : List Byte) (k w gen : Nat) : State :=
  let p := x.part
  let l := x.loop
  let y := s.loop p l
  let bubble := bitAt x.arg1 16
  let h := s.handle p l (le b 24 4)
  let pre := match h with | some h => h.tokens | none => 0
  let pages := match h with | some h => h.pages | none => []
  let pick := match s.entry x.acc with | some e => e.pick | none => 0
  let row := leBytes 4 x.tag ++ leBytes 1 x.ring ++ leBytes 1 1 ++ leBytes 1 (field x.arg1 8 8) ++ leBytes 1 (b2n bubble) ++ leBytes 4 w ++
    leBytes 4 (le b 28 4) ++ leBytes 4 gen ++ leBytes 4 (le b 24 4) ++ leBytes 4 pre ++ leBytes 4 (pre + le b 0 4) ++ zeros 8 ++
    leBytes 8 y.admitOrder ++ zeros 8 ++ leBytes 4 (le b 4 4) ++ leBytes 4 (le b 32 4) ++ leBytes 8 (le b 8 8) ++ leBytes 8 (le b 16 8) ++
    leBytes 8 (le b 48 8) ++ leBytes 8 (le b 40 8) ++ zeros 32
  let s1 := s.writeAt (partCtx p) (y.seqTable + 128 * k) row
  let s2 := (List.range y.ptEntries).foldl (fun s i =>
    match pages[i]? with
    | some e => (s.addRef p e).ptPut p l k i (ptWord e true false)
    | none => s.ptPut p l k i 0) s1
  let ad := s2.adapterPlace p (le b 28 4)
  let s3 := (s2.latch p w).takeAdapterRef p (le b 28 4) gen ad
  let s4 := s3.setLoop p l (fun y => { y with
    admitOrder := y.admitOrder + 1, seqs := y.seqs ++ [{ slot := k, acc := x.acc, admitPick := pick, adapterAt := ad }] })
  s4.setEntry x.acc (fun e => { e with result := w + 2 ^ 32 * b2n bubble })

/-- SEQ_ADMIT at its boundary: the checks of R404 in order. -/
def seqAdmitNow (s : State) (x : Entry) : State :=
  let p := x.part
  let l := x.loop
  let c := s.entryCtx x
  let y := s.loop p l
  if y.st ≠ .running ∨ x.arg0 % 64 ≠ 0 then s.invalid x.acc
  else match s.need c x.arg0 64 with
    | .error e => (s.missed c e).complete x.acc e.1 0
    | .ok b =>
      if !s.admitOk c p l (field x.arg1 8 8) (bitAt x.arg1 16) b then s.invalid x.acc
      else match s.formNow p l with
        | none => s.complete x.acc stVersionMismatch 0
        | some v =>
          let gen := (s.adapterOk p (le b 28 4)).getD 0
          let h := s.handle p l (le b 24 4)
          if (match h with | some h => h.version != v.number || h.adapterGen != gen | none => false) then s.complete x.acc stVersionMismatch 0
          else match firstIdx y.maxSeqs (fun k => (s.seqX p l k).isNone) with
            | none => s.complete x.acc stPoolExhausted 0
            | some k =>
              match h with
              | none => s.enterSeq x b k v.number gen
              | some h =>
                let r := s.refill p l h
                if r.2 then r.1.enterSeq x b k v.number gen else r.1.complete x.acc stPoolExhausted 0

/-- SEQ_CANCEL (R420, R421): the sequence of the TAG and ring pair is CANCEL_PENDING. -/
def seqCancelNow (s : State) (x : Entry) : State :=
  let p := x.part
  let hit := (s.part p).loops.findSome? (fun lx => (lx.2.seqs.find? (fun q =>
    s.seqGet p lx.1 q.slot 0 4 == field x.arg0 0 32 && s.seqGet p lx.1 q.slot 4 1 == field x.arg0 32 8)).map (fun q => (lx.1, q.slot)))
  let s1 := match hit with
    | some (l, k) => if s.seqCancelled p l k then s else s.seqPut p l k 7 1 (setField (s.seqGet p l k 7 1) 1 1 1)
    | none => s
  s1.complete x.acc stOK 0

-- ## Prefix handles (R418, R419)

/-- PREFIX_REGISTER at its boundary. -/
def prefixRegisterNow (s : State) (x : Entry) : State :=
  let p := x.part
  let l := x.loop
  let c := s.entryCtx x
  let y := s.loop p l
  if y.st ≠ .running ∨ x.arg0 % 64 ≠ 0 then s.invalid x.acc
  else match s.need c x.arg0 32 with
    | .error e => (s.missed c e).complete x.acc e.1 0
    | .ok b =>
      let n := le b 0 4
      let q := le b 4 1
      let adapter := le b 16 4
      if !zeroAt b 5 3 ∨ !zeroAt b 20 12 ∨ n = 0 ∨ y.maxContext ≤ n ∨ y.queues ≤ q ∨ s.weight p l q = 0 ∨ (s.adapterOk p adapter).isNone ∨
          !s.readable c (le b 8 8) (4 * n) then s.invalid x.acc
      else match s.formNow p l with
        | none => s.complete x.acc stVersionMismatch 0
        | some v =>
          if 4096 ≤ (y.handles.filter (fun h => h.st != .released)).length then s.complete x.acc stPoolExhausted 0
          else
            let id := y.nextHandle
            match s.handlePages p l id (ceilDiv n 256) with
            | (s1, none) => s1.complete x.acc stPoolExhausted 0
            | (s1, some es) =>
              let gen := (s1.adapterOk p adapter).getD 0
              let h : Handle := { id := id, tokens := n, queue := q, addr := le b 8 8, adapter := adapter, adapterGen := gen, version := v.number, pages := es
                                  adapterAt := s1.adapterPlace p adapter }
              let s2 := (s1.setLoop p l (fun y => { y with nextHandle := id + 1, handles := y.handles ++ [h] })).takeAdapterRef p adapter gen h.adapterAt
              s2.complete x.acc stOK id

/-- PREFIX_RELEASE at its boundary: pages that nothing references are free from the next boundary (R416, R419). -/
def prefixReleaseNow (s : State) (x : Entry) : State :=
  let p := x.part
  let l := x.loop
  match s.handle p l (field x.arg0 0 32) with
  | none => s.invalid x.acc
  | some h =>
    if h.st = .released ∨ (s.loop p l).st ≠ .running then s.invalid x.acc
    else
      let s1 := if h.st = .filling then s.dropAdapterRef p h.adapter h.adapterGen h.adapterAt else s
      let s2 := h.pages.foldl (fun s e => let y := s.pent p e; if y.refs = 0 then s.setPent p e { y with freePending := true } else s) s1
      (s2.setHandle p l h.id (fun h => { h with st := .released })).complete x.acc stOK 0

-- ## Swap areas (R423)

/-- SWAP_AREA_REGISTER. -/
def swapAreaNow (s : State) (x : Entry) : State :=
  let p := x.part
  let l := field x.arg2 0 2
  let y := s.loop p l
  let a := x.arg0
  let n := x.arg1
  let there := s.isLocal a && (gSpace a == 4 || gSpace a == 5) && s.hostAllowed (s.entryCtx x) (gSpace a - 4) && a % 65536 == 0 && n % 65536 == 0 &&
    decide (gOffset a + n ≤ 2 ^ 48)
  if y.st ≠ .running ∨ s.seqsIn p y 4 ≠ 0 ∨ y.seqs.any (fun q => q.moving != 0) ∨ (n ≠ 0 ∧ !there) then s.invalid x.acc
  else (s.setLoop p l (fun y => { y with swapBase := a, swapBytes := n, swapUsed := [] })).complete x.acc stOK 0

-- ## Adapters (R425, R426)

/-- Copies whose command an access has ended leave nothing behind. -/
def State.sweepAdapters (s : State) (p : Nat) : State :=
  let lost (a : Adapter) : Bool := match a.loading with | some e => (s.entry e).isNone | none => false
  let dead := (s.part p).adapters.filter lost
  let s1 := dead.foldl (fun s a => s.dropPage p a.entry true) s
  if dead.isEmpty then s1 else s1.setPart p { s1.part p with adapters := (s1.part p).adapters.filter (fun a => !lost a) }

/-- A length R425 allows. -/
def adapterLength (n : Nat) : Bool := decide (64 ≤ n ∧ n ≤ 2 ^ 32 - 64) && n % 64 == 0

/-- The copy into a new entry begins (R425, R426). -/
def State.copyAdapter (s : State) (x : Entry) (gen : Nat) (current : Bool) : State :=
  let p := x.part
  let id := x.arg2
  let r := s.alloc p 5 id (ceilDiv x.arg1 65536) 0
  match r.2 with
  | none => r.1.complete x.acc stPoolExhausted 0
  | some e =>
    let z := r.1.part p
    let s1 := r.1.setPart p { z with adapters := z.adapters ++ [{ id := id, gen := gen, entry := e, current := current, loading := some x.acc }] }
    let b := s1.bring (s1.entryCtx x) (.entry x.acc) x.arg0 x.arg1
    match b.2 with
    | some st => (b.1.complete x.acc st 0).sweepAdapters p
    | none => b.1

/-- ADAPTER_LOAD. -/
def adapterLoadNow (s0 : State) (x : Entry) : State :=
  let p := x.part
  let s := s0.sweepAdapters p
  let as := (s.part p).adapters
  if (s.part p).st.idle ∨ x.arg2 = 0 ∨ !adapterLength x.arg1 ∨ as.any (fun a => a.id == x.arg2 && a.current) then s.invalid x.acc
  else if 1024 ≤ ((as.filter (·.current)).map (·.id)).dedup.length then s.complete x.acc stPoolExhausted 0
  else s.copyAdapter x 1 true

/-- A generation that nothing references goes at the next boundary; others go with their last reference (R426). -/
def State.retireAdapter (s : State) (p id : Nat) : State :=
  ((s.part p).adapters.filter (fun a => a.id == id && a.current)).foldl (fun s a =>
    let y := s.pent p a.entry
    s.setPent p a.entry { y with ownerPin := decide (y.refs ≠ 0), freePending := y.freePending || y.refs == 0 }) s

/-- A replacement takes effect: admissions latch the new generation from now on. -/
def State.replaceAdapter (s : State) (x : Entry) : State :=
  let p := x.part
  let s1 := s.retireAdapter p x.arg2
  let z := s1.part p
  let as := z.adapters.map (fun a =>
    if a.id = x.arg2 ∧ a.loading = some x.acc then { a with current := true, loading := none, copied := true }
    else if a.id = x.arg2 ∧ a.current then { a with current := false } else a)
  (s1.setPart p { z with adapters := as }).complete x.acc stOK 0

/-- The copy of a replacement has ended, or it has none. -/
def State.replaceReady (s : State) (x : Entry) : Bool :=
  x.arg1 == 0 || (s.part x.part).adapters.any (fun a => a.loading == some x.acc && a.copied)

/-- ADAPTER_REPLACE: held behind another of its adapter; its copy begins at once, and the later of copy and boundary is its effect. -/
def adapterReplace (s0 : State) (e : Nat) : State :=
  match s0.startable e 0x16 with
  | none => s0
  | some x =>
    let p := x.part
    let s := s0.sweepAdapters p
    let older := s.entries.any (fun y => y.opcode == 0x16 && y.part == p && y.arg2 == x.arg2 && decide (y.acc < e) && (y.st == .running || y.st == .boundary))
    if (s.part p).st.idle then s.invalid e
    else if older then s.setEntry e (fun y => { y with st := .held })
    else match s.adapterNow p x.arg2 with
      | none => s.invalid e
      | some a =>
        if x.arg1 ≠ 0 ∧ !adapterLength x.arg1 then s.invalid e
        else
          let s1 := if s.due x && !s.behind x then s.mark x else s.setEntry e (fun y => { y with st := .boundary })
          if x.arg1 = 0 then (if s.due x && !s.behind x then s1.replaceAdapter x else s1)
          else s1.copyAdapter x (a.gen + 1) false

/-- ADAPTER_REPLACE at its boundary: with the copy at work it waits for its end (R426). -/
def adapterReplaceDue (s : State) (x : Entry) : State := if s.replaceReady x then s.replaceAdapter x else s

/-- ADAPTER_COPY_COMPLETE: the source has come, and the entry holds it. -/
def adapterCopied (s : State) (p id : Nat) : State :=
  match (s.part p).adapters.find? (fun a => a.id == id && a.loading.isSome && !a.copied) with
  | none => s
  | some a => match a.loading.bind s.entry with
    | none => s.sweepAdapters p
    | some x =>
      if x.acks ≠ 0 ∨ !s.runs p then s
      else
        let r := s.copyRange (s.entryCtx x) .outside x.arg0 (s.pentAddr p a.entry) x.arg1
        match r.2 with
        | some st => (r.1.complete x.acc st 0).sweepAdapters p
        | none =>
          let z := r.1.part p
          let s1 := r.1.setPart p { z with adapters := z.adapters.map (fun b => if b.loading = some x.acc then { b with copied := true } else b) }
          if x.opcode = 0x15 then
            (s1.setPart p { s1.part p with adapters := (s1.part p).adapters.map (fun b => if b.loading = some x.acc then { b with loading := none } else b) }).complete x.acc stOK 0
          else if x.st = .running then s1.replaceAdapter x
          else s1

/-- Records of generations whose entry is free again leave. -/
def State.forgetAdapters (s : State) (p : Nat) : State :=
  if (s.part p).adapters.all (fun a => a.current || a.loading.isSome) then s
  else s.setPart p { s.part p with adapters := (s.part p).adapters.filter (fun a => a.current || a.loading.isSome || (s.pent p a.entry).blocks != 0) }

-- ## Weight versions (R27 to R34)

/-- WEIGHT_VERSION_PUBLISH: at the end of its pick; of a pick that has ended, at the boundary the job stands at (R29, R189). -/
def versionPublish (s : State) (e : Nat) : State :=
  match s.startable e 0x20 with
  | none => s
  | some x =>
    if (s.part x.part).st.idle ∨ !s.hasJob x.part then s.invalid e
    else s.asMember x (fun s =>
      if s.atBoundary x.part ∧ (s.part x.part).job.st = .boundary ∧ x.effPick ≤ s.pickOf x.part then
        let w := field x.arg0 0 32
        let r := s.publish x.part w
        r.1.completeWith e r.2 (s.pickOf x.part) (if r.2 = 0 then w else 0)
      else s.setEntry e (fun y => { y with st := .boundary }))

/-- The pointer as it stood before the switch already made at this boundary, which then never was (R34). -/
def Job.unswitch (j : Job) : Job :=
  { j with
    versions := j.versions.map (fun v => match j.unswitched.find? (fun u => u.1 == v.number) with
      | some u => { v with st := u.2.1, hold := u.2.2 }
      | none => v)
    unswitched := [] }

/-- WEIGHT_VERSION_SWITCH at its boundary: RESULT is the version current before it. -/
def versionSwitchNow (s : State) (x : Entry) : State :=
  let p := x.part
  let w := field x.arg0 0 32
  let s1 := s.setJob p Job.unswitch
  let old := (s1.part p).job.currentVersion
  if s1.maySwitch p w then
    let before := (s1.part p).job.versions.map (fun v => (v.number, v.st, v.hold))
    ((s1.switchTo p w).setJob p (fun j => { j with unswitched := before })).complete x.acc stOK old
  else s.complete x.acc stVersionMismatch (s.part p).job.currentVersion

/-- WEIGHT_VERSION_SWITCH. -/
def versionSwitch (s : State) (e : Nat) : State :=
  match s.startable e 0x21 with
  | none => s
  | some x =>
    if (s.part x.part).st.idle ∨ !s.hasJob x.part then s.invalid e
    else s.asMember x (fun s => s.takeEffect e 0x21 versionSwitchNow)

-- ## Commands

/-- SEQ_CANCEL (R420). -/
def execSeqCancel (e : Nat) (s : State) : Host.Outcome State Fault Refusal := finish (s.startNow e 0x12 seqCancelNow)
/-- PREFIX_RELEASE (R419). -/
def execPrefixRelease (e : Nat) (s : State) : Host.Outcome State Fault Refusal := finish (s.takeLoop e 0x14 false prefixReleaseNow)
/-- ADAPTER_COPY_COMPLETE (R426). -/
def execAdapterCopyComplete (p adapter : Nat) (s : State) : Host.Outcome State Fault Refusal := finish (adapterCopied s p adapter)
/-- WEIGHT_VERSION_PUBLISH (R29). -/
def execWeightVersionPublish (e : Nat) (s : State) : Host.Outcome State Fault Refusal := finish (versionPublish s e)
/-- WEIGHT_VERSION_SWITCH (R32). -/
def execWeightVersionSwitch (e : Nat) (s : State) : Host.Outcome State Fault Refusal := finish (versionSwitch s e)
/-- SWAP_AREA_REGISTER (R423). -/
def execSwapAreaRegister (e : Nat) (s : State) : Host.Outcome State Fault Refusal := finish (s.startNow e 0x40 swapAreaNow)

end Sys2Proof.Machine
end

