-- ==== Sys2Proof/Machine/Boundary.lean ====
section
/-!
DEFINITION. Machine/Boundary.lean: step boundaries (R21, R29, R41, R58, R59, R189, R206, R212, R216, R249, R384, R387, R398): the commands that take
effect there, the pick that begins, and the DRAFT_RUN step that begins with it.
-/

namespace Sys2Proof.Machine

-- ## The step that takes a boundary (R206, R212, R216)

/-- The lowest priority number among a draft's step nodes. -/
def Draft.bestPrio (d : Draft) : Nat := (d.nodes.filter (fun n => !n.preStep)).foldl (fun m n => min m n.prio) 3

/-- A DRAFT_RUN step that its PRE_STEP nodes and its effective pick let begin. -/
def State.wantsStep (s : State) (p : Nat) (d : Draft) : Bool :=
  d.part == p && !d.begun && !d.noStep && !d.failed && d.nodes.all (fun n => !n.preStep || n.isDone) &&
  (match d.acc.bind s.entry with | some e => decide (e.effPick ≤ s.pickOf p + 1) | none => false)

/-- The draft whose step begins next: lower PRIO, then the earlier accepted. -/
def State.nextDraft (s : State) (p : Nat) : Option Draft :=
  (s.drafts.filter (s.wantsStep p)).foldl (fun b d => match b with
    | none => some d
    | some x => if d.bestPrio < x.bestPrio then some d else b) none

/-- The loop bound to the job. -/
def State.boundLoop (s : State) (p : Nat) : Option Nat :=
  firstIdx 4 (fun l => (s.loop p l).bound && (s.loop p l).st == .running)

/-- The bound loop has work of an ordinary batch step: a sequence that is not bubble-fill and not swapped, or a handle to fill (R212, R216). -/
def State.batchReady (s : State) (p l : Nat) : Bool :=
  (s.loop p l).seqs.any (fun q => q.moving != 0 || (decide (s.seqState p l q.slot ≤ 3) && !s.seqBubble p l q.slot)) ||
  (s.loop p l).handles.any (fun h => h.st == .filling)

/-- The draft step goes before the batch step of the bound loop (R212). -/
def State.draftFirst (s : State) (p : Nat) (d : Draft) : Bool :=
  match s.boundLoop p with
  | some l => decide (d.bestPrio < (s.loop p l).prio) || (!s.batchReady p l && (s.loop p l).stage == 0)
  | none => true

/-- The boundary begins a DRAFT_RUN step, and its schedule area is malformed: no LR changes (R387, log 193). -/
def State.tableHeld (s : State) (p : Nat) : Bool :=
  (match s.nextDraft p with | some d => s.draftFirst p d | none => false) && s.schedulesBad p

-- ## Commands that waited for the boundary (R189)

/-- One command takes effect at its boundary. -/
def State.applyEntry (s : State) (x : Entry) : State :=
  match x.opcode with
  | 0x01 => draftRun (s.setEntry x.acc (fun y => { y with st := .ready })) x.acc
  | 0x02 => (s.mark x).copyNow x
  | 0x10 => serveConfigNow (s.loopMark x) x
  | 0x11 => seqAdmitNow (s.loopMark x) x
  | 0x13 => prefixRegisterNow (s.loopMark x) x
  | 0x14 => prefixReleaseNow (s.loopMark x) x
  | 0x16 => adapterReplaceDue (s.mark x) x
  | 0x21 => versionSwitchNow (s.mark x) x
  | 0x22 => shedChange (s.setEntry x.acc (fun y => { y with st := .ready })) x.acc
  | 0x30 => if s.tableHeld x.part then (s.mark x).invalid x.acc else stepSizeNow (s.mark x) x
  | 0x31 => freezeNow (s.mark x) x
  | _ => s

/-- An opcode that names a serving loop in ARG1. -/
def namesLoop (op : Nat) : Bool := op == 0x10 || op == 0x11 || op == 0x13 || op == 0x14

/-- The waiting entries of a partition that a boundary concerns take effect in order of acceptance; each is asked again when its turn comes,
so that none follows a shed change that has begun. -/
def State.applyWaiting (s : State) (p : Nat) (which : State → Entry → Bool) : State :=
  ((s.entries.filter (fun e => e.part == p && e.st == .boundary)).map (·.acc)).foldl (fun s a =>
    match s.entry a with
    | some x => if x.st == .boundary && which s x then s.applyEntry x else s
    | none => s) s

/-- The job's boundary. -/
def State.applyDue (s : State) (p : Nat) : State :=
  s.applyWaiting p (fun s x => if namesLoop x.opcode then s.followsJob x && s.due x else s.due x)

/-- The boundary of a loop that is not bound. -/
def State.applyLoop (s : State) (p l : Nat) : State :=
  s.applyWaiting p (fun s x => namesLoop x.opcode && x.loop == l && !s.followsJob x && s.loopDue x)

-- ## A pick begins (R58, R59, R61)

/-- Islands that run nodes of a partition: its clusters, the controllers of its channel groups, the fabric, the shuttles. -/
def State.partIslands (s : State) (p : Nat) : List Nat :=
  s.clusters p ++ (((bitList 32 (s.groups p)).map (fun g => 0x22 + g / 4)).dedup) ++ (((bitList 16 (s.t2Groups p)).map (fun g => 0x2A + g / 4)).dedup) ++
  [0x21, 0x2E]

/-- A transfer joins the channel between two islands (R50). -/
def State.sendTransfer (s : State) (src dst : Nat) (t : Transfer) : State :=
  { s with channels := tset [] s.channels (256 * src + dst) (tget [] s.channels (256 * src + dst) ++ [t]) }

/-- The Heddle holds a pick for a partition, and sends it to each island of the partition. -/
def State.deliverPick (s : State) (p n : Nat) : State :=
  let h := s.island 0x20
  let s1 := s.setIsland 0x20 { h with picks := tset 0 h.picks p n }
  (s.partIslands p).foldl (fun s i => s.sendTransfer 0x20 i (.pick p n)) s1

/-- A pick of the partition is on its way to an island and has not come (R59). -/
def State.pickComing (s : State) (p i : Nat) : Bool :=
  (tget [] s.channels (256 * 0x20 + i)).any (fun t => match t with | .pick q _ => q == p | .plain _ => false | .store _ _ _ _ => false)

/-- The job's pick is the last there is. -/
def State.lastPick (s : State) (p : Nat) : Bool := s.pickOf p == 2 ^ 64 - 1

/-- The boundary after the last pick does not occur: the job halts, and what waits to start or for a boundary, a DRAFT_RUN whose step has not
begun included, completes INVALID (R58). -/
def State.picksEnd (s : State) (p : Nat) : State :=
  let s1 := (s.drafts.filter (fun d => d.part == p && d.acc.isSome && !d.begun)).foldl (fun s d => s.cutDraft d stInvalid) s
  let es := (s1.entries.filter (fun e => e.part == p && e.st != .running)).map (·.acc)
  (es.foldl (fun s a => s.invalid a) s1).haltJob p

/-- The job goes to its next pick: the picks of the intervals of R251 and R262, the pool page, the job's pages. -/
def State.beginPick (s : State) (p : Nat) : State :=
  let n := s.pickOf p + 1
  let s1 := s.freeVersions p
  let s2 := s1.setJob p (fun j => { j with
    st := .running, pick := n, verdict := 0, reported := false, decided := none, locator := [], updated := false, ended := none
    unswitched := [] })
  let z := s2.part p
  let s3 := s2.setPart p { z with slots := tcanon {} (z.slots.map (fun k => (k.1, if k.2.schedule.isEmpty then k.2 else { k.2 with picks := k.2.picks + 1 }))) }
  (((s3.deliverPick p n).agePick p).writePoolPage p).writePages p

/-- What a boundary of the job frees (R41, R249, R426), its publications, and STRICT_FREEZE (R398). -/
def State.boundaryFrees (s : State) (p : Nat) : State :=
  let s1 := s.publishDue p 0
  let s2 := if (s1.part p).job.unswitched.isEmpty then s1.freeVersions p else s1
  let s3 := ((s2.reclaim p (fun c => c == 0 || decide (4 < c))).releaseGathered p).forgetAdapters p
  s3.setPart p { s3.part p with strictFreeze := s.bit (.updCfg p) 0 }

/-- The partition's job may go on from a boundary: it runs, nothing of its pick is at work, no shed change, no activation holds it. -/
def State.boundaryOpen (s : State) (p : Nat) : Bool := (s.part p).job.st == .boundary && s.quiet p && s.dispatches p

/-- The step of a draft begins under the next pick. A malformed schedule area ends it before any node runs, and the step fails (R387). -/
def State.beginDraft (s : State) (p : Nat) (d : Draft) : State :=
  let q := s.pickOf p + 1
  let bad := s.schedulesBad p
  let s1 := (s.applySchedules p q).snapLr p
  let s2 := s1.beginPick p
  let s3 := match d.acc with | some a => s2.setEntry a (fun e => { e with pick := q }) | none => s2
  if bad then
    let s4 := s3.completeDraft d stInvalid 0xFFFFFFFF
    (s4.setJob p (fun j => { j with ended := some 2 })).settleStep p
  else
    let s4 := s3.setDraft d.id (fun x => { x with begun := true })
    (s4.setJob p (fun j => { j with step := some d.id })).checkDraft d.id

/-- PICK_ADVANCE: the boundary's work, and the step that takes it; after the last pick no boundary occurs (R58). -/
def pickAdvance (s : State) (p : Nat) : State :=
  if !s.boundaryOpen p then s.actHold
  else if s.lastPick p then
    (if (s.nextDraft p).isSome || s.entries.any (fun e => e.part == p && e.st == .boundary) then s.picksEnd p else s.actHold)
  else
    let s1 := s.boundaryFrees p
    let go (s : State) : Option Draft := (s.nextDraft p).bind (fun d => if s.draftFirst p d then some d else none)
    let s2 := if (go s1).isSome ∧ !s1.schedulesBad p then s1.applyPending p (s1.pickOf p + 1) else s1
    let s3 := s2.applyDue p
    if (s3.part p).shed.isSome ∨ !s3.boundaryOpen p then s3
    else
      let s4 := s3.actHold
      if bitAt s4.boot.held p then s4
      else match go s4 with
        | none => s4
        | some d => s4.beginDraft p d

end Sys2Proof.Machine
end

