-- ==== Sys2Proof/Machine/Batch.lean ====
section
/-!
DEFINITION. Machine/Batch.lean: the batch step of a serving loop (R405 to R413, R417, R421 to R424): its boundary in the order of R409, prompt
grants, swaps, the batch table, the step's end.
-/

namespace Sys2Proof.Machine

-- ## Swaps (R423, R424)

/-- The base of a swap slot, as a global address. -/
def State.swapAddr (s : State) (p l slot : Nat) : Nat := (s.loop p l).swapBase + slot * (s.loop p l).swapBytesEach

/-- The lowest free swap slots, as many as asked, if there are so many. -/
def Loop.freeSwap (x : Loop) (n : Nat) : Option (List Nat) :=
  let free := (List.range (x.swapBytes / x.swapBytesEach)).filter (fun i => !x.swapUsed.contains i)
  if n ≤ free.length then some (free.take n) else none

/-- The accesses of a sequence are those of its SEQ_ADMIT. -/
def State.seqCtx (s : State) (p : Nat) (x : SeqX) : Ctx := match s.entry x.acc with | some e => s.entryCtx e | none => partCtx p

/-- A victim is swapped out: its private pages are written, their table entries name swap slots, and their blocks are free once the writes are
acknowledged. Without an area, or room in it, the sequence ends POOL_EXHAUSTED. -/
def State.swapOut (s : State) (p l k : Nat) : State :=
  match s.seqX p l k with
  | none => s
  | some x =>
    let pages := s.privatePages p l k
    match (s.loop p l).freeSwap pages.length with
    | none => s.endSeq p l k 6 stPoolExhausted true
    | some slots =>
      let n := (s.loop p l).swapBytesEach
      let r := Try.each s (fun s (e : (Nat × Nat) × Nat) =>
        s.put (s.seqCtx p x) (.entry x.acc) (s.swapAddr p l e.2) (s.readAt (partCtx p) (s.pentAddr p e.1.2) n)) (pages.zip slots)
      match r.2 with
      | some st => r.1.endSeq p l k 6 st true
      | none =>
        let s1 := (pages.zip slots).foldl (fun s e => s.ptPut p l k e.1.1 (ptWord e.2 false true)) r.1
        (s1.setLoop p l (fun y => { y with swapUsed := y.swapUsed ++ slots })).setSeqX p l k (fun y => { y with moving := 1, pages := pages.map (·.2) })

/-- SWAP_OUT_COMPLETE: the writes are acknowledged; the sequence is SWAPPED and its SWAPPED completion follows (R408, R423). -/
def swapOutDone (s : State) (p l k : Nat) : State :=
  match s.seqX p l k with
  | none => s
  | some x =>
    if x.moving ≠ 1 then s
    else
      let s1 := x.pages.foldl (fun s e => s.dropPage p e true) s
      let s2 := s1.setSeqX p l k (fun y => { y with moving := 0, pages := [], before := s1.seqState p l k, swaps := y.swaps + 1 })
      let s3 := ((s2.seqPut p l k 5 1 4).seqPut p l k 48 8 (s2.loop p l).swapOrder).setLoop p l (fun y => { y with swapOrder := y.swapOrder + 1 })
      let s4 := (s3.putSeqRecord p l k 0).writeJobPage p
      match s4.entry x.acc with
      | some e => s4.pushCompl e.home (e.compl stSwapped (if e.pick = 0 then s4.pickOf p else e.pick) e.result)
      | none => s4

/-- A private page of a sequence, with its directory entry's REFS 1. -/
def State.newPage (s : State) (p l k : Nat) : State × Option Nat :=
  s.alloc p 0 (s.seqGet p l k 0 4) (s.loop p l).pageBlocks (s.loopCounter p l)

/-- The pages of a swapped sequence, all or none of them. -/
def State.newPages (s : State) (p l k : Nat) : Nat → State × Option (List Nat)
  | 0 => (s, some [])
  | n + 1 =>
    match s.newPages p l k n with
    | (s1, none) => (s1, none)
    | (s1, some es) =>
      match s1.newPage p l k with
      | (s2, some e) => (s2, some (es ++ [e]))
      | (s2, none) => (es.foldl (fun s e => s.clearPent p e) s2, none)

/-- Swapped pages of a slot: table index and swap slot. -/
def State.swappedPages (s : State) (p l k : Nat) : List (Nat × Nat) :=
  ((s.ptUsed p l k).filter (fun e => !ptShared e.2 && ptSwapped e.2)).map (fun e => (e.1, ptIndex e.2))

/-- Sequences a step may hold: a bubble step holds bubble-fill sequences only (R405). -/
def State.inStep (s : State) (p l : Nat) (q : SeqX) : Bool := !(s.loop p l).bubble || s.seqBubble p l q.slot

/-- Step 3 of R409: the reads of returning sequences begin, in SWAP_ORDER, while there are places and pages. -/
def State.swapIn (s : State) (p l : Nat) : State :=
  ((s.seqsBy p l (fun q => q.moving == 0 && s.seqState p l q.slot == 4 && s.inStep p l q) (fun k => s.seqGet p l k 48 8)).foldl (fun (a : State × Bool) k =>
    let back := ((a.1.loop p l).seqs.filter (fun q => q.moving == 2)).length
    match a.1.seqX p l k with
    | none => a
    | some x =>
      if a.2 ∨ (a.1.loop p l).maxBatch ≤ a.1.activeSeqs p l + back then (a.1, true)
      else
        let away := a.1.swappedPages p l k
        match a.1.newPages p l k away.length with
        | (s1, none) => (s1, true)
        | (s1, some es) =>
          let s2 := s1.setSeqX p l k (fun y => { y with moving := 2, pages := es })
          let r := Try.each s2 (fun s (e : Nat × Nat) => s.bring (s.seqCtx p x) (.entry x.acc) (s.swapAddr p l e.2) (s.loop p l).swapBytesEach) away
          match r.2 with
          | some st => (r.1.endSeq p l k 6 st true, false)
          | none => (r.1, false)) (s, false)).1

/-- Reads of returning sequences are still on their way. -/
def State.swapsOpen (s : State) (p l : Nat) : Bool :=
  (s.loop p l).seqs.any (fun q => q.moving == 2 && (match s.entry q.acc with | some e => e.acks != 0 | none => false))

/-- A swap-out whose blocks an allocation waits for. -/
def State.outOpen (s : State) (p l : Nat) : Bool := (s.loop p l).seqs.any (fun q => q.moving == 1)

/-- Pages that have come back are in place: the sequence takes the state it had before the swap (R424). -/
def State.landSwaps (s : State) (p l : Nat) : State :=
  ((s.loop p l).seqs.filter (fun q => q.moving == 2)).foldl (fun s q =>
    let k := q.slot
    let r := Try.each s (fun s (e : (Nat × Nat) × Nat) =>
      (s.copyRange (s.seqCtx p q) .outside (s.swapAddr p l e.1.2) (s.pentAddr p e.2) (s.loop p l).swapBytesEach)) ((s.swappedPages p l k).zip q.pages)
    match r.2 with
    | some st => r.1.endSeq p l k 6 st true
    | none =>
      let s1 := ((s.swappedPages p l k).zip q.pages).foldl (fun s e =>
        (s.ptPut p l k e.1.1 (ptWord e.2 false false)).setLoop p l (fun y => { y with swapUsed := y.swapUsed.filter (· != e.1.2) })) r.1
      ((s1.seqPut p l k 5 1 q.before).seqPut p l k 48 8 0).setSeqX p l k (fun y => { y with moving := 0, pages := [] })) s

-- ## Running out of pages (R422)

/-- The better victim: lower WEIGHT, then the higher queue, then the later admission. -/
def worseOff (a b : Nat × Nat × Nat × Nat) : Bool :=
  decide (a.1 < b.1) || (a.1 == b.1 && (decide (b.2.1 < a.2.1) || (a.2.1 == b.2.1 && decide (b.2.2.1 < a.2.2.1))))

/-- The victim among the loop's active sequences with a private page in the pool. -/
def State.swapVictim (s : State) (p l : Nat) : Option Nat :=
  let cs := ((s.loop p l).seqs.filter (fun q => q.moving == 0 && (s.seqState p l q.slot == 2 || s.seqState p l q.slot == 3) && !(s.privatePages p l q.slot).isEmpty)).map
    (fun q => let z := s.seqQueue p l q.slot; (s.weight p l z, z, s.seqOrder p l q.slot, q.slot))
  (cs.foldl (fun b c => match b with
    | none => some c
    | some x => if worseOff c x then some c else some x) (none : Option (Nat × Nat × Nat × Nat))).map (fun c => c.2.2.2)

/-- What asking for a page leads to: the entry, a wait for a swap-out, or that the sequence leaves the step. -/
inductive Grab where
  | got (e : Nat)
  | wait
  | gone
  deriving DecidableEq, Repr

/-- A page for a sequence, with victims as R422 chooses them. -/
def State.grabPage (s : State) (p l k : Nat) : Nat → State × Grab
  | 0 => (s, .gone)
  | fuel + 1 =>
    match s.newPage p l k with
    | (s1, some e) => (s1, .got e)
    | (s1, none) =>
      match s1.swapVictim p l with
      | none => (s1, .gone)
      | some v =>
        let s2 := s1.swapOut p l v
        if v = k then (s2, .gone)
        else if (s2.seqX p l v).isSome then (s2, .wait)
        else s2.grabPage p l k fuel

/-- Fuel for a grab: every sequence may be a victim once. -/
def State.grabFuel (s : State) (p l : Nat) : Nat := (s.loop p l).seqs.length + 1

/-- Step 4 of R409; true where an allocation waits. -/
def State.decodePages (s : State) (p l : Nat) : State × Bool :=
  (s.seqsBy p l (fun q => q.moving == 0 && s.seqState p l q.slot == 3 && s.inStep p l q) (s.seqOrder p l)).foldl (fun (a : State × Bool) k =>
    let i := a.1.seqPos p l k / 256
    if a.2 || (match a.1.seqX p l k with | some q => q.moving != 0 | none => true) || ptValid (a.1.ptGet p l k i) then a
    else match a.1.grabPage p l k (a.1.grabFuel p l) with
      | (s1, .got e) => (s1.ptPut p l k i (ptWord e false false), false)
      | (s1, .wait) => (s1, true)
      | (s1, .gone) => (s1, false)) (s, false)

-- ## Prompt grants (R412)

/-- A candidate: queue, slot or handle, whether it is a handle's fill, next position, end, and whether it is WAITING. -/
structure Cand where
  queue : Nat
  who : Nat
  fill : Bool
  pos : Nat
  stop : Nat
  fresh : Bool
  deriving DecidableEq, Repr

/-- The shortest chunk, and the longest within a limit. -/
def Cand.shortest (c : Cand) : Nat := min c.stop ((c.pos / 256 + 1) * 256) - c.pos
def Cand.longest (c : Cand) (lim : Nat) : Nat := if c.stop ≤ c.pos + lim then c.stop - c.pos else (c.pos + lim) / 256 * 256 - c.pos

/-- A grant under way: queue, deficits, allowance, places taken, candidates, rows in grant order, the queue last granted. -/
structure Grants where
  q : Nat
  dc : List (Nat × Nat)
  a : Nat
  active : Nat
  cands : List Cand
  rows : List BatchRow := []
  last : Option Nat
  deriving DecidableEq, Repr

/-- The candidate of a queue: the first whose prompt is not granted whole and that may start. -/
def Grants.head (g : Grants) (places q : Nat) : Option Cand :=
  g.cands.find? (fun c => c.queue == q && decide (c.pos < c.stop) && (!c.fresh || decide (g.active < places)))

/-- A candidate is granted a chunk. -/
def Grants.give (g : Grants) (c : Cand) (n : Nat) : Grants :=
  let same (d : Cand) : Bool := d.who == c.who && d.fill == c.fill
  let kind := if c.fill then 2 else 1
  let old := g.rows.any (fun r => r.who == c.who && r.kind == kind)
  { g with
    dc := tset 0 g.dc c.queue (tget 0 g.dc c.queue - n), a := g.a - n, active := if c.fresh then g.active + 1 else g.active, last := some c.queue
    cands := g.cands.map (fun d => if same d then { d with pos := d.pos + n, fresh := false } else d)
    rows := if old then g.rows.map (fun r => if r.who = c.who ∧ r.kind = kind then { r with count := r.count + n } else r)
      else g.rows ++ [{ who := c.who, kind := kind, pos := c.pos, count := n }] }

/-- The inner loop of R412: chunks of one queue. -/
def Grants.serve (g : Grants) (places : Nat) : Nat → Grants
  | 0 => g
  | fuel + 1 =>
    match g.head places g.q with
    | none => g
    | some c =>
      let n := c.longest (min (tget 0 g.dc g.q) g.a)
      if n = 0 then g else (g.give c n).serve places fuel

/-- The outer loop, queue by queue, while the candidate of some queue can be granted its shortest chunk. A queue whose WEIGHT is 0 gains nothing,
and holds the loop up only while its deficit suffices. -/
def Grants.rounds (g : Grants) (places queues : Nat) (weight : Nat → Nat) : Nat → Grants
  | 0 => g
  | fuel + 1 =>
    let able (q : Nat) : Bool := match g.head places q with
      | some c => decide (c.shortest ≤ g.a) && (weight q != 0 || decide (c.shortest ≤ tget 0 g.dc q))
      | none => false
    if !(List.range queues).any able then g
    else
      let g1 : Grants := match g.head places g.q with
        | none => { g with dc := tset 0 g.dc g.q 0 }
        | some _ => ({ g with dc := tset 0 g.dc g.q (tget 0 g.dc g.q + 256 * weight g.q) } : Grants).serve places (g.cands.length + 1)
      ({ g1 with q := (g.q + 1) % queues } : Grants).rounds places queues weight fuel

/-- A handle is filled or being filled for sequences that name it (R419). -/
def State.handleFills (s : State) (p : Nat) (h : Handle) : Bool :=
  !h.filled && (h.st == .filling || (h.st == .released && h.pages.any (fun e => (s.pent p e).refs != 0)))

/-- The candidates of a step: sequences in PREFILL, then fills, then sequences in WAITING, each in order of admission. -/
def State.candidates (s : State) (p l : Nat) : List Cand :=
  let of (code : Nat) : List Nat := s.seqsBy p l (fun q => q.moving == 0 && s.seqState p l q.slot == code && s.inStep p l q) (s.seqOrder p l)
  let cand (fresh : Bool) (k : Nat) : Cand := ⟨s.seqQueue p l k, k, false, s.seqPos p l k, s.seqEnd p l k, fresh⟩
  let ready (k : Nat) : Bool := let h := s.seqGet p l k 20 4; h == 0 || (match s.handle p l h with | some y => y.filled | none => true)
  (of 2).map (cand false) ++
  (if (s.loop p l).bubble then [] else ((s.loop p l).handles.filter (s.handleFills p)).map (fun h => ⟨h.queue, h.id, true, h.pos, h.tokens, false⟩)) ++
  ((of 1).filter ready).map (cand true)

/-- B of the step: the temple's budget, or the pin (R413). -/
def State.budgetNow (s : State) (p l : Nat) : Nat :=
  let x := s.loop p l
  if s.bit (.tmpChunkCtl p) l then clampTo x.bMin x.bMax (s.fld (.tmpChunkPin p (l / 2)) (16 * (l % 2)) 16) else x.budget

/-- The tokens of a granted row whose pages are there; new pages are taken, none by force (R422). -/
def State.rowPages (s : State) (p l : Nat) (r : BatchRow) : State × BatchRow :=
  if r.kind ≠ 1 then (s, r)
  else (List.range ((r.pos + r.count + 255) / 256 - r.pos / 256)).foldl (fun (a : State × BatchRow) j =>
    let i := r.pos / 256 + j
    if a.2.pos + a.2.count ≤ 256 * i ∨ ptValid (a.1.ptGet p l r.who i) then a
    else match a.1.newPage p l r.who with
      | (s1, some e) => (s1.ptPut p l r.who i (ptWord e false false), a.2)
      | (s1, none) => (s1, { a.2 with count := 256 * i - r.pos })) (s, r)

/-- Step 5 of R409: the rows of the step. -/
def State.grantRows (s : State) (p l : Nat) : State :=
  let x := s.loop p l
  let dec := (s.seqsBy p l (fun q => q.moving == 0 && s.seqState p l q.slot == 3 && s.inStep p l q &&
    ptValid (s.ptGet p l q.slot (s.seqPos p l q.slot / 256))) id).map (fun k => ({ who := k, kind := 0, pos := s.seqPos p l k, count := 1 } : BatchRow))
  let start := match x.lastQueue with | some q => (q + 1) % x.queues | none => 0
  let g0 : Grants := { q := start, dc := x.deficits, a := 256 * s.budgetNow p l - dec.length, active := s.activeSeqs p l, cands := s.candidates p l, last := x.lastQueue }
  let g := g0.rounds x.maxBatch x.queues (s.weight p l) (x.queues * (g0.a + g0.cands.length + 2))
  let left := (List.range x.queues).any (fun q => match g.head x.maxBatch q with | some c => decide (g.a < c.shortest) | none => false)
  let s1 := s.setLoop p l (fun y => { y with deficits := g.dc, lastQueue := g.last, cut := y.cut || left, budget := s.budgetNow p l })
  let r := g.rows.foldl (fun (a : State × List BatchRow) row =>
    let t := a.1.rowPages p l row
    if t.2.count = 0 then (t.1, a.2)
    else if row.kind = 1 then (t.1.seqPut p l row.who 5 1 2, a.2 ++ [t.2])
    else (t.1, a.2 ++ [t.2])) (s1, [])
  r.1.setLoop p l (fun y => { y with rows := dec ++ r.2 })

-- ## Copies (R417)

/-- A row's sequence is still in the step. -/
def State.rowStays (s : State) (p l : Nat) (r : BatchRow) : Bool :=
  r.kind == 2 || (match s.seqX p l r.who with | some q => q.moving == 0 | none => false)

/-- A private copy of the shared page a row would write. -/
def State.copyPage (s : State) (p l : Nat) (r : BatchRow) (e : Nat) : State :=
  let k := r.who
  let i := r.pos / 256
  let old := ptIndex (s.ptGet p l k i)
  let held := match s.handle p l (s.seqGet p l k 20 4) with | some h => min 256 (h.tokens - 256 * i) | none => r.pos % 256
  let t := s.copyRange (partCtx p) .outside (s.pentAddr p old) (s.pentAddr p e) (held * (s.loop p l).tokenBytes)
  match t.2 with
  | some st => (t.1.clearPent p e).endSeq p l k 6 st false
  | none => (t.1.ptPut p l k i (ptWord e false false)).dropPageRef p l old

/-- Step 6 of R409; true where an allocation waits. -/
def State.copyPages (s : State) (p l : Nat) : State × Bool :=
  (s.loop p l).rows.foldl (fun (a : State × Bool) r =>
    if a.2 ∨ r.kind = 2 ∨ !a.1.rowStays p l r ∨ !ptShared (a.1.ptGet p l r.who (r.pos / 256)) then a
    else match a.1.grabPage p l r.who (a.1.grabFuel p l) with
      | (s1, .got e) => (s1.copyPage p l r e, false)
      | (s1, .wait) => (s1, true)
      | (s1, .gone) => (s1.setLoop p l (fun y => { y with rows := y.rows.filter (· != r) }), false)) (s, false)

-- ## The batch table (R410)

/-- Version, adapter generation and pages of a row. -/
def State.rowVersion (s : State) (p l : Nat) (r : BatchRow) : Nat :=
  if r.kind = 2 then (match s.handle p l r.who with | some h => h.version | none => 0) else s.seqGet p l r.who 8 4

def State.rowAdapter (s : State) (p l : Nat) (r : BatchRow) : Option Adapter :=
  if r.kind = 2 then (match s.handle p l r.who with | some h => s.adapterGen p h.adapter h.adapterGen h.adapterAt | none => none)
  else s.adapterGen p (s.seqGet p l r.who 12 4) (s.seqGet p l r.who 16 4) (s.seqAdapterAt p l r.who)

def BatchRow.pages (r : BatchRow) : Nat := ceilDiv (r.pos + r.count) 256

def State.rowEntries (s : State) (p l : Nat) (r : BatchRow) : List Nat :=
  if r.kind = 2 then (match s.handle p l r.who with | some h => h.pages.take r.pages | none => [])
  else ((List.range r.pages).map (s.ptGet p l r.who)).filterMap (fun v => if ptValid v then some (ptIndex v) else none)

/-- Address of a version's form in the loop's layout. -/
def State.formAddr (s : State) (p l w : Nat) : Nat :=
  match (s.version p w).bind (fun v => v.formAt.find? (fun f => f.1 == (s.loop p l).form)) with
  | some f => f.2
  | none => 0

/-- The first 56 bytes of a row. SLOT, PAGE_TABLE and SEED of a prefix fill are stated nowhere: they are free. -/
def State.rowBytes (s : State) (p l : Nat) (vs : List Nat) (r : BatchRow) : List Byte :=
  let x := s.loop p l
  let fill := r.kind == 2
  let free (i n : Nat) : Nat := Config.freeNat (s.draws + i) % 2 ^ n
  let input := if r.kind = 0 then 0
    else if fill then (match s.handle p l r.who with | some h => h.addr + 4 * r.pos | none => 0)
    else
      let pre := match s.handle p l (s.seqGet p l r.who 20 4) with | some h => h.tokens | none => 0
      s.seqGet p l r.who 64 8 + 4 * (r.pos - pre)
  leBytes 2 (if fill then free 0 16 else r.who) ++ leBytes 1 r.kind ++ leBytes 1 (vs.idxOf (s.rowVersion p l r)) ++ leBytes 4 r.pos ++ leBytes 4 r.count ++
  leBytes 4 r.pages ++ leBytes 8 (if fill then free 1 64 else x.ptArea + 4 * (r.who * x.ptEntries)) ++ leBytes 8 input ++
  leBytes 4 (if fill then 0 else s.seqGet p l r.who 32 4) ++ zeros 4 ++ leBytes 8 (match s.rowAdapter p l r with | some a => s.pentAddr p a.entry | none => 0) ++
  leBytes 8 (if fill then free 2 64 else s.seqGet p l r.who 88 8)

/-- Rows in the table's order: decode rows by FORM and slot, then prompt rows as granted. -/
def State.orderRows (s : State) (p l : Nat) (rs : List BatchRow) : List BatchRow :=
  (sortBy (fun a b =>
    let va := s.rowVersion p l a
    let vb := s.rowVersion p l b
    decide (va < vb) || (va == vb && decide (a.who ≤ b.who))) (rs.filter (fun r => r.kind == 0))) ++ rs.filter (fun r => r.kind != 0)

/-- Step 7 of R409: the table, and the pins of every entry a row names. -/
def State.writeBatch (s : State) (p l : Nat) : State :=
  let x := s.loop p l
  let rs := s.orderRows p l (x.rows.filter (s.rowStays p l))
  let vs := sortBy (fun a b => decide (a ≤ b)) ((rs.map (s.rowVersion p l)).dedup)
  let prompt := rs.filter (fun r => r.kind != 0)
  let forms := (vs.take 4).map (s.formAddr p l)
  let head := leBytes 8 (s.loopPick p l) ++ leBytes 4 rs.length ++ leBytes 4 (rs.length - prompt.length) ++ leBytes 4 (prompt.foldl (fun n r => n + r.count) 0) ++
    leBytes 1 vs.length ++ zeros 3 ++ forms.flatMap (leBytes 8) ++ zeros (8 * (4 - forms.length)) ++ zeros 8
  let s1 := s.writeAt (partCtx p) x.batchTable head
  let s2 := (rs.zipIdx).foldl (fun s ri => { s.writeAt (partCtx p) (x.batchTable + 64 + 64 * ri.2) (s.rowBytes p l vs ri.1) with draws := s.draws + 3 }) s1
  let formEntries := (s2.pents p).filterMap (fun e => if e.2.cls == 4 && forms.contains (s2.pentAddr p e.1) then some e.1 else none)
  let pins := (rs.flatMap (s2.rowEntries p l) ++ formEntries ++ (rs.filterMap (s2.rowAdapter p l)).map (·.entry)).dedup
  let s3 := pins.foldl (fun s e => s.pin p e true) s2
  s3.setLoop p l (fun y => { y with rows := rs, pins := pins })

-- ## Who goes first (R42, R212)

/-- Lists of numbers in lexicographic order. -/
def lexLt : List Nat → List Nat → Bool
  | a :: as, b :: bs => decide (a < b) || (a == b && lexLt as bs)
  | [], _ :: _ => true
  | _, [] => false

/-- Place of a node in the order of R212: PRIO, bubble-fill, MB_ID, NODE_ID, the order of acceptance. The nodes of a batch step stand for the
step as one unit towards other drafts; no entry was accepted for it, so that it precedes on a tie (log 160). -/
def State.turn (s : State) (d : Draft) (i : Nat) (n : Node) (unit : Bool) : List Nat :=
  match (if unit then d.loop else none) with
  | some l => [(s.loop d.part l).prio, b2n (s.loop d.part l).bubble, 0, 0, 0]
  | none => [n.prio, b2n n.bubble, n.mb, i, d.acc.getD 0]

/-- A node of the job's training step that is not bubble-fill eligible (R42). -/
def State.trains (s : State) (d : Draft) (n : Node) : Bool := !n.bubble && d.begun && !d.noStep && !s.offJob d

/-- Logical looms of a draft's nodes: the loom set of a batch step (R216). -/
def loomsOf (ns : List Node) : List Nat := (ns.flatMap Node.loomSet).dedup

/-- A batch step waits: a loom of its set is not free, or a ready node of another draft goes before it there, as R212 orders them with the step as one unit
(R211, R212, R216). -/
def State.stepHeld (s : State) (p l : Nat) (ns : List Node) : Bool :=
  let x := s.loop p l
  let set := loomsOf ns
  set.any (fun lg => (s.loom (s.physLoom p lg)).node.isSome) ||
  s.drafts.any (fun e => e.part == p && (e.nodes.zipIdx).any (fun m => m.1.loomSet.any set.contains && s.nodeReady e m.2 m.1 &&
    ((x.bubble && s.trains e m.1) || lexLt (s.turn e m.2 m.1 false) [x.prio, b2n x.bubble, 0, 0, 0])))

-- ## Dispatch and end of the step (R216, R409, R411)

/-- Pins and latch of the step end, and what it kept of it (R37). -/
def State.unpinStep (s : State) (p l : Nat) : State :=
  let x := s.loop p l
  let s1 := x.pins.foldl (fun s e => s.pin p e false) s
  let s2 := (x.ring.filter (fun r => r.2 != 0)).foldl (fun s r => s.release p (r.2 - 1)) s1
  (s2.unlatch p x.version).setLoop p l (fun y => { y with pins := [], rows := [], ring := [], step := none, stage := 0, bubble := false, version := 0 })

/-- The batch step of a bound loop ends its pick (R21, R343); a bubble step ends none. -/
def State.endBatchPick (s : State) (p : Nat) (bound bubble : Bool) (verdict : Nat) : State :=
  if bound && !bubble then (s.setJob p (fun j => { j with ended := some verdict })).settleStep p else s

/-- A row's sequence ends as failed (R411). -/
def State.failRows (s : State) (p l status : Nat) : State :=
  ((s.loop p l).rows.filter (fun r => r.kind != 2)).foldl (fun s r => s.endSeq p l r.who 6 status false) s

/-- A loop that is DISABLING ends with its step; what was kept then runs (R401, R477). -/
def State.afterStep (s : State) (p l : Nat) : State :=
  if (s.loop p l).st = .disabling then
    let s1 := s.closeLoop p l
    s1.loopRun p l ((s1.loop p l).ops.length + 2)
  else s

/-- A step fails as a whole, before or after its nodes ran. -/
def State.failBatch (s : State) (p l status : Nat) : State :=
  let x := s.loop p l
  (((s.failRows p l status).unpinStep p l).afterStep p l).endBatchPick p x.bound x.bubble 2

/-- A node of a bubble step is bubble-fill eligible (R42, R405). -/
def Node.asBubble (n : Node) : Node := { n with bytes := patch n.bytes 3 (leBytes 1 (setField (le n.bytes 3 1) 2 1 1)) }

/-- Step 8 of R409: the resident draft of SLOT runs as one unit, once the looms of its set are free and its turn has come (R216). A step with no row is not
dispatched. -/
def State.dispatchBatch (s : State) (p l : Nat) : State :=
  let x := s.loop p l
  if x.rows.isEmpty then ((s.unpinStep p l).endBatchPick p x.bound x.bubble 0).writeJobPage p
  else
    let z := tget {} (s.part p).slots x.slot
    let a := s.moduleNum * 2 ^ 52 + s.areaOff p x.slot
    match s.fetch (partCtx p) a (128 * z.nodeCount), s.fetch (partCtx p) (a + 0x800000) (2 * z.succCount) with
    | some r, some q =>
      let id := s.draftIds + 1
      let ns := nodesOf r q
      if s.stepHeld p l ns then s.setLoop p l (fun y => { y with stage := 8 })
      else
      let d : Draft := { id := id, part := p, acc := none, loop := some l, slot := some x.slot, area := x.slot, begun := true
                         nodes := if x.bubble then ns.map Node.asBubble else ns }
      let s1 : State := { s with draftIds := id, drafts := s.drafts ++ [d] }
      (s1.setLoop p l (fun y => { y with step := some id, stage := 0 })).writeJobPage p
    | _, _ => s.failBatch p l stRetryExhausted

/-- Steps 6 to 8 of R409. -/
def State.batchFrom6 (s : State) (p l : Nat) : State :=
  let r := s.copyPages p l
  if r.2 then r.1.setLoop p l (fun y => { y with stage := 6 }) else ((r.1.writeBatch p l)).dispatchBatch p l

/-- Steps 4 to 8 of R409. -/
def State.batchFrom4 (s : State) (p l : Nat) : State :=
  let r := s.decodePages p l
  if r.2 then r.1.setLoop p l (fun y => { y with stage := 4 }) else (r.1.grantRows p l).batchFrom6 p l

/-- A batch step is admitted at its boundary: it latches the current version to its end (R35, R40). -/
def State.admitStep (s : State) (p l : Nat) : State :=
  let w := (s.part p).job.currentVersion
  (s.latch p w).setLoop p l (fun y => { y with version := w })

/-- Steps 3 to 8 of R409. -/
def State.batchFrom3 (s : State) (p l : Nat) : State :=
  let s1 := s.swapIn p l
  if (s1.loop p l).seqs.any (fun q => q.moving == 2) then s1.setLoop p l (fun y => { y with stage := 3 }) else s1.batchFrom4 p l

/-- Step 1 of R409: what has been released is freed, and cancelled sequences end (R421). -/
def State.batchReclaim (s : State) (p l : Nat) (ordinary : Bool) : State :=
  let x := s.loop p l
  let s1 := (s.sweepAdapters p).sweepSeqs p l
  let s2 := if x.bound && ordinary then s1.boundaryFrees p
    else (s1.reclaim p (fun c => if x.bound then c == 0 || decide (4 < c) else c == l + 1)).forgetAdapters p
  ((s2.loop p l).seqs.filter (fun q => q.moving == 0 && s2.seqCancelled p l q.slot)).foldl (fun s q => s.endSeq p l q.slot 4 stCancelled true) s2

/-- A training step of the job runs: a bound loop then runs bubble steps only (R405). -/
def State.training (s : State) (p : Nat) : Bool := (s.part p).job.st == .running && ((s.part p).job.step.bind s.draft).isSome

/-- The boundary of an unbound loop. -/
def State.ownBoundary (s : State) (p l : Nat) : State :=
  let s1 := ((s.batchReclaim p l true).applyLoop p l).actHold
  if (s1.loop p l).st ≠ .running ∨ bitAt s1.boot.held p ∨ (s1.loop p l).pick = 2 ^ 64 - 1 then s1
  else
    let s2 := s1.setLoop p l (fun y => { y with pick := y.pick + 1, bubble := false })
    (((s2.admitStep p l).writePoolPage p).writePages p).batchFrom3 p l

/-- The boundary of a bound loop that begins the job's next pick. -/
def State.jobBoundary (s : State) (p l : Nat) : State :=
  if s.lastPick p then s.picksEnd p
  else
  let s1 := s.batchReclaim p l true
  let q := s1.pickOf p + 1
  let s2 := (s1.applyPending p q).applyDue p
  if (s2.part p).shed.isSome ∨ !s2.boundaryOpen p ∨ (s2.loop p l).st ≠ .running then s2
  else
    let s3 := s2.actHold
    if bitAt s3.boot.held p then s3
    else
      let s4 := ((s3.applySchedules p q).snapLr p).beginPick p
      ((s4.admitStep p l).setLoop p l (fun y => { y with bubble := false })).batchFrom3 p l

/-- The boundary of a bubble step: no pick advances (R405). -/
def State.bubbleBoundary (s : State) (p l : Nat) : State :=
  let s1 := s.batchReclaim p l false
  ((s1.admitStep p l).setLoop p l (fun y => { y with bubble := true })).batchFrom3 p l

/-- SERVE_STEP_BOUNDARY: a boundary begins, or one that waited for swaps goes on. -/
def serveBoundary (s : State) (p l : Nat) : State :=
  let x := s.loop p l
  if x.st ≠ .running ∨ !s.dispatches p ∨ x.step.isSome then s
  else match x.stage with
    | 0 =>
      if s.drafts.any (fun d => d.part == p && d.slot == some x.slot) then s
      else if !x.bound then s.ownBoundary p l
      else if s.training p then s.bubbleBoundary p l
      else if !s.boundaryOpen p || (match s.nextDraft p with | some d => s.draftFirst p d | none => false) then s
      else s.jobBoundary p l
    | 3 => if s.swapsOpen p l then s else ((s.sweepSeqs p l).landSwaps p l).batchFrom4 p l
    | 4 => if s.outOpen p l then s else s.batchFrom4 p l
    | 8 => s.dispatchBatch p l
    | _ => if s.outOpen p l then s else s.batchFrom6 p l

-- ## The end of a step

/-- The record of a generated token (R407), and the table's counters. -/
def State.putToken (s : State) (p l k token logp : Nat) : Try :=
  match s.seqX p l k with
  | none => (s, none)
  | some x =>
    let n := s.seqGet p l k 36 4
    let r := s.put (s.seqCtx p x) (.entry x.acc) (s.seqGet p l k 72 8 + 8 * n) (leBytes 4 token ++ leBytes 4 logp)
    ((r.1.seqPut p l k 36 4 (n + 1)).seqPut p l k 32 4 token, r.2)

/-- R406: END of a sequence that retires now, after a token. -/
def State.retires (s : State) (p l k token : Nat) : Option Nat :=
  if s.seqGet p l k 56 4 ≤ s.seqGet p l k 36 4 then some 1
  else if token = s.seqGet p l k 60 4 ∧ token ≠ 0xFFFFFFFF then some 2
  else if (s.loop p l).maxContext ≤ s.seqPos p l k then some 3
  else none

/-- A sequence has a sampled token: it is written, and the sequence retires or decodes on (R405, R406). -/
def State.tokenOut (s : State) (p l k token logp : Nat) : State :=
  let r := s.putToken p l k token logp
  match r.2 with
  | some st => r.1.endSeq p l k 6 st false
  | none => match r.1.retires p l k token with
    | some code => r.1.endSeq p l k code stOK false
    | none => r.1.seqPut p l k 5 1 3

/-- One row's effect at the end of a step that succeeded. -/
def State.rowDone (s : State) (p l : Nat) (r : BatchRow) (token logp : Nat) : State :=
  let k := r.who
  if r.kind = 2 then
    match s.handle p l k with
    | none => s
    | some h =>
      let pos := h.pos + r.count
      let s1 := s.setHandle p l k (fun h => { h with pos := pos, st := if h.st = .filling ∧ h.tokens ≤ pos then .ready else h.st })
      if h.st = .filling ∧ h.tokens ≤ pos then s1.dropAdapterRef p h.adapter h.adapterGen h.adapterAt else s1
  else
    let s1 := s.seqPut p l k 24 4 (s.seqPos p l k + r.count)
    if r.kind = 0 then s1.tokenOut p l k token logp
    else if s1.seqPos p l k < s1.seqEnd p l k then s1
    else if s1.seqGet p l k 56 4 = 0 then s1.endSeq p l k 1 stOK false
    else s1.tokenOut p l k token logp

/-- SERVE_STEP_COMPLETE: rows are read, sequences go on or retire, pins end; `cycles` from dispatch to completion. -/
def serveComplete (s : State) (p l cycles : Nat) : State :=
  let x := s.loop p l
  match x.step.bind s.draft with
  | none => s
  | some d =>
    if !d.ended ∨ !s.runs p then s
    else
      let bad := s.failNode d
      let outs := x.rows.zipIdx.map (fun ri => (ri.1, le (s.readAt (partCtx p) (x.batchTable + 64 + 64 * ri.2 + 56) 8) 0 4,
        le (s.readAt (partCtx p) (x.batchTable + 64 + 64 * ri.2 + 60) 4) 0 4))
      let s1 := (s.completeDraft d stOK 0).setLoop p l (fun y => { y with
        lastStep := min cycles (2 ^ 32 - 1), sumSteps := y.sumSteps + min cycles (2 ^ 32 - 1), steps := y.steps + 1 })
      match bad with
      | some (_, st) => ((s1.failBatch p l st).writePages p).actHold
      | none =>
        let s2 := outs.foldl (fun s o => s.rowDone p l o.1 o.2.1 o.2.2) s1
        ((((s2.unpinStep p l).afterStep p l).endBatchPick p x.bound x.bubble 0).writePages p).actHold

-- ## The prompt-chunk temple (R413)

/-- The budget after an interval of mean step length `t`. -/
def Loop.nextBudget (x : Loop) (t : Nat) : Nat :=
  if x.target < t ∧ x.bMin < x.budget then max x.bMin (x.budget * x.target / t)
  else if 8 * t < 7 * x.target ∧ x.cut ∧ x.budget < x.bMax then min x.bMax (x.budget + max 1 (x.budget / 8))
  else x.budget

/-- PROMPT_CHUNK_TEMPLE_UPDATE: the end of an interval. -/
def chunkTemple (s : State) (p l : Nat) : State :=
  let x := s.loop p l
  if x.st ≠ .running ∨ x.steps < x.interval ∨ x.steps = 0 then s
  else s.setLoop p l (fun y => { y with
    budget := if s.bit (.tmpChunkCtl p) l then s.budgetNow p l else y.nextBudget (y.sumSteps / y.steps), sumSteps := 0, steps := 0, cut := false })

-- ## Commands

/-- PROMPT_CHUNK_TEMPLE_UPDATE (R413). -/
def execPromptChunkTempleUpdate (p loop : Nat) (s : State) : Host.Outcome State Fault Refusal := finish (chunkTemple s p loop)

end Sys2Proof.Machine
end

