-- ==== Sys2Proof/Machine/Attention.lean ====
section
/-!
DEFINITION. Machine/Attention.lean: what an attention image computes for a query row (R428), and the blocks of ring attention (R429, R430).
No step evaluates the functions of R428: an attention image comes with each numeric version and runs its rows on the looms like any other
(R427), and these say what its rows must equal.
-/

namespace Sys2Proof.Machine

-- ## One query row (R428)

/-- Key `k` is visible to the query at position `q` of a sequence of `n` positions: causal order, the window `w` (0 for none), equal segment
ids where the image names a segment tensor. -/
def keyVisible (n w : Nat) (segments : Option (List Nat)) (q k : Nat) : Bool :=
  decide (k ≤ q) && decide (q < n) && (w == 0 || decide (q - k < w)) &&
  (match segments with
   | some ss => ss.getD k 0 == ss.getD q 0
   | none => true)

/-- A query row between blocks: running maximum, sum, output accumulator, as FP32 words. -/
structure AttnRow where
  m : Nat
  l : Nat
  o : List Nat
  deriving DecidableEq, Repr

/-- The row before its first block: m at minus infinity, l and every element of o at +0. -/
def attnStart (dims : Nat) : AttnRow := ⟨0xFF800000, 0, List.replicate dims 0⟩

/-- One block of visible keys merged: the score and the value vector of each. `sum` adds the block's terms in the order its image fixes. A
block without a visible key changes nothing (R430). -/
def attnMerge (c : FCtx) (sum : List Nat → Nat) (r : AttnRow) (keys : List (Nat × List Nat)) : AttnRow :=
  if keys.isEmpty then r
  else
    let mb := keys.foldl (fun a k => (fmax c a k.1).bits) 0xFF800000
    let mn := (fmax c r.m mb).bits
    let decay := (fexp2 c (fp32F.add c r.m (neg32 mn)).bits).bits
    let ws := keys.map (fun k => (fexp2 c (fp32F.add c k.1 (neg32 mn)).bits).bits)
    let grow (old : Nat) (terms : List Nat) : Nat := (fp32F.add c (fp32F.mul c old decay).bits (sum terms)).bits
    ⟨mn, grow r.l ws, r.o.zipIdx.map (fun od => grow od.1 (keys.zipWith (fun k w => (fp32F.mul c w (k.2.getD od.2 0)).bits) ws))⟩

/-- The output vector and L of a row after its last block: +0 and minus infinity where no key was visible. -/
def attnFinish (c : FCtx) (r : AttnRow) : List Nat × Nat :=
  if r.l % 2 ^ 31 = 0 then (r.o.map (fun _ => 0), 0xFF800000)
  else
    let inv := (fp32F.rcp c r.l).bits
    (r.o.map (fun x => (fp32F.mul c x inv).bits), (fp32F.add c r.m (flog2 c r.l).bits).bits)

/-- A row over its blocks in merge order. -/
def attnRow (c : FCtx) (sum : List Nat → Nat) (dims : Nat) (blocks : List (List (Nat × List Nat))) : List Nat × Nat :=
  attnFinish c (blocks.foldl (attnMerge c sum) (attnStart dims))

-- ## Ring attention (R429)

/-- Ring position that stores position `q` of a sequence, and the origin of the blocks that position `i` holds in round `r`. -/
def Loop.ringPosition (x : Loop) (q : Nat) : Nat := q / x.ringBlock % x.ringSize
def Loop.ringOrigin (x : Loop) (i r : Nat) : Nat := (i + x.ringSize - r % x.ringSize) % x.ringSize

/-- Pool blocks that the keys and values of a ring block take. -/
def Loop.ringBlocks (x : Loop) : Nat := ceilDiv (x.ringBlock * x.tokenBytes) 65536

/-- RING_BLOCK_ARRIVE: a block of the step in flight comes in its round and lands in a class-3 entry, which stands until the step has read it;
round 0 holds the position's own blocks, which are in the pool already. A fully masked block is read by nothing. Unless the round is the
last, the block goes on to RING_NEXT. -/
def ringArrive (s : State) (p l block round : Nat) (visible : Bool) : State :=
  let x := s.loop p l
  if x.st = .disabled ∨ x.step.isNone ∨ !x.ringOn ∨ x.ringSize ≤ round ∨ !s.runs p ∨ x.ring.any (fun r => r.1 == 65536 * round + block) then s
  else
    let r := if round = 0 ∨ !visible then (s, some none)
      else match s.alloc p 3 block x.ringBlocks (s.loopCounter p l) with
        | (s1, some e) => (s1, some (some e))
        | (s1, none) => (s1, none)
    match r.2 with
    | none => r.1
    | some e =>
      let s1 := r.1.setLoop p l (fun y => { y with ring := y.ring ++ [(65536 * round + block, match e with | some e => e + 1 | none => 0)] })
      if round + 1 < x.ringSize then s1.emit (.ring x.ringNext block (round + 1)) else s1

/-- RING_BLOCK_ARRIVE (R429). -/
def execRingBlockArrive (p loop block round : Nat) (visible : Bool) (s : State) : Host.Outcome State Fault Refusal :=
  finish (if p < 16 ∧ loop < 4 ∧ block < 65536 then ringArrive s p loop block round visible else s)

end Sys2Proof.Machine
end

