-- ==== Sys2Proof/Machine/Heddle.lean ====
section
/-!
DEFINITION. Machine/Heddle.lean: the dispatch and the end of a node (R42, R197, R210 to R213, R227, R246, R344, R431), what a shuttle makes of a
request (R252 to R257), PREEMPT and RESUME (R222, R225).
-/

namespace Sys2Proof.Machine

-- ## Who goes first (R42, R212)

/-- Controller islands whose near-memory units hold part of the MASTER range of an UPDATE without looms (R374). -/
def State.updateIslands (s : State) (d : Draft) (n : Node) : List Nat :=
  if n.kind ≠ 6 ∨ n.onLooms then []
  else match s.nodeBlock (nodeCtx d n) n 128 with
    | .error _ => []
    | .ok b =>
      let a := UBlock.master b
      ((groupPoints (gSpace a) (gOffset a) (max 1 (UBlock.masterBytes b))).map (fun o =>
        if gSpace a = 0 then 0x22 + hbmGroup o / 4 else 0x2A + t2Group o / 4)).dedup

/-- Two nodes want the same looms, or the same engine: the reduction engine, the shuttles of a cluster or of the selvage die, the update units
of a controller. -/
def State.rivals (s : State) (d e : Draft) (a b : Node) : Bool :=
  a.loomSet.any b.loomSet.contains ||
  ((a.kind == 4 || a.kind == 5) && (b.kind == 4 || b.kind == 5)) ||
  (a.kind == 3 && b.kind == 3 && (a.clusterMask == b.clusterMask || (a.clusterMask &&& b.clusterMask) != 0)) ||
  (a.kind == 6 && b.kind == 6 && (s.updateIslands d a).any (s.updateIslands e b).contains)

/-- Place of an orthonormalisation in the order of R212: a task of priority class 0, with MB_ID and node id of its REDUCE node (R321, log 186). -/
def State.orthoTurn (s : State) (x : Stream) : List Nat :=
  [0, 0, match s.node x.draft x.node with | some n => n.mb | none => 0, x.node, match s.draft x.draft with | some d => d.acc.getD 0 | none => 0]

/-- An orthonormalisation that waits for a loom of the node goes before it (R212, R321). -/
def State.orthoFirst (s : State) (d : Draft) (i : Nat) (n : Node) : Bool :=
  (s.part d.part).streams.any (fun x => x.orthoWaits && n.loomSet.contains x.orthoLoom &&
    (n.bubble || lexLt (s.orthoTurn x) (s.turn d i n d.loop.isSome)))

/-- A ready node of the partition that wants what this one wants goes first: on looms a node of the training step before any eligible one,
whatever their PRIO (R42), else by the order of R212. -/
def State.outranked (s : State) (d : Draft) (i : Nat) (n : Node) : Bool :=
  s.orthoFirst d i n || s.drafts.any (fun e => e.part == d.part && (e.nodes.zipIdx).any (fun m =>
    !(e.id == d.id && m.2 == i) && s.rivals d e n m.1 && s.nodeReady e m.2 m.1 &&
    (if n.bubble && s.trains e m.1 && n.onLooms then true
     else if m.1.bubble && s.trains d n && n.onLooms then false
     else if d.loop.isSome && e.id != d.id && n.onLooms then false
     else lexLt (s.turn e m.2 m.1 (e.id != d.id)) (s.turn d i n (e.id != d.id)))))

/-- Islands a node runs on: its clusters, the fabric island, the reduction and shuttle island, or the memory controllers (R49, R374). -/
def State.nodeIslands (s : State) (d : Draft) (n : Node) : List Nat :=
  if n.onLooms then ((s.nodeLooms d n).map loomCluster).dedup
  else match n.kind with
  | 3 => if n.clusterMask = 0 then [0x2E] else (bitList 32 n.clusterMask).map (fun c => (s.clusters d.part).getD c 0)
  | 4 => [0x2E]
  | 5 => [0x2E]
  | 6 => s.updateIslands d n
  | 9 => [0x21]
  | _ => []

/-- Islands of the node that do not hold the job's pick yet (R59); bubble-fill work and drafts without a step are no work of the pick. -/
def State.pickLess (s : State) (d : Draft) (n : Node) : List Nat :=
  if d.noStep || !d.begun || n.bubble || s.offJob d then []
  else (s.nodeIslands d n).filter (fun i => tget 0 (s.island i).picks d.part != s.pickOf d.part)

def State.awaitsPick (s : State) (d : Draft) (n : Node) : Bool := !(s.pickLess d n).isEmpty

/-- The Heddle sends the pick to an island that does not hold it and to which none is on its way: the transfer was abandoned (R53), or the
island's domain has been off since. -/
def State.sendPick (s : State) (d : Draft) (n : Node) : State :=
  ((s.pickLess d n).filter (fun i => !s.pickComing d.part i)).foldl (fun s i => s.sendTransfer 0x20 i (.pick d.part (s.pickOf d.part))) s

-- ## Dispatch (R210, R211, R246)

/-- Tensors a node uses: its three descriptors, and those of the shuttle descriptor of a COPY node (R202, R246). -/
def State.tensorsOf (s : State) (d : Draft) (n : Node) : List (List Byte) :=
  (List.range 3).map n.td ++
  (if n.kind = 3 ∧ n.arg 104 8 ≠ 0 then (match s.copyDesc (nodeCtx d n) n with | some b => [descSrc b, descDst b] | none => []) else [])

/-- Pool entries in which a tensor of the node lies. -/
def State.entriesUsed (s : State) (d : Draft) (n : Node) : List Nat :=
  let p := d.part
  let at_ := ((s.tensorsOf d n).filter tdValid).map tdBase
  let mine := (at_.filter (fun a => s.isLocal a && gSpace a == 0)).map gOffset
  if mine.isEmpty then []
  else ((s.pents p).filter (fun e => mine.any (fun o =>
    let b := s.poolBase p + 65536 * e.2.first
    decide (b ≤ o ∧ o < b + 65536 * e.2.blocks)))).map (·.1)

/-- A node that has been dispatched pins the entries it uses. -/
def State.pinNode (s : State) (d n : Nat) : State :=
  match s.draft d, s.node d n with
  | some x, some y =>
    if y.st ≠ .running ∨ !y.pins.isEmpty then s
    else
      let es := s.entriesUsed x y
      (es.foldl (fun s e => s.pin x.part e true) s).setNode d n (fun y => { y with pins := es })
  | _, _ => s

/-- A COPY node is dispatched: its descriptor is read, a source elsewhere is brought, and it joins the queues of its shuttles (R202, R241, R252,
R254). -/
def State.dispatchCopy (s : State) (dr : Draft) (n : Nat) (nd : Node) : State :=
  let c := nodeCtx dr nd
  match s.copyDesc c nd with
  | none => (s.meet c (nd.arg 104 8) 64).endNode dr.id n (s.blockErr c (nd.arg 104 8) 64)
  | some desc =>
    if !descOk desc then s.endNode dr.id n stInvalid
    else
      let r := (s.setNode dr.id n (fun y => { y with st := .running })).bringTd c (.node dr.id n) (descSrc desc)
      match r.2 with
      | some st => r.1.endNode dr.id n st
      | none => r.1.enqueue (.node dr.id n) dr.part nd.clusterMask desc

/-- A BARRIER node is dispatched: SCOPE 1 reports to the manager and waits for BARRIER_GO; a SOLO job has no other member (R202, R344). -/
def State.dispatchBarrier (s : State) (dr : Draft) (n : Nat) (nd : Node) : State :=
  let s1 := s.setNode dr.id n (fun y => { y with st := .running })
  if nd.arg 104 1 = 0 ∨ s.solo dr.part ∨ !s.hasJob dr.part then s1.setNode dr.id n (fun y => { y with worked := true })
  else (s1.setJob dr.part (fun j => { j with barriers := j.barriers ++ [(dr.id, n)] })).report dr.part 0xA
    (leBytes 8 (s.pickOf dr.part) ++ leBytes 2 n)

/-- A SHED node begins its partition's shed change at the boundary the job stands at (R17, R352, R353). -/
def State.dispatchShed (s : State) (dr : Draft) (n : Nat) (nd : Node) : State :=
  if (s.part dr.part).shed.isSome ∨ !s.atBoundary dr.part then s
  else (s.setNode dr.id n (fun y => { y with st := .running })).startShed dr.part (.node dr.id n) (nd.arg 104 8) (nd.arg 112 4) 0 false (nodeCtx dr nd)

/-- A node goes to its looms or its engine. -/
def State.dispatchKind (s : State) (dr : Draft) (n : Nat) (nd : Node) : State :=
  match nd.kind with
  | 3 => s.dispatchCopy dr n nd
  | 4 => (s.setNode dr.id n (fun y => { y with st := .running })).installReduce dr n nd
  | 5 => (s.setNode dr.id n (fun y => { y with st := .running })).installGather dr n nd
  | 6 => s.dispatchUpdate dr n nd
  | 7 => s.dispatchShed dr n nd
  | 8 => s.dispatchBarrier dr n nd
  | 9 => nodeWorked dr.id n
      ((s.setNode dr.id n (fun y => { y with st := .running })).signal (nodeCtx dr nd) (.node dr.id n) (nd.arg 104 8) (nd.arg 112 8) (nd.arg 120 1))
  | 0xA => (s.setNode dr.id n (fun y => { y with st := .running })).pollWait dr.id n
  | _ => s.dispatchLooms dr n nd

/-- A batch step of another draft holds looms of the node to its end (R216); a bubble step gives way to what is not bubble-fill (R42). -/
def State.reserved (s : State) (dr : Draft) (nd : Node) : Bool :=
  nd.onLooms && s.drafts.any (fun e => e.part == dr.part && e.id != dr.id &&
    (match e.loop with
     | some l => (nd.bubble || !(s.loop e.part l).bubble) && nd.loomSet.any (loomsOf e.nodes).contains
     | none => false))

/-- Looms of the node on which bubble-fill work of another node runs, while this one is not eligible (R42). -/
def State.bubbleInWay (s : State) (dr : Draft) (nd : Node) : List Nat :=
  if nd.bubble then []
  else (s.nodeLooms dr nd).filter (fun l => match (s.loom l).node with
    | some (d, n) => (match s.node d n with | some y => y.bubble | none => false)
    | none => false)

/-- A recovery shed change runs, and the draft is the step it will run again (R348). -/
def State.stepWaits (s : State) (dr : Draft) : Bool :=
  match (s.part dr.part).shed with
  | some x => x.recovery && dr.begun && !dr.noStep && !s.offJob dr
  | none => false

/-- NODE_DISPATCH: a ready node that no rival precedes is dispatched to all of its looms, once they are free, or to its engine (R210 to R212). A
node that a displacement stopped comes back from bank 1 (R227). While a recovery shed change runs, the step it will rerun waits (R348). -/
def nodeDispatch (s : State) (d n : Nat) : State :=
  match s.draft d, s.node d n with
  | some dr, some nd =>
    if !s.dispatches dr.part ∨ !s.nodeReady dr n nd ∨ s.outranked dr n nd ∨ s.stepWaits dr then s
    else if s.awaitsPick dr nd then s.sendPick dr nd
    else if s.reserved dr nd ∨ s.bankTaken dr n nd then s
    else if nd.st = .stopped then
      (if (s.nodeLooms dr nd).any (fun l => (s.loom l).node.isSome) then s else (s.restoreBubble dr n nd).getD s)
    else ((s.displaceOn (s.bubbleInWay dr nd)).dispatchKind dr n nd).pinNode d n
  | _, _ => s

/-- ORTHO_COMPLETE: the orthonormalisation is dispatched to its loom once no node goes before it there, and no batch step holds the loom; bubble-fill
work gives way (R42, R211, R212, R216, R321). -/
def orthoRun (s : State) (p id : Nat) : State :=
  match (s.part p).streams.find? (fun x => !x.gather && x.id == id) with
  | none => s
  | some x =>
    let l := s.physLoom p x.orthoLoom
    let before := s.drafts.any (fun e => e.part == p && (e.nodes.zipIdx).any (fun m =>
      m.1.loomSet.contains x.orthoLoom && s.nodeReady e m.2 m.1 && !m.1.bubble && lexLt (s.turn e m.2 m.1 e.loop.isSome) (s.orthoTurn x)))
    let held := s.drafts.any (fun e => e.part == p && (loomsOf e.nodes).contains x.orthoLoom &&
      (match e.loop with | some k => !(s.loop p k).bubble | none => false))
    let filled := match (s.loom l).node with
      | some (d, n) => (match s.node d n with | some y => y.bubble | none => false)
      | none => false
    if !x.orthoWaits ∨ !s.dispatches p ∨ before ∨ held then s
    else orthoNow (if filled then s.displaceOn [l] else s) p id

-- ## The end of a node (R197, R210)

/-- COND of a HOST_WAIT node for a value read (R202). -/
def Node.satisfied (n : Node) (v : Nat) : Bool :=
  match n.arg 120 1 with
  | 0 => v == n.arg 112 8
  | 1 => decide (n.arg 112 8 ≤ v)
  | _ => v != n.arg 112 8

/-- The end of a node whose own work is done and whose writes are acknowledged. -/
def State.endWorked (s : State) (d n : Nat) (nd : Node) : State :=
  if nd.worked ∧ nd.acks = 0 ∧ s.matesSettled (.node d n) then s.endNode d n (nd.failing.getD stOK) else s

/-- NODE_COMPLETE: a running node of a partition whose work moves ends when it has nothing left to do and every write is acknowledged. -/
def nodeComplete (s : State) (d n : Nat) : State :=
  match s.draft d, s.node d n with
  | some dr, some nd =>
    let p := dr.part
    if nd.st ≠ .running ∨ !s.runs p then s
    else if nd.worked ∧ (nd.failing.any failing) then s.endWorked d n nd
    else match nd.kind with
    | 4 =>
      let s1 := s.redSettle p d n
      (match s1.stream p d n, s1.node d n with
       | some x, some y => s1.completeReduce d n y x p
       | _, _ => s1)
    | 5 =>
      let s1 := s.redSettle p d n
      (match s1.stream p d n, s1.node d n with
       | some x, some y => s1.completeGather d n y x p
       | _, _ => s1)
    | 6 => s.completeUpdate dr n nd
    | 7 => s.settleShed p
    | 3 => s.endWorked d n nd
    | 8 => s.endWorked d n nd
    | 9 => s.endWorked d n nd
    | 0xA => s.endWorked d n nd
    | _ =>
      let s1 := (s.nodeLooms dr nd).foldl (fun s l => s.drainAll l) s
      (match s1.draft d, s1.node d n with
       | some x, some y =>
         if y.st = .running ∧ y.acks = 0 ∧ (y.failing.isSome ∨ s1.loomsDone x y) then s1.endNode d n (y.failing.getD stOK) else s1
       | _, _ => s1)
  | _, _ => s

-- ## Shuttles (R213, R252 to R257)

/-- SHUTTLE_REQUEST: the shuttles take the request of a COPY node, a COPY command or a prefetch entry, or a descriptor of the partition by its address,
which has no queue and goes when nothing of its partition waits for the selvage shuttles. -/
def shuttleRequest (s : State) (p descriptor : Nat) (iss : Issuer) : State :=
  match iss with
  | .shed q i => if q = p then shedEntry s p i false else s
  | .outside =>
    let w := s.selvageWaits
    if 16 ≤ p ∨ !s.dispatches p ∨ descriptor % 64 ≠ 0 ∨ w.contains p ∨ !s.hasTurn 0 p w then s
    else match s.block (partCtx p) descriptor 64 with
      | none => s.meet (partCtx p) descriptor 64
      | some desc =>
        if s.tdOpen (descSrc desc) && s.tdOpen (descDst desc) then ((s.serve 0 p).shuttleRun (partCtx p) .outside p desc).1 else s
  | _ => s.shuttleTake iss

-- ## PREEMPT and RESUME (R221, R222, R225, R355)

/-- PREEMPT and RESUME name no pick and act while nothing of their partition runs: once accepted, waited for and not fenced, in T0. -/
def State.partEntry (s : State) (e op : Nat) : Option Entry :=
  match s.entry e with
  | some x => if x.opcode = op ∧ (x.st = .ready ∨ x.st = .held) ∧ !s.fenced x ∧ s.treadle.state = 0 then some x else none
  | none => none

/-- PREEMPT: held while a shed change takes effect (R355). -/
def preempt (s : State) (e : Nat) : State :=
  match s.partEntry e 0x50 with
  | some x =>
    if (s.part x.part).shed.isSome then s.setEntry e (fun y => { y with st := .held })
    else (s.setEntry e (fun y => { y with st := .running })).preemptNow x.part e (bitAt x.arg0 0)
  | none => s

/-- RESUME. -/
def resume (s : State) (e : Nat) : State :=
  match s.partEntry e 0x51 with
  | some x => (s.setEntry e (fun y => { y with st := .running })).resumeNow x.part e
  | none => s

-- ## Commands

/-- PREEMPT (R222). -/
def execPreempt (e : Nat) (s : State) : Host.Outcome State Fault Refusal := finish (preempt s e)
/-- RESUME (R225). -/
def execResume (e : Nat) (s : State) : Host.Outcome State Fault Refusal := finish (resume s e)
/-- PREEMPT_SAVE_COMPLETE (R222). -/
def execPreemptSaveComplete (p : Nat) (s : State) : Host.Outcome State Fault Refusal := finish (s.saveEnd p)
/-- RESUME_RESTORE_COMPLETE (R225). -/
def execResumeRestoreComplete (p : Nat) (readOk : Bool) (s : State) : Host.Outcome State Fault Refusal := finish (s.restoreEnd p readOk)

end Sys2Proof.Machine
end

