-- ==== Sys2Proof/Machine/Owners.lean ====
section
/-!
DEFINITION. Machine/Owners.lean: who holds what: partition registers (R220, R244, R493, R515, R516, R518), shared regions (R242, R243), and the
changes of cache ways and policies (R237, R238, R240).
-/

namespace Sys2Proof.Machine

-- ## Writers

/-- The owning function of a partition. -/
def State.fromOwner (s : State) (src : Src) (p : Nat) : Bool :=
  match src with
  | .port q f => s.serving src && s.owns q f p
  | _ => false

/-- The administrative PF or the owning function (R516). -/
def State.partWriter (s : State) (src : Src) (p : Nat) : Bool := s.fromAdmin src || s.fromOwner src p

/-- A write of a partition register that is ignored sets CFG_REFUSED (R516). -/
def State.refuseCfg (s : State) (p : Nat) : State := s.setPart p { s.part p with cfgRefused := true }

-- ## Resources (R242, R516)

/-- A change of a cache register that is still being written back. -/
def State.changeOf (s : State) (r : Reg) : Option Nat := ((s.memCtl.changes.filter (fun c => c.off == r.offset)).getLast?).map (·.value)

/-- What a partition holds of a resource, with the ways and groups that a change under way takes or has not yet given up. -/
def State.heldBits (s : State) (r : Reg) : Nat := s.reg r ||| (s.changeOf r).getD 0

/-- Bits that partitions other than `p` hold of a resource register. -/
def State.othersHold (s : State) (p : Nat) (r : Nat → Reg) : Nat :=
  ((List.range 16).filter (· != p)).foldl (fun a q => a ||| s.heldBits (r q)) 0

/-- Groups that shared regions other than region `i` hold (4 for every one). -/
def State.sharedGroups (s : State) (i : Nat) : Nat := ((List.range 4).filter (· != i)).foldl (fun a j => a ||| s.reg (.shrGroups j)) 0

/-- A new value of a resource register names nothing that is held by another. -/
def State.resourceFree (s : State) (p : Nat) (r : Reg) (v : Nat) : Bool :=
  match r with
  | .partClusters _ => v &&& s.othersHold p .partClusters == 0
  | .partGroups _ => v &&& (s.othersHold p .partGroups ||| s.sharedGroups 4) == 0
  | .partT2Ways _ => v &&& s.othersHold p .partT2Ways == 0
  | _ => true

-- ## Cache changes (R238, R240)

/-- The change of a cache register arrives: what gives up nothing takes effect at once, all else once the lines concerned are written back. -/
def State.changeCache (s : State) (r : Reg) (v : Nat) : State :=
  let cur := (s.changeOf r).getD (s.reg r)
  let grows := (match r with | .partT2Ways _ => field cur 16 16 &&& field v 16 16 == field cur 16 16 | _ => false)
  if v = cur then s
  else if grows && (s.changeOf r).isNone then s.setReg r v
  else { s with memCtl := { s.memCtl with changes := s.memCtl.changes ++ [{ off := r.offset, value := v }] } }

/-- A policy register's value with every field of code 3 kept (R240). -/
def policyValue (old v : Nat) : Nat :=
  (List.range 16).foldl (fun a i => if field v (2 * i) 2 = 3 then a else setField a (2 * i) 2 (field v (2 * i) 2)) old

/-- CACHE_WAY_CHANGE: a write of a policy register or of a partition's way mask. -/
def cacheWayChange (s : State) (src : Src) (off v : Nat) : State :=
  match regAt off with
  | some (.mscPolicy i) =>
    if !s.fromAdmin src then s
    else s.changeCache (.mscPolicy i) (policyValue ((s.changeOf (.mscPolicy i)).getD (s.reg (.mscPolicy i))) v)
  | some (.partT2Ways p) =>
    if !s.fromAdmin src then s
    else if !(s.part p).st.idle ∨ !s.resourceFree p (.partT2Ways p) (v % 2 ^ 32) then s.refuseCfg p
    else s.changeCache (.partT2Ways p) (v % 2 ^ 32)
  | _ => s

/-- Lines a change concerns: those of groups whose policy changes, of ways that leave a partition, of a partition that is disabled (R238). -/
def State.leavesCache (s : State) (c : CacheChange) (l : CacheLine) : Bool :=
  let sp := l.key / 2 ^ 48 % 0x20
  let g := groupOf sp (l.key % 2 ^ 48)
  match regAt c.off with
  | some (.mscPolicy i) => (if i = 2 then sp == 1 else sp == 0 && g / 16 == i) && field c.value (2 * (g % 16)) 2 != s.cachePolicy sp g
  | some (.partT2Ways p) => bitAt (s.ways p) l.way && !bitAt c.value (16 + l.way)
  | some (.partCtl p) => bitAt (s.ways p) l.way
  | _ => false

/-- CACHE_WRITEBACK_COMPLETE: the oldest change takes effect; the lines concerned have been written back and are invalid. -/
def cacheWritten (s : State) : State :=
  match s.memCtl.changes with
  | [] => s
  | c :: rest =>
    let s1 := (s.memCtl.cache.filter (s.leavesCache c)).foldl State.dropLine { s with memCtl := { s.memCtl with changes := rest } }
    match regAt c.off with
    | some (.partCtl _) => s1
    | some r => s1.setReg r c.value
    | none => s1

-- ## Partition registers (R516)

/-- Registers of a partition beside PART_CTL and PART_CLUSTERS; its ways leave through the cache. -/
def partRegs (p : Nat) : List Reg :=
  [.partOwner p, .partGroups p, .partItabCount p, .poolBase p, .poolSize p, .poolPage p 0, .poolPage p 1] ++ (List.range 10).map (.partAddr p)

/-- PARTITION_CONFIGURE: a write of PART_CLUSTERS. Zero returns the partition to UNCONFIGURED and clears its other registers; a write that would
configure one without PORT_PART is ignored (R493). -/
def partitionConfigure (s : State) (src : Src) (p v : Nat) : State :=
  let v := v % 2 ^ 32
  let x := s.part p
  if 16 ≤ p ∨ !s.fromAdmin src then s
  else if !x.st.idle ∨ !s.resourceFree p (.partClusters p) v ∨ (v ≠ 0 ∧ s.portPart p = 0) then s.refuseCfg p
  else if v = 0 then
    let s1 := (partRegs p).foldl (fun s r => s.setReg r 0) (s.setReg (.partClusters p) 0)
    let s2 := s1.changeCache (.partT2Ways p) 0
    s2.setPart p { x with st := .unconfigured, cfgRefused := false, fail := 0, flipFailed := [] }
  else (s.setReg (.partClusters p) v).setPart p { x with st := .configured }

/-- A write of a resource or address register other than PART_CLUSTERS and PART_OWNER. -/
def partRegWrite (s : State) (src : Src) (p : Nat) (r : Reg) (v : Nat) : State :=
  let st := (s.part p).st
  let adminOnly := (match r with | .partGroups _ => true | _ => false)
  let pages := (match r with | .partAddr _ j => decide (2 ≤ j ∧ j ≤ 5) | _ => false)
  let may := if adminOnly then s.fromAdmin src else s.partWriter src p
  let open_ := st.idle || (pages && (st == .preempted || st == .halted))
  if !may then s
  else if !open_ || !s.resourceFree p r (v % 2 ^ 32) then s.refuseCfg p
  else s.setReg r (v % 2 ^ 32 &&& r.rw)

/-- PORT_PART permits a port. -/
def State.portAllowed (s : State) (p q : Nat) : Bool := bitAt (s.portPart p) q

/-- Entries of a partition that are not completed answer on a ring pair of the new owner (R518). -/
def State.rehome (s : State) (p q k : Nat) : State :=
  { s with entries := s.entries.map (fun e => if e.part = p then { e with home := (q, k) } else e) }

/-- PARTITION_OWNER_CHANGE: a write of PART_OWNER (R516, R518). -/
def ownerChange (s : State) (src : Src) (p v : Nat) : State :=
  let v := v % 65536
  let st := (s.part p).st
  let q := field v 6 1
  let f := field v 0 6
  let k := field v 8 8
  let moves := bitAt v 7 && (match s.owner p with | some o => o != (q, f) | none => false)
  if 16 ≤ p ∨ !s.fromAdmin src then s
  else if !(st.idle || st == .preempted || st == .halted) || !s.portAllowed p q ||
      (moves && !((s.ring q k).active && s.ringFunc q k == f)) then s.refuseCfg p
  else
    let s1 := s.setReg (.partOwner p) v
    if moves then s1.rehome p q k else s1

/-- PARTITION_ENABLE and PARTITION_DISABLE: a write of EN (R516). -/
def partitionEn (s : State) (src : Src) (p : Nat) (en : Bool) : State :=
  if 16 ≤ p ∨ !s.partWriter src p then s else if en then s.partEnable p else s.partDisable p

/-- A write of PART_CTL: CFG_REFUSED is cleared by writing 1, and EN acts. -/
def partCtlWrite (s : State) (src : Src) (p v : Nat) : State :=
  if !s.partWriter src p then s
  else
    let s1 := if bitAt v 1 then s.setPart p { s.part p with cfgRefused := false } else s
    partitionEn s1 src p (bitAt v 0)

-- ## Shared regions (R242, R243)

/-- A refused write of a shared region's registers. -/
def State.refuseShared (s : State) (i : Nat) : State := { s with shrRefused := setField s.shrRefused i 1 1 }

/-- A write of PART_SHR_GROUPS. -/
def sharedGroupsWrite (s : State) (src : Src) (i v : Nat) : State :=
  let v := v % 2 ^ 32
  if !s.fromAdmin src then s
  else if s.bit (.shrCtl i) 24 ∨ v &&& (s.othersHold 16 .partGroups ||| s.sharedGroups i) ≠ 0 then s.refuseShared i
  else s.setReg (.shrGroups i) v

/-- SHARED_REGION_SEAL: a write of PART_SHR_CTL. One that would unseal the region while a reader is in service is ignored. -/
def sharedCtlWrite (s : State) (src : Src) (i v : Nat) : State :=
  let ctl := s.reg (.shrCtl i)
  let readers := bitList 16 (field ctl 0 16)
  if 4 ≤ i ∨ !s.fromAdmin src then s
  else
    let s1 : State := if bitAt v 25 then { s with shrRefused := setField s.shrRefused i 1 0 } else s
    if bitAt ctl 24 ∧ !bitAt v 24 ∧ readers.any (fun p => (s.part p).st.live) then s1.refuseShared i
    else s1.setReg (.shrCtl i) (v % 2 ^ 32 &&& Reg.rw (.shrCtl i))

-- ## Commands

/-- PARTITION_CONFIGURE (R516). -/
def execPartitionConfigure (src : Src) (p v : Nat) (s : State) : Host.Outcome State Fault Refusal :=
  finish (s.via src (fun s => partitionConfigure s src p v))
/-- PARTITION_ENABLE (R516). -/
def execPartitionEnable (src : Src) (p : Nat) (s : State) : Host.Outcome State Fault Refusal :=
  finish (s.via src (fun s => partitionEn s src p true))
/-- PARTITION_ENABLING_END (R220). -/
def execPartitionEnablingEnd (p : Nat) (s : State) : Host.Outcome State Fault Refusal := finish (s.enablingEnd p)
/-- PARTITION_DISABLE (R220). -/
def execPartitionDisable (src : Src) (p : Nat) (s : State) : Host.Outcome State Fault Refusal :=
  finish (s.via src (fun s => partitionEn s src p false))
/-- PARTITION_DISABLING_END (R220). -/
def execPartitionDisablingEnd (p : Nat) (s : State) : Host.Outcome State Fault Refusal := finish (s.disablingEnd p).flrEnd
/-- PARTITION_OWNER_CHANGE (R518). -/
def execPartitionOwnerChange (src : Src) (p v : Nat) (s : State) : Host.Outcome State Fault Refusal :=
  finish (s.via src (fun s => ownerChange s src p v))
/-- CACHE_WAY_CHANGE (R238). -/
def execCacheWayChange (src : Src) (off v : Nat) (s : State) : Host.Outcome State Fault Refusal :=
  finish (s.via src (fun s => cacheWayChange s src off v))
/-- SHARED_REGION_SEAL (R243). -/
def execSharedRegionSeal (src : Src) (region v : Nat) (s : State) : Host.Outcome State Fault Refusal :=
  finish (s.via src (fun s => sharedCtlWrite s src region v))

end Sys2Proof.Machine
end

