-- ==== Sys2Proof/Machine/Faults.lean ====
section
/-!
DEFINITION. Machine/Faults.lean: fault events from outside the other families (R432, R435, R440), the host's side of the knot (R434, R437 to R439,
R453), injection (R441, R442), and the return of a block from reset (R436, R477).
-/

namespace Sys2Proof.Machine

/-- Classes that belong to a source, beside 0x3E, which belongs to every one (R440). -/
def sourceClasses (src : Nat) : List Nat :=
  if src < 32 then [1, 2, 3, 4, 5, 0x40]
  else if src < 40 then [0x10, 0x11, 0x40]
  else if src < 44 then [0x12, 0x13, 0x40]
  else if src < 50 then [0x20, 0x21, 0x40]
  else if src < 52 then [0x28, 0x40]
  else match src with
  | 52 => [0x30]
  | 53 => [0x31]
  | 54 => [0x31]
  | 55 => [0x31]
  | 56 => [0x14]
  | 57 => [0x39]
  | 58 => [0x38]
  | 59 => [0x06]
  | 60 => [0x3C]
  | 61 => [0x3D]
  | _ => []

/-- A class belongs to a source. -/
def classBelongs (src cls : Nat) : Bool := decide (src < 62) && (cls == 0x3E || (sourceClasses src).contains cls)

-- ## KNOT_EVENT (R435, R239)

/-- Node kinds that a datapath parity error of a block ends. -/
def parityKinds (src : Nat) : List Nat :=
  match src with
  | 53 => [3]
  | 54 => [4, 5]
  | 55 => [6]
  | _ => []

/-- The operation whose datapath parity error recurred ends RETRY_EXHAUSTED (R435): DETAIL is its node id (R440). -/
def State.parityEnd (s : State) (ev : FaultEv) : State :=
  match s.drafts.find? (fun d => some d.part == ev.part && (match d.nodes[ev.detail]? with
    | some n => n.st == .running && (parityKinds ev.source).contains n.kind
    | none => false)) with
  | some d => s.endNode d.id ev.detail stRetryExhausted
  | none => s

/-- An uncorrectable word in a line of the cache: in a clean one the line is dropped and nothing else happens; one in a dirty line is an event
(R239). -/
def State.cacheWord (s : State) (ev : FaultEv) : State :=
  match s.cachedLine ev.address with
  | some l => if l.dirty then (s.loseLine l).raise ev else s.loseLine l
  | none => s

/-- KNOT_EVENT: what the event stands for, and its bit, record and reaction. A PCIe link's error counts as an entry to link recovery (R443). -/
def knotEvent (s : State) (ev : FaultEv) : State :=
  if !classBelongs ev.source ev.cls ∨ ev.cls = 0x3E ∨ ev.cls = 0x40 then s
  else
    let s1 := if ev.cls = 0x31 then s.parityEnd ev else if ev.cls = 0x28 then s.hardEvent 4 ev.unit else s
    if ev.cls = 0x14 then s.cacheWord ev else s1.raise ev

/-- BLOCK_RESET_RETURN: a controller serves again, a port's enabled links train, a PCIe link comes up (R436). -/
def blockReturn (s : State) (source : Nat) : State :=
  if 32 ≤ source ∧ source < 44 then
    { s with memCtl := { s.memCtl with resetting := s.memCtl.resetting.filter (· != source - 32) } }
  else if 44 ≤ source ∧ source < 50 then
    (List.range 16).foldl (fun s i => s.startLink (16 * (source - 44) + i)) s
  else if 50 ≤ source ∧ source < 52 then
    let q := source - 50
    if (s.port q).perst ∨ (s.port q).maxWidth = 0 then s else s.setPort q { s.port q with linkUp := true }
  else s

-- ## The host's side (R434, R438, R439)

/-- HANDLING_WINDOW_CLOSE: a write of KNOT_FIRST. An event merged in the same cycle keeps the window open. -/
def windowClose (s : State) (src : Src) (v : Nat) (mergedNow : Bool) : State :=
  if !s.fromAdmin src ∨ !bitAt v 16 ∨ mergedNow then s
  else { s with knot := { s.knot with windowOpen := false, mergedBit := false, merged := 0 } }

/-- KNOT_WORD_CLEAR: each 1 clears a knot bit, but one that an event sets in the same cycle (R15). -/
def wordClear (s : State) (src : Src) (hi : Bool) (v setNow : Nat) : State :=
  if !s.fromAdmin src then s
  else
    let lo := if hi then 32 else 0
    let n := if hi then 30 else 32
    let w := (bitList n v).foldl (fun w i => if bitAt setNow i then w else setField w (lo + i) 1 0) s.knot.word
    { s with knot := { s.knot with word := w } }

/-- An injected event: the record carries the unit alone, and the always-on island stamps it (R441). -/
def injectedEvent (source cls unit : Nat) : FaultEv :=
  { source := source, cls := cls, unit := unit, unit2 := 0, address := 0, detail := 0, island := 0x31, part := none }

/-- FORCE: a write of 1 to FORCE of KNOT_SRC. -/
def forceEvent (s : State) (src : Src) (source : Nat) : State :=
  if !s.fromAdmin src ∨ 62 ≤ source then s else s.raiseWith (injectedEvent source 0x3E 0) true

/-- KNOT_LOG_HEAD. -/
def logHead (s : State) (src : Src) (v : Nat) : State :=
  if !s.fromAdmin src then s else { s with knot := { s.knot with head := v % 65536 } }

/-- RETIREMENT_CLEAR. -/
def retirementClear (s : State) (src : Src) (v : Nat) : State := if s.fromAdmin src && bitAt v 0 then s.clearRetired else s

-- ## FAULT_INJECT (R441, R442)

/-- Classes with a real fault, and how many units each has. -/
def armable (cls : Nat) : Option Nat :=
  match cls with
  | 0x01 => some Config.looms
  | 0x03 => some Config.looms
  | 0x10 => some 256
  | 0x12 => some 64
  | 0x21 => some Config.links
  | _ => none

/-- A fault armed on a unit for the next operations, with what of it counts for the classifier. -/
def State.armFault (s : State) (cls unit count : Nat) (classify : Bool) : State :=
  if cls = 1 ∨ cls = 3 then
    let x := s.loom unit
    s.setLoom unit { x with armed := tset 0 (tset 0 x.armed cls (max count (tget 0 x.armed cls))) (256 + cls) (b2n classify) }
  else if cls = 0x21 then s.setLink unit { s.link unit with armed := max count (s.link unit).armed }
  else
    let u := 65536 * (if cls = 0x10 then 1 else 2) + unit
    { s with memCtl := { s.memCtl with
      armed := tset 0 (tset 0 s.memCtl.armed u (max count (tget 0 s.memCtl.armed u))) (2 ^ 32 + u) (b2n classify) } }

/-- FAULT_INJECT. -/
def faultInject (s : State) (x : Entry) : State :=
  let source := x.arg0
  let b := x.arg1
  let cls := field b 0 8
  let effect := bitAt b 8
  let unit := field b 16 16
  let badEffect := effect && (match armable cls with | some n => decide (n ≤ unit) | none => true)
  if field b 10 6 ≠ 0 ∨ field b 40 24 ≠ 0 ∨ !classBelongs source cls ∨ badEffect then s.invalid x.acc
  else if effect then (s.armFault cls unit (max 1 (field b 32 8)) (bitAt b 9)).complete x.acc stOK 0
  else
    let ev := injectedEvent source cls unit
    let s1 := if bitAt b 9 then (match classUnit ev with | some (c, u) => s.hardEvent c u | none => s) else s
    (s1.raiseWith ev true).complete x.acc stOK 0

-- ## Commands

/-- KNOT_EVENT (R435). -/
def execKnotEvent (ev : FaultEv) (s : State) : Host.Outcome State Fault Refusal := finish (knotEvent s ev)
/-- RELOCATION_COMPLETE (R235). -/
def execRelocationComplete (tier2 : Bool) (group : Nat) (badLines : List Nat) (s : State) : Host.Outcome State Fault Refusal :=
  finish (relocationDone s (b2n tier2) group badLines).issueScrubs
/-- CACHE_WRITEBACK_COMPLETE (R238). -/
def execCacheWritebackComplete (s : State) : Host.Outcome State Fault Refusal := finish (cacheWritten s).issueScrubs
/-- BLOCK_RESET_RETURN (R477). -/
def execBlockResetReturn (source : Nat) (s : State) : Host.Outcome State Fault Refusal := finish (blockReturn s source).issueScrubs
/-- HANDLING_WINDOW_CLOSE (R438). -/
def execHandlingWindowClose (src : Src) (v : Nat) (mergedNow : Bool) (s : State) : Host.Outcome State Fault Refusal :=
  finish (s.via src (fun s => windowClose s src v mergedNow))
/-- KNOT_WORD_CLEAR (R438). -/
def execKnotWordClear (src : Src) (hi : Bool) (v setNow : Nat) (s : State) : Host.Outcome State Fault Refusal :=
  finish (s.via src (fun s => wordClear s src hi v setNow))
/-- FORCE (R441). -/
def execForce (src : Src) (source : Nat) (s : State) : Host.Outcome State Fault Refusal :=
  finish (s.via src (fun s => forceEvent s src source))
/-- KNOT_LOG_HEAD (R439). -/
def execKnotLogHead (src : Src) (v : Nat) (s : State) : Host.Outcome State Fault Refusal :=
  finish (s.via src (fun s => logHead s src v))
/-- RETIREMENT_CLEAR (R453). -/
def execRetirementClear (src : Src) (v : Nat) (s : State) : Host.Outcome State Fault Refusal :=
  finish (s.via src (fun s => retirementClear s src v))
/-- FAULT_INJECT (R441). -/
def execFaultInject (e : Nat) (s : State) : Host.Outcome State Fault Refusal := finish (s.startNow e 0x70 faultInject)

end Sys2Proof.Machine
end

