-- ==== Sys2Proof/Machine/RegMap.lean ====
section
/-!
DEFINITION. Machine/RegMap.lean: a write of any set-up register by the rules of its block (17, R507 to R516, with the register tables of the other
chapters), and the writes that submissions make in space 0x8 (R64).
-/

namespace Sys2Proof.Machine

-- ## Writers

/-- A write of a register's RW fields as they stand; the bits of other fields are ignored (R15). -/
def State.plain (s : State) (may : Bool) (r : Reg) (v : Nat) : State := if may then s.setReg r (v % 2 ^ 32 &&& r.rw) else s

/-- Who writes HIF_FN_BAR4: through port `q`, the administrative PF and the function itself (R514). -/
def State.fnWriter (s : State) (src : Src) (q f : Nat) : Bool :=
  match src with
  | .port q' f' => s.serving src && q' == q && (f' == f || s.isAdmin q' f')
  | _ => false

/-- Who writes the export windows of a partition (R299). -/
def State.windowWriter (s : State) (src : Src) (p : Nat) : Bool := s.wflWriter src || s.fromOwner src p

/-- Who writes the TRD block (R478): in FAIL, SMBus serves reads only (R519). -/
def State.trdWriter (s : State) (src : Src) : Bool :=
  s.fromAdmin src || src == .manager || (src == .smbus && s.boot.state != .fail)

-- ## HIF (R69, R512, R517)

/-- A write of HIF_MODULE: once SELF_ALIAS_LOCK reads 1, nothing of it changes (R69). -/
def moduleWrite (s : State) (src : Src) (v : Nat) : State :=
  if !s.fromAdmin src ∨ s.bit .hifModule 27 then s else s.setReg .hifModule (v &&& Reg.rw .hifModule)

/-- A write of HIF_ADOPT by port 1's PF: GO with CONFIRM, under POLICY 0b11, once port 0's link has been down long enough (R517). -/
def adoptWrite (s : State) (src : Src) (v : Nat) (downLongEnough : Bool) : State :=
  if src ≠ .port 1 0 ∨ !s.serving src ∨ !bitAt v 0 then s
  else if field v 16 16 = 0x9600 ∧ field s.fuses 899 2 = 3 ∧ downLongEnough ∧ !(s.port 0).linkUp then { s with adopted := true }
  else { s with adoptRefused := true }

/-- A write of HIF_ADMIN clears ADOPT_REFUSED (R512). -/
def adminWrite (s : State) (src : Src) (v : Nat) : State := if s.fromAdmin src && bitAt v 5 then { s with adoptRefused := false } else s

-- ## WFL (R264, R277, R299)

/-- WFL_TORUS takes a write while every link is DISABLED. -/
def torusWrite (s : State) (src : Src) (v : Nat) : State :=
  s.plain (s.wflWriter src && s.links.all (fun l => l.2.st == 0)) .wflTorus v

/-- A write of WFL_PORT_CFG: MODE_POLICY 0b11 is ignored; each LINK_EN bit enables or disables its lane. -/
def portCfgWrite (s : State) (src : Src) (port v : Nat) : State :=
  if !s.wflWriter src then s
  else
    let ls := (List.range 16).map (16 * port + ·)
    let r := Reg.wflPortCfg port
    let pol := field v 16 2
    let s1 := if pol = 3 then s else s.setReg r (setField (s.reg r) 16 2 pol)
    let s2 := ls.foldl (fun s l => if bitAt v (l % 16) then s.enableLink l else s.disableLink l) s1
    ls.foldl (fun s l => s.applyPolicy l) s2

-- ## MGR (R337)

/-- A write of MGR_JT_VER: while EN is 1, FLOOR takes no lower value and NUMERIC none. -/
def jtVerWrite (s : State) (src : Src) (i v : Nat) : State :=
  if !s.mgrWriter src then s
  else if s.slotOn i then
    (if s.floor i ≤ field v 0 16 then s.setReg (.jtVer i) (setField (s.reg (.jtVer i)) 0 16 (field v 0 16)) else s)
  else s.setReg (.jtVer i) v

-- ## KNOT (R434)

/-- A write of KNOT_LOG_CTL: LOG2_ENTRIES takes 6 or more. -/
def logCtlWrite (s : State) (src : Src) (v : Nat) : State :=
  if !s.fromAdmin src then s
  else s.setReg .knotLogCtl (if 6 ≤ field v 0 4 then v &&& 0x1F else setField (v &&& 0x1F) 0 4 (s.fld .knotLogCtl 0 4))

/-- A write of KNOT_SRC: REACT takes codes 0 to 5; FORCE raises its event (R441). -/
def srcWrite (s : State) (src : Src) (i v : Nat) : State :=
  if !s.fromAdmin src then s
  else
    let s1 := s.setReg (.knotSrc i) (if field v 0 3 ≤ 5 then v &&& 0xF else setField (v &&& 0xF) 0 3 (s.fld (.knotSrc i) 0 3))
    if bitAt v 4 then forceEvent s1 src i else s1

-- ## TRD and BOOT (R478, R499)

/-- A write of TRD_STAT clears REFUSED. -/
def trdStatWrite (s : State) (src : Src) (v : Nat) : State :=
  if s.trdWriter src && bitAt v 11 then { s with treadle := { s.treadle with refused := false } } else s

/-- A write of BOOT_STAGE_CTL. -/
def stageCtlWrite (s : State) (src : Src) (v : Nat) : State :=
  let s1 := if bitAt v 11 then stageWrite s src (field v 0 11) else s
  if bitAt v 12 then stageCommit s1 src else s1

/-- A write of BOOT_STAGE_STAT clears STAGE_ERR. -/
def stageStatWrite (s : State) (src : Src) (v : Nat) : State :=
  if s.bootWriter src && bitAt v 1 then { s with boot := { s.boot with stageErr := false } } else s

/-- A write of FUS_PROG: operations 1 to 3 (R494). -/
def fusProgWrite (s : State) (src : Src) (v : Nat) : State :=
  if 1 ≤ field v 0 3 ∧ field v 0 3 ≤ 3 then fusProg s src (field v 0 3) v else s

-- ## Every register

/-- A 32-bit write of a register. -/
def regPut (s : State) (src : Src) (r : Reg) (v : Nat) : State :=
  let admin := s.fromAdmin src
  match r with
  | .id _ => s
  | .hifModule => moduleWrite s src v
  | .hifAdmin => adminWrite s src v
  | .hifAdopt => adoptWrite s src v (!(s.port 0).linkUp)
  | .hifPortStat _ => s
  | .hifPortErr _ => s
  | .hifAdoptDelay => s.plain admin r v
  | .rqCtl q k => ringCtl s src q k v
  | .rqVec q k => s.plain (s.ringWriter src q k) r v
  | .rqAddr q k _ => s.plain (s.ringWriter src q k && !(s.ring q k).en) r v
  | .fnBar4 q f => s.plain (s.fnWriter src q f) r v
  | .fnStat _ _ => s
  | .partCtl p => partCtlWrite s src p v
  | .partOwner p => ownerChange s src p v
  | .partClusters p => partitionConfigure s src p v
  | .partGroups p => partRegWrite s src p r v
  | .partT2Ways _ => cacheWayChange s src r.offset v
  | .partAddr p _ => partRegWrite s src p r v
  | .partItabCount p => partRegWrite s src p r v
  | .poolBase p => partRegWrite s src p r v
  | .poolSize p => partRegWrite s src p r v
  | .poolPage p _ => partRegWrite s src p r v
  | .shrGroups i => sharedGroupsWrite s src i v
  | .shrCtl i => sharedCtlWrite s src i v
  | .hdlPfs p _ _ => s.plain (s.partWriter src p) r v
  | .lmCfg => s.plain admin r v
  | .lmSwapWdog => s.plain admin r v
  | .accReadyWdog => s.plain admin r v
  | .mscPolicy _ => cacheWayChange s src r.offset v
  | .scrub _ => s.plain admin r v
  | .scrubInterval _ => s.plain admin r v
  | .wflTorus => torusWrite s src v
  | .wflCtl => s.plain (s.wflWriter src) r v
  | .wflPage _ => s.plain (s.wflWriter src) r v
  | .wflTemple => s.plain (s.wflWriter src) r v
  | .wflPortCfg port => portCfgWrite s src port v
  | .wflLinkStat _ => s
  | .expBase p _ => s.plain (s.windowWriter src p) r v
  | .expLimit p _ => s.plain (s.windowWriter src p) r v
  | .expCtl p _ => s.plain (s.windowWriter src p) r v
  | .expSrc p _ => s.plain (s.windowWriter src p) r v
  | .updCfg p => s.plain (s.partWriter src p) r v
  | .updFreeze p _ => s.plain (s.partWriter src p && (s.part p).st.idle) r v
  | .updStep p _ => s.plain (s.partWriter src p && (s.part p).st.idle) r v
  | .flipAddr p _ _ => s.plain (s.partWriter src p && (s.part p).st.idle) r v
  | .flipCtl p _ => s.plain (s.partWriter src p && (s.part p).st.idle) r v
  | .flipStat _ _ => s
  | .mgrCfg => s.plain (s.mgrWriter src) r v
  | .mgrHb => s.plain (s.mgrWriter src) r v
  | .mgrStat => s
  | .mgrDeclare => memberDeclareLost s src v
  | .mgrList _ => s.plain (s.mgrWriter src) r v
  | .jtCtl i => jobSlotEnable s src i v
  | .jtVer i => jtVerWrite s src i (v % 2 ^ 32)
  | .jtAddr _ _ => s.plain (s.mgrWriter src) r v
  | .jobCtl p => jobJoinEnable s src p v
  | .jobMgr p => s.plain (s.memberWriter src p) r v
  | .jobRec p _ => s.plain (s.memberWriter src p) r v
  | .knotWord hi => wordClear s src hi v 0
  | .knotFirst => windowClose s src v false
  | .knotMerged _ => s
  | .knotMergeCount => s
  | .knotIrq => s.plain admin r v
  | .knotLog _ => s.plain admin r v
  | .knotLogCtl => logCtlWrite s src v
  | .knotLogHead => logHead s src v
  | .knotLogStat => s
  | .knotRetire _ => s.plain admin r v
  | .knotRetireClr => retirementClear s src v
  | .knotSrc i => srcWrite s src i v
  | .knotTrap _ _ => s.plain admin r v
  | .knotPark p _ => s.plain (admin && (s.part p).st.idle) r v
  | .knotParkCtl p => s.plain (admin && (s.part p).st.idle) r v
  | .tmpPfl p => s.plain (s.partWriter src p) r v
  | .tmpPool p => s.plain (s.partWriter src p) r v
  | .tmpPoolBounds p => s.plain (s.partWriter src p) r v
  | .tmpBolt p => s.plain (s.partWriter src p) r v
  | .tmpBoltTail p => s.plain (s.partWriter src p) r v
  | .tmpChunkCtl p => s.plain (s.partWriter src p) r v
  | .tmpChunkPin p _ => s.plain (s.partWriter src p) r v
  | .tmpClassCtl => s.plain admin r v
  | .tmpClassT _ => s.plain admin r v
  | .tmpCapCtl => if admin then (s.plain admin r v).runPinned else s
  | .tmpFreq _ => if admin then (s.plain admin r v).runPinned else s
  | .trdReq => trdRequest s src v
  | .trdStat => trdStatWrite s src v
  | .trdLastWake => s
  | .trdWakeCyc _ => s
  | .trdWakeEn => s.plain (s.trdWriter src) r (v ||| 0x81)
  | .trdCap => s.plain (s.trdWriter src) r v
  | .trdPower => s
  | .trdTherm => s.plain (s.trdWriter src) r v
  | .trdBrake => s.plain (s.trdWriter src) r v
  | .bootStat => s
  | .bootSlot _ => s
  | .bootStageCtl => stageCtlWrite s src v
  | .bootStageStat => stageStatWrite s src v
  | .bootAct => activationGo s src v
  | .bootActStat => s
  | .fusMap _ => s
  | .fusProg => fusProgWrite s src v
  | .fusProgStat => s
  | .truStat => s

/-- BAR0 offsets of the staging buffer (R489). -/
def inStaging (off : Nat) : Bool := decide (0x890000 ≤ off ∧ off < 0x8A0000)

/-- A 32-bit write at a BAR0 offset: reserved offsets ignore it, and in RECOVERY so do the blocks that do not answer (R488, R507, R511). -/
def regWrite (s : State) (src : Src) (off v : Nat) : State :=
  if !(s.serving src || blockAnswers off) then s
  else if inStaging off then stagingWrite s src (off - 0x890000) (leBytes 4 v)
  else match regAt off with
    | some r => regPut s src r v
    | none => s

-- ## Space 0x8 (R64, R507)

/-- Bytes written at a BAR0 offset: every register whose bytes 0 to 3 they cover takes a write, in ascending order. -/
def regBytes (s : State) (src : Src) (off : Nat) (bs : List Byte) : State :=
  if inStaging off then stagingWrite s src (off - 0x890000) bs
  else
    let first := (off + 7) / 8 * 8
    (List.range (bs.length / 8 + 1)).foldl (fun s i =>
      let o := first + 8 * i
      if o + 4 ≤ off + bs.length then regWrite s src o (le bs (o - off) 4) else s) s

/-- What a command left to its own end is done: its register writes, and the records of what it met uncorrectable. -/
def State.drainDeferred (s : State) : State :=
  s.deferred.foldl (fun s w => match w with
    | .reg src off bs => regBytes s src off bs
    | .line k part => s.poisonLine (k / 2 ^ 48 % 0x20) (k % 2 ^ 48) true part
    | .word l a part => s.recordWord l a part) { s with deferred := [] }

/-- The outcome of a command that reads or writes what a submission names: it may write registers through space 0x8 (R64) and meet data that
read uncorrectable (R84, R233). -/
def finishDeferred (s : State) : Host.Outcome State Fault Refusal := finish s.drainDeferred

end Sys2Proof.Machine
end

