-- ==== Sys2Proof/Machine/Packets.lean ====
section
/-!
DEFINITION. Machine/Packets.lean: what a packet for this module does (R279, R280, R286 to R296): requests checked and performed for other modules,
responses and NACKs to its own requests, RED packets, and the arrival of flits.
-/

namespace Sys2Proof.Machine

-- ## Requests of other modules (R295, R296)

/-- A request is a member's of the partition's job: by the plan's member list, or by the manager's own table where this module manages it
(R338, R354, R370). -/
def State.jobMember (s : State) (p m : Nat) : Bool :=
  s.hasJob p && ((s.part p).members.contains m ||
    (match s.slotOf (s.jobId p) with
     | some i => (s.mjob i).members.any (fun x => x % 4096 == m)
     | none => false))

/-- Bytes a request reaches: an ATOMIC one word, others whole lines. -/
def reqBytes (q : Packet) : Nat := if q.ty = 5 then 8 else 64 * q.len

/-- An offset of a space belongs to a partition, or to a sealed region it reads (checks 3 and 4 of R295). -/
def State.exports (s : State) (p sp o : Nat) : Bool :=
  match sp with
  | 0 => (match s.sharedRegion (hbmGroup o) with
    | some i => s.bit (.shrCtl i) 24 && s.bit (.shrCtl i) p
    | none => bitAt (s.groups p) (hbmGroup o))
  | 1 => bitAt (s.t2Groups p) (t2Group o)
  | 2 => (s.clusters p).contains (o / loomBytes / 8)
  | 4 => (match s.owner p with | some (q, _) => q == 0 | none => false)
  | 5 => (match s.owner p with | some (q, _) => q == 1 | none => false)
  | _ => false

/-- Window `w` of a partition covers the request, permits its TYPE and includes its source (R296, R299). -/
def State.window (s : State) (p w : Nat) (q : Packet) : Bool :=
  let ctl := s.reg (.expCtl p w)
  let u0 := q.offset / 65536
  let u1 := (q.offset + reqBytes q - 1) / 65536
  bitAt ctl 7 && field ctl 0 4 == q.space && bitAt ctl (if q.ty = 1 then 4 else if q.ty = 3 then 5 else 6) &&
  decide (s.reg (.expBase p w) ≤ u0 ∧ u1 ≤ s.reg (.expLimit p w)) &&
  decide (s.fld (.expSrc p w) 0 12 ≤ q.src ∧ q.src ≤ s.fld (.expSrc p w) 12 12)

/-- The partition with whose resources a request is performed. -/
def State.exporter (s : State) (q : Packet) : Option Nat :=
  firstIdx 16 (fun p => s.exports p q.space q.offset && s.exports p q.space (q.offset + reqBytes q - 1) &&
    (List.range 16).any (fun w => s.window p w q))

/-- The accesses of a request: a member's read sees the pick's uncommitted units (R370). -/
def State.remoteCtx (s : State) (p : Nat) (q : Packet) : Ctx :=
  { part := some p, remote := true, held := q.ty == 1 && s.jobMember p q.src }

/-- The address a request names, on this module. -/
def State.reqAddr (s : State) (q : Packet) : Nat := s.moduleNum * 2 ^ 52 + spaceKey q.space q.offset

/-- A request as R279 and R280 lay it out. -/
def reqFormOk (q : Packet) : Bool :=
  if q.ty = 5 then q.len == 1 && q.offset % 8 == 0 && decide (le q.data 0 1 < 3) else decide (1 ≤ q.len ∧ q.len ≤ 8) && q.offset % 64 == 0

/-- REASON of the first failed check of R295, in its order, for the partition that exports the address. -/
def State.accessReason (s : State) (p : Nat) (q : Packet) : Option Nat :=
  let c := s.remoteCtx p q
  let a := s.reqAddr q
  let st := (s.part p).st
  if q.space = 2 ∧ (st = .preempting ∨ st = .preempted) then some 1
  else if q.ty ≠ 1 ∧ s.writeErr c a (reqBytes q) = some stInvalid then some 2
  else if q.ty ≠ 3 ∧ s.readErr c a (reqBytes q) = some stInvalid then some 2
  else if q.ty ≠ 3 ∧ s.readErr c a (reqBytes q) ≠ none then some 5
  else if q.ty ≠ 1 ∧ s.writeErr c a (reqBytes q) ≠ none then some 5
  else none

/-- REASON of a refusal, or the partition that performs the request; none for the register space. -/
def State.checkRequest (s : State) (q : Packet) : Except Nat (Option Nat) :=
  if !reqFormOk q || !offsetValid q.space q.offset || !offsetValid q.space (q.offset + reqBytes q - 1) then .error 3
  else if q.space = 8 then (if s.mgrList.contains q.src && q.ty != 5 then .ok none else .error 2)
  else match s.exporter q with
    | none => .error 2
    | some p => (match s.accessReason p q with
      | some r => .error r
      | none => .ok (some p))

/-- A response goes back: the request's TAG, and the partition of its SRC (R280). -/
def State.respond (s : State) (q : Packet) (ty len : Nat) (data : List Byte) : State :=
  s.post (s.packet ty len q.src q.space q.srcPart q.tag q.offset data)

/-- The response of a write or an atomic update is remembered with its TAG, for the last 4,096 of its source (R288). -/
def State.remember (s : State) (q : Packet) (ty : Nat) : State :=
  let x : Applied := { src := q.src, tag := q.tag, resp := s.packet ty 0 q.src q.space q.srcPart q.tag q.offset [] }
  let mine := s.fabric.applied.filter (fun y => y.src == q.src)
  let others := s.fabric.applied.filter (fun y => y.src != q.src)
  s.fabricCount (fun f => { f with applied := (x :: mine).take 4096 ++ others })

/-- A write or atomic update has been made: it is remembered and acknowledged. -/
def State.acknowledge (s : State) (q : Packet) : State := (s.remember q (q.ty + 1)).respond q (q.ty + 1) 0 []

/-- A request for a host window waits for the host's answers (R241). -/
def State.askHost (s : State) (p : Nat) (q : Packet) : State :=
  let rs := s.hostRequests (q.space - 4) q.offset (reqBytes q)
  let s1 : State := s.fabricCount (fun f => { f with hostWaits := f.hostWaits ++ [(q.space - 4, q, rs.length)] })
  rs.foldl (fun s x => s.emit (.hostRead (q.space - 4) (s.requester (partCtx p)) x.1 x.2)) s1

/-- The word an ATOMIC leaves. -/
def atomicBytes (q : Packet) (old : List Byte) : List Byte := leBytes 8 (atomicOp (le q.data 0 1) (le old 0 8) (le q.data 8 8))

/-- A checked request is performed with a partition's resources. -/
def State.perform (s : State) (p : Nat) (q : Packet) : State :=
  let c := s.remoteCtx p q
  let a := s.reqAddr q
  if q.ty = 1 then (if 4 ≤ q.space then s.askHost p q else (s.pass c a (reqBytes q) false).respond q 2 q.len (s.valueAt c a (reqBytes q)))
  else if q.ty = 3 then (((s.put c .outside a q.data).1.shedBytes p q.src (reqBytes q)).settleShed p).acknowledge q
  else if 4 ≤ q.space then s.askHost p q
  else (s.put c .outside a (atomicBytes q (s.valueAt c a 8))).1.acknowledge q

/-- A request of a manager for the register space (R64, R295). -/
def State.performRegs (s : State) (q : Packet) : State :=
  if q.ty = 1 then s.respond q 2 q.len ((List.range (reqBytes q)).map (fun i => s.regByte (q.offset + i)))
  else (regBytes s .manager q.offset q.data).acknowledge q

/-- A RD_REQ, WR or ATOMIC for this module: one already applied is answered again (R288), T2 answers for HBM and loom SRAM (R463), and
the rest is checked and performed (R295). -/
def remoteRequest (s : State) (q : Packet) : State :=
  match (if q.ty = 1 then none else s.fabric.applied.find? (fun y => y.src == q.src && y.tag == q.tag)) with
  | some y => (s.post y.resp).fabricCount (fun f => { f with dupDrops := satInc 64 f.dupDrops 1 })
  | none =>
    if s.treadle.state = 2 ∧ (q.space = 0 ∨ q.space = 2) then (s.refuse q 1).wake 4 0
    else match s.checkRequest q with
      | .error r =>
        let s1 := match s.exporter q with | some p => if r = 5 then s.meet (s.remoteCtx p q) (s.reqAddr q) (reqBytes q) else s | none => s
        (if q.ty = 3 ∧ r = 2 ∧ q.space = 2 ∧ (s.exporter q).isSome then s1.countRefused (q.offset / loomBytes) else s1).refuse q r
      | .ok none => s.performRegs q
      | .ok (some p) => s.perform p q

-- ## Answers to this module's requests (R288, R289, R295)

/-- A response or NACK that answers nothing is discarded and counted (R288). -/
def State.strayResponse (s : State) : State := s.fabricCount (fun f => { f with dupDrops := satInc 64 f.dupDrops 1 })

/-- The issuer of a request that failed ends, with its shed change where it was one. -/
def State.failedRequest (s : State) (dst tag status : Nat) : State :=
  match s.openReq dst tag with
  | some r =>
    let s1 := s.failReq dst tag status
    (match r.issuer with
     | .shed p _ => s1.settleShed p
     | _ => s1)
  | none => s

/-- The semaphore a HOST_WAIT node has read, once every answer of its read has come: it is judged (R202, R207). -/
def State.waitRead (s : State) (iss : Issuer) : State :=
  match iss with
  | .node d n => (match s.draft d, s.node d n with
    | some x, some y =>
      let v := le (s.valueAt (nodeCtx x y) (y.arg 104 8) 8) 0 8
      if y.kind = 0xA ∧ y.st = .running ∧ y.acks = 0 then
        s.setNode d n (fun y => { y with seen := some v, worked := y.worked || y.satisfied v }) else s
    | _, _ => s)
  | _ => s

/-- A response of the type its request awaits: read data lands where a remote address last answered, and the issuer counts one answer. -/
def responseIn (s : State) (q : Packet) : State :=
  match s.openReq q.src q.tag with
  | some r =>
    if r.pkt.ty + 1 ≠ q.ty then s.strayResponse
    else
      let s1 := if q.ty = 2 then s.wrBytes (remoteKey (r.dst * 2 ^ 52 + spaceKey r.pkt.space r.pkt.offset)) (q.data.take (64 * r.pkt.len)) else s
      let s2 := (s1.closeReq r.dst r.tag).ackIssuer r.issuer
      if q.ty = 2 then s2.waitRead r.issuer else s2
  | none => s.strayResponse

/-- The status a NACK's reason gives the issuer; RETRY and reserved codes give none (R295). -/
def nackStatus (reason : Nat) : Option Nat :=
  match reason with
  | 2 => some stInvalid
  | 3 => some stInvalid
  | 4 => some stRetired
  | 5 => some stRetryExhausted
  | _ => none

/-- NACK UNREACHABLE of a RED packet this module sent is reported to the job's manager. -/
def State.redUnreachable (s : State) (q : Packet) : State :=
  let m := s.managerOf q.srcPart
  let mine := (s.parts.flatMap (fun p => p.2.streams)).any (fun x => x.sent.any (fun y => y.dst == q.src && y.tag == q.tag))
  if mine ∧ m ≠ s.moduleNum then s.post { q with src := s.moduleNum, dst := m, detoured := false, vc := 4 } else s

/-- A NACK: of a reduction packet, of a request that waits for its resend, or one that ends its issuer. -/
def nackIn (s : State) (q : Packet) : State :=
  let s1 := s.fabricCount (fun f => { f with nackReceived := satInc 64 f.nackReceived 1 })
  let reason := q.offset % 256
  if 4 ≤ q.vc then (if reason = 1 then s1.redNacked q else if reason = 4 then s1.redUnreachable q else s1)
  else match s1.openReq q.src q.tag with
    | none => s1.strayResponse
    | some r =>
      match nackStatus reason with
      | some st => s1.failedRequest r.dst r.tag st
      | none =>
        if reason = 1 then s1.fabricCount (fun f => { f with
          requests := f.requests.map (fun x => if x.dst = r.dst ∧ x.tag = r.tag then { x with waiting := true } else x) })
        else s1

/-- REQUEST_TIMEOUT: a request on its way has had no response (R289). -/
def requestTimeout (s : State) (dst tag : Nat) : State :=
  match s.openReq dst tag with
  | some r =>
    if r.waiting then s
    else (s.fabricCount (fun f => { f with timeouts := satInc 64 f.timeouts 1 })).failedRequest dst tag stRetryExhausted
  | none => s

/-- REQUEST_RETRY_TIMER: a request that waits is sent again, within the 4,096 of its destination (R288, R295). -/
def requestRetry (s : State) (dst tag : Nat) : State :=
  match s.openReq dst tag with
  | some r =>
    let busy := (s.fabric.requests.filter (fun x => x.dst == dst && !x.waiting)).length
    if !r.waiting ∨ 4096 ≤ busy then s
    else
      let t := s.send r.pkt
      if t.2 then t.1.fabricCount (fun f => { f with
        requests := f.requests.map (fun x => if x.dst = dst ∧ x.tag = tag then { x with waiting := false } else x) })
      else t.1.failedRequest dst tag stRetired
  | none => s

-- ## Hosts' answers to other modules (R241)

/-- An answer of a host to a request that waits for it: an error ends its issuer as a poisoned read does; with the last answer the request is
performed (R241, R295). -/
def State.hostAnswer (s : State) (w : Nat × Packet × Nat) (ok : Bool) : State :=
  let q := w.2.1
  let rest (ws : List (Nat × Packet × Nat)) : List (Nat × Packet × Nat) := ws.erase w ++ (if ok && decide (1 < w.2.2) then [(w.1, q, w.2.2 - 1)] else [])
  let s1 := s.fabricCount (fun f => { f with hostWaits := rest f.hostWaits })
  if !ok then s1.refuse q 5
  else if 1 < w.2.2 then s1
  else
    let data := s1.rdBytes (spaceKey q.space q.offset) (reqBytes q)
    if q.ty = 1 then s1.respond q 2 q.len data
    else match s1.exporter q with
      | some p => (s1.put (s1.remoteCtx p q) .outside (s1.reqAddr q) (atomicBytes q data)).1.acknowledge q
      | none => s1.refuse q 2

-- ## Delivery

/-- What a manager message does (R340). -/
def mgrDeliver (s : State) (q : Packet) : State :=
  match mgrMsg q with
  | 1 => heartbeatMsg s q
  | 2 => joinMsg s q
  | 3 => joinAckMsg s q
  | 4 => stepReportMsg s q
  | 5 => stepDecideMsg s q
  | 6 => shedReportMsg s q
  | 7 => shedDecideMsg s q
  | 8 => lostMsg s q
  | 9 => takeover s q
  | 0xA => barrierReportMsg s q
  | 0xB => barrierGoMsg s q
  | 0xC => shedClearMsg s q
  | _ => s

/-- What a packet for this module does (R280). -/
def deliverPacket (s : State) (q : Packet) : State :=
  if q.ty = 1 ∨ q.ty = 3 ∨ q.ty = 5 then remoteRequest s q
  else if q.ty = 2 ∨ q.ty = 4 ∨ q.ty = 6 then responseIn s q
  else if q.ty = 8 then nackIn s q
  else if 0x10 ≤ q.ty ∧ q.ty ≤ 0x12 then s.redArrive q
  else if q.ty = 0x20 then mgrDeliver s q
  else s

/-- A packet of type `ty` that has come whole: another domain's is dropped, one for another module goes on, one for this module acts (R284,
R294). -/
def packetIn (s : State) (ty : Nat) (q : Packet) : State :=
  if q.ty ≠ ty then s
  else if q.domain ≠ s.domain then s.fabricCount (fun f => { f with domainDrops := satInc 64 f.domainDrops 1 })
  else if q.dst ≠ s.moduleNum then s.sendOn 0 q
  else deliverPacket s q

/-- FLIT_RECEIVE: the link layer, then each packet that is now whole, in order. -/
def flitIn (s : State) (l : Nat) (flit : List Byte) : State :=
  if Config.links ≤ l then s
  else
    let r := s.receiveFlit l flit
    (r.2.foldl (fun s q => let t := s.arrive l q; if t.2 then deliverPacket t.1 q else t.1) r.1).settleStreams

-- ## Commands

/-- FLIT_RECEIVE (R272). -/
def execFlitReceive (l : Nat) (flit : List Byte) (s : State) : Host.Outcome State Fault Refusal := finishDeferred (flitIn s l flit)
/-- RD_REQ (R295). -/
def execRdReq (pkt : Packet) (s : State) : Host.Outcome State Fault Refusal := finishDeferred (packetIn s 1 pkt)
/-- RD_RSP (R288). -/
def execRdRsp (pkt : Packet) (s : State) : Host.Outcome State Fault Refusal := finishDeferred (packetIn s 2 pkt)
/-- WR (R295). -/
def execWr (pkt : Packet) (s : State) : Host.Outcome State Fault Refusal := finishDeferred (packetIn s 3 pkt)
/-- WR_ACK (R288). -/
def execWrAck (pkt : Packet) (s : State) : Host.Outcome State Fault Refusal := finishDeferred (packetIn s 4 pkt)
/-- ATOMIC (R295). -/
def execAtomic (pkt : Packet) (s : State) : Host.Outcome State Fault Refusal := finishDeferred (packetIn s 5 pkt)
/-- ATOMIC_RSP (R288). -/
def execAtomicRsp (pkt : Packet) (s : State) : Host.Outcome State Fault Refusal := finishDeferred (packetIn s 6 pkt)
/-- NACK (R295). -/
def execNack (pkt : Packet) (s : State) : Host.Outcome State Fault Refusal := finishDeferred (packetIn s 8 pkt)
/-- RED_ADD (R291). -/
def execRedAdd (pkt : Packet) (s : State) : Host.Outcome State Fault Refusal := finishDeferred (packetIn s 0x10 pkt)
/-- RED_MAX8 (R291). -/
def execRedMax8 (pkt : Packet) (s : State) : Host.Outcome State Fault Refusal := finishDeferred (packetIn s 0x11 pkt)
/-- RED_OR (R291). -/
def execRedOr (pkt : Packet) (s : State) : Host.Outcome State Fault Refusal := finishDeferred (packetIn s 0x12 pkt)
/-- REQUEST_TIMEOUT (R289). -/
def execRequestTimeout (dst tag : Nat) (s : State) : Host.Outcome State Fault Refusal := finishDeferred (requestTimeout s dst tag)
/-- REQUEST_RETRY_TIMER (R295). -/
def execRequestRetryTimer (dst tag : Nat) (s : State) : Host.Outcome State Fault Refusal := finishDeferred (requestRetry s dst tag)

end Sys2Proof.Machine
end

