-- ==== Sys2Proof/Machine/Pcie.lean ====
section
/-!
DEFINITION. Machine/Pcie.lean: the PCIe ports and their functions, BAR4, MSI-X, adoption, the answers of hosts (17, R241, R500 to R509, R517), and the
SMBus (R519, R520).
-/

namespace Sys2Proof.Machine

-- ## Ports (R504, R505)

/-- A loss of the link as a knot event (R503); DETAIL is the AER status, which the manual does not fix (log 44). -/
def State.linkLostEvent (s : State) (q : Nat) : State :=
  let d := s.draw
  d.2.raise { source := 50 + q, cls := 0x28, unit := q, unit2 := 0, address := 0, detail := d.1 % 2 ^ 64, island := 0x2F + q, part := none }

/-- PERST_ASSERT: the pin, or the loss of the link. -/
def perstAssert (s : State) (q : Nat) (pin : Bool) : State :=
  if 2 ≤ q then s
  else
    let up := (s.port q).linkUp
    let s1 := s.portDown q
    let s2 := s1.setPort q { s1.port q with perst := (s1.port q).perst || pin }
    if up then s2.linkLostEvent q else s2

/-- The PCIe islands are powered (R458, R465). -/
def State.pcieOn (s : State) : Bool := [5, 8, 0x33].all (fun d => s.treadle.domains.contains d)

/-- PERST_RELEASE: the link trains at the width retirements leave it (R446), at 32 GT/s (R500). -/
def perstRelease (s : State) (q : Nat) : State :=
  let pt := s.port q
  if 2 ≤ q ∨ (!pt.perst && pt.linkUp) then s
  else if !s.pcieOn ∨ pt.maxWidth = 0 then s.setPort q { pt with perst := false }
  else s.setPort q { pt with perst := false, linkUp := true, width := pt.maxWidth, speed := 5 }

-- ## Configuration (R500, R501, R505)

/-- The identities of a function (R500): vendor, device, revision, class, subsystem vendor and subsystem, lowest first. -/
def State.identity (s : State) (f : Nat) : Nat :=
  0x1FD7 + 2 ^ 16 * (if f = 0 then 0x9600 else 0x9601) + 2 ^ 32 * 1 + 2 ^ 40 * 0x120000 + 2 ^ 64 * 0x1FD7 + 2 ^ 80 * (if s.secure then 2 else 1)

/-- What waited for D0 leaves in order (R501). -/
def State.toD0 (s : State) (q f : Nat) : State :=
  let pt := s.port q
  let mine := pt.waiting.filter (fun w => w.1 == f)
  let s1 := (s.setPort q { pt with waiting := pt.waiting.filter (fun w => w.1 != f) }).setFunc q f { s.func q f with d3 := false }
  mine.foldl (fun s w => match w.2 with
    | .write k bs => s.hostPut q f k bs
    | .msix v => s.msix q f v) s1

/-- The pending messages of vectors that may be sent (R502). -/
def State.sendPending (s : State) (q f : Nat) : State :=
  (bitList 32 (s.func q f).pendingBits).foldl (fun s v =>
    let x := s.func q f
    if x.masked v || !x.msixOn then s else (s.setFunc q f { x with pendingBits := setField x.pendingBits v 1 0 }).msix q f v) s

/-- A configuration write or read that is served. -/
def State.configure (s : State) (q f : Nat) (op : CfgOp) : State :=
  let x := s.func q f
  match op with
  | .readIds => s.emit (.config q f (s.identity f) false)
  | .powerState d3 => if d3 then s.setFunc q f { x with d3 := true } else s.toD0 q f
  | .numVfs n =>
    if f ≠ 0 ∨ 63 < n then s
    else { s.setPort q { s.port q with numVfs := n } with funcs := s.funcs.filter (fun e => !(e.1 / 64 == q && decide (n < e.1 % 64))) }
  | .bar4Size g =>
    if 9 < g then s
    else if f = 0 then s.setFunc q 0 { x with bar4 := g }
    else (List.range 63).foldl (fun s i => s.setFunc q (i + 1) { s.func q (i + 1) with bar4 := g }) s
  | .msixEnable on => (s.setFunc q f { x with msixOn := on }).sendPending q f
  | .deviceControl p r => if 2 < p ∨ 5 < r then s else s.setFunc q f { x with payload := p, request := r }

/-- CONFIG_REQUEST: Retry Status until the first exit from T4 has reached the end of its step 8, but in RECOVERY (R488, R505); it wakes the module
(R469). -/
def configRequest (s : State) (q f : Nat) (op : CfgOp) : State :=
  if 2 ≤ q ∨ !(s.port q).linkUp ∨ !s.exists_ q f then s
  else if !s.treadle.served ∧ s.boot.state ≠ .recovery then s.emit (.config q f 0 true)
  else (s.configure q f op).wake 3 0

/-- FUNCTION_LEVEL_RESET (R504): the function's ring pairs and partitions are disabled and its BAR4 window is reset. -/
def flr (s : State) (q f : Nat) : State :=
  if 2 ≤ q ∨ !(s.port q).linkUp ∨ !s.exists_ q f then s
  else
    let s1 := (s.setFunc q f { s.func q f with flr := true }).resetBar4 q f
    let s2 := (List.range 256).foldl (fun s k => if s.ringFunc q k = f ∧ (s.ring q k).en then s.ringOp q k false else s) s1
    let s3 := (List.range 16).foldl (fun s p => if s.owns q f p then s.partDisable p else s) s2
    s3.flrEnd

-- ## BAR4 (R463, R465, R509)

/-- The partitions a function's BAR4 accesses are checked against: none for the administrative PF. -/
def State.bar4Ctxs (s : State) (q f : Nat) : List Ctx :=
  if s.isAdmin q f then [{ part := none, admin := true }]
  else ((List.range 16).filter (fun p => s.owns q f p)).map (fun p => { part := some p })

/-- An access that is not made: a write is dropped, a read returns all ones. -/
def State.notMade (s : State) (len : Nat) (data : Option (List Byte)) (good : Bool) : State :=
  match data with
  | some _ => s
  | none => s.emit (.data (List.replicate len 0xFF) good)

/-- A refused access, counted in BAR4_REFUSED. -/
def State.bar4Refused (s : State) (q len : Nat) (data : Option (List Byte)) : State :=
  (s.setPort q { s.port q with refused := satInc 16 (s.port q).refused 1 }).notMade len data true

/-- An access of space 0, 1 or 2. -/
def State.bar4Run (s : State) (q f a len : Nat) (data : Option (List Byte)) : State :=
  match (s.bar4Ctxs q f).find? (fun c => s.allowed c a len data.isSome) with
  | none => s.bar4Refused q len data
  | some c =>
    match data with
    | some bs =>
      let r := s.put c .outside a bs
      if r.2 = some stInvalid then r.1.bar4Refused q len data else r.1
    | none =>
      match s.readErr c a len with
      | none => (s.pass c a len false).emit (.data (s.valueAt c a len) true)
      | some st => if st = stInvalid then s.bar4Refused q len data else (s.meet c a len).notMade len data false

/-- BAR4_ACCESS: offset `off` of the function's window. -/
def bar4Access (s : State) (q f off len : Nat) (data : Option (List Byte)) : State :=
  let x := s.func q f
  let len := match data with | some bs => bs.length | none => len
  if !s.arrives (.port q f) ∨ 2 ^ (30 + x.bar4) < off + len ∨ len = 0 then s
  else if !s.serving (.port q f) then s.notMade len data true
  else
    let sp := s.fld (.fnBar4 q f) 0 4
    let o := s.fld (.fnBar4 q f) 8 24 * 0x200000 + off
    let t := s.treadle.state
    let s1 := if 2 < sp ∨ 2 ^ 48 ≤ o then s.bar4Refused q len data
      else if (t = 2 ∧ sp ≠ 1) ∨ t = 3 then
        ({ s with treadle := { s.treadle with blocked := satInc 16 s.treadle.blocked 1 } }).notMade len data true
      else s.bar4Run q f (s.moduleNum * 2 ^ 52 + spaceKey sp o) len data
    s1.wake 3 0

-- ## MSI-X tables (R502)

/-- One 32-bit word of a function's MSI-X table is written: unmasking sends a pending message. -/
def msixWrite (s : State) (q f i v : Nat) : State :=
  let x := s.func q f
  if 128 ≤ i then s else (s.setFunc q f { x with table := tset (if i % 4 = 3 then 1 else 0) x.table i (v % 2 ^ 32) }).sendPending q f

/-- MSIX_UNMASK: the mask bit of a vector is cleared. -/
def msixUnmask (s : State) (q f vector : Nat) : State :=
  if 32 ≤ vector then s else msixWrite s q f (4 * vector + 3) (setField (tget 1 (s.func q f).table (4 * vector + 3)) 0 1 0)

/-- REGISTER_WRITE: a set-up register, or a word of the writing function's MSI-X table at 0x00F0_0000 (R502). -/
def registerWrite (s : State) (src : Src) (off v : Nat) : State :=
  match src with
  | .port q f => if 0xF00000 ≤ off ∧ off < 0xF00200 ∧ off % 4 = 0 then msixWrite s q f ((off - 0xF00000) / 4) v else regWrite s src off v
  | _ => regWrite s src off v

-- ## Answers of hosts (R207, R241)

/-- A host access failed: its issuer ends RETRY_EXHAUSTED, with its shed change where it was one. -/
def State.hostFailed (s : State) (iss : Issuer) : State :=
  match iss with
  | .shed p _ => (s.nackIssuer iss stRetryExhausted).settleShed p
  | _ => s.nackIssuer iss stRetryExhausted

/-- HOST_READ_COMPLETION: the host's bytes come for what the module asked, or for another module's request; a poisoned completion counts as an
error (R503). -/
def hostReadCompletion (s : State) (iss : Issuer) (a : Nat) (data : List Byte) (ok : Bool) : State :=
  let q := gSpace a - 4
  if gSpace a ≠ 4 ∧ gSpace a ≠ 5 then s
  else if s.hostReads.contains (q, iss) then
    let s1 : State := { s with hostReads := s.hostReads.erase (q, iss) }
    if ok then ((s1.wrBytes (spaceKey (4 + q) (gOffset a)) data).ackIssuer iss).waitRead iss else s1.hostFailed iss
  else match s.fabric.hostWaits.find? (fun w => w.1 == q && decide (w.2.1.offset / 64 * 64 ≤ gOffset a ∧ gOffset a < w.2.1.offset + reqBytes w.2.1) && iss == .outside) with
    | some w => (if ok then s.wrBytes (spaceKey (4 + q) (gOffset a)) data else s).hostAnswer w ok
    | none => s

/-- COMPLETION_TIMEOUT: the oldest read of an issuer never completes. -/
def completionTimeout (s : State) (iss : Issuer) : State :=
  match s.hostReads.find? (fun h => h.2 == iss) with
  | some h => State.hostFailed { s with hostReads := s.hostReads.erase h } iss
  | none => (match s.fabric.hostWaits.head? with
    | some w => if iss = .outside then s.hostAnswer w false else s
    | none => s)

-- ## SMBus (R519, R520)

/-- An SMBus transaction: nothing answers without VSIDE, a wrong PEC is not acknowledged and has no effect. -/
def State.smbus (s : State) (pecOk : Bool) (g : State → State) : State :=
  if !s.arrives .smbus then s else if pecOk then g s else s.emit .smbusNack

/-- STATUS: six registers (R520). -/
def State.statusBytes (s : State) : List Byte :=
  [Reg.bootStat, .trdStat, .knotWord false, .knotWord true, .trdTherm, .hifModule].flatMap (fun r => leBytes 4 (s.regValue r))

/-- Register writes over SMBus take effect in the TRD and BOOT blocks only (R520). -/
def smbusWrite (s : State) (off v : Nat) : State :=
  let b := off / 0x80000
  if b = 16 ∨ b = 17 then regWrite s .smbus off v else s

/-- An MCTP message: the control commands, and the module's own of type 0x7E under vendor ID 0x1FD7, most significant byte first (R497, DSP0236;
log 17). -/
def mctpIn (s : State) (t : Transport) (m : List Byte) : State :=
  match le m 0 1 % 128 with
  | 0 => (match le m 2 1 with
    | 1 => setEndpointId s t (le m 4 1)
    | 2 => getEndpointId s t
    | 4 => getMctpVersions s t
    | 5 => getMessageTypes s t
    | c => s.emit (.mctpControl t c [0x05]))
  | 0x7E =>
    if slice m 1 2 ≠ [0x1F, 0xD7] then s
    else match le m 3 1 with
      | 1 => if le m 4 1 = 0 then getIdentity s t (m.drop 5) else s.emit (.mctp t 1 2 [])
      | 2 => if le m 4 1 = 0 then getReport s t (m.drop 5) else s.emit (.mctp t 2 2 [])
      | c => s.emit (.mctp t c 2 [])
  | _ => s

-- ## Commands

/-- PERST_ASSERT (R504). -/
def execPerstAssert (q : Nat) (pin : Bool) (s : State) : Host.Outcome State Fault Refusal := finish (perstAssert s q pin)
/-- PERST_RELEASE (R505). -/
def execPerstRelease (q : Nat) (s : State) : Host.Outcome State Fault Refusal := finish (perstRelease s q)
/-- CONFIG_REQUEST (R505). -/
def execConfigRequest (q f : Nat) (op : CfgOp) (s : State) : Host.Outcome State Fault Refusal := finish (configRequest s q f op)
/-- FUNCTION_LEVEL_RESET (R504). -/
def execFunctionLevelReset (q f : Nat) (s : State) : Host.Outcome State Fault Refusal := finish (flr s q f)
/-- BAR4_ACCESS (R509). -/
def execBar4Access (q f off len : Nat) (data : Option (List Byte)) (s : State) : Host.Outcome State Fault Refusal :=
  finishDeferred (bar4Access s q f off len data)
/-- MSIX_UNMASK (R502). -/
def execMsixUnmask (q f vector : Nat) (s : State) : Host.Outcome State Fault Refusal :=
  finish (s.via (.port q f) (fun s => msixUnmask s q f vector))
/-- ADOPT (R517). -/
def execAdopt (src : Src) (v : Nat) (downLongEnough : Bool) (s : State) : Host.Outcome State Fault Refusal :=
  finish (s.via src (fun s => adoptWrite s src v downLongEnough))
/-- SELF_ALIAS_LOCK (R69): a write of HIF_MODULE that sets the lock. -/
def execSelfAliasLock (src : Src) (v : Nat) (s : State) : Host.Outcome State Fault Refusal :=
  finish (s.via src (fun s => moduleWrite s src (setField v 27 1 1)))
/-- REGISTER_WRITE (R507). -/
def execRegisterWrite (src : Src) (off v : Nat) (s : State) : Host.Outcome State Fault Refusal :=
  finish (s.via src (fun s => registerWrite s src off v))
/-- HOST_READ_COMPLETION (R241). -/
def execHostReadCompletion (issuer : Issuer) (addr : Nat) (data : List Byte) (ok : Bool) (s : State) : Host.Outcome State Fault Refusal :=
  finishDeferred (hostReadCompletion s issuer addr data ok)
/-- COMPLETION_TIMEOUT (R241). -/
def execCompletionTimeout (issuer : Issuer) (s : State) : Host.Outcome State Fault Refusal := finishDeferred (completionTimeout s issuer)
/-- CORRECTABLE_AER_ERROR (R443, R503). -/
def execCorrectableAerError (q : Nat) (s : State) : Host.Outcome State Fault Refusal := finish (if q < 2 then s.softEvent 4 q 16 else s)
/-- REG_READ (R520). -/
def execRegRead (off : Nat) (pecOk : Bool) (s : State) : Host.Outcome State Fault Refusal :=
  finish (s.smbus pecOk (fun s => s.emit (.smbus (leBytes 4 (s.regRead off)))))
/-- REG_WRITE (R520). -/
def execRegWrite (off v : Nat) (pecOk : Bool) (s : State) : Host.Outcome State Fault Refusal :=
  finish (s.smbus pecOk (fun s => smbusWrite s off v))
/-- STATUS (R520). -/
def execStatus (pecOk : Bool) (s : State) : Host.Outcome State Fault Refusal :=
  finish (s.smbus pecOk (fun s => s.emit (.smbus s.statusBytes)))
/-- MCTP (R520). -/
def execMctp (message : List Byte) (pecOk : Bool) (s : State) : Host.Outcome State Fault Refusal :=
  finish (s.smbus pecOk (fun s => mctpIn s .smbus message))

end Sys2Proof.Machine
end

