-- ==== Sys2Proof/Machine/Submit.lean ====
section
/-!
DEFINITION. Machine/Submit.lean: the commands that carry out what a submission asks of memory, at once or at its boundary; where it names space 0x8,
they write set-up registers (R64, R507).
-/

namespace Sys2Proof.Machine

/-- COPY (R191). -/
def execCopy (e : Nat) (s : State) : Host.Outcome State Fault Refusal := finishDeferred (s.takeEffect e 2 State.copyNow)
/-- EXTERNAL_READ (R75). -/
def execExternalRead (addr : Nat) (read : WordRead) (s : State) : Host.Outcome State Fault Refusal :=
  finishDeferred (externalRead s addr read.words read.issuer)
/-- SIGNAL (R195). -/
def execSignal (e : Nat) (s : State) : Host.Outcome State Fault Refusal := finishDeferred (signalCmd s e)
/-- ARRAY_ROW_COMPLETE (R145). -/
def execArrayRowComplete (l : Nat) (check : RowCheck) (s : State) : Host.Outcome State Fault Refusal := finishDeferred (arrayRow s l check)
/-- ROW_CHECK_RETRY_COMPLETE (R82). -/
def execRowCheckRetryComplete (l : Nat) (again : Bool) (column : Nat) (s : State) : Host.Outcome State Fault Refusal :=
  finishDeferred (rowRetried s l again column)
/-- WARP_SHADOW_LOAD_COMPLETE (R77). -/
def execWarpShadowLoadComplete (l : Nat) (s : State) : Host.Outcome State Fault Refusal := finishDeferred (warpLoaded s l)
/-- IMAGE_LOAD_COMPLETE (R91). -/
def execImageLoadComplete (l slot : Nat) (s : State) : Host.Outcome State Fault Refusal := finishDeferred (imageLoaded s l slot)
/-- IMAGE_SWITCH (R96). -/
def execImageSwitch (l slot : Nat) (s : State) : Host.Outcome State Fault Refusal := finishDeferred (imageSwitch s l slot)
/-- WEFT_SWAP (R98). -/
def execWeftSwap (l : Nat) (s : State) : Host.Outcome State Fault Refusal := finishDeferred (weftSwap s l)
/-- NODE_DISPATCH (R211). -/
def execNodeDispatch (d n : Nat) (s : State) : Host.Outcome State Fault Refusal := finishDeferred (nodeDispatch s d n)
/-- NODE_COMPLETE (R210). -/
def execNodeComplete (d n : Nat) (s : State) : Host.Outcome State Fault Refusal := finishDeferred (nodeComplete s d n)
/-- SHUTTLE_REQUEST (R254). -/
def execShuttleRequest (p descriptor : Nat) (issuer : Issuer) (s : State) : Host.Outcome State Fault Refusal :=
  finishDeferred (shuttleRequest s p descriptor issuer)
/-- PICK_ADVANCE (R59). -/
def execPickAdvance (p : Nat) (s : State) : Host.Outcome State Fault Refusal := finishDeferred (if p < 16 then pickAdvance s p else s)
/-- SERVE_LOOP_CONFIG (R401). -/
def execServeLoopConfig (e : Nat) (s : State) : Host.Outcome State Fault Refusal := finishDeferred (s.takeLoop e 0x10 true serveConfigNow)
/-- SERVE_STEP_BOUNDARY (R409). -/
def execServeStepBoundary (p loop : Nat) (s : State) : Host.Outcome State Fault Refusal :=
  finishDeferred (if p < 16 ∧ loop < 4 then serveBoundary s p loop else s)
/-- SERVE_STEP_COMPLETE (R409). -/
def execServeStepComplete (p loop cycles : Nat) (s : State) : Host.Outcome State Fault Refusal := finishDeferred (serveComplete s p loop cycles)
/-- SWAP_OUT_COMPLETE (R423). -/
def execSwapOutComplete (p loop slot : Nat) (s : State) : Host.Outcome State Fault Refusal := finishDeferred (swapOutDone s p loop slot)
/-- DRAFT_RUN (R206). -/
def execDraftRun (e : Nat) (s : State) : Host.Outcome State Fault Refusal := finishDeferred (draftRun s e)
/-- PREFETCH_ISSUE (R261). -/
def execPrefetchIssue (d : Nat) (s : State) : Host.Outcome State Fault Refusal := finishDeferred (prefetchIssue s d)
/-- BOLT_EMIT (R302). -/
def execBoltEmit (p stream element value loom : Nat) (s : State) : Host.Outcome State Fault Refusal :=
  finishDeferred (boltEmitNow s p stream element value loom)
/-- BOLT_LAUNCH (R303). -/
def execBoltLaunch (p stream bolt : Nat) (s : State) : Host.Outcome State Fault Refusal := finishDeferred (boltLaunchNow s p stream bolt)
/-- ORTHO_COMPLETE (R322). -/
def execOrthoComplete (p stream : Nat) (s : State) : Host.Outcome State Fault Refusal := finishDeferred (orthoRun s p stream)
/-- SEQ_ADMIT (R404). -/
def execSeqAdmit (e : Nat) (s : State) : Host.Outcome State Fault Refusal := finishDeferred (s.takeLoop e 0x11 true seqAdmitNow)
/-- PREFIX_REGISTER (R418). -/
def execPrefixRegister (e : Nat) (s : State) : Host.Outcome State Fault Refusal := finishDeferred (s.takeLoop e 0x13 false prefixRegisterNow)
/-- ADAPTER_LOAD (R425). -/
def execAdapterLoad (e : Nat) (s : State) : Host.Outcome State Fault Refusal := finishDeferred (s.startNow e 0x15 adapterLoadNow)
/-- ADAPTER_REPLACE (R426). -/
def execAdapterReplace (e : Nat) (s : State) : Host.Outcome State Fault Refusal := finishDeferred (adapterReplace s e)
/-- SHED_CHANGE (R353). -/
def execShedChange (e : Nat) (s : State) : Host.Outcome State Fault Refusal := finishDeferred (shedChange s e)
/-- SHED_ENTRY_COMPLETE (R354). -/
def execShedEntryComplete (p i : Nat) (failed : Bool) (s : State) : Host.Outcome State Fault Refusal := finishDeferred (shedEntry s p i failed)
/-- FREEZE_SET (R391). -/
def execFreezeSet (e : Nat) (s : State) : Host.Outcome State Fault Refusal := finishDeferred (s.takeEffect e 0x31 freezeNow)
/-- HEARTBEAT_MISS (R347). -/
def execHeartbeatMiss (slot member : Nat) (s : State) : Host.Outcome State Fault Refusal := finishDeferred (heartbeatMiss s slot member)
/-- LOST (R326, R347, R348, R358): its effect is the definition above. -/
def execLost (pkt : Packet) (s : State) : Host.Outcome State Fault Refusal := finishDeferred (mgrRow s 8 pkt lostMsg)
/-- SHED_DECIDE (R353, R354, R357): its effect is the definition above. -/
def execShedDecide (pkt : Packet) (s : State) : Host.Outcome State Fault Refusal := finishDeferred (mgrRow s 7 pkt shedDecideMsg)
/-- MEMBER_DECLARE_LOST (R347). -/
def execMemberDeclareLost (src : Src) (v : Nat) (s : State) : Host.Outcome State Fault Refusal :=
  finishDeferred (s.via src (fun s => memberDeclareLost s src v))

end Sys2Proof.Machine
end

