-- ==== Sys2Proof/Machine/Dispatch.lean ====
section
/-!
DEFINITION. Machine/Dispatch.lean: one arm per command, each a direct call of its meaning.
-/

namespace Sys2Proof.Machine

/-- The effect of a command on everything but the queue. -/
def exec (i : Instr) (s : State) : Host.Outcome State Fault Refusal :=
  match i with
  | .draftRun e => Sys2Proof.Machine.execDraftRun e s
  | .copy e => Sys2Proof.Machine.execCopy e s
  | .fence e => Sys2Proof.Machine.execFence e s
  | .signal e => Sys2Proof.Machine.execSignal e s
  | .serveLoopConfig e => Sys2Proof.Machine.execServeLoopConfig e s
  | .seqAdmit e => Sys2Proof.Machine.execSeqAdmit e s
  | .seqCancel e => Sys2Proof.Machine.execSeqCancel e s
  | .prefixRegister e => Sys2Proof.Machine.execPrefixRegister e s
  | .prefixRelease e => Sys2Proof.Machine.execPrefixRelease e s
  | .adapterLoad e => Sys2Proof.Machine.execAdapterLoad e s
  | .adapterReplace e => Sys2Proof.Machine.execAdapterReplace e s
  | .weightVersionPublish e => Sys2Proof.Machine.execWeightVersionPublish e s
  | .weightVersionSwitch e => Sys2Proof.Machine.execWeightVersionSwitch e s
  | .shedChange e => Sys2Proof.Machine.execShedChange e s
  | .stepSizeWrite e => Sys2Proof.Machine.execStepSizeWrite e s
  | .freezeSet e => Sys2Proof.Machine.execFreezeSet e s
  | .swapAreaRegister e => Sys2Proof.Machine.execSwapAreaRegister e s
  | .preempt e => Sys2Proof.Machine.execPreempt e s
  | .resume e => Sys2Proof.Machine.execResume e s
  | .query e => Sys2Proof.Machine.execQuery e s
  | .faultInject e => Sys2Proof.Machine.execFaultInject e s
  | .sqTail q f k v => Sys2Proof.Machine.execSqTail q f k v s
  | .cqHead q f k v => Sys2Proof.Machine.execCqHead q f k v s
  | .waitKick q f k v => Sys2Proof.Machine.execWaitKick q f k v s
  | .inlineEntry q f k off data => Sys2Proof.Machine.execInlineEntry q f k off data s
  | .submissionEntryAccept q k => Sys2Proof.Machine.execSubmissionEntryAccept q k s
  | .waitSatisfied e => Sys2Proof.Machine.execWaitSatisfied e s
  | .completionWrite q k => Sys2Proof.Machine.execCompletionWrite q k s
  | .nodeDispatch d n => Sys2Proof.Machine.execNodeDispatch d n s
  | .nodeComplete d n => Sys2Proof.Machine.execNodeComplete d n s
  | .pickAdvance p => Sys2Proof.Machine.execPickAdvance p s
  | .hostWaitPoll d n => Sys2Proof.Machine.execHostWaitPoll d n s
  | .preemptSaveComplete p => Sys2Proof.Machine.execPreemptSaveComplete p s
  | .resumeRestoreComplete p readOk => Sys2Proof.Machine.execResumeRestoreComplete p readOk s
  | .partitionConfigure src p v => Sys2Proof.Machine.execPartitionConfigure src p v s
  | .partitionEnable src p => Sys2Proof.Machine.execPartitionEnable src p s
  | .partitionEnablingEnd p => Sys2Proof.Machine.execPartitionEnablingEnd p s
  | .partitionDisable src p => Sys2Proof.Machine.execPartitionDisable src p s
  | .partitionDisablingEnd p => Sys2Proof.Machine.execPartitionDisablingEnd p s
  | .partitionOwnerChange src p v => Sys2Proof.Machine.execPartitionOwnerChange src p v s
  | .arrayRowComplete l check => Sys2Proof.Machine.execArrayRowComplete l check s
  | .rowCheckRetryComplete l again column => Sys2Proof.Machine.execRowCheckRetryComplete l again column s
  | .loomSramUncorrectable l addr second issuer => Sys2Proof.Machine.execLoomSramUncorrectable l addr second issuer s
  | .loomScrubRead read => Sys2Proof.Machine.execLoomScrubRead read s
  | .warpShadowLoadComplete l => Sys2Proof.Machine.execWarpShadowLoadComplete l s
  | .imageLoadComplete l slot => Sys2Proof.Machine.execImageLoadComplete l slot s
  | .imageSwitch l slot => Sys2Proof.Machine.execImageSwitch l slot s
  | .weftSwap l => Sys2Proof.Machine.execWeftSwap l s
  | .swapTimeout l => Sys2Proof.Machine.execSwapTimeout l s
  | .readyTimeout l row => Sys2Proof.Machine.execReadyTimeout l row s
  | .externalWrite addr data issuer => Sys2Proof.Machine.execExternalWrite addr data issuer s
  | .externalRead addr read => Sys2Proof.Machine.execExternalRead addr read s
  | .crossingDeliver src dst => Sys2Proof.Machine.execCrossingDeliver src dst s
  | .handshakeTimeout src dst => Sys2Proof.Machine.execHandshakeTimeout src dst s
  | .memoryRead addr first second issuer => Sys2Proof.Machine.execMemoryRead addr first second issuer s
  | .memoryWrite addr data first second issuer => Sys2Proof.Machine.execMemoryWrite addr data first second issuer s
  | .scrubReadDue tier2 channel first second => Sys2Proof.Machine.execScrubReadDue tier2 channel first second s
  | .cacheWayChange src off v => Sys2Proof.Machine.execCacheWayChange src off v s
  | .poolAllocate p cls key blocks => Sys2Proof.Machine.execPoolAllocate p cls key blocks s
  | .poolAgeTempleUpdate p => Sys2Proof.Machine.execPoolAgeTempleUpdate p s
  | .shuttleRequest p descriptor issuer => Sys2Proof.Machine.execShuttleRequest p descriptor issuer s
  | .prefetchIssue d => Sys2Proof.Machine.execPrefetchIssue d s
  | .prefetchLeadTempleUpdate p slot stall => Sys2Proof.Machine.execPrefetchLeadTempleUpdate p slot stall s
  | .linkEnable src port lane => Sys2Proof.Machine.execLinkEnable src port lane s
  | .linkDisable src port lane => Sys2Proof.Machine.execLinkDisable src port lane s
  | .linkDetect l present receiver => Sys2Proof.Machine.execLinkDetect l present receiver s
  | .cableMemoryTimeout port => Sys2Proof.Machine.execCableMemoryTimeout port s
  | .linkEqualiseDone l loss => Sys2Proof.Machine.execLinkEqualiseDone l loss s
  | .linkEqualiseTimeout l => Sys2Proof.Machine.execLinkEqualiseTimeout l s
  | .identBlock l block => Sys2Proof.Machine.execIdentBlock l block s
  | .linkIdentifyTimeout l => Sys2Proof.Machine.execLinkIdentifyTimeout l s
  | .linkLossOfLock l => Sys2Proof.Machine.execLinkLossOfLock l s
  | .linkDrainComplete l => Sys2Proof.Machine.execLinkDrainComplete l s
  | .flitReceive l flit => Sys2Proof.Machine.execFlitReceive l flit s
  | .nak l seq => Sys2Proof.Machine.execNak l seq s
  | .modeReq l mode => Sys2Proof.Machine.execModeReq l mode s
  | .modeAck l mode => Sys2Proof.Machine.execModeAck l mode s
  | .idleEnter l => Sys2Proof.Machine.execIdleEnter l s
  | .linkModeTempleWindow w => Sys2Proof.Machine.execLinkModeTempleWindow w s
  | .rdReq pkt => Sys2Proof.Machine.execRdReq pkt s
  | .rdRsp pkt => Sys2Proof.Machine.execRdRsp pkt s
  | .wr pkt => Sys2Proof.Machine.execWr pkt s
  | .wrAck pkt => Sys2Proof.Machine.execWrAck pkt s
  | .atomic pkt => Sys2Proof.Machine.execAtomic pkt s
  | .atomicRsp pkt => Sys2Proof.Machine.execAtomicRsp pkt s
  | .nack pkt => Sys2Proof.Machine.execNack pkt s
  | .redAdd pkt => Sys2Proof.Machine.execRedAdd pkt s
  | .redMax8 pkt => Sys2Proof.Machine.execRedMax8 pkt s
  | .redOr pkt => Sys2Proof.Machine.execRedOr pkt s
  | .requestTimeout dst tag => Sys2Proof.Machine.execRequestTimeout dst tag s
  | .requestRetryTimer dst tag => Sys2Proof.Machine.execRequestRetryTimer dst tag s
  | .redRetryTimer => Sys2Proof.Machine.execRedRetryTimer s
  | .fabricPageTimer => Sys2Proof.Machine.execFabricPageTimer s
  | .heartbeat pkt => Sys2Proof.Machine.execHeartbeat pkt s
  | .heartbeatPeriod => Sys2Proof.Machine.execHeartbeatPeriod s
  | .heartbeatMiss slot member => Sys2Proof.Machine.execHeartbeatMiss slot member s
  | .join pkt => Sys2Proof.Machine.execJoin pkt s
  | .joinAck pkt => Sys2Proof.Machine.execJoinAck pkt s
  | .stepReport pkt => Sys2Proof.Machine.execStepReport pkt s
  | .stepDecide pkt => Sys2Proof.Machine.execStepDecide pkt s
  | .shedReport pkt => Sys2Proof.Machine.execShedReport pkt s
  | .shedDecide pkt => Sys2Proof.Machine.execShedDecide pkt s
  | .shedEntryComplete p move failed => Sys2Proof.Machine.execShedEntryComplete p move failed s
  | .shedClear pkt => Sys2Proof.Machine.execShedClear pkt s
  | .lost pkt => Sys2Proof.Machine.execLost pkt s
  | .takeover pkt => Sys2Proof.Machine.execTakeover pkt s
  | .standbyTakeover => Sys2Proof.Machine.execStandbyTakeover s
  | .barrierReport pkt => Sys2Proof.Machine.execBarrierReport pkt s
  | .barrierGo pkt => Sys2Proof.Machine.execBarrierGo pkt s
  | .memberDeclareLost src v => Sys2Proof.Machine.execMemberDeclareLost src v s
  | .jobSlotEnable src slot v => Sys2Proof.Machine.execJobSlotEnable src slot v s
  | .jobJoinEnable src p v => Sys2Proof.Machine.execJobJoinEnable src p v s
  | .boltEmit p stream element value loom => Sys2Proof.Machine.execBoltEmit p stream element value loom s
  | .boltLaunch p stream bolt => Sys2Proof.Machine.execBoltLaunch p stream bolt s
  | .orthoComplete p stream => Sys2Proof.Machine.execOrthoComplete p stream s
  | .boltSizeTempleUpdate p slot stream => Sys2Proof.Machine.execBoltSizeTempleUpdate p slot stream s
  | .serveStepBoundary p loop => Sys2Proof.Machine.execServeStepBoundary p loop s
  | .serveStepComplete p loop cycles => Sys2Proof.Machine.execServeStepComplete p loop cycles s
  | .promptChunkTempleUpdate p loop => Sys2Proof.Machine.execPromptChunkTempleUpdate p loop s
  | .swapOutComplete p loop slot => Sys2Proof.Machine.execSwapOutComplete p loop slot s
  | .adapterCopyComplete p adapter => Sys2Proof.Machine.execAdapterCopyComplete p adapter s
  | .ringBlockArrive p loop block round visible => Sys2Proof.Machine.execRingBlockArrive p loop block round visible s
  | .knotEvent ev => Sys2Proof.Machine.execKnotEvent ev s
  | .blockResetReturn source => Sys2Proof.Machine.execBlockResetReturn source s
  | .handlingWindowClose src v mergedNow => Sys2Proof.Machine.execHandlingWindowClose src v mergedNow s
  | .knotWordClear src hi v setNow => Sys2Proof.Machine.execKnotWordClear src hi v setNow s
  | .force src source => Sys2Proof.Machine.execForce src source s
  | .knotLogHead src v => Sys2Proof.Machine.execKnotLogHead src v s
  | .retirementClear src v => Sys2Proof.Machine.execRetirementClear src v s
  | .classifierWindowEnd cls unit => Sys2Proof.Machine.execClassifierWindowEnd cls unit s
  | .railSample vmain vside vstby => Sys2Proof.Machine.execRailSample vmain vside vstby s
  | .vstbyLoss => Sys2Proof.Machine.execVstbyLoss s
  | .domainPowerGoodLost domain mv => Sys2Proof.Machine.execDomainPowerGoodLost domain mv s
  | .trdReq src v => Sys2Proof.Machine.execTrdReq src v s
  | .powerStateEntryComplete => Sys2Proof.Machine.execPowerStateEntryComplete s
  | .powerStateExitComplete => Sys2Proof.Machine.execPowerStateExitComplete s
  | .exitStepTimeout domain mv => Sys2Proof.Machine.execExitStepTimeout domain mv s
  | .wakeNAssert => Sys2Proof.Machine.execWakeNAssert s
  | .portWakeAssert port => Sys2Proof.Machine.execPortWakeAssert port s
  | .portWakeDriveEnd ignoreToo => Sys2Proof.Machine.execPortWakeDriveEnd ignoreToo s
  | .thermalReading eighths => Sys2Proof.Machine.execThermalReading eighths s
  | .pwrBrakeAssert => Sys2Proof.Machine.execPwrBrakeAssert s
  | .pwrBrakeRelease => Sys2Proof.Machine.execPwrBrakeRelease s
  | .powerCapInterval watts => Sys2Proof.Machine.execPowerCapInterval watts s
  | .dvfsRelockComplete cluster => Sys2Proof.Machine.execDvfsRelockComplete cluster s
  | .bootStart => Sys2Proof.Machine.execBootStart s
  | .bootFusesDone straps => Sys2Proof.Machine.execBootFusesDone straps s
  | .bootVerifyDone => Sys2Proof.Machine.execBootVerifyDone s
  | .bootMeasureDone => Sys2Proof.Machine.execBootMeasureDone s
  | .bootIdentityDone => Sys2Proof.Machine.execBootIdentityDone s
  | .stagingBufferWrite src off data => Sys2Proof.Machine.execStagingBufferWrite src off data s
  | .stageWrite src unit => Sys2Proof.Machine.execStageWrite src unit s
  | .stageCommit src => Sys2Proof.Machine.execStageCommit src s
  | .stageOperationComplete => Sys2Proof.Machine.execStageOperationComplete s
  | .activationGo src v => Sys2Proof.Machine.execActivationGo src v s
  | .activationVerifyComplete => Sys2Proof.Machine.execActivationVerifyComplete s
  | .activationSwitchComplete => Sys2Proof.Machine.execActivationSwitchComplete s
  | .activationHoldTimeout => Sys2Proof.Machine.execActivationHoldTimeout s
  | .rollbackCommit src v => Sys2Proof.Machine.execRollbackCommit src v s
  | .keyRevoke src v => Sys2Proof.Machine.execKeyRevoke src v s
  | .debugLock src v => Sys2Proof.Machine.execDebugLock src v s
  | .fuseProgramComplete failedBit => Sys2Proof.Machine.execFuseProgramComplete failedBit s
  | .getIdentity t body => Sys2Proof.Machine.execGetIdentity t body s
  | .getReport t body => Sys2Proof.Machine.execGetReport t body s
  | .reportSignComplete => Sys2Proof.Machine.execReportSignComplete s
  | .setEndpointId t eid => Sys2Proof.Machine.execSetEndpointId t eid s
  | .getEndpointId t => Sys2Proof.Machine.execGetEndpointId t s
  | .getMctpVersionSupport t => Sys2Proof.Machine.execGetMctpVersionSupport t s
  | .getMessageTypeSupport t => Sys2Proof.Machine.execGetMessageTypeSupport t s
  | .regRead off pecOk => Sys2Proof.Machine.execRegRead off pecOk s
  | .regWrite off v pecOk => Sys2Proof.Machine.execRegWrite off v pecOk s
  | .status pecOk => Sys2Proof.Machine.execStatus pecOk s
  | .mctp message pecOk => Sys2Proof.Machine.execMctp message pecOk s
  | .perstAssert q pin => Sys2Proof.Machine.execPerstAssert q pin s
  | .perstRelease q => Sys2Proof.Machine.execPerstRelease q s
  | .configRequest q f op => Sys2Proof.Machine.execConfigRequest q f op s
  | .functionLevelReset q f => Sys2Proof.Machine.execFunctionLevelReset q f s
  | .bar4Access q f off len data => Sys2Proof.Machine.execBar4Access q f off len data s
  | .msixUnmask q f vector => Sys2Proof.Machine.execMsixUnmask q f vector s
  | .ringPairEnable src q k v => Sys2Proof.Machine.execRingPairEnable src q k v s
  | .ringPairDisable src q k => Sys2Proof.Machine.execRingPairDisable src q k s
  | .adopt src v downLongEnough => Sys2Proof.Machine.execAdopt src v downLongEnough s
  | .selfAliasLock src v => Sys2Proof.Machine.execSelfAliasLock src v s
  | .sharedRegionSeal src region v => Sys2Proof.Machine.execSharedRegionSeal src region v s
  | .registerWrite src off v => Sys2Proof.Machine.execRegisterWrite src off v s
  | .hostReadCompletion issuer addr data ok => Sys2Proof.Machine.execHostReadCompletion issuer addr data ok s
  | .completionTimeout issuer => Sys2Proof.Machine.execCompletionTimeout issuer s
  | .correctableAerError q => Sys2Proof.Machine.execCorrectableAerError q s
  | .cacheWritebackComplete => Sys2Proof.Machine.execCacheWritebackComplete s
  | .relocationComplete tier2 group badLines => Sys2Proof.Machine.execRelocationComplete tier2 group badLines s
  | .cableMemoryReadComplete port cableType lengthDm => Sys2Proof.Machine.execCableMemoryReadComplete port cableType lengthDm s
  | .wakeFromIdle l => Sys2Proof.Machine.execWakeFromIdle l s
  | .jtagSession => Sys2Proof.Machine.execJtagSession s

end Sys2Proof.Machine
end

