-- ==== Sys2Proof/Machine/Tick.lean ====
section
/-!
DEFINITION. Machine/Tick.lean: what passes while no command waits (log 12): each island that runs counts cycles (R54), and each loom of an enabled
partition counts its cycles under one cause (R362); how many cycles pass is a free value (log 3).
-/

namespace Sys2Proof.Machine

/-- An island counts, gated or not, while its domain is up and its PLL does not relock (R54). -/
def Island.counts (x : Island) : Bool := x.on && !x.relocking

-- ## Stall causes (R362; log 155)

/-- The nodes of a partition that are not dispatched yet and name a loom, with draft and node id. -/
def State.pendingOn (s : State) (p l : Nat) : List (Draft × Nat × Node) :=
  (s.drafts.filter (fun d => d.part == p)).flatMap (fun d =>
    ((d.nodes.zipIdx).filter (fun n => !n.1.isDone && !n.1.running && (s.nodeLooms d n.1).contains l)).map (fun n => (d, n.2, n.1)))

/-- A predecessor of one of these nodes is at work, and has the property. -/
def State.waitsOn (pend : List (Draft × Nat × Node)) (f : Draft → Nat → Node → Bool) : Bool :=
  pend.any (fun t => (t.1.nodes.zipIdx).any (fun m => m.1.running && m.1.succ.contains t.2.1 && f t.1 m.2 m.1))

/-- A COPY or CHAIN node whose source lies on another module. -/
def State.fromAfar (s : State) (d : Draft) (n : Node) : Bool :=
  let src := if n.kind = 3 ∧ n.arg 104 8 ≠ 0 then ((s.copyDesc (nodeCtx d n) n).map descSrc).getD [] else n.td 0
  (n.kind == 2 || n.kind == 3) && tdValid src && !s.isLocal (tdBase src)

/-- The running node's emission waits for its stream or for a slot (R302, R303). -/
def State.emitWaits (s : State) (l : Nat) (w : Work) : Bool :=
  let x := s.loom l
  w.img.emits && !x.rowWaits w.img && (s.emitRow w.draft.part w.img (x.run.place (w.node.td 2) x.run.out) x.run.out (List.replicate 128 0)).isNone

/-- The array or the output path of a running node waits for a warp, a retry, or a row (R77, R82, R148). -/
def Loom.arrayWaits (x : Loom) (i : Img) : Bool :=
  x.retry || x.outputStalls i || (i.epilogue && x.rowWaits i) ||
  (match i.gen 1 with
   | some g => i.mode != 2 && decide (x.run.step < i.arraySteps) && (x.warpFor (g.addr x.run.step)).isNone
   | none => false)

/-- The first cause of the table that holds of a cycle of loom `l`, but for the throttle of R475. -/
def State.stallCause (s : State) (p l : Nat) : Nat :=
  let x := s.part p
  let lm := s.loom l
  let w := s.holding l
  let pend := if w.isSome then [] else s.pendingOn p l
  let waits (f : Draft → Nat → Node → Bool) : Bool := State.waitsOn pend f
  if x.st = .preempting ∨ x.st = .preempted ∨ waits (fun d i _ => s.fabric.requests.any (fun r => r.waiting && r.issuer == .node d.id i)) then 4
  else if s.treadle.state = 1 ∨ (s.loomIsland l).relocking then 5
  else if bitAt s.boot.held p ∨ (w.isNone && x.shed.any (·.go)) then 9
  else if waits (fun _ _ m => m.kind == 0xA) then 2
  else if waits (fun _ _ m => m.kind == 8) || (w.isNone && x.job.reported) then 8
  else if (match w with | some y => s.emitWaits l y | none => waits (fun _ _ m => m.kind == 4 || m.kind == 5)) then 0
  else if waits (fun d _ m => s.fromAfar d m) then 3
  else if (match w with | some y => lm.pendingSwap.isSome || lm.swapDue y.img | none => pend.any (fun t => t.2.2.deps == 0 && !s.fetchedFor t.1 t.2.1)) then 1
  else match w with
    | none => if lm.loading.isEmpty then 10 else 7
    | some y => if lm.arrayWaits y.img then 6 else 11

/-- `n` cycles of loom `l` counted: under the throttle all but one in DIV under cause 5 (R475). -/
def State.countStall (s : State) (p l n : Nat) : State :=
  let div := if s.treadle.brake || s.treadle.capThrottle then max 2 (s.fld .trdBrake 0 3) else 1
  let c := s.stallCause p l
  let run := if c = 4 ∨ c = 5 then n else n / div
  let x := s.part p
  let add (t : List (Nat × Nat)) (k m : Nat) : List (Nat × Nat) := tset 0 t k (satInc 64 (tget 0 t k) m)
  s.setPart p { x with stall := add (add x.stall c run) 5 (n - run) }

/-- Cycles pass on every loom of the enabled partitions. -/
def State.countStalls (s : State) : State :=
  (List.range 16).foldl (fun s p =>
    if (s.part p).st.idle then s
    else ((s.clusters p).flatMap (fun c => (List.range 8).map (8 * c + ·))).foldl (fun s l =>
      if (s.loomIsland l).on && !s.isRetired 0 l then s.countStall p l (Config.freeCycles s.draws (l / 8)) else s) s) s

/-- One idle step: counters wrap at 48 bits (R54), the looms count what they wait for (R362). -/
def idle (s : State) : State :=
  let s1 := s.countStalls
  settle { s1 with
    islands := tcanon {} (s1.islands.map (fun x =>
      (x.1, if x.2.counts then { x.2 with cycle := (x.2.cycle + Config.freeCycles s.draws x.1) % 2 ^ 48 } else x.2)))
    draws := s.draws + 1 }

end Sys2Proof.Machine
end

