-- ==== Sys2Proof/Safety.lean ====
section
/-!
DEFINITION. Safety.lean: the terms in which claims speak of the module: a sound state (memory in its canonical form, the pins as the rest of the
state makes them), and which parts of the state a command may change.
-/

namespace Sys2Proof

/-- Memory is in its canonical form: keys strictly rising, and no byte listed that reads as an unlisted one does (log 2). -/
abbrev Memory.wf (m : List Host.Cell) : Prop := Machine.twf 0 m = true

namespace Machine

/-- FAULT_N, THERM_N and PG_OUT are driven as R437, R457, R467, R470 and R472 say. -/
def State.pinsWf (s : State) : Prop := s.faultN = s.faultPin ∧ s.thermN = s.treadle.warm ∧ s.pgOut = s.pgPin

/-- The invariant of the module. -/
def State.Inv (s : State) : Prop := Memory.wf s.mem ∧ s.pinsWf

-- ## Frames

/-- The parts of the state, one for each field of State but the three pins, which follow from the other parts. -/
inductive Field where
  | mem
  | regs
  | fuses
  | straps
  | islands
  | channels
  | ports
  | adopted
  | adoptRefused
  | shrRefused
  | funcs
  | rings
  | accepted
  | entries
  | draftIds
  | drafts
  | parts
  | looms
  | hostReads
  | shuttles
  | mates
  | served
  | memCtl
  | links
  | fabric
  | manager
  | knot
  | units
  | retired
  | guests
  | vacant
  | genRetire
  | treadle
  | boot
  | trust
  | deferred
  | out
  | draws
  | pending
  deriving DecidableEq, Repr

/-- Two states hold the same in a part; of memory that means that every byte reads the same. -/
def Field.same (s t : State) : Field → Prop
  | .mem => ∀ k, t.rd k = s.rd k
  | .regs => t.regs = s.regs
  | .fuses => t.fuses = s.fuses
  | .straps => t.straps = s.straps
  | .islands => t.islands = s.islands
  | .channels => t.channels = s.channels
  | .ports => t.ports = s.ports
  | .adopted => t.adopted = s.adopted
  | .adoptRefused => t.adoptRefused = s.adoptRefused
  | .shrRefused => t.shrRefused = s.shrRefused
  | .funcs => t.funcs = s.funcs
  | .rings => t.rings = s.rings
  | .accepted => t.accepted = s.accepted
  | .entries => t.entries = s.entries
  | .draftIds => t.draftIds = s.draftIds
  | .drafts => t.drafts = s.drafts
  | .parts => t.parts = s.parts
  | .looms => t.looms = s.looms
  | .hostReads => t.hostReads = s.hostReads
  | .shuttles => t.shuttles = s.shuttles
  | .mates => t.mates = s.mates
  | .served => t.served = s.served
  | .memCtl => t.memCtl = s.memCtl
  | .links => t.links = s.links
  | .fabric => t.fabric = s.fabric
  | .manager => t.manager = s.manager
  | .knot => t.knot = s.knot
  | .units => t.units = s.units
  | .retired => t.retired = s.retired
  | .guests => t.guests = s.guests
  | .vacant => t.vacant = s.vacant
  | .genRetire => t.genRetire = s.genRetire
  | .treadle => t.treadle = s.treadle
  | .boot => t.boot = s.boot
  | .trust => t.trust = s.trust
  | .deferred => t.deferred = s.deferred
  | .out => t.out = s.out
  | .draws => t.draws = s.draws
  | .pending => t.pending = s.pending

/-- Every part but the named ones is as before. -/
def State.keeps (s t : State) (but : List Field) : Prop := ∀ f, f ∉ but → Field.same s t f

/-- Every byte outside the `n` bytes from key `k` reads as before. -/
def State.keepsMem (s t : State) (k n : Nat) : Prop := ∀ j, j < k ∨ k + n ≤ j → t.rd j = s.rd j

/-- A command answers a next state of which `P` holds. -/
def State.gives (s : State) (c : Instr) (P : State → Prop) : Prop := ∃ t, exec c s = .next t ∧ P t

/-- The entry is outstanding no more, and its completion with a status and RESULT waits in its ring pair (R184, R190, R196); or 256 completions wait
there, and it waits in its engine with what it ends with (R184). -/
def State.completed (x : Entry) (status result : Nat) (t : State) : Prop :=
  (t.entry x.acc = none ∧
    ∃ c ∈ (t.ring x.home.1 x.home.2).held, c.acc = x.acc ∧ c.status = status ∧ c.result = result ∧ c.tag = x.tag ∧ c.opcode = x.opcode ∧ c.cookie = x.cookie) ∨
  (256 ≤ t.heldBack x.home.1 x.home.2 ∧ ∃ y pick, t.entry x.acc = some y ∧ y.parked = some (status, pick, result) ∧ y.home = x.home ∧
    y.tag = x.tag ∧ y.opcode = x.opcode ∧ y.cookie = x.cookie)

/-- The module is in T0 and its treadle rests (R457, R468). -/
def State.awake (s : State) : Prop := s.treadle.state = 0 ∧ s.treadle.moving = none

/-- One link's record becomes `x` and the fabric page (R298) is written: besides the named parts, only the page of an administrative host, what a port
holds back or loses of it, and its GEN change. -/
def State.movesLink (s t : State) (l : Nat) (x : Link) (also : List Field) : Prop :=
  t.link l = x ∧ (∀ m, m ≠ l → t.link m = s.link m) ∧ t.fabric = { s.fabric with gen := (s.fabric.gen + 2) % 2 ^ 64 } ∧
  (∀ j, (∀ q k, s.pageKey q (s.addr (.wflPage 0) (.wflPage 1)) = some k → j < k ∨ k + 4096 ≤ j) → t.rd j = s.rd j) ∧
  s.keeps t ([.mem, .ports, .links, .fabric] ++ also)

/-- A packet goes its way: what leaves, what a link holds for it and what waits are what sending it from the old state gives. -/
def State.posts (s t : State) (p : Packet) : Prop :=
  t.out = (s.post p).out ∧ t.links = (s.post p).links ∧ t.fabric.queue = (s.post p).fabric.queue

end Machine

end Sys2Proof
end

