-- ==== Sys2Proof/WellFormed.lean ====
section
/-!
DEFINITION. WellFormed.lean: the operands a command can carry: numbers of objects the module has (R44 to R47, R217, R401, R500, R502, R513)
and byte strings of the length their rule gives (R180, R268, R270, R489).
-/

namespace Sys2Proof

/-- A source of register accesses: two ports of 64 functions (R500). -/
def Src.wf : Src → Bool
  | .port q f => decide (q < 2) && decide (f < 64)
  | .manager => true
  | .smbus => true

/-- Partitions are 0 to 15 (R217). -/
def Issuer.wf : Issuer → Bool
  | .node _ _ => true
  | .entry _ => true
  | .shed p _ => decide (p < 16)
  | .fetch _ _ => true
  | .outside => true

/-- MCTP runs over either port and over SMBus (R497). -/
def Transport.wf : Transport → Bool
  | .pcie q => decide (q < 2)
  | .smbus => true

/-- A BAR4 size is a power of two, a PF has at most 63 virtual functions (R500, R505). -/
def CfgOp.wf : CfgOp → Bool
  | .numVfs n => decide (n < 64)
  | .bar4Size n => decide (n < 64)
  | .deviceControl p r => decide (p < 8 ∧ r < 8)
  | _ => true

/-- The header fields of a packet have the widths of R279, and its data are whole lines. -/
def Packet.wf (x : Packet) : Bool :=
  decide (x.ty < 256) && decide (x.len < 16) && decide (x.vc < 8) && decide (x.dst < 4096) && decide (x.space < 16) &&
  decide (x.src < 4096) && decide (x.srcPart < 16) && decide (x.domain < 65536) && decide (x.tag < 65536) && decide (x.offset < 2 ^ 48) &&
  x.data.length % 64 == 0

/-- Sources are knot bits 0 to 61, record classes one byte (R432, R439); a partition is one of 16. -/
def FaultEv.wf (x : FaultEv) : Bool :=
  decide (x.source < 62) && decide (x.cls < 256) && (match x.part with | some p => decide (p < 16) | none => true)

/-- The operands of a command are in range. -/
def Instr.wf : Instr → Bool
  | .draftRun _ => true
  | .copy _ => true
  | .fence _ => true
  | .signal _ => true
  | .serveLoopConfig _ => true
  | .seqAdmit _ => true
  | .seqCancel _ => true
  | .prefixRegister _ => true
  | .prefixRelease _ => true
  | .adapterLoad _ => true
  | .adapterReplace _ => true
  | .weightVersionPublish _ => true
  | .weightVersionSwitch _ => true
  | .shedChange _ => true
  | .stepSizeWrite _ => true
  | .freezeSet _ => true
  | .swapAreaRegister _ => true
  | .preempt _ => true
  | .resume _ => true
  | .query _ => true
  | .faultInject _ => true
  | .sqTail q f k v => decide (q < 2) && decide (f < 64) && decide (k < 256) && decide (v < 2 ^ 32)
  | .cqHead q f k v => decide (q < 2) && decide (f < 64) && decide (k < 256) && decide (v < 2 ^ 32)
  | .waitKick q f k v => decide (q < 2) && decide (f < 64) && decide (k < 256) && decide (v < 2 ^ 32)
  | .inlineEntry q f k off data => decide (q < 2) && decide (f < 64) && decide (k < 256) && decide (off + data.length ≤ 64)
  | .submissionEntryAccept q k => decide (q < 2) && decide (k < 256)
  | .waitSatisfied _ => true
  | .completionWrite q k => decide (q < 2) && decide (k < 256)
  | .nodeDispatch _ _ => true
  | .nodeComplete _ _ => true
  | .pickAdvance p => decide (p < 16)
  | .hostWaitPoll _ _ => true
  | .preemptSaveComplete p => decide (p < 16)
  | .resumeRestoreComplete p _ => decide (p < 16)
  | .partitionConfigure src p v => src.wf && decide (p < 16) && decide (v < 2 ^ 32)
  | .partitionEnable src p => src.wf && decide (p < 16)
  | .partitionEnablingEnd p => decide (p < 16)
  | .partitionDisable src p => src.wf && decide (p < 16)
  | .partitionDisablingEnd p => decide (p < 16)
  | .partitionOwnerChange src p v => src.wf && decide (p < 16) && decide (v < 2 ^ 32)
  | .arrayRowComplete l _ => decide (l < Config.looms)
  | .rowCheckRetryComplete l _ column => decide (l < Config.looms) && decide (column < 128)
  | .loomSramUncorrectable l addr _ issuer => decide (l < Config.looms) && decide (addr < 0x400000) && issuer.wf
  | .loomScrubRead read => decide (read.loom < Config.looms)
  | .warpShadowLoadComplete l => decide (l < Config.looms)
  | .imageLoadComplete l slot => decide (l < Config.looms) && decide (slot < 4)
  | .imageSwitch l slot => decide (l < Config.looms) && decide (slot < 4)
  | .weftSwap l => decide (l < Config.looms)
  | .swapTimeout l => decide (l < Config.looms)
  | .readyTimeout l row => decide (l < Config.looms) && decide (row < 2 ^ 22)
  | .externalWrite addr data issuer => decide (addr < 2 ^ 64) && decide (0 < data.length) && issuer.wf
  | .externalRead addr read => decide (addr < 2 ^ 64) && read.issuer.wf
  | .crossingDeliver src dst => decide (src < Config.islands) && decide (dst < Config.islands)
  | .handshakeTimeout src dst => decide (src < Config.islands) && decide (dst < Config.islands)
  | .memoryRead addr _ _ issuer => decide (addr < 2 ^ 64) && issuer.wf
  | .memoryWrite addr data _ _ issuer => decide (addr < 2 ^ 64) && decide (0 < data.length) && issuer.wf
  | .scrubReadDue tier2 channel _ _ => decide (channel < (if tier2 then 64 else 256))
  | .cacheWayChange src off v => src.wf && decide (off < 2 ^ 24) && decide (v < 2 ^ 32)
  | .poolAllocate p _ _ _ => decide (p < 16)
  | .poolAgeTempleUpdate p => decide (p < 16)
  | .shuttleRequest p _ issuer => decide (p < 16) && issuer.wf
  | .prefetchIssue _ => true
  | .prefetchLeadTempleUpdate p slot _ => decide (p < 16) && decide (slot < 8)
  | .linkEnable src port lane => src.wf && decide (port < 6) && decide (lane < 16)
  | .linkDisable src port lane => src.wf && decide (port < 6) && decide (lane < 16)
  | .linkDetect l _ _ => decide (l < Config.links)
  | .cableMemoryTimeout port => decide (port < 6)
  | .linkEqualiseDone l loss => decide (l < Config.links) && decide (loss < 65536)
  | .linkEqualiseTimeout l => decide (l < Config.links)
  | .identBlock l block => decide (l < Config.links) && decide (block.length = 32)
  | .linkIdentifyTimeout l => decide (l < Config.links)
  | .linkLossOfLock l => decide (l < Config.links)
  | .linkDrainComplete l => decide (l < Config.links)
  | .flitReceive l flit => decide (l < Config.links) && decide (flit.length = 512)
  | .nak l seq => decide (l < Config.links) && decide (seq < 4096)
  | .modeReq l mode => decide (l < Config.links) && decide (mode < 2)
  | .modeAck l mode => decide (l < Config.links) && decide (mode < 2)
  | .idleEnter l => decide (l < Config.links)
  | .linkModeTempleWindow w => decide (w.link < Config.links) && decide (w.corrected < 2 ^ 32) && decide (w.uncorrected < 2 ^ 32)
  | .rdReq pkt => pkt.wf
  | .rdRsp pkt => pkt.wf
  | .wr pkt => pkt.wf
  | .wrAck pkt => pkt.wf
  | .atomic pkt => pkt.wf
  | .atomicRsp pkt => pkt.wf
  | .nack pkt => pkt.wf
  | .redAdd pkt => pkt.wf
  | .redMax8 pkt => pkt.wf
  | .redOr pkt => pkt.wf
  | .requestTimeout dst tag => decide (dst < 4096) && decide (tag < 65536)
  | .requestRetryTimer dst tag => decide (dst < 4096) && decide (tag < 65536)
  | .redRetryTimer => true
  | .fabricPageTimer => true
  | .heartbeat pkt => pkt.wf
  | .heartbeatPeriod => true
  | .heartbeatMiss slot member => decide (slot < 64) && decide (member < 65536)
  | .join pkt => pkt.wf
  | .joinAck pkt => pkt.wf
  | .stepReport pkt => pkt.wf
  | .stepDecide pkt => pkt.wf
  | .shedReport pkt => pkt.wf
  | .shedDecide pkt => pkt.wf
  | .shedEntryComplete p _ _ => decide (p < 16)
  | .shedClear pkt => pkt.wf
  | .lost pkt => pkt.wf
  | .takeover pkt => pkt.wf
  | .standbyTakeover => true
  | .barrierReport pkt => pkt.wf
  | .barrierGo pkt => pkt.wf
  | .memberDeclareLost src v => src.wf && decide (v < 2 ^ 32)
  | .jobSlotEnable src slot v => src.wf && decide (slot < 64) && decide (v < 2 ^ 32)
  | .jobJoinEnable src p v => src.wf && decide (p < 16) && decide (v < 2 ^ 32)
  | .boltEmit p _ _ value loom => decide (p < 16) && decide (value < 2 ^ 64) && decide (loom < Config.looms)
  | .boltLaunch p _ _ => decide (p < 16)
  | .orthoComplete p _ => decide (p < 16)
  | .boltSizeTempleUpdate p slot _ => decide (p < 16) && decide (slot < 8)
  | .serveStepBoundary p loop => decide (p < 16) && decide (loop < 4)
  | .serveStepComplete p loop _ => decide (p < 16) && decide (loop < 4)
  | .promptChunkTempleUpdate p loop => decide (p < 16) && decide (loop < 4)
  | .swapOutComplete p loop slot => decide (p < 16) && decide (loop < 4) && decide (slot < 1024)
  | .adapterCopyComplete p adapter => decide (p < 16) && decide (adapter < 1024)
  | .ringBlockArrive p loop _ _ _ => decide (p < 16) && decide (loop < 4)
  | .knotEvent ev => ev.wf
  | .blockResetReturn source => decide (source < 62)
  | .handlingWindowClose src v _ => src.wf && decide (v < 2 ^ 32)
  | .knotWordClear src _ v setNow => src.wf && decide (v < 2 ^ 32) && decide (setNow < 2 ^ 32)
  | .force src source => src.wf && decide (source < 62)
  | .knotLogHead src v => src.wf && decide (v < 2 ^ 32)
  | .retirementClear src v => src.wf && decide (v < 2 ^ 32)
  | .classifierWindowEnd cls _ => decide (cls < 16)
  | .railSample _ _ _ => true
  | .vstbyLoss => true
  | .domainPowerGoodLost _ _ => true
  | .trdReq src v => src.wf && decide (v < 2 ^ 32)
  | .powerStateEntryComplete => true
  | .powerStateExitComplete => true
  | .exitStepTimeout _ _ => true
  | .wakeNAssert => true
  | .portWakeAssert port => decide (port < 6)
  | .portWakeDriveEnd _ => true
  | .thermalReading eighths => decide (eighths.length = 16)
  | .pwrBrakeAssert => true
  | .pwrBrakeRelease => true
  | .powerCapInterval _ => true
  | .dvfsRelockComplete cluster => decide (cluster < Config.clusters)
  | .bootStart => true
  | .bootFusesDone straps => decide (straps < 2 ^ 14)
  | .bootVerifyDone => true
  | .bootMeasureDone => true
  | .bootIdentityDone => true
  | .stagingBufferWrite src off data => src.wf && decide (off + data.length ≤ 65536)
  | .stageWrite src unit => src.wf && decide (unit < 2 ^ 32)
  | .stageCommit src => src.wf
  | .stageOperationComplete => true
  | .activationGo src v => src.wf && decide (v < 2 ^ 32)
  | .activationVerifyComplete => true
  | .activationSwitchComplete => true
  | .activationHoldTimeout => true
  | .rollbackCommit src v => src.wf && decide (v < 2 ^ 32)
  | .keyRevoke src v => src.wf && decide (v < 2 ^ 32)
  | .debugLock src v => src.wf && decide (v < 2 ^ 32)
  | .fuseProgramComplete failedBit => (match failedBit with | some b => decide (b < 1024) | none => true)
  | .getIdentity t _ => t.wf
  | .getReport t _ => t.wf
  | .reportSignComplete => true
  | .setEndpointId t eid => t.wf && decide (eid < 256)
  | .getEndpointId t => t.wf
  | .getMctpVersionSupport t => t.wf
  | .getMessageTypeSupport t => t.wf
  | .regRead off _ => decide (off < 2 ^ 24)
  | .regWrite off v _ => decide (off < 2 ^ 24) && decide (v < 2 ^ 32)
  | .status _ => true
  | .mctp _ _ => true
  | .perstAssert q _ => decide (q < 2)
  | .perstRelease q => decide (q < 2)
  | .configRequest q f op => decide (q < 2) && decide (f < 64) && op.wf
  | .functionLevelReset q f => decide (q < 2) && decide (f < 64)
  | .bar4Access q f _ len data => decide (q < 2) && decide (f < 64) && decide (0 < len) && (match data with | some bs => decide (bs.length = len) | none => true)
  | .msixUnmask q f vector => decide (q < 2) && decide (f < 64) && decide (vector < 32)
  | .ringPairEnable src q k v => src.wf && decide (q < 2) && decide (k < 256) && decide (v < 2 ^ 32)
  | .ringPairDisable src q k => src.wf && decide (q < 2) && decide (k < 256)
  | .adopt src v _ => src.wf && decide (v < 2 ^ 32)
  | .selfAliasLock src v => src.wf && decide (v < 2 ^ 32)
  | .sharedRegionSeal src region v => src.wf && decide (region < 4) && decide (v < 2 ^ 32)
  | .registerWrite src off v => src.wf && decide (off < 2 ^ 24) && decide (v < 2 ^ 32)
  | .hostReadCompletion issuer addr _ _ => issuer.wf && decide (addr < 2 ^ 64)
  | .completionTimeout issuer => issuer.wf
  | .correctableAerError q => decide (q < 2)
  | .cacheWritebackComplete => true
  | .relocationComplete tier2 group _ => decide (group < (if tier2 then 16 else 32))
  | .cableMemoryReadComplete port _ _ => decide (port < 6)
  | .wakeFromIdle l => decide (l < Config.links)
  | .jtagSession => true

end Sys2Proof
end

