-- ==== Sys2Proof/Certificates/Slice0/Obligations.lean ====
section
/-!
DEFINITION. Certificates/Slice0/Obligations.lean: the statements for the provers, each with the rule it rests on.
-/

open Sys2Proof Sys2Proof.Machine

/-- State.reset has the invariant of the module: memory in its canonical form (the model's own form, log 2) and the pins FAULT_N, THERM_N and PG_OUT
as the rest of the state makes them. (R467, R437, R486) -/
def Obligations.ResetHasInvariant : Prop :=
  State.reset.Inv

/-- For every state with the invariant, if a step answers a next state, then that state has the invariant: memory in its canonical form (the model's
own form, log 2) and FAULT_N, THERM_N and PG_OUT as the knot word, the treadle and the supplies make them. (R437, R467, R470, R472) -/
def Obligations.StepKeepsInvariant : Prop :=
  ∀ s t : State, s.Inv → step s = .next t → t.Inv

/-- For every state a step answers a next state, never a fault and never a refusal: what goes wrong is an event on State (R432) or a completion status
(R196). (R196, R432) -/
def Obligations.StepNeverStops : Prop :=
  ∀ s : State, ∃ t, step s = .next t

/-- For every command c, queue rest and state s whose queue is c followed by rest, a step is exec of c on s with the queue rest; on an empty queue a
step is the passing of time (the model's queue and its idle step are DESIGN CHOICE, log 12). (98_reader.md) -/
def Obligations.StepRunsFrontCommand : Prop :=
  (∀ (s : State) (c : Instr) (rest : List Instr), s.pending = c :: rest → step s = exec c { s with pending := rest }) ∧
  (∀ s : State, s.pending = [] → step s = .next (idle s))

/-- After reset the treadle is in T4 with only domain 0 on, the boot machine is in RESET, the knot word is zero and no register differs from its reset
value; no partition, ring pair, link or loom has left its initial state, memory lists nothing (log 2) and no command waits. (R457, R458, R486, R433,
R510) -/
def Obligations.ResetLeavesTheModuleDark : Prop :=
  State.reset.treadle.state = 4 ∧ State.reset.treadle.domains = [0] ∧ State.reset.boot.state = .reset ∧ State.reset.knot.word = 0 ∧
  (∀ r, State.reset.reg r = r.reset) ∧ (∀ p, (State.reset.part p).st = .unconfigured) ∧ (∀ q k, (State.reset.ring q k).active = false) ∧
  (∀ l, (State.reset.link l).st = 0) ∧ (∀ l, (State.reset.loom l).node = none) ∧ (∀ k, State.reset.rd k = 0) ∧ State.reset.pending = []

/-- An idle step (the model's choice, log 12) leaves the counter of every island that is off or relocking as it is, adds a free amount modulo 2^48 to
each other counter, a gated island's among them (log 3), and otherwise only lets the stall counts of enabled partitions rise (log 155) and counts a
draw. (R54, R362) -/
def Obligations.IdleCountsIslands : Prop :=
  ∀ (s t : State), s.pending = [] → step s = .next t →
    (∀ i, (s.island i).counts = false → (t.island i).cycle = (s.island i).cycle) ∧
    (∀ i, (s.island i).counts = true → (t.island i).cycle = ((s.island i).cycle + Config.freeCycles s.draws i) % 2 ^ 48) ∧
    (∀ i, (t.island i).epoch = (s.island i).epoch ∧ (t.island i).on = (s.island i).on ∧ (t.island i).picks = (s.island i).picks) ∧
    (∀ p, ∃ st, t.part p = { s.part p with stall := st }) ∧ (∀ p, (s.part p).st.idle = true → t.part p = s.part p) ∧
    (∀ p c, tget 0 (s.part p).stall c < 2 ^ 64 → tget 0 (s.part p).stall c ≤ tget 0 (t.part p).stall c) ∧
    s.keeps t [.islands, .parts, .draws]

/-- In T0, a SQ_TAIL write that reaches an ACTIVE ring pair through its owning function (R506, R513) with an index below the ring size sets the
announced tail, leaves SQ_HEAD and DOORBELL_ERRORS, and writes the ring record (R185) to the host: nothing else changes but that page or the LOST
count of the port. A CQ_HEAD write with such an index sets the freed index (this clause is of a pair for which no completion waits in its engine,
R184). An index of the ring size or more changes DOORBELL_ERRORS alone (and ends the inline window for SQ_TAIL). Other ring pairs are untouched.
(R179, R181, R185, R506, R513) -/
def Obligations.DoorbellTailsMoveOrCount : Prop :=
  ∀ (s : State) (q f k v : Nat), q < 2 → f < 64 → k < 256 → s.awake → s.arrives (.port q f) = true → (s.ring q k).active = true →
    f = s.ringFunc q k →
    (v % 65536 < s.ringSize q k →
      s.gives (.sqTail q f k v) (fun t => (t.ring q k).sqTail = v % 65536 ∧ (t.ring q k).sqHead = (s.ring q k).sqHead ∧
        (t.ring q k).errors = (s.ring q k).errors ∧ (t.ring q k).cqHead = (s.ring q k).cqHead ∧ (t.ring q k).held = (s.ring q k).held ∧
        (∀ k', k' < 256 → k' ≠ k → t.ring q k' = s.ring q k') ∧ s.keeps t [.rings, .mem, .ports] ∧
        s.keepsMem t (spaceKey (4 + q) (s.addr (.rqAddr q k 4) (.rqAddr q k 5))) 64) ∧
      ((∀ y ∈ s.entries, y.home = (q, k) → y.parked = none) → s.gives (.cqHead q f k v) (fun t => t.ring q k = { s.ring q k with
          cqHead := v % 65536, cqUsed := (s.ring q k).cqUsed - (v % 65536 + s.ringSize q k - (s.ring q k).cqHead) % s.ringSize q k } ∧
        (∀ k', k' < 256 → k' ≠ k → t.ring q k' = s.ring q k') ∧ s.keeps t [.rings]))) ∧
    (s.ringSize q k ≤ v % 65536 →
      s.gives (.sqTail q f k v) (fun t => t.ring q k = { s.ring q k with window := [], errors := satInc 32 (s.ring q k).errors 1 } ∧
        (∀ k', k' < 256 → k' ≠ k → t.ring q k' = s.ring q k') ∧ s.keeps t [.rings]) ∧
      s.gives (.cqHead q f k v) (fun t => t.ring q k = { s.ring q k with errors := satInc 32 (s.ring q k).errors 1 } ∧
        (∀ k', k' < 256 → k' ≠ k → t.ring q k' = s.ring q k') ∧ s.keeps t [.rings]))

/-- An INLINE_ENTRY write that reaches an ACTIVE ring pair through its owning function leaves in byte j of the inline window the byte written there,
and in every other byte what it held; it changes no other field of the pair, no other pair and no other part of the state. (R180, R506, R513) -/
def Obligations.InlineWindowHoldsWrittenBytes : Prop :=
  ∀ (s : State) (q f k off : Nat) (data : List Byte), q < 2 → f < 64 → k < 256 → off + data.length ≤ 64 → s.arrives (.port q f) = true →
    (s.ring q k).active = true → f = s.ringFunc q k →
    s.gives (.inlineEntry q f k off data) (fun t =>
      (∀ j, tget 0 (t.ring q k).window j =
        if off ≤ j ∧ j < off + data.length then data.getD (j - off) 0 else tget 0 (s.ring q k).window j) ∧
      (∃ w, t.ring q k = { s.ring q k with window := w }) ∧ (∀ k', k' < 256 → k' ≠ k → t.ring q k' = s.ring q k') ∧ s.keeps t [.rings])

/-- For a running HOST_WAIT node of a partition that runs, whose semaphore lies in a host window of this module that the access may read,
HOST_WAIT_POLL sends host reads to that port for the lines of the semaphore, with the requester ID of the partition's owning function, notes each as
outstanding for the node, counts as many missing acknowledgements, and changes nothing else. A semaphore within one line takes one aligned read of 64
bytes. In T0 a WAIT_KICK with bit 0 set that reaches an ACTIVE pair through its owning function does what polls of all such nodes of the partitions
that the function owns do one after another. (R207, R241) -/
def Obligations.HostWaitReadsAreIssued : Prop :=
  (∀ (s : State) (d n : Nat) (x : Draft) (y : Node), s.draft d = some x → s.node d n = some y → y.kind = 0xA → y.st = .running →
    s.runs x.part = true → s.isLocal (y.arg 104 8) = true → (gSpace (y.arg 104 8) = 4 ∨ gSpace (y.arg 104 8) = 5) →
    s.readErr (nodeCtx x y) (y.arg 104 8) 8 = none →
    s.gives (.hostWaitPoll d n) (fun t =>
      t.out = s.out ++ (s.hostRequests (gSpace (y.arg 104 8) - 4) (gOffset (y.arg 104 8)) 8).map
        (fun r => .hostRead (gSpace (y.arg 104 8) - 4) (s.requester (nodeCtx x y)) r.1 r.2) ∧
      t.hostReads = s.hostReads ++ (s.hostRequests (gSpace (y.arg 104 8) - 4) (gOffset (y.arg 104 8)) 8).map
        (fun _ => (gSpace (y.arg 104 8) - 4, .node d n)) ∧
      t.node d n = some { y with acks := y.acks + (s.hostRequests (gSpace (y.arg 104 8) - 4) (gOffset (y.arg 104 8)) 8).length } ∧
      s.keeps t [.out, .hostReads, .drafts])) ∧
  (∀ (s : State) (q o : Nat), o % 64 ≤ 56 → s.hostRequests q o 8 = [(o / 64 * 64, 64)]) ∧
  (∀ (s : State) (q f k v : Nat), s.awake → s.arrives (.port q f) = true → (s.ring q k).active = true → f = s.ringFunc q k → bitAt v 0 = true →
    (∀ x ∈ s.drafts, s.owns q f x.part = true → ∀ y ∈ x.nodes, ¬(y.kind = 0xA ∧ y.st = .running)) →
    exec (.waitKick q f k v) s = .next (settle s)) ∧
  (∀ (s : State) (q f k v n : Nat) (x : Draft) (y : Node), s.awake → s.arrives (.port q f) = true → (s.ring q k).active = true →
    f = s.ringFunc q k → bitAt v 0 = true → s.drafts = [x] → s.owns q f x.part = true → x.nodes[n]? = some y → y.kind = 0xA → y.st = .running →
    (∀ m z, x.nodes[m]? = some z → z.kind = 0xA → z.st = .running → m = n) → s.runs x.part = true →
    s.isLocal (y.arg 104 8) = true → (gSpace (y.arg 104 8) = 4 ∨ gSpace (y.arg 104 8) = 5) → s.readErr (nodeCtx x y) (y.arg 104 8) 8 = none →
    s.gives (.waitKick q f k v) (fun t =>
      t.out = s.out ++ (s.hostRequests (gSpace (y.arg 104 8) - 4) (gOffset (y.arg 104 8)) 8).map
        (fun r => .hostRead (gSpace (y.arg 104 8) - 4) (s.requester (nodeCtx x y)) r.1 r.2) ∧
      t.hostReads = s.hostReads ++ (s.hostRequests (gSpace (y.arg 104 8) - 4) (gOffset (y.arg 104 8)) 8).map
        (fun _ => (gSpace (y.arg 104 8) - 4, .node x.id n)) ∧ s.keeps t [.out, .hostReads, .drafts]))

/-- When an ACTIVE ring pair has an announced entry, no held completion suspends it and the link is up, SUBMISSION_ENTRY_ACCEPT takes the entry at
SQ_HEAD (the captured inline entry of that slot, or its 64 bytes in host memory), advances SQ_HEAD by one modulo the ring size and counts one
acceptance. A well-formed, permitted entry without WAIT_EN becomes the newest outstanding entry, free to start; one that fails its form (R12, R13,
R183) or its permission (R178, R193) completes INVALID. One with WAIT_EN is held while an outstanding entry has the tag it names, and is free to start
when none has and none of the remembered completions of that ring pair has it (R188). The ring record is rewritten with the SQ_HEAD it leaves (log
175); nothing else changes but the ring pairs, the outstanding entries and the acceptance count. (R182, R183, R178, R185, R188) -/
def Obligations.AcceptanceTakesTheNextEntry : Prop :=
  ∀ (s : State) (q k : Nat) (x : Entry), q < 2 → k < 256 → (s.ring q k).active = true → (s.ring q k).sqHead ≠ (s.ring q k).sqTail →
    s.submitHeld q k = false → (s.port q).linkUp = true → (∀ y ∈ s.entries, y.acc ≤ s.accepted) →
    x = { acc := s.accepted + 1, port := q, ring := k, func := s.ringFunc q k, admin := s.isAdmin q (s.ringFunc q k),
          bytes := (match (s.ring q k).inlined.find? (fun i => i.1 == (s.ring q k).sqHead) with
            | some i => i.2
            | none => s.rdBytes (spaceKey (4 + q) (s.addr (.rqAddr q k 0) (.rqAddr q k 1) + 64 * (s.ring q k).sqHead)) 64),
          st := .ready, home := (q, k) } →
    s.gives (.submissionEntryAccept q k) (fun t =>
      t.accepted = s.accepted + 1 ∧ (t.ring q k).sqHead = ((s.ring q k).sqHead + 1) % s.ringSize q k ∧ (t.ring q k).sqTail = (s.ring q k).sqTail ∧
      (x.formOk = true → s.entryAllowed x = true → bitAt x.wait 63 = false → t.entries = s.entries ++ [x]) ∧
      (x.formOk = true → s.entryAllowed x = true → bitAt x.wait 63 = true →
        (∃ y ∈ s.entries, (y.port, y.ring, y.tag) = x.waitsOn) → t.entries = s.entries ++ [{ x with st := .waiting }]) ∧
      (x.formOk = true → s.entryAllowed x = true → bitAt x.wait 63 = true → (∀ y ∈ s.entries, (y.port, y.ring, y.tag) ≠ x.waitsOn) →
        (∀ h ∈ (s.ring x.waitsOn.1 x.waitsOn.2.1).history, h.1 ≠ x.waitsOn.2.2) → t.entries = s.entries ++ [x]) ∧
      ((x.formOk && s.entryAllowed x) = false → State.completed x stInvalid x.result0 t) ∧
      s.keepsMem t (spaceKey (4 + q) (s.addr (.rqAddr q k 4) (.rqAddr q k 5))) 64 ∧
      s.keeps t [.mem, .ports, .rings, .entries, .accepted])

/-- Once the entry it waits for has completed, a held entry becomes free to start when that entry ended OK or WAIT_ANY is set, and otherwise completes
CANCELLED; nothing but the outstanding entries (and then the ring pairs) changes. A FENCE that may start completes OK once no entry accepted earlier
from its ring (SCOPE 0) or for its partition (SCOPE 1) is outstanding or has a completion that is not written; until then it changes nothing. Its
completion changes the outstanding entries and the ring pairs only. (R188, R194, R196) -/
def Obligations.WaitsAndFencesDecide : Prop :=
  (∀ (s : State) (e : Nat) (x : Entry) (st : Nat), s.entry e = some x → x.st = .waiting → x.parked = none → x.waitDone = some st →
    ((bitAt x.wait 40 = true ∨ st = 0) → s.gives (.waitSatisfied e) (fun t => t.entry e = some { x with st := .ready } ∧ s.keeps t [.entries])) ∧
    (bitAt x.wait 40 = false → st ≠ 0 → s.gives (.waitSatisfied e) (fun t => State.completed x stCancelled x.result0 t ∧ s.keeps t [.entries, .rings]))) ∧
  (∀ (s : State) (e : Nat) (x : Entry), s.startable e 3 = some x →
    ((∀ y ∈ s.entries, y.acc < x.acc → ¬(if bitAt x.arg0 0 then y.part = x.part else (y.port, y.ring) = (x.port, x.ring))) →
     (∀ r ∈ s.rings, ∀ c ∈ r.2.held, c.acc < x.acc → ¬(if bitAt x.arg0 0 then c.part = x.part else c.origin = (x.port, x.ring))) →
      s.gives (.fence e) (fun t => State.completed x stOK 0 t ∧ s.keeps t [.entries, .rings])) ∧
    (s.fenceOpen x = false → exec (.fence e) s = .next (settle s)))

/-- With the link up, the owning function in D0 and no enable or disable of the pair under way, COMPLETION_WRITE writes the 32 bytes of the oldest
held completion, with the phase bit of the pass, into slot cqTail when the host has freed a slot, advances the slot modulo the ring size, and turns
the phase at the end of a pass; when no slot is free nothing but a function level reset that has ended may change. Every byte of memory outside the
slot and the ring record (R185) reads as before (the slot keeps its bytes where the record does not overlap it); a message leaves only for an entry
with IRQ; no other ring pair and nothing else but the functions' pending and reset bits changes. So it is where no completion for the pair waits in
its engine; where exactly one does and fewer than 256 remain held, that entry then completes into the pair (R184). (R184, R185, R190, R502) -/
def Obligations.CompletionIsWrittenToTheFreedSlot : Prop :=
  ∀ (s : State) (q k slot rec : Nat) (c : Compl) (rest : List Compl), q < 2 → k < 256 → (s.ring q k).held = c :: rest → (s.port q).linkUp = true →
    (s.func q (s.ringFunc q k)).d3 = false → (s.ring q k).closing = false → (s.ring q k).ops = [] →
    slot = spaceKey (4 + q) (s.addr (.rqAddr q k 2) (.rqAddr q k 3) + 32 * (s.ring q k).cqTail) →
    rec = spaceKey (4 + q) (s.addr (.rqAddr q k 4) (.rqAddr q k 5)) →
    ((s.ring q k).cqUsed < s.ringSize q k → (∀ y ∈ s.entries, y.home = (q, k) → y.parked = none) →
      s.gives (.completionWrite q k) (fun t =>
        ((rec + 64 ≤ slot ∨ slot + 32 ≤ rec) → ∀ i, i < 32 → t.rd (slot + i) = (c.bytes (s.ring q k).phase).getD i 0) ∧
        (∀ j, (j < slot ∨ slot + 32 ≤ j) → (j < rec ∨ rec + 64 ≤ j) → t.rd j = s.rd j) ∧
        t.ring q k = { s.ring q k with
          held := rest, cqUsed := (s.ring q k).cqUsed + 1, cqTail := ((s.ring q k).cqTail + 1) % s.ringSize q k,
          phase := if (s.ring q k).cqTail + 1 = s.ringSize q k then !(s.ring q k).phase else (s.ring q k).phase } ∧
        (c.irq = false → t.out = s.out) ∧
        (∀ k', k' < 256 → k' ≠ k → t.ring q k' = s.ring q k') ∧ s.keeps t [.mem, .rings, .funcs, .out])) ∧
    (∀ (x : Entry) (st pick res : Nat), (s.ring q k).cqUsed < s.ringSize q k → rest.length - (s.ringSize q k - ((s.ring q k).cqUsed + 1)) < 256 →
      s.entries.filter (fun e => e.home == (q, k) && e.parked.isSome) = [x] → x.parked = some (st, pick, res) →
      s.gives (.completionWrite q k) (fun t => t.entry x.acc = none ∧ (t.ring q k).held = rest ++ [x.compl st pick res] ∧
        s.keeps t [.mem, .rings, .funcs, .out, .entries])) ∧
    (s.ringSize q k ≤ (s.ring q k).cqUsed → s.gives (.completionWrite q k) (fun t => s.keeps t [.funcs]))

/-- A write of HIF_RQ_CTL with EN 1 by the port's PF or the owning function, to a pair that is neither active nor closing and has no operation held,
takes the write's other fields and makes the pair ACTIVE with all indices 0, phase 1 and an empty inline window. A write with EN 0 to an ACTIVE pair
with no operation held and nothing outstanding makes it inactive. Other ring pairs, registers and the rest of the state stay as they are. (R178, R477,
R513) -/
def Obligations.RingPairEnableAndDisable : Prop :=
  (∀ (s : State) (src : Src) (q k v : Nat), q < 2 → k < 256 → s.arrives src = true → s.ringWriter src q k = true → (s.ring q k).active = false →
    (s.ring q k).closing = false → (s.ring q k).ops = [] →
    s.gives (.ringPairEnable src q k v) (fun t =>
      (t.ring q k).active = true ∧ (t.ring q k).sqHead = 0 ∧ (t.ring q k).sqTail = 0 ∧ (t.ring q k).cqHead = 0 ∧ (t.ring q k).cqTail = 0 ∧
      (t.ring q k).cqUsed = 0 ∧ (t.ring q k).phase = true ∧ (t.ring q k).window = [] ∧ (t.ring q k).ops = [] ∧
      t.reg (.rqCtl q k) = setField v 8 1 1 &&& 0x3F001F ∧
      (∀ k', k' < 256 → k' ≠ k → t.ring q k' = s.ring q k') ∧ s.keeps t [.rings, .regs])) ∧
  (∀ (s : State) (src : Src) (q k : Nat), q < 2 → k < 256 → s.arrives src = true → s.ringWriter src q k = true → (s.ring q k).active = true →
    (s.ring q k).closing = false → (s.ring q k).ops = [] → s.ringDrained q k = true →
    s.gives (.ringPairDisable src q k) (fun t => t.ring q k = { s.ring q k with active := false } ∧
      (∀ k', k' < 256 → k' ≠ k → t.ring q k' = s.ring q k') ∧ s.keeps t [.rings]))

/-- A PART_CLUSTERS write of the administrative PF on an UNCONFIGURED or CONFIGURED partition configures it with a free, permitted cluster set, and
one on any other partition sets CFG_REFUSED alone. An idle partition takes a permitted owner. An enable of a CONFIGURED partition that passes every
check and has a way starts ENABLING with FAIL 0 and its looms without images, every accumulator byte zero and every row ready; one that fails a check
leaves it CONFIGURED with the code in FAIL (one without a way likewise, with FAIL 0: the model's choice, log 182). ENABLING ends in ACTIVE. A disable
starts DISABLING, which ends in CONFIGURED once the cache has written back what is the partition's. No other partition changes, and each command
changes only the named parts of the state. (R143, R147, R208, R217, R220, R238, R493, R516, R518) -/
def Obligations.PartitionConfiguresEnablesDisables : Prop :=
  (∀ (s : State) (src : Src) (p v : Nat), p < 16 → s.arrives src = true → s.fromAdmin src = true → (s.part p).st.idle = true →
    s.resourceFree p (.partClusters p) (v % 2 ^ 32) = true → s.portPart p ≠ 0 → v % 2 ^ 32 ≠ 0 →
    s.gives (.partitionConfigure src p v) (fun t => (t.part p) = { s.part p with st := .configured } ∧ t.reg (.partClusters p) = v % 2 ^ 32 ∧
      (∀ p', p' ≠ p → t.part p' = s.part p') ∧ s.keeps t [.regs, .parts])) ∧
  (∀ (s : State) (src : Src) (p v : Nat), p < 16 → s.arrives src = true → s.fromAdmin src = true → (s.part p).st.idle = false →
    s.gives (.partitionConfigure src p v) (fun t => t.part p = { s.part p with cfgRefused := true } ∧ (∀ p', p' ≠ p → t.part p' = s.part p') ∧
      s.keeps t [.parts])) ∧
  (∀ (s : State) (src : Src) (p v : Nat), p < 16 → s.arrives src = true → s.fromAdmin src = true → (s.part p).st.idle = true →
    s.portAllowed p (field (v % 65536) 6 1) = true → s.owner p = none →
    s.gives (.partitionOwnerChange src p v) (fun t => t.reg (.partOwner p) = v % 65536 ∧
      (∀ r : Reg, r.offset ≠ (Reg.partOwner p).offset → t.reg r = s.reg r) ∧ s.keeps t [.regs])) ∧
  (∀ (s : State) (src : Src) (p : Nat), p < 16 → s.arrives src = true → s.partWriter src p = true → (s.part p).st = .configured →
    (s.part p).ops = [] →
    (s.enableFail p = 0 → s.ways p ≠ 0 → s.guests = [] →
      s.gives (.partitionEnable src p) (fun t => (t.part p).st = .enabling ∧ (t.part p).fail = 0 ∧
        (∀ c ∈ s.clusters p, ∀ j a, j < 8 → a < 0x80000 → t.rd (spaceKey 2 ((8 * c + j) * loomBytes) + accBase + a) = 0) ∧
        (∀ c ∈ s.clusters p, ∀ j, j < 8 → (t.loom (8 * c + j)).notReady = [] ∧ (t.loom (8 * c + j)).images = []) ∧
        (∀ p', p' ≠ p → t.part p' = s.part p') ∧ s.keeps t [.mem, .ports, .parts, .looms, .guests, .vacant, .genRetire])) ∧
    ((s.enableFail p ≠ 0 ∨ s.ways p = 0) →
      s.gives (.partitionEnable src p) (fun t => (t.part p).st = .configured ∧ (t.part p).fail = s.enableFail p ∧
        (∀ p', p' ≠ p → t.part p' = s.part p') ∧ s.keeps t [.mem, .ports, .parts]))) ∧
  (∀ (s : State) (p : Nat), (s.part p).st = .enabling → (s.part p).ops = [] → s.boot.phase ≠ .holding →
    s.gives (.partitionEnablingEnd p) (fun t => (t.part p).st = .active ∧ (∀ p', p' ≠ p → t.part p' = s.part p') ∧ s.keeps t [.mem, .ports, .parts])) ∧
  (∀ (s : State) (src : Src) (p : Nat), p < 16 → s.arrives src = true → s.partWriter src p = true → (s.part p).st = .active →
    (s.part p).ops = [] → (∀ e ∈ s.entries, e.parked = none) →
    s.gives (.partitionDisable src p) (fun t => (t.part p).st = .disabling ∧ (∀ e ∈ t.entries, e.part = p → e.parked.isSome = true) ∧ (∀ d ∈ t.drafts, d.part ≠ p) ∧
      (∀ p', p' ≠ p → t.part p' = s.part p') ∧
      s.keeps t [.mem, .ports, .rings, .entries, .drafts, .parts, .looms, .memCtl, .guests, .vacant, .genRetire])) ∧
  (∀ (s : State) (p : Nat), (s.part p).st = .disabling → (s.part p).ops = [] → s.boot.phase ≠ .holding →
    (∀ c ∈ s.memCtl.changes, c.off ≠ (Reg.partCtl p).offset) →
    s.gives (.partitionDisablingEnd p) (fun t => (t.part p).st = .configured ∧ (∀ p', p' ≠ p → t.part p' = s.part p') ∧
      s.keeps t [.mem, .ports, .parts, .funcs]))

/-- A PREEMPT that meets an ACTIVE partition with a save area starts PREEMPTING and stops every running node of it; the end of the save, once no loom
retries a row, makes it PREEMPTED with JOB_STATE preempted and completes the PREEMPT with the save's size. A PREEMPT of a PREEMPTED partition
completes at once. A RESUME whose save passes every check starts RESUMING; the end of a good restore makes the partition ACTIVE with the job state
kept by the save, and completes the RESUME; one that cannot be read leaves it PREEMPTED and completes the RESUME RETRY_EXHAUSTED. A RESUME in a state
other than PREEMPTED and PREEMPTING completes INVALID. No other partition changes, and each command changes only the named parts of the state. (R222,
R223, R225, R477) -/
def Obligations.PreemptSavesAndResumeRestores : Prop :=
  (∀ (s : State) (e : Nat) (x : Entry), s.partEntry e 0x50 = some x → x.parked = none → (s.part x.part).shed = none → bitAt x.arg0 0 = false →
    ((s.part x.part).st = .active → (s.saveBase x.part).isSome = true →
      s.gives (.preempt e) (fun t => (t.part x.part).st = .preempting ∧ (t.part x.part).saving = [e] ∧
        (t.part x.part).savedJob = (s.part x.part).job.st ∧ (∀ d ∈ t.drafts, d.part = x.part → ∀ n ∈ d.nodes, n.st ≠ .running) ∧
        (∀ p', p' ≠ x.part → t.part p' = s.part p') ∧ s.keeps t [.mem, .ports, .entries, .drafts, .parts])) ∧
    ((s.part x.part).st = .preempted →
      s.gives (.preempt e) (fun t => State.completed x stOK (s.saveUnits x.part) t ∧ s.keeps t [.entries, .rings]))) ∧
  (∀ (s : State) (p a : Nat) (x : Entry), (s.part p).st = .preempting → (s.saveBase p).isSome = true → (s.part p).saving = [a] →
    s.entry a = some x → x.parked = none → s.retrying p = false → (s.part p).ops = [] → s.boot.phase ≠ .holding →
    s.gives (.preemptSaveComplete p) (fun t => (t.part p).st = .preempted ∧ (t.part p).saving = [] ∧
      (t.part p).job.st = (if (s.part p).job.st = .none then .none else .preempted) ∧ State.completed x stOK (s.saveUnits p) t ∧
      (∀ p', p' ≠ p → t.part p' = s.part p') ∧ s.keeps t [.mem, .ports, .rings, .entries, .drafts, .parts, .looms])) ∧
  (∀ (s : State) (e : Nat) (x : Entry), s.partEntry e 0x51 = some x → x.parked = none → (s.part x.part).st ≠ .preempted →
    (s.part x.part).st ≠ .preempting →
    s.gives (.resume e) (fun t => State.completed x stInvalid 0 t ∧ s.keeps t [.entries, .rings])) ∧
  (∀ (s : State) (e : Nat) (x : Entry), s.partEntry e 0x51 = some x → (s.part x.part).st = .preempted → s.resumeStatus x.part = 0 →
    s.gives (.resume e) (fun t => (t.part x.part).st = .resuming ∧ (t.part x.part).restoring = [e] ∧
      (∀ p', p' ≠ x.part → t.part p' = s.part p') ∧ s.keeps t [.mem, .ports, .entries, .parts, .guests, .vacant, .genRetire])) ∧
  (∀ (s : State) (p a : Nat) (x : Entry), (s.part p).st = .resuming → (s.saveBase p).isSome = true → (s.part p).restoring = [a] →
    s.entry a = some x → x.worked = false → x.parked = none → s.treadle.state = 0 → (s.part p).ops = [] → s.boot.phase ≠ .holding →
    (∀ base, s.saveBase p = some base → s.anyPoison (partCtx p) (s.moduleNum * 2 ^ 52 + base) (bankBytes (s.part p).savedN) false = false →
      s.gives (.resumeRestoreComplete p true) (fun t => (t.part p).st = .active ∧ (t.part p).restoring = [] ∧
        (t.part p).job.st = (s.part p).savedJob ∧ State.completed x stOK 0 t ∧ (∀ p', p' ≠ p → t.part p' = s.part p') ∧
        s.keeps t [.mem, .ports, .rings, .entries, .drafts, .parts, .looms])) ∧
    s.gives (.resumeRestoreComplete p false) (fun t => (t.part p).st = .preempted ∧ (t.part p).restoring = [] ∧
      State.completed x stRetryExhausted 0 t ∧ (∀ p', p' ≠ p → t.part p' = s.part p') ∧ s.keeps t [.mem, .ports, .rings, .entries, .parts, .looms]))

/-- A write of a CONFIGURED or UNCONFIGURED partition's way mask that names nothing held by another takes effect at once when it gives up no way and
none of its changes is pending, and otherwise waits as the newest cache change; the end of a write-back, with no scrub read waiting, gives the
register of the oldest change its value and leaves no line in the cache that the change concerns, the memory line of a dirty one good. A policy write
that changes the value waits likewise. A PART_SHR_CTL write is taken, but one that would unseal a region while a reader is in service sets CFG_REFUSED
of the region alone. (R237, R238, R240, R242, R243, R516) -/
def Obligations.CacheWaysAndSharedRegionsChange : Prop :=
  (∀ (s : State) (src : Src) (p v : Nat), p < 16 → s.arrives src = true → s.fromAdmin src = true → (s.part p).st.idle = true →
    s.resourceFree p (.partT2Ways p) (v % 2 ^ 32) = true → s.changeOf (.partT2Ways p) = none → v % 2 ^ 32 ≠ s.reg (.partT2Ways p) →
    (field (s.reg (.partT2Ways p)) 16 16 &&& field (v % 2 ^ 32) 16 16 = field (s.reg (.partT2Ways p)) 16 16 →
      s.gives (.cacheWayChange src (Reg.partT2Ways p).offset v) (fun t => t.reg (.partT2Ways p) = v % 2 ^ 32 ∧ s.keeps t [.regs])) ∧
    (field (s.reg (.partT2Ways p)) 16 16 &&& field (v % 2 ^ 32) 16 16 ≠ field (s.reg (.partT2Ways p)) 16 16 →
      s.gives (.cacheWayChange src (Reg.partT2Ways p).offset v) (fun t =>
        t.memCtl = { s.memCtl with changes := s.memCtl.changes ++ [{ off := (Reg.partT2Ways p).offset, value := v % 2 ^ 32 }] } ∧
        s.keeps t [.memCtl]))) ∧
  (∀ (s : State) (src : Src) (i v : Nat), i < 3 → s.arrives src = true → s.fromAdmin src = true → s.changeOf (.mscPolicy i) = none →
    policyValue (s.reg (.mscPolicy i)) v ≠ s.reg (.mscPolicy i) →
    s.gives (.cacheWayChange src (Reg.mscPolicy i).offset v) (fun t =>
      t.memCtl = { s.memCtl with
        changes := s.memCtl.changes ++ [{ off := (Reg.mscPolicy i).offset, value := policyValue (s.reg (.mscPolicy i)) v }] } ∧
      s.keeps t [.memCtl])) ∧
  (∀ (s : State) (r : Reg) (c : CacheChange) (rest : List CacheChange), s.memCtl.changes = c :: rest → regAt c.off = some r →
    s.memCtl.scrubWait = [] →
    s.gives .cacheWritebackComplete (fun t => ((∀ p, r ≠ .partCtl p) → t.reg r = c.value % 2 ^ 32) ∧ (∀ p, r = .partCtl p → t.regs = s.regs) ∧
      t.memCtl.changes = rest ∧ (∀ l ∈ t.memCtl.cache, l ∈ s.memCtl.cache ∧ s.leavesCache c l = false) ∧
      (∀ l ∈ s.memCtl.cache, s.leavesCache c l = true → l.dirty = true → t.memCtl.poison.contains l.key = false) ∧
      (∀ q : Reg, q.offset ≠ r.offset → t.reg q = s.reg q) ∧ s.keeps t [.regs, .memCtl])) ∧
  (∀ (s : State) (src : Src) (i v : Nat), i < 4 → s.arrives src = true → s.fromAdmin src = true →
    ((bitAt (s.reg (.shrCtl i)) 24 = false ∨ bitAt v 24 = true ∨
        (∀ p, p < 16 → bitAt (s.reg (.shrCtl i)) p = true → (s.part p).st.live = false)) →
      s.gives (.sharedRegionSeal src i v) (fun t => t.reg (.shrCtl i) = (v % 2 ^ 32 &&& Reg.rw (.shrCtl i)) ∧
        (∀ q : Reg, q.offset ≠ (Reg.shrCtl i).offset → t.reg q = s.reg q) ∧ s.keeps t [.regs, .shrRefused])) ∧
    (bitAt (s.reg (.shrCtl i)) 24 = true → bitAt v 24 = false → (∃ p, p < 16 ∧ bitAt (s.reg (.shrCtl i)) p = true ∧ (s.part p).st.live = true) →
      s.gives (.sharedRegionSeal src i v) (fun t => bitAt t.shrRefused i = true ∧ s.keeps t [.shrRefused])))

/-- A KNOT_EVENT of a class that its source raises (of class 0x14, for a dirty line of the cache, R239) sets the source's knot bit, increases SEQ and
the source's event count, and records its class; with REACT 0 it leaves the handling window as it is; with another REACT it opens a closed window with
its source and class, and is merged into an open one (MERGED, KNOT_MERGED, KNOT_MERGE_COUNT). An event of class 0x14 for a clean line drops it and
does nothing else. A FORCE write of the administrative PF does the same with class 0x3E. A FAULT_INJECT without EFFECT does the same with the named
class and completes OK when the reaction is 0, 1 or 2; one with EFFECT on an HBM pseudo-channel arms the fault and completes. All this holds whatever
else the reaction does. (R239, R432, R435, R438, R439, R440, R441, R442) -/
def Obligations.FaultEventsSetTheKnot : Prop :=
  let noted (s t : State) (source cls : Nat) : Prop :=
    t.knot.word = setField s.knot.word source 1 1 ∧ t.knot.seq = s.knot.seq + 1 ∧ tget 0 t.knot.lastClass source = cls ∧
    tget 0 t.knot.events source = satInc 16 (tget 0 s.knot.events source) 1 ∧
    (s.react source = 0 → t.knot.windowOpen = s.knot.windowOpen ∧ t.knot.merged = s.knot.merged ∧ t.knot.mergeCount = s.knot.mergeCount) ∧
    (s.react source ≠ 0 → s.knot.windowOpen = false → t.knot.windowOpen = true ∧ t.knot.firstSource = source ∧ t.knot.firstClass = cls ∧
      t.knot.mergeCount = s.knot.mergeCount) ∧
    (s.react source ≠ 0 → s.knot.windowOpen = true → t.knot.windowOpen = true ∧ t.knot.firstSource = s.knot.firstSource ∧ t.knot.mergedBit = true ∧
      t.knot.merged = setField s.knot.merged source 1 1 ∧ t.knot.mergeCount = satInc 32 s.knot.mergeCount 1)
  (∀ (s : State) (ev : FaultEv), classBelongs ev.source ev.cls = true → ev.cls ≠ 0x3E → ev.cls ≠ 0x40 → ev.cls ≠ 0x14 →
    s.gives (.knotEvent ev) (fun t => noted s t ev.source ev.cls ∧ t.retired = s.retired ∧ t.fuses = s.fuses ∧ t.accepted = s.accepted)) ∧
  (∀ (s : State) (ev : FaultEv), classBelongs ev.source ev.cls = true → ev.cls = 0x14 →
    (∀ l, s.cachedLine ev.address = some l → l.dirty = true →
      s.gives (.knotEvent ev) (fun t => noted s t ev.source ev.cls ∧ t.retired = s.retired ∧ t.fuses = s.fuses ∧ t.accepted = s.accepted)) ∧
    (∀ l, s.cachedLine ev.address = some l → l.dirty = false →
      s.gives (.knotEvent ev) (fun t => t.memCtl = { s.memCtl with cache := s.memCtl.cache.filter (fun x => x.key != l.key) } ∧ s.keeps t [.memCtl])) ∧
    (s.cachedLine ev.address = none → exec (.knotEvent ev) s = .next (settle s))) ∧
  (∀ (s : State) (src : Src) (source : Nat), s.arrives src = true → s.fromAdmin src = true → source < 62 →
    s.gives (.force src source) (fun t => noted s t source 0x3E ∧ t.retired = s.retired ∧ t.fuses = s.fuses ∧ t.units = s.units)) ∧
  (∀ (s : State) (e : Nat) (x : Entry), s.startable e 0x70 = some x → x.arg1 < 2 ^ 40 → field x.arg1 10 6 = 0 →
    classBelongs x.arg0 (field x.arg1 0 8) = true →
    (bitAt x.arg1 8 = false → s.react x.arg0 ≤ 2 →
      s.gives (.faultInject e) (fun t => noted s t x.arg0 (field x.arg1 0 8) ∧ State.completed x stOK 0 t ∧ t.retired = s.retired ∧ t.fuses = s.fuses)) ∧
    (bitAt x.arg1 8 = true → field x.arg1 0 8 = 0x10 → field x.arg1 16 16 < 256 →
      s.gives (.faultInject e) (fun t =>
        tget 0 t.memCtl.armed (65536 + field x.arg1 16 16) =
          max (max 1 (field x.arg1 32 8)) (tget 0 s.memCtl.armed (65536 + field x.arg1 16 16)) ∧
        State.completed x stOK 0 t ∧ s.keeps t [.memCtl, .entries, .rings])))

/-- A write of the administrative PF to KNOT_WORD clears exactly the knot bits of that register it writes 1 to, but one that an event sets in the same
cycle, and leaves every other bit. A write of 1 to OPEN closes the window and clears MERGED and KNOT_MERGED, unless an event is merged in the same
cycle, when it changes nothing. KNOT_LOG_HEAD takes the low 16 bits. Each changes nothing else of the state. (R15, R434, R438, R439) -/
def Obligations.HostClearsTheKnot : Prop :=
  ∀ (s : State) (src : Src), s.arrives src = true → s.fromAdmin src = true →
    (∀ (hi : Bool) (v setNow : Nat), s.gives (.knotWordClear src hi v setNow) (fun t =>
      (∀ i, bitAt t.knot.word i =
        if (if hi then 32 else 0) ≤ i ∧ i < (if hi then 62 else 32) ∧ bitAt v (i - if hi then 32 else 0) = true ∧
          bitAt setNow (i - if hi then 32 else 0) = false then false else bitAt s.knot.word i) ∧
      t.knot = { s.knot with word := t.knot.word } ∧ s.keeps t [.knot])) ∧
    (∀ v, bitAt v 16 = true → s.gives (.handlingWindowClose src v false) (fun t =>
      t.knot = { s.knot with windowOpen := false, mergedBit := false, merged := 0 } ∧ s.keeps t [.knot])) ∧
    (∀ v, exec (.handlingWindowClose src v true) s = .next (settle s)) ∧
    (∀ v, s.gives (.knotLogHead src v) (fun t => t.knot = { s.knot with head := v % 65536 } ∧ s.keeps t [.knot]))

/-- When the relocation of an HBM or tier-2 group ends, in a state whose memory is in its canonical form and whose poison table names no place that is
not in use, with nothing stored uncorrectable, every byte of the group reads, where its unit now lies, as it read where the unit lay before; a line of
the group is poisoned there afterwards exactly when it was poisoned before or lies in a unit that is newly relocated and was found bad, and a newly
found one sets the knot bit of its stack or package. Nothing else changes but the memory controllers' tables, the free values drawn for scrub reads
that waited (log 178), and with a bad line the knot and its unit's hard events. With bad lines this is of a module whose stacks and packages have
REACT 0, whose fault log is off and whose poison tables have room: a stronger reaction does more, a full table retires the unit. (R233, R235, R435) -/
def Obligations.RelocationKeepsEveryByte : Prop :=
  ∀ (s : State) (tier2 : Bool) (g sp : Nat) (bad : List Nat), sp = b2n tier2 → g < (if tier2 then 16 else 32) → Memory.wf s.mem →
    s.memCtl.relocating.contains (256 * sp + g) = true → s.memCtl.corrupt = [] → s.memCtl.poison.length + bad.length < 4096 →
    (bad = [] ∨ ((∀ source, 32 ≤ source → source < 44 → s.react source = 0) ∧ s.bit .knotLogCtl 4 = false)) →
    (∀ o, o < 2 ^ 48 → s.memCtl.relocated.contains (65536 * unitClass sp + unitOf sp o) = false → s.memCtl.poison.contains (spaceKey (0x20 + sp) o) = false) →
    s.gives (.relocationComplete tier2 g bad) (fun t =>
      (∀ o, g * groupBytes sp ≤ o → o < (g + 1) * groupBytes sp → t.rd (t.dataKey sp o) = s.rd (s.dataKey sp o)) ∧
      (∀ o, g * groupBytes sp ≤ o → o < (g + 1) * groupBytes sp → o % 64 = 0 →
        t.memCtl.poison.contains (t.dataKey sp o) = (s.memCtl.poison.contains (s.dataKey sp o) ||
          (s.isRetired (unitClass sp) (unitOf sp o) && !s.memCtl.relocated.contains (65536 * unitClass sp + unitOf sp o) &&
            bad.any (fun b => b / 64 * 64 == o)))) ∧
      (∀ b ∈ bad, b < 2 ^ 48 → groupOf sp b = g → s.isRetired (unitClass sp) (unitOf sp b) = true →
        s.memCtl.relocated.contains (65536 * unitClass sp + unitOf sp b) = false → s.memCtl.poison.contains (s.dataKey sp (b / 64 * 64)) = false →
        bitAt t.knot.word (unitSource (unitClass sp) (unitOf sp b)).1 = true) ∧
      (bad = [] → s.keeps t [.mem, .memCtl, .draws]) ∧ s.keeps t [.mem, .memCtl, .units, .knot, .draws])

/-- The end of a unit's window sets its score to half the old one plus 16 times its hard events plus its soft ones and starts its counts afresh; below
the bar nothing else changes, and a live HBM pseudo-channel at the bar becomes retired, last in the log, with its stack's knot bit set. A
RETIREMENT_CLEAR while every partition is UNCONFIGURED empties the map, its guests and vacancies; while one is not it changes nothing. A controller
that returns from its reset with no scrub read waiting serves again. (R235, R436, R444, R446, R453) -/
def Obligations.RetirementByScore : Prop :=
  (∀ (s : State) (cls u : Nat), u < unitCount cls →
    (s.setUnit cls u { score := (s.unit cls u).score / 2 + 16 * (s.unit cls u).hard + (s.unit cls u).soft }).permanentAt cls >
      (s.unit cls u).score / 2 + 16 * (s.unit cls u).hard + (s.unit cls u).soft →
    s.gives (.classifierWindowEnd cls u) (fun t =>
      t.unit cls u = { score := (s.unit cls u).score / 2 + 16 * (s.unit cls u).hard + (s.unit cls u).soft } ∧ s.keeps t [.units])) ∧
  (∀ (s : State) (u : Nat), u < 256 → s.isRetired 1 u = false →
    (s.setUnit 1 u { score := (s.unit 1 u).score / 2 + 16 * (s.unit 1 u).hard + (s.unit 1 u).soft }).permanentAt 1 ≤
      (s.unit 1 u).score / 2 + 16 * (s.unit 1 u).hard + (s.unit 1 u).soft →
    s.gives (.classifierWindowEnd 1 u) (fun t => t.retired = s.retired ++ [65536 + u] ∧ bitAt t.knot.word (32 + u / 32) = true ∧
      t.fuses = s.fuses ∧ t.accepted = s.accepted)) ∧
  (∀ (s : State) (src : Src) (v : Nat), s.arrives src = true → s.fromAdmin src = true → bitAt v 0 = true →
    ((∀ p, p < 16 → (s.part p).st = .unconfigured) →
      s.gives (.retirementClear src v) (fun t => t.retired = [] ∧ t.guests = [] ∧ t.vacant = [] ∧ t.memCtl.relocated = [] ∧
        s.keeps t [.mem, .ports, .units, .retired, .guests, .vacant, .memCtl, .genRetire])) ∧
    ((∃ p, p < 16 ∧ (s.part p).st ≠ .unconfigured) → exec (.retirementClear src v) s = .next (settle s))) ∧
  (∀ (s : State) (source : Nat), 32 ≤ source → source < 44 → s.memCtl.scrubWait = [] →
    s.gives (.blockResetReturn source) (fun t => t.memCtl = { s.memCtl with resetting := s.memCtl.resetting.filter (· != source - 32) } ∧
      s.keeps t [.memCtl])) ∧
  (∀ (s : State) (q : Nat), q < 2 → (s.port q).perst = false → (s.port q).maxWidth ≠ 0 → s.memCtl.scrubWait = [] →
    s.gives (.blockResetReturn (50 + q)) (fun t => t.port q = { s.port q with linkUp := true } ∧ s.keeps t [.ports]))

/-- LINK_ENABLE by a writer of the WFL block sets LINK_EN of that lane only and moves a DISABLED link to DETECT where the dimension's extent is not 1.
LINK_DETECT with a receiver and a cable moves DETECT to EQUALISE and asks for the cable memory. LINK_EQUALISE_DONE moves EQUALISE to IDENTIFY, records
the loss, qualifies the link for low latency at 12.0 dB or less, and sends the ident block. An ident block that passes every check moves IDENTIFY to
ACTIVE in FEC mode with the partner and the version recorded. Each writes the fabric page and changes no other link and nothing else. The three ways
to fail (a dimension of extent 1, an EQUALISE or IDENTIFY time-out, an ident block that fails a check) give FAILED with causes 8, 1, 2 and that of the
check, with other links as they were; this clause assumes REACT 0 or 1 of the port's knot bit, since a stronger reaction does more. (R265, R267, R268,
R269, R276, R298, R299, R531) -/
def Obligations.LinksTrainAndFail : Prop :=
  ∀ (s : State) (l : Nat), l < 96 →
    (∀ src, s.arrives src = true → s.wflWriter src = true → s.linkEn l = false → (s.link l).st = 0 → s.extent (l / 32) ≠ 1 →
      s.gives (.linkEnable src (l / 16) (l % 16)) (fun t =>
        s.movesLink t l { s.link l with st := 1, cause := 0 } [.regs] ∧ t.linkEn l = true ∧
        (∀ m, m < 96 → m ≠ l → t.linkEn m = s.linkEn m))) ∧
    ((s.link l).st = 1 → s.gives (.linkDetect l true true) (fun t =>
      s.movesLink t l { s.link l with st := 2, cause := 0 } [.out] ∧ t.out = s.out ++ [.cableRead (l / 16)])) ∧
    (∀ loss, (s.link l).st = 2 → s.gives (.linkEqualiseDone l loss) (fun t =>
      s.movesLink t l { s.link l with st := 3, cause := 0, loss := loss, llq := decide (loss ≤ 120) } [.out] ∧
      t.out = s.out ++ [.ident l (t.identBlock l)])) ∧
    (∀ block v, (s.link l).st = 3 → block.length = 32 → crc32 (block.take 28) = le block 28 4 → s.identCause l block = 0 →
      s.commonVersion block = some v → (s.link l).switching = none → (s.link l).replay = [] → s.fabric.queue = [] → s.modePolicy l ≠ 1 →
      (∀ m, m < 96 → m / 16 = l / 16 → (s.link m).retrainDue = false) → (s.link l).resends < 2 ^ 32 →
      s.gives (.identBlock l block) (fun t => s.movesLink t l { s.link l with
        st := 4, cause := 0, proto := v, peerLlq := bitAt (le block 3 1) 0, peerMin := le block 6 2, peerMax := le block 8 2, ll := false
        want := none, peerWant := none, acked := false, partner := some (le block 0 2, le block 2 1, le block 4 2) } [])) ∧
    (s.react (44 + l / 16) ≤ 1 →
      (∀ src, s.arrives src = true → s.wflWriter src = true → s.linkEn l = false → (s.link l).st = 0 → s.extent (l / 32) = 1 →
        s.gives (.linkEnable src (l / 16) (l % 16)) (fun t =>
          (t.link l).st = 7 ∧ (t.link l).cause = 8 ∧ t.linkEn l = true ∧ (∀ m, m ≠ l → t.link m = s.link m))) ∧
      ((s.link l).st = 2 → s.gives (.linkEqualiseTimeout l) (fun t =>
        (t.link l).st = 7 ∧ (t.link l).cause = 1 ∧ (∀ m, m ≠ l → t.link m = s.link m) ∧ t.regs = s.regs ∧ t.parts = s.parts)) ∧
      ((s.link l).st = 3 → s.gives (.linkIdentifyTimeout l) (fun t =>
        (t.link l).st = 7 ∧ (t.link l).cause = 2 ∧ (∀ m, m ≠ l → t.link m = s.link m) ∧ t.regs = s.regs ∧ t.parts = s.parts)) ∧
      (∀ block, (s.link l).st = 3 → block.length = 32 → crc32 (block.take 28) = le block 28 4 → s.identCause l block ≠ 0 →
        s.gives (.identBlock l block) (fun t =>
          (t.link l).st = 7 ∧ (t.link l).cause = s.identCause l block ∧ (∀ m, m ≠ l → t.link m = s.link m) ∧ t.regs = s.regs)))

/-- Let one module be the neighbour that the other's port faces, with the same extents, the same DOMAIN, and version ranges that overlap, the same
lane at both ends. Then the ident block that either sends passes the CRC and every check of the other, and both choose the same version, the smaller
of the two PROTO_MAX. (R47, R264, R268, R269) -/
def Obligations.FacingEndsIdentify : Prop :=
  ∀ (s u : State) (l m : Nat), l < 96 → m = 16 * (l / 32 * 2 + (1 - l / 16 % 2)) + l % 16 → u.moduleNum = s.neighbour (l / 16) →
    s.inTorus s.moduleNum = true → (∀ d, u.extent d = s.extent d) → u.domain = s.domain →
    s.boot.image.protoMin < 65536 → s.boot.image.protoMax < 65536 → u.boot.image.protoMin < 65536 → u.boot.image.protoMax < 65536 →
    max s.boot.image.protoMin u.boot.image.protoMin ≤ min s.boot.image.protoMax u.boot.image.protoMax →
    (u.identBlock m).length = 32 ∧ crc32 ((u.identBlock m).take 28) = le (u.identBlock m) 28 4 ∧ s.identCause l (u.identBlock m) = 0 ∧
    s.commonVersion (u.identBlock m) = some (min s.boot.image.protoMax u.boot.image.protoMax) ∧
    crc32 ((s.identBlock l).take 28) = le (s.identBlock l) 28 4 ∧ u.identCause m (s.identBlock l) = 0 ∧
    u.commonVersion (s.identBlock l) = some (min s.boot.image.protoMax u.boot.image.protoMax)

/-- LINK_LOSS_OF_LOCK on an ACTIVE link and WAKE_FROM_IDLE on an idled one go to RETRAIN in FEC mode and count one retraining (and a hard event of the
link's classifier unit); IDLE_ENTER idles an ACTIVE link. With nothing waiting to be sent, LINK_DISABLE of an ACTIVE link clears LINK_EN and drains it
(the rest of a packet begun is then discarded as it comes), and LINK_DRAIN_COMPLETE takes a draining link to DISABLED, forgetting what both ends
forget, or to DETECT where LINK_EN was set again meanwhile, or past it to DISABLED where it was cleared after that. A packet that comes by a link
which is disabled, and has begun to leave by another, is ended there with a STOMP flit. Other links, and all but the named parts of the state, stay as
they were. CABLE_MEMORY_READ_COMPLETE and CABLE_MEMORY_TIMEOUT change nothing (that the preset is not visible is the model's reading of R531). (R267,
R272, R276, R285, R443, R464, R477, R531) -/
def Obligations.LinksLeaveService : Prop :=
  ∀ (s : State) (l : Nat), l < 96 →
    ((s.link l).st = 4 → s.gives (.linkLossOfLock l) (fun t =>
      s.movesLink t l { s.link l with
        st := 5, cause := 0, ll := false, retrains := satInc 32 (s.link l).retrains 1, retrainDue := false, naked := false
        replay := (s.link l).replay.map (fun f => { f with tries := 0 }) } [.units] ∧
      t.unit 3 l = { s.unit 3 l with hard := (s.unit 3 l).hard + 1 })) ∧
    ((s.link l).st = 6 → s.gives (.wakeFromIdle l) (fun t =>
      s.movesLink t l { s.link l with
        st := 5, cause := 0, ll := false, retrains := satInc 32 (s.link l).retrains 1, retrainDue := false, naked := false
        replay := (s.link l).replay.map (fun f => { f with tries := 0 }) } [.units] ∧
      t.unit 3 l = { s.unit 3 l with hard := (s.unit 3 l).hard + 1 })) ∧
    ((s.link l).st = 4 → s.gives (.idleEnter l) (fun t => s.movesLink t l { s.link l with st := 6, cause := 0 } [])) ∧
    ((s.link l).replay = [] → s.fabric.queue = [] → (s.link l).busy = none →
      (∀ src o, s.arrives src = true → s.wflWriter src = true → s.linkEn l = true → (s.link l).st = 4 → (s.link l).fwd = some o → o ≠ l →
        (s.link o).st = 4 → (s.link o).sinceIdle + 1 < 4095 →
        s.gives (.linkDisable src (l / 16) (l % 16)) (fun t => (t.link l).st = 9 ∧ (t.link l).fwd = none ∧ (t.link o).busy = none ∧
          t.linkEn l = false ∧ t.out = s.out ++ [.flit o (flitBytes 4 (s.link o).txSeq (s.link o).ack 0
            ((s.link l).rxBuf.take 496 ++ zeros (496 - (s.link l).rxBuf.length)))] ∧
          (∀ m, m ≠ l → m ≠ o → t.link m = s.link m) ∧ s.keeps t [.mem, .ports, .regs, .links, .fabric, .out]))) ∧
    ((s.link l).replay = [] → s.fabric.queue = [] → (s.link l).fwd = none → (s.link l).busy = none →
      (∀ src, s.arrives src = true → s.wflWriter src = true → s.linkEn l = true → (s.link l).st = 4 →
        s.gives (.linkDisable src (l / 16) (l % 16)) (fun t =>
          s.movesLink t l { s.link l with st := 9, cause := 0, rxDrop := !(s.link l).rxBuf.isEmpty } [.regs] ∧ t.linkEn l = false ∧
          (∀ m, m < 96 → m ≠ l → t.linkEn m = s.linkEn m))) ∧
      ((s.link l).st = 9 → (s.link l).heldEnable = false → s.gives (.linkDrainComplete l) (fun t =>
        s.movesLink t l { (s.link l).forget with st := 0, cause := 0 } [])) ∧
      ((s.link l).st = 9 → (s.link l).heldEnable = true → s.linkEn l = true → s.extent (l / 32) ≠ 1 → s.gives (.linkDrainComplete l) (fun t =>
        t.link l = { (s.link l).forget with st := 1, cause := 0 } ∧ (∀ m, m ≠ l → t.link m = s.link m) ∧ s.keeps t [.mem, .ports, .links, .fabric])) ∧
      ((s.link l).st = 9 → (s.link l).heldEnable = true → s.linkEn l = false → s.extent (l / 32) ≠ 1 → s.gives (.linkDrainComplete l) (fun t =>
        t.link l = { (s.link l).forget with st := 0, cause := 0 } ∧ (∀ m, m ≠ l → t.link m = s.link m) ∧ s.keeps t [.mem, .ports, .links, .fabric]))) ∧
    (∀ p ty dm, exec (.cableMemoryReadComplete p ty dm) s = .next (settle s) ∧ exec (.cableMemoryTimeout p) s = .next (settle s))

/-- A NAK of the oldest unacknowledged flit of an ACTIVE link, itself resent fewer than eight times, sends every flit of the replay buffer again in
order, counts one resend of each and that many resends of the link, and keeps the buffer (with the next idle flit not yet due, R266); after the eighth
the link retrains, and the flits are resent afresh after it. A MODE_REQ is noted as the partner's wish while neither end can agree on a change; a
MODE_ACK of the mode being changed to, under version 2, is remembered while flits are unacknowledged, and with none puts the link in that mode. The
end of a window clears the link's four window counters; under a policy other than 2 nothing is asked for, and under policy 2 the eighth clean window
of a qualified link asks for low-latency mode. The page timer advances GEN by 2. No other link changes. (R266, R272, R273, R276, R277, R278, R298) -/
def Obligations.ReplayAndModes : Prop :=
  (∀ (s : State) (l : Nat) (f : Sent) (rest : List Sent), (s.link l).st = 4 → (s.link l).replay = f :: rest → f.seq < 4096 → (s.link l).armed = 0 →
    (∀ g ∈ (s.link l).replay, g.seq ≠ (f.seq + 4095) % 4096) →
    (f.tries < 8 → (s.link l).sinceIdle + (s.link l).replay.length < 4095 → s.gives (.nak l f.seq) (fun t =>
      t.link l = { s.link l with
        replay := (s.link l).replay.map (fun g => { g with tries := g.tries + 1 }), resends := satInc 32 (s.link l).resends (s.link l).replay.length
        sinceIdle := (s.link l).sinceIdle + (s.link l).replay.length } ∧
      (∀ m, m ≠ l → t.link m = s.link m) ∧
      t.out = s.out ++ (s.link l).replay.map (fun g => .flit l (flitBytes 0 g.seq (s.link l).ack 0 g.body)) ∧
      s.keeps t [.links, .units, .out])) ∧
    (8 ≤ f.tries → s.gives (.nak l f.seq) (fun t => (t.link l).st = 5 ∧
      (t.link l).replay = (s.link l).replay.map (fun g => { g with tries := 0 }) ∧
      (t.link l).retrains = satInc 32 (s.link l).retrains 1 ∧ (∀ m, m ≠ l → t.link m = s.link m)))) ∧
  (∀ (s : State) (l mode : Nat), (s.link l).st = 4 → mode < 2 → (s.link l).switching = none →
    ((s.link l).ll = true → (s.link l).want ≠ some 0 → mode = 1 →
      s.gives (.modeReq l mode) (fun t => t.link l = { s.link l with peerWant := some mode } ∧ (∀ m, m ≠ l → t.link m = s.link m) ∧ s.keeps t [.links])) ∧
    ((s.link l).ll = false → ((s.link l).want ≠ some 1 ∨ mode = 0 ∨ s.modePolicy l = 0) →
      s.gives (.modeReq l mode) (fun t => t.link l = { s.link l with peerWant := some mode } ∧ (∀ m, m ≠ l → t.link m = s.link m) ∧ s.keeps t [.links]))) ∧
  (∀ (s : State) (l mode : Nat), (s.link l).switching = some mode → (s.link l).proto ≠ 1 →
    ((s.link l).replay ≠ [] → s.gives (.modeAck l mode) (fun t => t.link l = { s.link l with acked := true } ∧ (∀ m, m ≠ l → t.link m = s.link m) ∧
      s.keeps t [.links])) ∧
    ((s.link l).replay = [] → s.fabric.queue = [] → (s.modePolicy l = 0 → mode ≠ 1) → (s.modePolicy l = 1 → mode = 1) → s.gives (.modeAck l mode) (fun t =>
      t.link l = { s.link l with ll := (mode == 1), switching := none, want := none, peerWant := none, acked := false } ∧
      (∀ m, m ≠ l → t.link m = s.link m) ∧ s.keeps t [.links]))) ∧
  (∀ (s : State) (l corrected uncorrected : Nat), s.modePolicy l ≠ 2 → s.gives (.linkModeTempleWindow ⟨l, corrected, uncorrected⟩) (fun t =>
    (t.link l).resends = 0 ∧ (t.link l).crcErrors = 0 ∧ (t.link l).fecCorrected = 0 ∧ (t.link l).fecUncorrected = 0 ∧
    (t.link l).ll = (s.link l).ll ∧ (t.link l).st = (s.link l).st ∧ (t.link l).replay = (s.link l).replay ∧ (t.link l).want = (s.link l).want ∧
    (∀ m, m ≠ l → t.link m = s.link m) ∧ s.keeps t [.links])) ∧
  (∀ (s : State) (l corrected uncorrected : Nat), s.modePolicy l = 2 → (s.link l).st = 4 → (s.link l).switching = none → (s.link l).ll = false →
    (s.link l).llq = true → satInc 32 (s.link l).fecCorrected corrected ≤ s.fld .wflTemple 16 16 → 7 ≤ (s.link l).clean →
    (s.link l).peerWant ≠ some 1 → (s.link l).sinceIdle + 1 < 4095 →
    s.gives (.linkModeTempleWindow ⟨l, corrected, uncorrected⟩) (fun t => (t.link l).want = some 1 ∧ (t.link l).ll = false ∧
      t.out = s.out ++ [.flit l (flitBytes 2 (((s.link l).txSeq + 4095) % 4096) (s.link l).ack 0 (leBytes 1 2 ++ leBytes 2 1 ++ zeros 493))] ∧
      (∀ m, m ≠ l → t.link m = s.link m) ∧ s.keeps t [.links, .out])) ∧
  (∀ s : State, s.gives .fabricPageTimer (fun t => t.fabric = { s.fabric with gen := (s.fabric.gen + 2) % 2 ^ 64 } ∧ s.keeps t [.mem, .ports, .fabric]))

/-- For every packet whose fields fit their widths, whose TYPE is not 0 (PAD) and whose data are as long as its LEN says, reading the packet's bytes
gives the packet back; and a receiver that takes the flit bodies of those bytes one after another, with no packet begun, ends with exactly that packet
and with no packet begun. (R270, R271, R274, R275, R279, R280) -/
def Obligations.PacketCrossesALinkWhole : Prop :=
  ∀ p : Packet, p.wf = true → p.ty ≠ 0 → p.data.length = 64 * pktLines p →
    pktOfBytes (pktBytes p) = p ∧
    (bodies (pktBytes p)).foldl (fun (r : List Packet × List Byte) b => (r.1 ++ (splitBody 32 r.2 b).1, (splitBody 32 r.2 b).2)) ([], []) = ([p], [])

/-- On an ACTIVE link, no reduction stream of the module at work and the next idle flit not yet due: a data flit whose CRC is wrong counts one CRC
error and draws one NAK for the SEQ expected, unless one is out already; an idle or control flit so only counts. Where the packet it belongs to had
begun to be forwarded, its bytes leave there with STOMP first. A good data flit with another SEQ than the one expected draws that NAK and nothing
else, and none where one is out. A STOMP flit with a good CRC changes nothing. A good data flit of the SEQ expected, which completes no packet, begins
none to be forwarded, acknowledges no flit and returns no credit, advances the SEQ expected modulo 4096 and keeps the bytes of the packet begun. No
other link changes. (R266, R270, R272, R273, R274, R275) -/
def Obligations.FlitsAreTakenInSequence : Prop :=
  ∀ (s : State) (l : Nat) (flit : List Byte), l < 96 → (s.link l).st = 4 → flit.length = 512 → s.deferred = [] →
    (∀ x ∈ s.parts, x.2.streams = []) → (s.link l).sinceIdle + 1 < 4095 →
    let nakFlit : Out := .flit l (flitBytes 2 (((s.link l).txSeq + 4095) % 4096) (s.link l).ack 0 (leBytes 1 1 ++ leBytes 2 (s.link l).rxSeq ++ zeros 493))
    (crc32 (flit.take 508) ≠ le flit 508 4 →
      ((field (le flit 0 1) 0 2 ≠ 0 ∨ (s.link l).naked = true) → s.gives (.flitReceive l flit) (fun t =>
        t.link l = { s.link l with crcErrors := satInc 32 (s.link l).crcErrors 1 } ∧ (∀ m, m ≠ l → t.link m = s.link m) ∧ s.keeps t [.links])) ∧
      (field (le flit 0 1) 0 2 = 0 → (s.link l).naked = false →
        (field (le flit 2 2) 0 12 ≠ (s.link l).rxSeq ∨ (s.link l).rxDrop = true ∨ ((s.link l).fwd = none ∧ (s.link l).rxBuf ≠ [])) →
        s.gives (.flitReceive l flit) (fun t =>
          t.link l = { s.link l with
            crcErrors := satInc 32 (s.link l).crcErrors 1, naked := true, sinceIdle := (s.link l).sinceIdle + 1 } ∧
          (∀ m, m ≠ l → t.link m = s.link m) ∧ t.out = s.out ++ [nakFlit] ∧ s.keeps t [.links, .out])) ∧
      (∀ o, field (le flit 0 1) 0 2 = 0 → (s.link l).naked = false → field (le flit 2 2) 0 12 = (s.link l).rxSeq → (s.link l).rxDrop = false →
        (s.link l).fwd = some o → o ≠ l → (s.link o).sinceIdle + 1 < 4095 →
        s.gives (.flitReceive l flit) (fun t =>
          t.out = s.out ++ [.flit o (flitBytes 4 (s.link o).txSeq (s.link o).ack 0 (((s.link l).rxBuf ++ slice flit 12 496).take 496 ++
            zeros (496 - ((s.link l).rxBuf ++ slice flit 12 496).length))), nakFlit] ∧
          (t.link l).naked = true ∧ (t.link l).rxSeq = (s.link l).rxSeq ∧ (t.link l).rxBuf = (s.link l).rxBuf ∧
          t.link o = { s.link o with sinceIdle := (s.link o).sinceIdle + 1 } ∧ (∀ m, m ≠ l → m ≠ o → t.link m = s.link m) ∧
          s.keeps t [.links, .out]))) ∧
    (crc32 (flit.take 508) = le flit 508 4 → bitAt (le flit 0 1) 2 = true → exec (.flitReceive l flit) s = .next (settle s)) ∧
    (crc32 (flit.take 508) = le flit 508 4 → bitAt (le flit 0 1) 2 = false → field (le flit 0 1) 0 2 = 0 →
      (field (le flit 2 2) 0 12 ≠ (s.link l).rxSeq → (s.link l).naked = true → exec (.flitReceive l flit) s = .next (settle s)) ∧
      (field (le flit 2 2) 0 12 ≠ (s.link l).rxSeq → (s.link l).naked = false → s.gives (.flitReceive l flit) (fun t =>
        t.link l = { s.link l with naked := true, sinceIdle := (s.link l).sinceIdle + 1 } ∧ (∀ m, m ≠ l → t.link m = s.link m) ∧
        t.out = s.out ++ [nakFlit] ∧ s.keeps t [.links, .out])) ∧
      (∀ buf, field (le flit 2 2) 0 12 = (s.link l).rxSeq → splitBody 32 (s.link l).rxBuf (slice flit 12 496) = ([], buf) →
        (∀ f ∈ (s.link l).replay, f.seq ≠ field (le flit 4 2) 0 12) → field (le flit 6 2) 3 9 = 0 →
        (buf.length < 16 ∨ (s.link l).rxDrop = true ∨ (s.link l).fwd.isSome = true ∨ (pktOfBytes (buf.take 16)).dst = s.moduleNum) →
        s.gives (.flitReceive l flit) (fun t =>
          t.link l = { s.link l with rxSeq := ((s.link l).rxSeq + 1) % 4096, naked := false, rxBuf := buf } ∧
          (∀ m, m ≠ l → t.link m = s.link m) ∧ s.keeps t [.links])))

/-- RED_ADD adds modulo 2^64, RED_OR is bitwise OR, and RED_MAX8 is the unsigned maximum byte by byte of a 64-byte line. Each is associative and
commutative. Hence the combination that a stream holds for an element is the same whatever order the same contributions come in, from whichever
sources. (R290) -/
def Obligations.CombinationIsOrderFree : Prop :=
  (∀ a b : Nat, combine 0 a b = (a + b) % 2 ^ 64) ∧
  (∀ a b i : Nat, bitAt (combine 1 a b) i = (bitAt a i || bitAt b i)) ∧
  (∀ a b i : Nat, i < 64 → field (combine 2 a b) (8 * i) 8 = max (field a (8 * i) 8) (field b (8 * i) 8)) ∧
  (∀ a b : Nat, combine 2 a b < 2 ^ 512) ∧
  (∀ part a b c : Nat, combine part (combine part a b) c = combine part a (combine part b c)) ∧
  (∀ part a b : Nat, combine part a b = combine part b a) ∧
  (∀ (x : Stream) (kind e : Nat) (l1 l2 : List (Nat × Nat)), l1.Perm l2 →
    (∀ c ∈ l1, c.2 < if kind % 4 = 0 then 2 ^ 64 else 2 ^ 512) →
    (l1.foldl (fun z c => z.add kind e c.1 c.2) x).sum kind e = (l2.foldl (fun z c => z.add kind e c.1 c.2) x).sum kind e)

/-- For a request of this domain and module that passes the checks of R295, outside T2 and, where it writes, not one applied before, while no record
waits to be written: an RD_REQ of the spaces below 4 answers RD_RSP with the bytes read, its lines pass the cache (R236), and nothing else changes. A
WR to HBM or tier 2, with no flip region standing and no shed change in the partition, leaves its bytes at the lines it names and every other byte as
it was; an ATOMIC there leaves in its word the write, sum modulo 2^64 or unsigned maximum of the old word and its operand. Both are remembered with
their TAG and answer one response; nothing but memory, the controllers' tables and cache, and the fabric, links and output changes. That a response
carries the SRC of the answering module and the request's TAG and partition is the model's reading of R279, R280 and R288 (DEDUCED in its log). (R279,
R280, R288, R295) -/
def Obligations.RequestsArePerformed : Prop :=
  ∀ (s : State) (q : Packet) (p : Nat), q.domain = s.domain → q.dst = s.moduleNum → s.treadle.state ≠ 2 → s.checkRequest q = .ok (some p) →
    s.deferred = [] →
    (q.ty = 1 → q.space < 4 → exec (.rdReq q) s = .next (settle ((s.pass (s.remoteCtx p q) (s.reqAddr q) (64 * q.len) false).post
      { ty := 2, len := q.len, vc := 2, detoured := false, dst := q.src, space := q.space, src := s.moduleNum, srcPart := q.srcPart, domain := s.domain
        tag := q.tag, offset := q.offset, data := s.valueAt (s.remoteCtx p q) (s.reqAddr q) (64 * q.len) }))) ∧
    (q.space < 2 → s.flips = [] → (s.part p).shed = none → (∀ y ∈ s.fabric.applied, ¬(y.src = q.src ∧ y.tag = q.tag)) →
      (q.ty = 3 → q.data.length = 64 * q.len → s.gives (.wr q) (fun t =>
        (∀ i, i < 64 * q.len → t.rd (s.dataKey q.space (q.offset + i)) = q.data.getD i 0) ∧
        (∀ j, (∀ i, i < 64 * q.len → j ≠ s.dataKey q.space (q.offset + i)) → t.rd j = s.rd j) ∧
        (let ack : Packet := { ty := 4, len := 0, vc := 2, detoured := false, dst := q.src, space := q.space, src := s.moduleNum, srcPart := q.srcPart
                               domain := s.domain, tag := q.tag, offset := q.offset, data := [] }
         s.posts t ack ∧ t.fabric.applied.head? = some { src := q.src, tag := q.tag, resp := ack }) ∧
        (∀ k, t.part k = s.part k) ∧ s.keeps t [.mem, .memCtl, .fabric, .links, .out, .parts])) ∧
      (q.ty = 5 → q.data.length = 64 → s.gives (.atomic q) (fun t =>
        t.rdN (s.dataKey q.space q.offset) 8 = atomicOp (le q.data 0 1) (s.rdN (s.dataKey q.space q.offset) 8) (le q.data 8 8) ∧
        s.keepsMem t (s.dataKey q.space q.offset) 8 ∧
        (let ack : Packet := { ty := 6, len := 0, vc := 2, detoured := false, dst := q.src, space := q.space, src := s.moduleNum, srcPart := q.srcPart
                               domain := s.domain, tag := q.tag, offset := q.offset, data := [] }
         s.posts t ack ∧ t.fabric.applied.head? = some { src := q.src, tag := q.tag, resp := ack }) ∧
        s.keeps t [.mem, .memCtl, .fabric, .links, .out])))

/-- A packet of another DOMAIN, of any type and for any module, changes only DOMAIN_DROPS. A request of this domain and module that fails a check of
R295 (other than a write that loom SRAM refuses, which its partition also counts) draws one NACK with the reason and counts it; one to HBM or loom
SRAM in T2 draws NACK RETRY. A WR or ATOMIC whose source and TAG are among those remembered draws the remembered response again and counts one
DUP_DROPS. In each case no byte of memory and no partition changes. (No record waits to be written; where the reason is 5, no line and no word is
stored uncorrectable, so that the check's read makes no event of R84 or R233.) (R280, R288, R294, R295, R463) -/
def Obligations.RequestsAreRefusedOrRepeated : Prop :=
  ∀ (s : State) (q : Packet), s.deferred = [] →
    (q.domain ≠ s.domain → ∀ c, (q.ty, c) ∈ [(1, Instr.rdReq q), (2, .rdRsp q), (3, .wr q), (4, .wrAck q), (5, .atomic q), (6, .atomicRsp q), (8, .nack q),
        (0x10, .redAdd q), (0x11, .redMax8 q), (0x12, .redOr q)] →
      s.gives c (fun t => t.fabric = { s.fabric with domainDrops := satInc 64 s.fabric.domainDrops 1 } ∧ s.keeps t [.fabric])) ∧
    (q.domain = s.domain → q.dst = s.moduleNum → ∀ c, (q.ty, c) ∈ [(1, Instr.rdReq q), (3, .wr q), (5, .atomic q)] →
      (∀ y r, q.ty ≠ 1 → s.fabric.applied.find? (fun y => y.src == q.src && y.tag == q.tag) = some y → y.resp = r →
        s.gives c (fun t => s.posts t r ∧ t.fabric.dupDrops = satInc 64 s.fabric.dupDrops 1 ∧ s.keeps t [.fabric, .links, .out])) ∧
      ((q.ty ≠ 1 → ∀ y ∈ s.fabric.applied, ¬(y.src = q.src ∧ y.tag = q.tag)) →
        (s.treadle.state = 2 → (q.space = 0 ∨ q.space = 2) → s.gives c (fun t =>
          t.fabric.nackSent = satInc 64 s.fabric.nackSent 1 ∧ s.posts t (s.nackOf q 1) ∧ t.parts = s.parts ∧ t.regs = s.regs ∧ (∀ k, t.rd k = s.rd k))) ∧
        (∀ r, s.treadle.state ≠ 2 → s.checkRequest q = .error r → ¬(q.ty = 3 ∧ r = 2 ∧ q.space = 2) →
          (r = 5 → s.memCtl.corrupt = [] ∧ ∀ l, (s.loom l).bad = []) → s.gives c (fun t =>
          t.fabric.nackSent = satInc 64 s.fabric.nackSent 1 ∧ s.posts t (s.nackOf q r) ∧ s.keeps t [.fabric, .links, .out]))))

/-- A response of the type that an outstanding request awaits removes that request and gives its issuer one acknowledgement, which completes an entry
that waits for nothing else; an RD_RSP leaves its data where the model keeps what the remote address last answered (a place of the model's own). A
response that matches no request is discarded and counted. A NACK on channels below 4 is counted; reasons 2 and 3 complete the issuing entry INVALID,
4 RESOURCE_RETIRED, 5 RETRY_EXHAUSTED; RETRY makes the request wait, and REQUEST_RETRY_TIMER sends it again. REQUEST_TIMEOUT counts and completes the
entry RETRY_EXHAUSTED. An entry that awaits more acknowledgements than the one that failed keeps that status and waits for them (R210). (No record
waits to be written, and no other request shares a shuttle's read.) (R288, R289, R295) -/
def Obligations.ResponsesEndTheirRequests : Prop :=
  ∀ (s : State) (q : Packet) (r : Req), q.domain = s.domain → q.dst = s.moduleNum → s.openReq q.src q.tag = some r →
    s.deferred = [] → s.mates = [] →
    (r.issuer = .outside → ∀ c, (q.ty, c) ∈ [(4, Instr.wrAck q), (6, .atomicRsp q)] → r.pkt.ty + 1 = q.ty → s.gives c (fun t =>
      t.fabric = { s.fabric with requests := s.fabric.requests.filter (fun y => !(y.dst == q.src && y.tag == q.tag)) } ∧ s.keeps t [.fabric])) ∧
    (r.issuer = .outside → q.ty = 2 → r.pkt.ty = 1 → q.data.length = 64 * r.pkt.len → s.gives (.rdRsp q) (fun t =>
      t.fabric = { s.fabric with requests := s.fabric.requests.filter (fun y => !(y.dst == q.src && y.tag == q.tag)) } ∧
      (∀ i, i < q.data.length → t.rd (remoteKey (q.src * 2 ^ 52 + spaceKey r.pkt.space r.pkt.offset) + i) = q.data.getD i 0) ∧
      s.keepsMem t (remoteKey (q.src * 2 ^ 52 + spaceKey r.pkt.space r.pkt.offset)) q.data.length ∧ s.keeps t [.fabric, .mem])) ∧
    (∀ e x, r.issuer = .entry e → s.entry e = some x → x.parked = none →
      (∀ c, (q.ty, c) ∈ [(2, Instr.rdRsp q), (4, .wrAck q), (6, .atomicRsp q)] → r.pkt.ty + 1 = q.ty →
        (1 < x.acks → s.gives c (fun t => t.entry e = some { x with acks := x.acks - 1 } ∧ t.rings = s.rings)) ∧
        (x.acks = 1 → x.worked = true → s.runs x.part = true → x.failing = none → s.gives c (fun t => State.completed x stOK x.result t))) ∧
      (q.ty = 8 → q.vc < 4 → 1 < x.acks → ∀ st, nackStatus (q.offset % 256) = some st → s.gives (.nack q) (fun t =>
        t.entry e = some { x with acks := x.acks - 1, worked := true, failing := some (x.failing.getD st) } ∧ t.rings = s.rings)) ∧
      (x.acks ≤ 1 → s.runs x.part = true → x.failing = none →
        (q.ty = 8 → q.vc < 4 → ∀ st, nackStatus (q.offset % 256) = some st → s.gives (.nack q) (fun t =>
          State.completed x st x.result t ∧ t.openReq q.src q.tag = none ∧
          t.fabric.nackReceived = satInc 64 s.fabric.nackReceived 1 ∧ s.keeps t [.fabric, .entries, .rings])) ∧
        (r.waiting = false → s.gives (.requestTimeout q.src q.tag) (fun t =>
          State.completed x stRetryExhausted x.result t ∧ t.openReq q.src q.tag = none ∧ t.fabric.timeouts = satInc 64 s.fabric.timeouts 1 ∧
          s.keeps t [.fabric, .entries, .rings])))) ∧
    (q.ty = 8 → q.vc < 4 → q.offset % 256 = 1 → s.gives (.nack q) (fun t => t.openReq q.src q.tag = some { r with waiting := true } ∧
      t.fabric.nackReceived = satInc 64 s.fabric.nackReceived 1 ∧ s.keeps t [.fabric])) ∧
    (r.waiting = true → (s.fabric.requests.filter (fun y => y.dst == q.src && !y.waiting)).length < 4096 → (s.send r.pkt).2 = true →
      s.gives (.requestRetryTimer q.src q.tag) (fun t => t.openReq q.src q.tag = some { r with waiting := false } ∧ s.posts t r.pkt ∧
        s.keeps t [.fabric, .links, .out]))

/-- A RED packet of this domain and module whose collective is not installed draws one NACK RETRY. One whose TAG is not the installed step's is only
counted in RED_STALE. Otherwise each element it carries that the stream may take joins that stream's staging (the fate of each is R291's), duplicates
and refusals are counted element by element, and, while no range is complete and nothing else is due, nothing more happens than that credits kept back
may return. A NACK RETRY of a RED packet puts the packets of that stream sent to that module in that window on the list that RED_RETRY_TIMER sends;
the timer empties the list, and where nothing waits it changes nothing. (No record waits to be written.) (R291, R292) -/
def Obligations.ReductionPacketsJoinTheirStream : Prop :=
  (∀ (s : State) (q : Packet) (c : Instr), s.deferred = [] → q.domain = s.domain → q.dst = s.moduleNum → (q.ty, c) ∈ [(0x10, Instr.redAdd q), (0x11, .redMax8 q), (0x12, .redOr q)] →
    (s.redStream (field (q.offset / 2 ^ 32) 0 12) q.src = none → s.gives c (fun t =>
      s.posts t (s.nackOf q 1) ∧ t.fabric.nackSent = satInc 64 s.fabric.nackSent 1 ∧ s.keeps t [.fabric, .links, .out])) ∧
    (∀ p x, s.redStream (field (q.offset / 2 ^ 32) 0 12) q.src = some (p, x) → s.stream p x.draft x.node = some x →
      (x.tag ≠ q.tag → s.gives c (fun t => t.fabric = { s.fabric with redStale := satInc 64 s.fabric.redStale 1 } ∧ s.keeps t [.fabric])) ∧
      (x.tag = q.tag → ∀ x', x' = (x.fates q).foldl (fun z f => match f with | .take k i v => z.add k i q.src v | _ => z) x →
        (x'.status.isSome = true ∨ (x'.slotNext = none ∧ x'.ctrlNext = none ∧ x'.payNext = none ∧ x'.writeNext = none ∧ s.doneNext x' = none)) →
        s.gives c (fun t => t.stream p x.draft x.node = some x' ∧
          t.fabric.redRefused = satInc 64 s.fabric.redRefused (lineElems q.ty * (x.fates q).countP (fun f => match f with | .refuse => true | _ => false)) ∧
          t.fabric.dupDrops = satInc 64 s.fabric.dupDrops (lineElems q.ty * (x.fates q).countP (fun f => match f with | .dup => true | _ => false)) ∧
          s.keeps t [.parts, .fabric, .links, .out])))) ∧
  (∀ (s : State) (q : Packet), s.deferred = [] → q.ty = 8 → q.domain = s.domain → q.dst = s.moduleNum → 4 ≤ q.vc → q.offset % 256 = 1 → s.gives (.nack q) (fun t =>
    (∀ y, y ∈ t.fabric.redRetry ↔ y ∈ s.fabric.redRetry ∨ (y.dst = q.src ∧ y.tag = q.tag ∧ y.offset / 256 = q.offset / 256 ∧
      ∃ a ∈ s.parts, ∃ x ∈ a.2.streams, y ∈ x.sent)) ∧ s.keeps t [.fabric])) ∧
  (∀ s : State, (s.fabric.redRetry = [] → exec .redRetryTimer s = .next (settle s)) ∧
    (∀ y, s.fabric.redRetry = [y] → (∃ a ∈ s.parts, ∃ x ∈ a.2.streams, y ∈ x.sent) →
      exec .redRetryTimer s = .next (settle ((s.fabricCount (fun f => { f with redRetry := [] })).sendOn 0 y))))

/-- Setting EN of a job-table slot takes the members of an accepted table, with nobody joined; with a table that is not accepted EN stays 0 and
nothing else changes; clearing EN empties the slot. Setting EN of a member register makes a SOLO job stand at its first boundary, and for another job
sends JOIN and waits. On the manager a JOIN below FLOOR or of another numeric version leaves the members as they are; one of a listed member of a
forming job notes it, and the last one makes the job run; one of a module not listed in a running job waits for its boundary; one of a listed member
of a running job raises MEMBER_GEN by one. A JOIN_ACK with OK puts the waiting member at a boundary with the pick and MEMBER_GEN it carries; another
status is kept as the refusal. The page and the answers are the only other changes. (R337, R338, R339, R341, R342) -/
def Obligations.MembersJoinTheirJob : Prop :=
  (∀ (s : State) (src : Src) (i v : Nat), s.arrives src = true → s.mgrWriter src = true → i < 64 →
    (bitAt v 16 = true → s.slotOn i = false →
      (∀ ms, s.memberTable i = some ms → s.gives (.jobSlotEnable src i v) (fun t =>
        t.mjob i = { members := ms, page := 2 } ∧ t.slotOn i = true ∧ t.slotJob i = v % 65536 ∧ (∀ k, k ≠ i → t.mjob k = s.mjob k) ∧
        s.keeps t [.regs, .manager, .mem, .ports])) ∧
      (s.memberTable i = none → s.gives (.jobSlotEnable src i v) (fun t => t.slotOn i = false ∧ s.keeps t [.regs]))) ∧
    (bitAt v 16 = false → s.slotOn i = true → s.gives (.jobSlotEnable src i v) (fun t =>
      t.mjob i = {} ∧ t.slotOn i = false ∧ (∀ k, k ≠ i → t.mjob k = s.mjob k) ∧ s.keeps t [.regs, .manager]))) ∧
  (∀ (s : State) (src : Src) (p v : Nat), s.arrives src = true → s.memberWriter src p = true → p < 16 → bitAt v 16 = true →
    ((s.part p).job.joined = false ∨ (s.part p).job.st = .halted) →
    (bitAt v 17 = true → s.gives (.jobJoinEnable src p v) (fun t =>
      (t.part p).job = { st := .boundary, joined := true, memberGen := 1 } ∧ t.jobId p = v % 65536 ∧ (∀ k, k ≠ p → t.part k = s.part k) ∧
      s.keeps t [.regs, .parts, .mem, .ports])) ∧
    (bitAt v 17 = false → (s.part p).job.joining = false → s.gives (.jobJoinEnable src p v) (fun t =>
      (t.part p).job = { (s.part p).job with joined := false, refusal := none, st := .none, versions := [], pick := 0, joining := true } ∧
      t.jobId p = v % 65536 ∧ (∀ k, k ≠ p → t.part k = s.part k) ∧ s.keeps t [.regs, .parts, .fabric, .links, .out]))) ∧
  (∀ (s : State) (q : Packet) (i m : Nat), s.isMgr q 2 = true → s.slotOf (mgrJobId q) = some i → m = q.src + 4096 * (le q.data 4 4 % 16) →
    ((le q.data 0 2 < s.floor i ∨ le q.data 2 2 ≠ s.numericOf i) → s.gives (.join q) (fun t =>
      (t.mjob i).joined = (s.mjob i).joined ∧ (t.mjob i).members = (s.mjob i).members ∧ (t.mjob i).waiting = (s.mjob i).waiting ∧
      (t.mjob i).st = (s.mjob i).st ∧ s.keeps t [.manager, .fabric, .links, .out])) ∧
    (s.floor i ≤ le q.data 0 2 → le q.data 2 2 = s.numericOf i →
      ((s.mjob i).st = 0 → m ∈ (s.mjob i).members → (∃ k ∈ (s.mjob i).members, k ≠ m ∧ k ∉ (s.mjob i).joined) → s.gives (.join q) (fun t =>
        (∀ k, k ∈ (t.mjob i).joined ↔ k ∈ (s.mjob i).joined ∨ k = m) ∧ (t.mjob i).st = 0 ∧ s.keeps t [.manager])) ∧
      ((s.mjob i).st = 0 → s.slotUp i = false → m ∈ (s.mjob i).members → (∀ k ∈ (s.mjob i).members, k = m ∨ k ∈ (s.mjob i).joined) →
        s.gives (.join q) (fun t => m ∈ (t.mjob i).joined ∧ (t.mjob i).st = 1 ∧ (t.mjob i).members = (s.mjob i).members ∧
          s.keeps t [.manager, .fabric, .links, .out, .mem, .ports])) ∧
      ((s.mjob i).st ≠ 0 → m ∉ (s.mjob i).members → (s.mjob i).members ≠ [] → s.gives (.join q) (fun t =>
        (∀ k, k ∈ (t.mjob i).waiting ↔ k ∈ (s.mjob i).waiting ∨ k = m) ∧ (t.mjob i).members = (s.mjob i).members ∧ s.keeps t [.manager])) ∧
      ((s.mjob i).st ≠ 0 → m ∈ (s.mjob i).members → s.gives (.join q) (fun t => m ∈ (t.mjob i).joined ∧ (t.mjob i).members = (s.mjob i).members ∧
        (t.mjob i).gen = (s.mjob i).gen + 1 ∧ s.keeps t [.manager, .fabric, .links, .out, .mem, .ports])))) ∧
  (∀ (s : State) (q : Packet) (p : Nat), s.isMgr q 3 = true → s.membersOf q = [p] → s.relayed q = none → (s.part p).job.joining = true →
    (le q.data 0 2 = 0 → s.gives (.joinAck q) (fun t => (t.part p).job = { (s.part p).job with
      joined := true, joining := false, refusal := none, st := .boundary, pick := le q.data 8 8, memberGen := le q.data 16 4, attempt := 0 } ∧
      (∀ k, k ≠ p → t.part k = s.part k) ∧ s.keeps t [.parts, .manager, .mem, .ports])) ∧
    (le q.data 0 2 ≠ 0 → s.gives (.joinAck q) (fun t => (t.part p).job =
      { (s.part p).job with joined := false, joining := false, refusal := some (le q.data 0 2) } ∧
      (∀ k, k ≠ p → t.part k = s.part k) ∧ s.keeps t [.parts, .manager, .entries, .rings])))

/-- A STEP_REPORT of a present member for a later pick under the attempt reports must carry is noted; while another member's is missing nothing else
happens, and the last one decides that pick and attempt with the greatest of the reported verdicts (CLEAR, SKIP, FAIL). A BARRIER_REPORT is noted, and
the last one removes the barrier and is answered to all. On a member that has reported the pick, a STEP_DECIDE of its pick and attempt puts the job at
the boundary with the decision; a BARRIER_GO completes the waiting BARRIER node with OK and forgets it. (R324, R325, R340, R343, R344) -/
def Obligations.StepsAreDecidedTogether : Prop :=
  (∀ (s : State) (q : Packet) (i m pick : Nat) (r : StepRep), s.isMgr q 4 = true → s.slotOf (mgrJobId q) = some i → m = q.src + 4096 * q.srcPart →
    pick = le q.data 0 8 → m ∈ (s.mjob i).members → (s.mjob i).told ≤ le q.data 12 4 → (s.mjob i).pick < pick →
    le q.data 8 1 = (s.mjob i).current % 256 →
    (∀ x ∈ (s.mjob i).reports, ¬(x.member = m ∧ x.pick = pick ∧ x.attempt = (s.mjob i).current % 256)) →
    r = { member := m, pick := pick, attempt := le q.data 8 1, verdict := min 2 (le q.data 9 1), locator := slice q.data 16 12 } →
    ((∃ k ∈ (s.mjob i).members, k ≠ m ∧ ∀ x ∈ (s.mjob i).reports, ¬(x.member = k ∧ x.pick = pick ∧ x.attempt = (s.mjob i).current % 256)) →
      s.gives (.stepReport q) (fun t => (t.mjob i).reports = (s.mjob i).reports ++ [r] ∧ (t.mjob i).pick = (s.mjob i).pick ∧
        (t.mjob i).st = (s.mjob i).st ∧ s.keeps t [.manager])) ∧
    (s.slotUp i = false → (∀ k ∈ (s.mjob i).members, k = m ∨ ∃ x ∈ (s.mjob i).reports, x.member = k ∧ x.pick = pick ∧
        x.attempt = (s.mjob i).current % 256) → s.gives (.stepReport q) (fun t =>
      (t.mjob i).pick = pick ∧ (t.mjob i).attempt = (s.mjob i).current % 256 ∧
      (∃ x ∈ (s.mjob i).reports ++ [r], x.pick = pick ∧ x.attempt = (s.mjob i).current % 256 ∧ (t.mjob i).verdict = x.verdict) ∧
      (∀ x ∈ (s.mjob i).reports ++ [r], x.pick = pick → x.attempt = (s.mjob i).current % 256 → x.verdict ≤ (t.mjob i).verdict) ∧
      s.keeps t [.manager, .fabric, .links, .out, .mem, .ports]))) ∧
  (∀ (s : State) (q : Packet) (i m : Nat) (b : Nat × Nat), s.isMgr q 0xA = true → s.slotOf (mgrJobId q) = some i → m = q.src + 4096 * q.srcPart →
    b = (le q.data 0 8, le q.data 8 2) → m ∈ (s.mjob i).members → (m, b) ∉ (s.mjob i).barriers →
    ((∃ k ∈ (s.mjob i).members, k ≠ m ∧ (k, b) ∉ (s.mjob i).barriers) → s.gives (.barrierReport q) (fun t =>
      (t.mjob i).barriers = (s.mjob i).barriers ++ [(m, b)] ∧ s.keeps t [.manager])) ∧
    ((∀ k ∈ (s.mjob i).members, k = m ∨ (k, b) ∈ (s.mjob i).barriers) → s.slotUp i = false → s.gives (.barrierReport q) (fun t =>
      (t.mjob i).barriers = (s.mjob i).barriers.filter (fun x => x.2 != b) ∧ s.keeps t [.manager, .fabric, .links, .out]))) ∧
  (∀ (s : State) (q : Packet) (p : Nat), s.isMgr q 5 = true → s.membersOf q = [p] → s.relayed q = none → (s.part p).job.reported = true →
    le q.data 0 8 = (s.part p).job.pick → le q.data 8 1 = (s.part p).job.attempt % 256 → le q.data 9 1 ≤ 2 → (s.part p).st = .active →
    (s.part p).job.st ≠ .preempted → (s.part p).job.st ≠ .halted → s.boot.phase = .idle → s.gives (.stepDecide q) (fun t =>
      (t.part p).job.st = .boundary ∧ (t.part p).job.decided = some (le q.data 9 1) ∧ (t.part p).job.reported = false ∧
      (t.part p).job.step = none ∧ (t.part p).job.pick = (s.part p).job.pick ∧ (t.part p).job.attempt = 0 ∧ (t.part p).st = .active)) ∧
  (∀ (s : State) (q : Packet) (p d n k : Nat) (x : Draft) (y z : Node), s.isMgr q 0xB = true → s.membersOf q = [p] → s.relayed q = none →
    (s.part p).job.pick = le q.data 0 8 → n = le q.data 8 2 → (s.part p).job.barriers = [(d, n)] → (s.part p).job.step = some d →
    s.draft d = some x → x.part = p → x.failed = false → x.nodes[n]? = some y → y.isDone = false → y.acks = 0 → y.failing = none → k ≠ n →
    x.nodes[k]? = some z → z.isDone = false →
    s.gives (.barrierGo q) (fun t => (t.part p).job.barriers = [] ∧ (t.part p).job.pick = (s.part p).job.pick ∧
      (∃ y', t.node d n = some y' ∧ y'.st = .done stOK)))

/-- A HEARTBEAT clears its sender's missed periods. The end of a period adds one missed period to each member of each active slot of a manager (and to
the silence a standby hears). A member not heard of for HB_MISS periods, or named by MGR_DECLARE, leaves the slot of a manager that acts: MEMBER_GEN
and the attempt that reports must carry rise by one and the loss is counted. On a member, a LOST of a later generation takes that generation, notes
the module, aborts the pick under the next attempt and begins a recovery. A standby not having heard its manager for HB_MISS periods takes over; a
TAKEOVER from the standby a member names makes it the member's manager. (For the losses no record waits to be written, and for the member's LOST no
line and no word is stored uncorrectable; on a manager whose job is in a shed change that goes, other than a recovery, the attempt is left to that
change's end.) (R326, R336, R340, R346, R347, R348, R349) -/
def Obligations.LossesAndTakeovers : Prop :=
  (∀ (s : State) (q : Packet) (i : Nat), s.isMgr q 1 = true → s.slotOf (mgrJobId q) = some i → s.role ≠ 3 → s.gives (.heartbeat q) (fun t =>
    t.mjob i = { s.mjob i with missed := (s.mjob i).missed.filter (fun x => x.1 % 4096 != q.src) } ∧ (∀ k, k ≠ i → t.mjob k = s.mjob k) ∧
    s.keeps t [.manager])) ∧
  (∀ s : State, (s.role = 0 → s.gives .heartbeatPeriod (fun t => t.manager = s.manager ∧ s.keeps t [.fabric, .links, .out])) ∧
    (s.role ≠ 0 → s.gives .heartbeatPeriod (fun t =>
      (∀ i m, i < 64 → s.slotOn i = true → (s.mjob i).members.Nodup → m ∈ (s.mjob i).members →
        tget 0 (t.mjob i).missed m = tget 0 (s.mjob i).missed m + 1) ∧
      (∀ i, (t.mjob i).members = (s.mjob i).members ∧ (t.mjob i).pick = (s.mjob i).pick ∧ (t.mjob i).st = (s.mjob i).st) ∧
      t.manager.silent = s.manager.silent + (if s.role = 3 ∧ s.manager.tookOver = false then 1 else 0) ∧
      s.keeps t [.manager, .fabric, .links, .out]))) ∧
  (∀ (s : State) (i lost : Nat) (c : Instr), s.deferred = [] → s.acts = true → s.slotOn i = true → (∃ k ∈ (s.mjob i).members, k % 4096 = lost) →
    ((c = .heartbeatMiss i lost ∧ ∃ x ∈ (s.mjob i).missed, x.1 % 4096 = lost ∧ s.hbMiss ≤ x.2) ∨
     (∃ src v, c = .memberDeclareLost src v ∧ s.arrives src = true ∧ s.mgrWriter src = true ∧ bitAt v 31 = true ∧ field v 12 6 = i ∧ field v 0 12 = lost)) →
    s.gives c (fun t => (t.mjob i).members = (s.mjob i).members.filter (fun k => k % 4096 != lost) ∧ (t.mjob i).gen = (s.mjob i).gen + 1 ∧
      (t.mjob i).lostCount = (s.mjob i).lostCount + 1 ∧ (t.mjob i).lastLost = lost ∧
      ((s.mjob i).st ≠ 0 → ((s.mjob i).going = none ∨ (s.mjob i).recovering = true) → (t.mjob i).current = (s.mjob i).current + 1) ∧ s.keeps t [.manager, .fabric, .links, .out, .mem, .ports])) ∧
  (∀ (s : State) (q : Packet) (p : Nat), s.deferred = [] → s.memCtl.corrupt = [] → (∀ l, (s.loom l).bad = []) → s.isMgr q 8 = true → s.membersOf q = [p] → s.slotOf (mgrJobId q) = none → (s.part p).job.joined = true →
    (s.part p).job.st ≠ .halted → (s.part p).job.memberGen < le q.data 4 4 → le q.data 0 2 % 4096 ≠ s.moduleNum → (s.part p).shed = none →
    (s.part p).job.attempt < 255 → s.gives (.lost q) (fun t =>
      (t.part p).job.memberGen = le q.data 4 4 ∧ (t.part p).job.lost = (s.part p).job.lost ++ [le q.data 0 2 % 4096] ∧
      (t.part p).job.attempt = (s.part p).job.attempt + 1 ∧ (t.part p).job.reported = false ∧ (t.part p).job.pick = (s.part p).job.pick ∧
      (∃ x, (t.part p).shed = some x ∧ x.recovery = true ∧ x.go = false) ∧ t.regs = s.regs)) ∧
  (∀ (s : State) (q : Packet) (p : Nat), s.isMgr q 9 = true → p < 16 → s.hasJob p = true → s.fld (.jobMgr p) 0 12 = le q.data 0 2 % 4096 →
    s.bit (.jobMgr p) 24 = true → s.fld (.jobMgr p) 12 12 = q.src → s.gives (.takeover q) (fun t => t.managerOf p = q.src ∧ s.keeps t [.manager])) ∧
  (∀ s : State, s.role = 3 → s.manager.tookOver = false → s.hbMiss ≤ s.manager.silent → s.gives .standbyTakeover (fun t =>
    t.manager = { s.manager with tookOver := true } ∧ t.acts = true ∧ s.keeps t [.manager, .fabric, .links, .out]))

/-- A SHED_CHANGE at its boundary of a joined member that is not SOLO, with no change under way, begins one for its entry without `go`. On the manager
a phase 0 SHED_REPORT is noted, and the last of the members decides: `go` for the plan when every status is OK and the list is allowed, else the plan
is not going. On the member `go` starts the moves with none done (unless the plan has RESUME); a failing decision ends the change. SHED_CLEAR notes
the peer's entry once. A RECV entry whose bytes have all come from its peer becomes done, while others are not. (R17, R353, R354, R356, R357) -/
def Obligations.ShedChangesAdvance : Prop :=
  (∀ (s : State) (e : Nat) (x : Entry), s.deferred = [] → s.memCtl.corrupt = [] → (∀ l, (s.loom l).bad = []) →
    s.startable e 0x22 = some x → (s.part x.part).st.idle = false → s.hasJob x.part = true →
    (s.part x.part).job.joined = true → s.solo x.part = false → s.due x = true → s.gives (.shedChange e) (fun t =>
      ∃ y, (t.part x.part).shed = some y ∧ y.issuer = .entry e ∧ y.go = false ∧ y.done = [] ∧ (∃ z, t.entry e = some z ∧ z.st = .running))) ∧
  (∀ (s : State) (q : Packet) (i m : Nat) (r : ShedRep), s.isMgr q 6 = true → s.slotOf (mgrJobId q) = some i → m = q.src + 4096 * q.srcPart →
    r = { member := m, plan := le q.data 0 4, status := le q.data 4 2, phase := 0 } → le q.data 6 1 = 0 → m ∈ (s.mjob i).members →
    (s.mjob i).going = none → (∀ x ∈ (s.mjob i).sheds, ¬(x.member = m ∧ x.phase = 0)) →
    ((∃ k ∈ (s.mjob i).members, k ≠ m ∧ ∀ x ∈ (s.mjob i).sheds, x.member ≠ k) → s.gives (.shedReport q) (fun t =>
      (t.mjob i).sheds = (s.mjob i).sheds ++ [r] ∧ (t.mjob i).going = none ∧ s.keeps t [.manager])) ∧
    ((∀ k ∈ (s.mjob i).members, k = m ∨ ∃ x ∈ (s.mjob i).sheds, x.member = k) → s.slotUp i = false → (s.mjob i).sheds ≠ [] →
      (∀ x ∈ (s.mjob i).sheds, x.status = 0 ∧ x.plan = r.plan) →
      (r.status = 0 → s.listStatus i r.plan = 0 → s.gives (.shedReport q) (fun t =>
        (t.mjob i).going = some r.plan ∧ (t.mjob i).st = 2 ∧ (t.mjob i).sheds = [] ∧ s.keeps t [.manager, .fabric, .links, .out, .mem, .ports])) ∧
      (r.status ≠ 0 → s.gives (.shedReport q) (fun t =>
        (t.mjob i).going = none ∧ (t.mjob i).sheds = [] ∧ s.keeps t [.manager, .fabric, .links, .out, .mem, .ports])))) ∧
  (∀ (s : State) (q : Packet) (p : Nat) (x : Shed), s.deferred = [] → s.isMgr q 7 = true → s.membersOf q = [p] → s.relayed q = none → (s.part p).shed = some x →
    planId x.plan = le q.data 0 4 → le q.data 6 1 = 0 → x.go = false →
    (le q.data 4 2 = 0 → x.status = 0 → planResume x.plan = false → x.failing = none → x.peerFailing = none → 0 < planEntryCount x.plan →
      s.gives (.shedDecide q) (fun t => (t.part p).shed = some { x with go := true, done := [], issued := [] } ∧ s.keeps t [.parts, .manager])) ∧
    (le q.data 4 2 ≠ 0 → s.gives (.shedDecide q) (fun t => (t.part p).shed = none))) ∧
  (∀ (s : State) (q : Packet) (p k : Nat) (x : Shed), s.isMgr q 0xC = true → (List.range 16).filter (fun p => s.hasJob p && s.jobId p == mgrJobId q) = [p] →
    (s.part p).shed = some x → planId x.plan = le q.data 0 4 → k = q.src + 4096 * le q.data 4 4 → k ∉ x.cleared → s.gives (.shedClear q) (fun t =>
      (t.part p).shed = some { x with cleared := x.cleared ++ [k] } ∧ (∀ j, j ≠ p → t.part j = s.part j) ∧ s.keeps t [.parts])) ∧
  (∀ (s : State) (p i : Nat) (x : Shed), s.deferred = [] → s.memCtl.corrupt = [] → (s.part p).shed = some x → x.go = true →
    x.failing = none → x.peerFailing = none → s.runs p = true → i < planEntryCount x.plan →
    i ∉ x.done → moveOp (planMove x.plan i) = 2 →
    x.taken (movePeer (planMove x.plan i)) + moveBytes (planMove x.plan i) ≤ tget 0 x.arrived (movePeer (planMove x.plan i)) →
    (∃ k, k < planEntryCount x.plan ∧ k ≠ i ∧ k ∉ x.done) → s.gives (.shedEntryComplete p i false) (fun t =>
      ∃ y, (t.part p).shed = some y ∧ y.done = x.done ++ [i] ∧ y.go = true ∧ y.plan = x.plan ∧ y.failing = none))

/-- A COPY that may start at this boundary, between two local ranges of HBM or tier 2 that do not overlap and that no relocation or sealing holds up,
whose source can be read and every byte of whose destination the partition may write, while no request waits at a shuttle, leaves in each destination
byte what the source byte held and every other byte of memory as it was, and completes OK with RESULT 0. A SIGNAL that may start and before which no
entry of its ring is outstanding stores, in its aligned local 64-bit word of HBM or tier 2, ARG1, the sum modulo 2^64, or the greater, as OP says;
every other byte reads as before, and it completes OK. (No line is poisoned, corrupt or armed and no flip region stands, for COPY and SIGNAL; no write
of a set-up register waits.) The key of a byte is where its unit lies after a relocation (R235). (R188, R189, R191, R192, R195, R219, R233, R235) -/
def Obligations.CopyAndSignal : Prop :=
  (∀ (s : State) (e n : Nat) (x : Entry) (c : Ctx), s.startable e 2 = some x → s.due x = true → s.behind x = false → n = field x.arg2 0 40 → c = s.entryCtx x →
    s.deferred = [] → s.flips = [] → s.memCtl.poison = [] → s.memCtl.corrupt = [] → s.memCtl.armed = [] → s.shuttles = [] → s.mates = [] →
    x.worked = false → x.acks = 0 → x.failing = none → x.result = 0 → s.rangeOpen x.arg0 n = true → s.rangeOpen x.arg1 n = true →
    s.isLocal x.arg0 = true → s.isLocal x.arg1 = true → gSpace x.arg0 ≤ 1 → gSpace x.arg1 ≤ 1 → gOffset x.arg0 + n ≤ 2 ^ 48 → gOffset x.arg1 + n ≤ 2 ^ 48 →
    s.readErr c x.arg0 n = none → s.writeErr c x.arg1 n = none → (∀ i, i < n → s.byteAllowed c (x.arg1 + i) true = true) →
    (gSpace x.arg0 ≠ gSpace x.arg1 ∨ gOffset x.arg0 + n ≤ gOffset x.arg1 ∨ gOffset x.arg1 + n ≤ gOffset x.arg0) →
    s.gives (.copy e) (fun t =>
      (∀ i, i < n → t.rd (s.dataKey (gSpace x.arg1) (gOffset x.arg1 + i)) = s.rd (s.dataKey (gSpace x.arg0) (gOffset x.arg0 + i))) ∧
      (∀ k, (∀ i, i < n → k ≠ s.dataKey (gSpace x.arg1) (gOffset x.arg1 + i)) → t.rd k = s.rd k) ∧
      State.completed x stOK 0 t ∧ s.keeps t [.mem, .memCtl, .entries, .rings, .draws, .shuttles, .served])) ∧
  (∀ (s : State) (e k : Nat) (x : Entry) (c : Ctx), s.startable e 4 = some x → (∀ y ∈ s.entries, y.before x = false) → c = s.entryCtx x →
    s.deferred = [] → s.flips = [] → s.memCtl.poison = [] → s.memCtl.corrupt = [] → s.memCtl.armed = [] → s.mates = [] →
    x.acks = 0 → x.failing = none → x.result = 0 → s.isLocal x.arg0 = true → gSpace x.arg0 ≤ 1 → x.arg0 % 8 = 0 → x.arg2 < 3 → s.readErr c x.arg0 8 = none → s.writeErr c x.arg0 8 = none →
    k = s.dataKey (gSpace x.arg0) (gOffset x.arg0) →
    s.gives (.signal e) (fun t =>
      (x.arg2 = 0 → t.rdN k 8 = x.arg1) ∧ (x.arg2 = 1 → t.rdN k 8 = (s.rdN k 8 + x.arg1) % 2 ^ 64) ∧ (x.arg2 = 2 → t.rdN k 8 = max (s.rdN k 8) x.arg1) ∧
      s.keepsMem t k 8 ∧ State.completed x stOK 0 t ∧ s.keeps t [.mem, .memCtl, .entries, .rings]))

/-- A QUERY that is free and behind no holding FENCE completes: for the partition with its state code (RESTART_PENDING while an enable is held, else
OK), for the job with its state code and RESTART_PENDING while the enable of a loop of the partition is held, else OK, for the ring pair and for an
entry likewise; the codes of the last two are values the manual does not state, and free (log 25). Only pages and records, their generations, what a
port holds or loses of them, and the entry and its ring pair change. (R191, R192, R200, R220, R221) -/
def Obligations.QueryAnswers : Prop :=
  ∀ (s : State) (e : Nat) (x : Entry), s.entry e = some x → x.opcode = 0x60 → x.st = .ready → x.parked = none → s.fenced x = false →
    (field x.arg0 0 8 = 0 → s.gives (.query e) (fun t =>
      State.completed x (if (s.part x.part).restartPending then stRestartPending else stOK) (s.part x.part).st.code t ∧
      s.keeps t [.mem, .ports, .parts, .fabric, .genRetire, .entries, .rings])) ∧
    (field x.arg0 0 8 = 1 → s.gives (.query e) (fun t =>
      State.completed x (if (s.part x.part).loops.any (·.2.restartPending) then stRestartPending else stOK) (s.jobCode x.part) t ∧
      s.keeps t [.mem, .ports, .parts, .manager, .entries, .rings])) ∧
    (field x.arg0 0 8 = 2 → s.gives (.query e) (fun t =>
      (∃ code, State.completed x (if (s.ring x.port x.ring).restartPending then stRestartPending else stOK) code t) ∧
      s.keeps t [.mem, .ports, .entries, .rings, .draws])) ∧
    (3 ≤ field x.arg0 0 8 → s.gives (.query e) (fun t =>
      (∃ code, State.completed x (if s.enableHeld x then stRestartPending else stOK) code t) ∧ s.keeps t [.entries, .rings, .draws]))

/-- A DRAFT_RUN that may start, of an enabled partition whose member has joined, with fewer than 16 drafts in flight, neither resident nor NO_STEP: on
a standard part, when its node and successor arrays can be read and the draft passes its checks, it becomes the newest draft in flight, with its nodes
as the arrays give them, in the lowest free area of the store, its entry running. When the draft fails its checks it completes INVALID with the
failing node as RESULT, and no draft enters. On a secure part it completes INVALID, and no draft enters, until the owner's port has obtained a report,
even where its member waits for the manager's answer (the order is the model's, log 159). One whose member waits, and which R6 lets run, is held. (No
record waits to be written.) (R6, R191, R203, R206, R209, R214, R341) -/
def Obligations.DraftRunEntersTheHeddle : Prop :=
  ∀ (s : State) (e n : Nat) (x : Entry) (c : Ctx), s.startable e 1 = some x → (s.part x.part).st.idle = false → n = field x.arg1 0 17 → c = s.entryCtx x →
    s.deferred = [] → x.resident = false → x.makeResident = false → x.noStep = false → s.overLimit x = false →
    ((s.part x.part).job.joined = true → s.secure = false → 1 ≤ n → n ≤ 65536 → ∀ r q, s.fetch c x.arg0 (128 * n) = some r →
      s.fetch c x.arg2 (2 * succLength r) = some q →
      (draftFault (s.clusterCount x.part) (nodesOf r q) = none → s.gives (.draftRun e) (fun t =>
        t.drafts = s.drafts ++ [{ id := s.draftIds + 1, part := x.part, acc := some x.acc, area := s.freeArea x.part, port := x.port,
                                  admin := s.isAdmin x.port x.func, nodes := nodesOf r q }] ∧
        t.draftIds = s.draftIds + 1 ∧ t.entry e = some { x with st := .running } ∧ s.keeps t [.mem, .entries, .drafts, .draftIds])) ∧
      (∀ f, draftFault (s.clusterCount x.part) (nodesOf r q) = some f → s.gives (.draftRun e) (fun t =>
        State.completed x stInvalid f t ∧ s.keeps t [.entries, .rings]))) ∧
    (s.secure = true → (∀ q f, s.owner x.part = some (q, f) → bitAt s.trust.attested q = false) →
      s.gives (.draftRun e) (fun t => State.completed x stInvalid 0xFFFFFFFF t ∧ s.keeps t [.entries, .rings])) ∧
    ((s.part x.part).job.joined = false → (s.part x.part).job.refusal = none → s.attestedFor x.part = true → s.gives (.draftRun e) (fun t =>
      t.entry e = some { x with st := .held } ∧ s.keeps t [.entries]))

/-- WEIGHT_VERSION_PUBLISH and WEIGHT_VERSION_SWITCH complete (R29, R32). A publication of a joined member, for a pick that has ended, standing at its
boundary, of a number above every one published, with fewer than four versions: the version is registered as PUBLISHED with a publish hold, built from
the working weights as they stand, and it completes OK. A switch at its boundary, the first of that boundary, to a version that is PUBLISHED or HELD
and has the form the layout needs: that version becomes CURRENT without hold, the version that was CURRENT becomes HELD, the publish holds of lower
numbers end, and it completes OK with the number that was current. Otherwise: number 0 or one not greater than every number published completes
INVALID; where four versions stand, POOL_EXHAUSTED; for a later pick the publication waits. A switch that may not be completes VERSION_MISMATCH and no
version changes; before its boundary it waits. (R27, R28, R29, R32, R33, R40, R41, R189) -/
def Obligations.VersionsArePublishedAndSwitched : Prop :=
  (∀ (s : State) (e w : Nat) (x : Entry), s.startable e 0x20 = some x → (s.part x.part).st.idle = false → s.hasJob x.part = true →
    (s.part x.part).job.joined = true → w = field x.arg0 0 32 → s.atBoundary x.part = true → (s.part x.part).job.st = .boundary →
    x.effPick ≤ s.pickOf x.part → w ≠ 0 → (s.part x.part).job.maxVersion < w → (s.part x.part).job.versions.length < 4 →
    ∃ t, exec (.weightVersionPublish e) s = .next t ∧
      (t.part x.part).job = { (s.part x.part).job with
        versions := (s.part x.part).job.versions ++ [{ number := w, st := .published, gen := (s.part x.part).job.weightGen }], maxVersion := w } ∧
      (∀ k, k ≠ x.part → t.part k = s.part k) ∧ State.completed x stOK w t ∧ s.keeps t [.parts, .entries, .rings]) ∧
  (∀ (s : State) (e w : Nat) (x : Entry), s.startable e 0x21 = some x → (s.part x.part).st.idle = false → s.hasJob x.part = true →
    (s.part x.part).job.joined = true → w = field x.arg0 0 32 → s.due x = true → s.behind x = false → (s.part x.part).job.unswitched = [] →
    s.maySwitch x.part w = true →
    ∃ t, exec (.weightVersionSwitch e) s = .next t ∧
      (t.part x.part).job = { (s.part x.part).job with
        versions := (s.part x.part).job.versions.map (fun v =>
          if v.number = w then { v with st := .current, hold := false }
          else { v with st := if v.st = .current then .held else v.st, hold := v.hold && decide (w < v.number) })
        unswitched := (s.part x.part).job.versions.map (fun v => (v.number, v.st, v.hold)) } ∧
      (∀ k, k ≠ x.part → t.part k = s.part k) ∧ State.completed x stOK (s.part x.part).job.currentVersion t ∧ s.keeps t [.parts, .entries, .rings]) ∧
  (∀ (s : State) (e w : Nat) (x : Entry), s.startable e 0x20 = some x → (s.part x.part).st.idle = false → s.hasJob x.part = true →
    (s.part x.part).job.joined = true → w = field x.arg0 0 32 →
    (s.atBoundary x.part = true → (s.part x.part).job.st = .boundary → x.effPick ≤ s.pickOf x.part →
      ((w = 0 ∨ w ≤ (s.part x.part).job.maxVersion) → s.gives (.weightVersionPublish e) (fun t =>
        State.completed x stInvalid 0 t ∧ s.keeps t [.entries, .rings])) ∧
      (w ≠ 0 → (s.part x.part).job.maxVersion < w → 4 ≤ (s.part x.part).job.versions.length → s.gives (.weightVersionPublish e) (fun t =>
        State.completed x stPoolExhausted 0 t ∧ s.keeps t [.entries, .rings]))) ∧
    (s.pickOf x.part < x.effPick → s.gives (.weightVersionPublish e) (fun t =>
      t.entry e = some { x with st := .boundary } ∧ s.keeps t [.entries]))) ∧
  (∀ (s : State) (e w : Nat) (x : Entry), s.startable e 0x21 = some x → (s.part x.part).st.idle = false → s.hasJob x.part = true →
    (s.part x.part).job.joined = true → w = field x.arg0 0 32 →
    (s.due x = true → s.behind x = false → (s.part x.part).job.unswitched = [] → s.maySwitch x.part w = false →
      s.gives (.weightVersionSwitch e) (fun t =>
        State.completed x stVersionMismatch (s.part x.part).job.currentVersion t ∧ s.keeps t [.entries, .rings])) ∧
    (s.due x = false → s.gives (.weightVersionSwitch e) (fun t => t.entry e = some { x with st := .boundary } ∧ s.keeps t [.entries])))

/-- At its boundary, a STEP_SIZE_WRITE of a group below 4,096 that no schedule governs writes ARG1 into LR and the pick that begins into APPLIED_PICK
of that group's entry of the step-size table in local HBM, no other byte, and completes OK; without a table, or for another group, it completes
INVALID and writes nothing. A FREEZE_SET whose list can be read and whose entries are all well formed writes the group bits and the 1,024 entries that
applying the list in order gives, no other byte, and completes OK; when an install finds no place it completes POOL_EXHAUSTED, with a malformed entry
INVALID, and writes nothing. (For FREEZE_SET no record waits to be written and no line is poisoned, corrupt or armed.) (R189, R383, R384, R390, R391)
-/
def Obligations.StepSizesAndFreezes : Prop :=
  (∀ (s : State) (e : Nat) (x : Entry), s.startable e 0x30 = some x → s.due x = true → s.behind x = false →
    (∀ a b, s.stepTable x.part = some a → x.arg0 < 4096 → s.privileged x.part x.arg0 = false → b = a + 1024 + 32 * x.arg0 + 12 →
      s.isLocal b = true → gSpace b = 0 → s.flips = [] → s.writeErr (partCtx x.part) b 12 = none →
      s.gives (.stepSizeWrite e) (fun t =>
        (∀ i, i < 12 → t.rd (s.keyOf (partCtx x.part) (b + i) true) =
          (leBytes 4 x.arg1 ++ leBytes 8 (if (s.part x.part).job.st = .none then 0 else (s.part x.part).job.pick + 1)).getD i 0) ∧
        (∀ k, (∀ i, i < 12 → k ≠ s.keyOf (partCtx x.part) (b + i) true) → t.rd k = s.rd k) ∧
        State.completed x stOK 0 t ∧ s.keeps t [.mem, .memCtl, .entries, .rings])) ∧
    ((s.stepTable x.part = none ∨ 4096 ≤ x.arg0 ∨ s.privileged x.part x.arg0 = true) → s.gives (.stepSizeWrite e) (fun t =>
      State.completed x stInvalid x.result0 t ∧ s.keeps t [.entries, .rings]))) ∧
  (∀ (s : State) (e a : Nat) (x : Entry) (bs : List Byte) (news : List (List Byte)), s.deferred = [] → s.startable e 0x31 = some x → s.due x = true → s.behind x = false →
    s.freezeTable x.part = some a → x.arg0 % 64 = 0 → s.fetch (s.entryCtx x) x.arg0 (64 * x.arg1) = some bs →
    news = (List.range x.arg1).map (fun i => slice bs (64 * i) 64) →
    (news.all freezeEntryOk = true →
      (∀ es bits, freezeApply (s.freezeEntries x.part) (le (s.valueAt (partCtx x.part) a 512) 0 512) news = some (es, bits) →
        s.isLocal a = true → gSpace a = 0 → s.flips = [] → s.memCtl.poison = [] → s.memCtl.corrupt = [] → s.memCtl.armed = [] →
        s.writeErr (partCtx x.part) a 512 = none →
        s.writeErr (partCtx x.part) (a + 1024) es.flatten.length = none →
        s.gives (.freezeSet e) (fun t =>
          (∀ i, i < 512 → t.rd (s.keyOf (partCtx x.part) (a + i) true) = (leBytes 512 bits).getD i 0) ∧
          (∀ i, i < es.flatten.length → t.rd (s.keyOf (partCtx x.part) (a + 1024 + i) true) = es.flatten.getD i 0) ∧
          (∀ k, (∀ i, i < 512 → k ≠ s.keyOf (partCtx x.part) (a + i) true) →
            (∀ i, i < es.flatten.length → k ≠ s.keyOf (partCtx x.part) (a + 1024 + i) true) → t.rd k = s.rd k) ∧
          State.completed x stOK 0 t ∧ s.keeps t [.mem, .memCtl, .entries, .rings])) ∧
      (freezeApply (s.freezeEntries x.part) (le (s.valueAt (partCtx x.part) a 512) 0 512) news = none → s.gives (.freezeSet e) (fun t =>
        State.completed x stPoolExhausted 0 t ∧ s.keeps t [.entries, .rings]))) ∧
    (news.all freezeEntryOk = false → s.gives (.freezeSet e) (fun t => State.completed x stInvalid x.result0 t ∧ s.keeps t [.entries, .rings])))

/-- On a standard part, at its boundary, a SERVE_LOOP_CONFIG with ENABLE of a joined member's disabled loop, whose block can be read and passes its
checks, makes the loop RUNNING with that block, its BIND and PRIO, its own pick kept (the model's choice) and the budget at B_INIT, and completes OK
with state 1; a block that fails its checks completes INVALID and the loop stays. One without ENABLE, of a running loop with no step, sequence, handle
or ring block, makes it disabled and completes OK with state 0. SWAP_AREA_REGISTER of a running loop with nothing swapped or moving takes a lawful
area (or none, SIZE 0) and empties its slots; an unlawful one completes INVALID. At the end of an interval a budget that is not pinned falls to
max(B_MIN, B*TARGET/T) above the target, rises by max(1, B/8) up to B_MAX below 7/8 of it when a grant was cut, and else stays. (R399, R400, R401,
R413, R423, R189) -/
def Obligations.ServingLoopsStartAndStop : Prop :=
  (∀ (s : State) (e p l : Nat) (x : Entry) (b : List Byte), s.startable e 0x10 = some x → s.deferred = [] → p = x.part → l = x.loop → (s.part p).st.idle = false →
    (s.part p).job.joined = true → s.loopDue x = true → (s.followsJob x && s.behind x) = false → (s.loop p l).ops = [] →
    s.secure = false →
    (bitAt x.arg1 3 = true → (s.loop p l).st = .disabled → x.arg0 % 64 = 0 → s.fetch (s.entryCtx x) x.arg0 128 = some b →
      (s.loopCfgOk (s.entryCtx x) p l (bitAt x.arg1 2) b = true → s.gives (.serveLoopConfig e) (fun t =>
        t.loop p l = { st := .running, cfg := b, bound := bitAt x.arg1 2, prio := field x.arg1 4 2, pick := (s.loop p l).pick, budget := le b 18 2 } ∧
        (∀ k, k ≠ l → t.loop p k = s.loop p k) ∧ (∀ k, k ≠ p → t.part k = s.part k) ∧ State.completed x stOK 1 t ∧
        s.keeps t [.mem, .memCtl, .ports, .parts, .entries, .rings])) ∧
      (s.loopCfgOk (s.entryCtx x) p l (bitAt x.arg1 2) b = false → s.gives (.serveLoopConfig e) (fun t =>
        t.loop p l = s.loop p l ∧ State.completed x stInvalid 0 t ∧ s.keeps t [.mem, .ports, .parts, .entries, .rings]))) ∧
    (bitAt x.arg1 3 = false → (s.loop p l).st = .running → (s.loop p l).step = none → (s.loop p l).seqs = [] → (s.loop p l).handles = [] →
      (s.loop p l).ring = [] → s.gives (.serveLoopConfig e) (fun t => t.loop p l = { pick := (s.loop p l).pick } ∧
        (∀ k, k ≠ l → t.loop p k = s.loop p k) ∧ (∀ k, k ≠ p → t.part k = s.part k) ∧ State.completed x stOK 0 t ∧
        s.keeps t [.mem, .ports, .parts, .entries, .rings]))) ∧
  (∀ (s : State) (e p l : Nat) (x : Entry), s.startable e 0x40 = some x → p = x.part → l = field x.arg2 0 2 → (s.loop p l).st = .running →
    s.seqsIn p (s.loop p l) 4 = 0 → (∀ q ∈ (s.loop p l).seqs, q.moving = 0) →
    ((x.arg1 = 0 ∨ (s.isLocal x.arg0 = true ∧ (gSpace x.arg0 = 4 ∨ gSpace x.arg0 = 5) ∧ s.hostAllowed (s.entryCtx x) (gSpace x.arg0 - 4) = true ∧
        x.arg0 % 65536 = 0 ∧ x.arg1 % 65536 = 0 ∧ gOffset x.arg0 + x.arg1 ≤ 2 ^ 48)) → s.gives (.swapAreaRegister e) (fun t =>
      t.loop p l = { s.loop p l with swapBase := x.arg0, swapBytes := x.arg1, swapUsed := [] } ∧ (∀ k, k ≠ l → t.loop p k = s.loop p k) ∧
      (∀ k, k ≠ p → t.part k = s.part k) ∧ State.completed x stOK 0 t ∧ s.keeps t [.parts, .entries, .rings])) ∧
    (x.arg1 ≠ 0 → (s.isLocal x.arg0 = false ∨ gSpace x.arg0 < 4 ∨ 5 < gSpace x.arg0 ∨ x.arg0 % 65536 ≠ 0 ∨ x.arg1 % 65536 ≠ 0) →
      s.gives (.swapAreaRegister e) (fun t => State.completed x stInvalid x.result0 t ∧ s.keeps t [.entries, .rings]))) ∧
  (∀ (s : State) (p l m : Nat) (x : Loop), s.loop p l = x → x.st = .running → x.interval ≤ x.steps → 0 < x.steps → m = x.sumSteps / x.steps →
    s.bit (.tmpChunkCtl p) l = false → s.gives (.promptChunkTempleUpdate p l) (fun t =>
      t.loop p l = { x with sumSteps := 0, steps := 0, cut := false, budget :=
        if x.target < m ∧ x.bMin < x.budget then max x.bMin (x.budget * x.target / m)
        else if 8 * m < 7 * x.target ∧ x.cut = true ∧ x.budget < x.bMax then min x.bMax (x.budget + max 1 (x.budget / 8)) else x.budget } ∧
      (∀ k, k ≠ l → t.loop p k = s.loop p k) ∧ (∀ k, k ≠ p → t.part k = s.part k) ∧ s.keeps t [.parts]))

/-- At its boundary, a SEQ_ADMIT for a running loop whose descriptor can be read: one that fails its checks completes INVALID; else without a current
version that has the loop's form, VERSION_MISMATCH; else with every slot taken, POOL_EXHAUSTED. Otherwise, with no prefix and no adapter, the sequence
takes the lowest free slot: the entry stays outstanding with the version as its result, the version has one latch more, and the slot's table entry in
local HBM holds state WAITING, the version, position 0, its end at the prompt's length and nothing generated (the page tables lie apart from the
sequence table, no flip region stands, and no record waits to be written). (R35, R39, R403, R404, R406, R407) -/
def Obligations.SequencesAreTakenIn : Prop :=
  ∀ (s : State) (e p l : Nat) (x : Entry) (b : List Byte), s.deferred = [] → s.startable e 0x11 = some x → p = x.part → l = x.loop → (s.part p).st.idle = false →
    (s.part p).job.joined = true → s.loopDue x = true → (s.followsJob x && s.behind x) = false → (s.loop p l).st = .running → x.arg0 % 64 = 0 →
    s.fetch (s.entryCtx x) x.arg0 64 = some b →
    (s.admitOk (s.entryCtx x) p l (field x.arg1 8 8) (bitAt x.arg1 16) b = false → s.gives (.seqAdmit e) (fun t =>
      State.completed x stInvalid x.result0 t ∧ s.keeps t [.entries, .rings])) ∧
    (s.admitOk (s.entryCtx x) p l (field x.arg1 8 8) (bitAt x.arg1 16) b = true → s.handle p l (le b 24 4) = none →
      (s.formNow p l = none → s.gives (.seqAdmit e) (fun t => State.completed x stVersionMismatch 0 t ∧ s.keeps t [.entries, .rings])) ∧
      (∀ v, s.formNow p l = some v →
        ((∀ k, k < (s.loop p l).maxSeqs → ∃ q ∈ (s.loop p l).seqs, q.slot = k) → s.gives (.seqAdmit e) (fun t =>
          State.completed x stPoolExhausted 0 t ∧ s.keeps t [.entries, .rings])) ∧
        (∀ k, k < (s.loop p l).maxSeqs → (∀ q ∈ (s.loop p l).seqs, q.slot ≠ k) → (∀ j, j < k → ∃ q ∈ (s.loop p l).seqs, q.slot = j) →
          le b 28 4 = 0 → (∀ a ∈ (s.part p).adapters, a.id ≠ 0) → s.flips = [] → gSpace (s.loop p l).seqTable = 0 → gSpace (s.loop p l).ptArea = 0 →
          gOffset (s.loop p l).seqTable + 128 * (s.loop p l).maxSeqs ≤ 2 ^ 48 →
          gOffset (s.loop p l).ptArea + 4 * (s.loop p l).maxSeqs * (s.loop p l).ptEntries ≤ 2 ^ 48 →
          (gOffset (s.loop p l).seqTable + 128 * (s.loop p l).maxSeqs ≤ gOffset (s.loop p l).ptArea ∨
           gOffset (s.loop p l).ptArea + 4 * (s.loop p l).maxSeqs * (s.loop p l).ptEntries ≤ gOffset (s.loop p l).seqTable) →
          s.gives (.seqAdmit e) (fun t =>
            (∃ q, t.loop p l = { s.loop p l with admitOrder := (s.loop p l).admitOrder + 1, seqs := (s.loop p l).seqs ++ [q] } ∧ q.slot = k ∧
              q.acc = x.acc ∧ q.moving = 0 ∧ q.adapterAt = 0) ∧
            (∃ y, t.entry e = some y ∧ y.st = .running ∧ y.result = v.number + 2 ^ 32 * b2n (bitAt x.arg1 16)) ∧
            (t.part p).job = { (s.part p).job with versions := (s.part p).job.versions.map (fun u =>
              if u.number = v.number then { u with latched := u.latched + 1 } else u) } ∧
            t.seqState p l k = 1 ∧ t.seqGet p l k 0 4 = x.tag ∧ t.seqGet p l k 8 4 = v.number % 2 ^ 32 ∧ t.seqPos p l k = 0 ∧
            t.seqEnd p l k = le b 0 4 ∧ t.seqGet p l k 36 4 = 0 ∧ (∀ k', k' ≠ p → t.part k' = s.part k') ∧
            s.keeps t [.mem, .memCtl, .parts, .entries]))))

/-- A SEQ_CANCEL that may start completes OK with RESULT 0. When every unretired sequence of the partition that was admitted with its TAG and from its
ring pair is already CANCEL_PENDING, or there is none, nothing but the entry and its ring pair changes. When exactly one sequence matches and is not
CANCEL_PENDING, it becomes CANCEL_PENDING in its loop's sequence table (in HBM or tier 2, no flip region standing), and no byte of memory outside byte
7 of its entry changes. (R420) -/
def Obligations.CancelNamesByTagAndRingPair : Prop :=
  ∀ (s : State) (e p : Nat) (x : Entry), s.startable e 0x12 = some x → p = x.part →
    ((∀ y ∈ (s.part p).loops, ∀ q ∈ y.2.seqs, s.seqGet p y.1 q.slot 0 4 = field x.arg0 0 32 → s.seqGet p y.1 q.slot 4 1 = field x.arg0 32 8 →
        s.seqCancelled p y.1 q.slot = true) →
      s.gives (.seqCancel e) (fun t => State.completed x stOK 0 t ∧ s.keeps t [.entries, .rings])) ∧
    (∀ y ∈ (s.part p).loops, ∀ q ∈ y.2.seqs, s.seqGet p y.1 q.slot 0 4 = field x.arg0 0 32 → s.seqGet p y.1 q.slot 4 1 = field x.arg0 32 8 →
      (∀ z ∈ (s.part p).loops, ∀ r ∈ z.2.seqs, s.seqGet p z.1 r.slot 0 4 = field x.arg0 0 32 → s.seqGet p z.1 r.slot 4 1 = field x.arg0 32 8 →
        z.1 = y.1 ∧ r.slot = q.slot) →
      s.seqCancelled p y.1 q.slot = false → s.flips = [] → gSpace ((s.loop p y.1).seqTable + 128 * q.slot + 7) ≤ 1 →
      s.gives (.seqCancel e) (fun t => t.seqCancelled p y.1 q.slot = true ∧
        (∀ k, k ≠ s.keyOf (partCtx p) ((s.loop p y.1).seqTable + 128 * q.slot + 7) true → t.rd k = s.rd k) ∧
        State.completed x stOK 0 t ∧ s.keeps t [.mem, .memCtl, .entries, .rings]))

/-- At its boundary a PREFIX_REGISTER whose checks pass and whose pages can be had gives the next handle number as RESULT, and the new handle stands
FILLING with those pages, the current version and no position filled. A PREFIX_RELEASE of a handle that is not RELEASED makes it RELEASED and
completes OK; of any other, INVALID. An ADAPTER_LOAD of a new id with a lawful length and a local source takes its pool entry and stays outstanding
while the copy runs; ADAPTER_COPY_COMPLETE of its copy makes the adapter usable and completes it OK. An ADAPTER_REPLACE with length 0 at its boundary
leaves the adapter without a current generation and completes OK; one that names no adapter completes INVALID. (No record waits to be written.) (R416,
R418, R419, R425, R426) -/
def Obligations.PrefixesAndAdapters : Prop :=
  (∀ (s : State) (e p l n : Nat) (x : Entry) (b : List Byte) (v : Version) (s1 : State) (es : List Nat), s.deferred = [] → s.startable e 0x13 = some x → p = x.part →
    l = x.loop → (s.part p).st.idle = false → s.loopDue x = true → (s.followsJob x && s.behind x) = false → (s.loop p l).st = .running → x.arg0 % 64 = 0 →
    s.fetch (s.entryCtx x) x.arg0 32 = some b → n = le b 0 4 → zeroAt b 5 3 = true → zeroAt b 20 12 = true → 0 < n → n < (s.loop p l).maxContext →
    le b 4 1 < (s.loop p l).queues → s.weight p l (le b 4 1) ≠ 0 → (s.adapterOk p (le b 16 4)).isSome = true →
    s.readable (s.entryCtx x) (le b 8 8) (4 * n) = true → s.formNow p l = some v →
    ((s.loop p l).handles.filter (fun h => h.st != .released)).length < 4096 →
    (s.loopMark x).handlePages p l (s.loop p l).nextHandle (ceilDiv n 256) = (s1, some es) → s.gives (.prefixRegister e) (fun t =>
      (∃ h, t.loop p l = { s1.loop p l with nextHandle := (s.loop p l).nextHandle + 1, handles := (s1.loop p l).handles ++ [h] } ∧
        h.id = (s.loop p l).nextHandle ∧ h.st = .filling ∧ h.tokens = n ∧ h.queue = le b 4 1 ∧ h.version = v.number ∧ h.pages = es ∧ h.pos = 0) ∧
      State.completed x stOK (s.loop p l).nextHandle t ∧ s.keeps t [.mem, .parts, .entries, .rings])) ∧
  (∀ (s : State) (e p l : Nat) (x : Entry), s.startable e 0x14 = some x → p = x.part → l = x.loop → (s.part p).st.idle = false → s.loopDue x = true →
    (s.followsJob x && s.behind x) = false →
    (∀ h, s.handle p l (field x.arg0 0 32) = some h → h.st ≠ .released → (s.loop p l).st = .running → s.gives (.prefixRelease e) (fun t =>
      t.loop p l = { s.loop p l with handles := (s.loop p l).handles.map (fun y => if y.id = h.id then { y with st := .released } else y) } ∧
      (∀ k, k ≠ l → t.loop p k = s.loop p k) ∧ State.completed x stOK 0 t ∧ s.keeps t [.mem, .parts, .entries, .rings])) ∧
    ((∀ h, s.handle p l (field x.arg0 0 32) = some h → h.st = .released) → s.gives (.prefixRelease e) (fun t =>
      State.completed x stInvalid x.result0 t ∧ s.keeps t [.entries, .rings]))) ∧
  (∀ (s : State) (e p f : Nat) (x : Entry) (s1 : State), s.deferred = [] → s.startable e 0x15 = some x → p = x.part → (s.part p).st.idle = false → x.arg2 ≠ 0 →
    adapterLength x.arg1 = true → (∀ a ∈ (s.part p).adapters, a.loading = none) → (∀ a ∈ (s.part p).adapters, a.current = true → a.id ≠ x.arg2) →
    (s.part p).adapters.length < 1024 → (s.setEntry e (fun y => { y with st := .running })).alloc p 5 x.arg2 (ceilDiv x.arg1 65536) 0 = (s1, some f) →
    s1.isLocal x.arg0 = true → gSpace x.arg0 ≤ 2 → s1.readErr (s1.entryCtx x) x.arg0 x.arg1 = none → s.gives (.adapterLoad e) (fun t =>
      (t.part p).adapters = (s1.part p).adapters ++ [{ id := x.arg2, gen := 1, entry := f, loading := some x.acc }] ∧
      t.entry e = some { x with st := .running } ∧ s.keeps t [.mem, .memCtl, .parts, .entries])) ∧
  (∀ (s : State) (p id e : Nat) (a : Adapter) (x : Entry) (s1 : State), (s.part p).adapters = [a] → a.id = id → a.copied = false → a.loading = some e →
    s.entry e = some x → x.parked = none → x.opcode = 0x15 → x.acks = 0 → s.runs p = true →
    s.copyRange (s.entryCtx x) .outside x.arg0 (s.pentAddr p a.entry) x.arg1 = (s1, none) → (s1.part p).adapters = [a] → s1.entry e = some x →
    s.gives (.adapterCopyComplete p id) (fun t => (t.part p).adapters = [{ a with copied := true, loading := none }] ∧
      State.completed x stOK 0 t ∧ (∀ k, t.rd k = s1.rd k) ∧ s1.keeps t [.parts, .entries, .rings])) ∧
  (∀ (s : State) (e p : Nat) (x : Entry), s.deferred = [] → s.startable e 0x16 = some x → p = x.part → (s.part p).st.idle = false → s.due x = true → s.behind x = false →
    (∀ a ∈ (s.part p).adapters, a.loading = none) → (∀ y ∈ s.entries, y.opcode = 0x16 → e ≤ y.acc) →
    (x.arg1 = 0 → (s.adapterNow p x.arg2).isSome = true → s.gives (.adapterReplace e) (fun t =>
      (t.part p).adapters = (s.part p).adapters.map (fun a => if a.id = x.arg2 ∧ a.current = true then { a with current := false } else a) ∧
      State.completed x stOK 0 t ∧ s.keeps t [.mem, .parts, .entries, .rings])) ∧
    (s.adapterNow p x.arg2 = none → s.gives (.adapterReplace e) (fun t => State.completed x stInvalid x.result0 t ∧ s.keeps t [.entries, .rings])))

/-- SERVE_STEP_BOUNDARY of a running unbound loop with nothing in it advances its own pick by one, writes a batch table of that pick with no row, and
dispatches nothing (no entry waits for a boundary, no activation is under way, no flip region stands). One that goes on at step 6 with a row for a
prefix fill, with no other draft of the partition in flight and every loom free, sends the resident draft of SLOT into the Heddle as the step (no line
is poisoned, corrupt or armed). SERVE_STEP_COMPLETE of a step that ended without failure, with such a row, fills the handle up to the row's end (READY
when it is whole), ends the step and notes its length. SWAP_OUT_COMPLETE adds a SWAPPED completion with the same TAG and COOKIE for a sequence of a
host that is not administrative, which stays outstanding. A RING_BLOCK_ARRIVE of round 0, or masked, is noted without a pool entry, another in the
entry it was given, and goes on to RING_NEXT unless the round is the last; a block that has come is ignored. (R21, R405, R408, R409, R410, R413, R419,
R423, R429) -/
def Obligations.BatchStepsBeginAndEnd : Prop :=
  (∀ (s : State) (p l : Nat) (x : Loop), p < 16 → l < 4 → s.deferred = [] → s.loop p l = x → x.st = .running → s.dispatches p = true → x.step = none →
    (x.stage = 0 → (∀ d ∈ s.drafts, d.part = p → d.slot ≠ some x.slot) → x.bound = false → x.seqs = [] → x.handles = [] → x.ring = [] →
      (∀ y ∈ s.entries, y.part = p → y.st ≠ .boundary) → (∀ a ∈ (s.part p).adapters, a.loading = none) → s.boot.phase = .idle → x.pick < 2 ^ 64 - 1 →
      s.flips = [] → gSpace x.batchTable = 0 → gOffset x.batchTable + 64 ≤ 2 ^ 48 → s.gives (.serveStepBoundary p l) (fun t =>
        (t.loop p l).pick = x.pick + 1 ∧ (t.loop p l).step = none ∧ (t.loop p l).rows = [] ∧ (t.loop p l).stage = 0 ∧ (t.loop p l).st = .running ∧
        le (t.readAt (partCtx p) x.batchTable 12) 0 8 = x.pick + 1 ∧ le (t.readAt (partCtx p) x.batchTable 12) 8 4 = 0 ∧
        (∀ k, k ≠ l → t.loop p k = s.loop p k) ∧ s.keeps t [.mem, .memCtl, .ports, .parts])) ∧
    (∀ r : BatchRow, x.stage = 6 → (∀ q ∈ x.seqs, q.moving ≠ 1) → x.rows = [r] → r.kind = 2 → s.flips = [] → s.memCtl.armed = [] → s.memCtl.corrupt = [] →
      s.memCtl.poison = [] → (∀ d ∈ s.drafts, d.part ≠ p) → (∀ k, (s.loom k).node = none) →
      (∀ n m z, tget {} (s.part p).slots x.slot = z → n = s.moduleNum * 2 ^ 52 + s.areaOff p x.slot → m = n + 0x800000 →
        s.readErr (partCtx p) n (128 * z.nodeCount) = none ∧ s.readErr (partCtx p) m (2 * z.succCount) = none) →
      s.gives (.serveStepBoundary p l) (fun t =>
        (∃ ns, t.drafts = s.drafts ++ [{ id := s.draftIds + 1, part := p, acc := none, loop := some l, slot := some x.slot, area := x.slot,
                                         begun := true, nodes := ns }]) ∧
        (t.loop p l).step = some (s.draftIds + 1) ∧ (t.loop p l).stage = 0 ∧ (t.loop p l).rows = [r] ∧
        s.keeps t [.mem, .memCtl, .ports, .parts, .drafts, .draftIds, .draws]))) ∧
  (∀ (s : State) (p l id cycles : Nat) (x : Loop) (d : Draft) (r : BatchRow) (h : Handle), s.deferred = [] → s.loop p l = x → x.step = some id → s.draft id = some d →
    d.part = p → d.acc = none → d.ended = true → s.runs p = true → s.failNode d = none → x.st = .running → x.bound = false → x.rows = [r] → r.kind = 2 →
    s.handle p l r.who = some h → h.st = .filling → s.boot.phase = .idle → s.gives (.serveStepComplete p l cycles) (fun t =>
      t.handle p l r.who = some { h with pos := h.pos + r.count, st := if h.tokens ≤ h.pos + r.count then .ready else .filling } ∧
      t.drafts = s.drafts.filter (fun y => y.id != id) ∧ (t.loop p l).step = none ∧ (t.loop p l).rows = [] ∧ (t.loop p l).pins = [] ∧
      (t.loop p l).lastStep = min cycles (2 ^ 32 - 1) ∧ (t.loop p l).steps = x.steps + 1 ∧ (t.loop p l).pick = x.pick ∧
      s.keeps t [.mem, .ports, .parts, .drafts])) ∧
  (∀ (s : State) (p l k : Nat) (q : SeqX) (y : Entry), s.deferred = [] → s.memCtl.corrupt = [] → s.seqX p l k = some q → q.moving = 1 → s.entry q.acc = some y → s.isAdmin y.port y.func = false →
    s.gives (.swapOutComplete p l k) (fun t =>
      (∃ c ∈ (t.ring y.home.1 y.home.2).held, c.acc = y.acc ∧ c.status = stSwapped ∧ c.tag = y.tag ∧ c.cookie = y.cookie) ∧
      (∃ r, t.seqX p l k = some r ∧ r.moving = 0 ∧ r.pages = [] ∧ r.swaps = q.swaps + 1 ∧ r.acc = q.acc) ∧
      (t.loop p l).swapOrder = (s.loop p l).swapOrder + 1 ∧ (t.entry q.acc).isSome = true ∧ t.regs = s.regs)) ∧
  (∀ (s : State) (p l block round : Nat) (visible : Bool) (x : Loop), p < 16 → l < 4 → block < 65536 → s.loop p l = x → x.st = .running → x.step.isSome = true →
    x.ringOn = true → round < x.ringSize → s.runs p = true →
    ((∀ r ∈ x.ring, r.1 ≠ 65536 * round + block) →
      ((round = 0 ∨ visible = false) → s.gives (.ringBlockArrive p l block round visible) (fun t =>
        t.loop p l = { x with ring := x.ring ++ [(65536 * round + block, 0)] } ∧
        t.out = s.out ++ (if round + 1 < x.ringSize then [.ring x.ringNext block (round + 1)] else []) ∧ s.keeps t [.parts, .out])) ∧
      (∀ s1 e, round ≠ 0 → visible = true → s.alloc p 3 block x.ringBlocks (s.loopCounter p l) = (s1, some e) →
        s.gives (.ringBlockArrive p l block round visible) (fun t => (t.loop p l).ring = (s1.loop p l).ring ++ [(65536 * round + block, e + 1)] ∧
          t.out = s.out ++ (if round + 1 < x.ringSize then [.ring x.ringNext block (round + 1)] else []) ∧ s.keeps t [.mem, .parts, .out]))) ∧
    ((∃ r ∈ x.ring, r.1 = 65536 * round + block) → exec (.ringBlockArrive p l block round visible) s = .next (settle s)))

/-- A ready node of a dispatching partition that no rival precedes, whose pick has come, which no recovery, batch step or displaced work holds: a
plain COPY of one local readable row becomes running and joins the queues of its shuttles, a BARRIER of scope 0 becomes running with nothing left to
do, a LOOM_TASK on one free loom that holds its image, which the partition's table names (no epilogue, not output-stationary, no alternation going
on), becomes running and takes the loom with its walks at their start; pool entries may be pinned, nothing else but the cache changes. A node that is
not ready is not dispatched. NODE_COMPLETE of a running COPY, BARRIER, SIGNAL or HOST_WAIT node that has done its work, with no acknowledgement
missing and another node of its draft still open, makes it done with OK, frees its looms, and takes it from its successors' missing predecessors;
other drafts stay. A shuttle that takes the descriptor of a plain copy of one row between local ranges that do not overlap, with nothing queued at a
shuttle, leaves the source's bytes in the destination, and no other byte changes. (No record waits to be written, no requests are merged; for the
shuttle no line is poisoned, corrupt or armed.) (R42, R59, R202, R210, R211, R212, R213, R252, R254, R255) -/
def Obligations.NodesAreDispatchedAndEnd : Prop :=
  (∀ (s : State) (d n : Nat) (x : Draft) (y : Node), s.draft d = some x → s.node d n = some y → s.deferred = [] →
    (s.nodeReady x n y = false → exec (.nodeDispatch d n) s = .next (settle s)) ∧
    (s.dispatches x.part = true → s.nodeReady x n y = true → s.outranked x n y = false → s.awaitsPick x y = false → s.stepWaits x = false →
      s.reserved x y = false → s.bankTaken x n y = false → y.st ≠ .stopped →
      (y.kind = 3 → y.arg 104 8 = 0 → descOk (plainDesc (y.td 0) (y.td 1)) = true → tdRows (y.td 0) = 1 → fmtMx (tdFmt (y.td 0)) = false →
        s.isLocal (tdBase (y.td 0)) = true → gSpace (tdBase (y.td 0)) ≤ 2 → s.readErr (nodeCtx x y) (tdBase (y.td 0)) (tdRowBytes (y.td 0)) = none →
        s.gives (.nodeDispatch d n) (fun t => (∃ es, t.node d n = some { y with st := .running, pins := es }) ∧
          (∀ k, k ≠ n → t.node d k = s.node d k) ∧ (∀ k, k ≠ d → t.draft k = s.draft k) ∧
          s.keeps t [.mem, .memCtl, .drafts, .shuttles, .mates])) ∧
      (y.kind = 8 → y.arg 104 1 = 0 → s.gives (.nodeDispatch d n) (fun t =>
        (∃ es, t.node d n = some { y with st := .running, worked := true, pins := es }) ∧
        (∀ k, k ≠ n → t.node d k = s.node d k) ∧ (∀ k, k ≠ d → t.draft k = s.draft k) ∧ s.keeps t [.mem, .drafts])) ∧
      (∀ l k i, y.kind = 1 → s.nodeLooms x y = [l] → (∀ lg ∈ y.loomSet, s.isVacant x.part lg = false) → (s.loom l).node = none →
        (s.imageEntry x.part y.image).isSome = true → (s.loom l).alternates d i = false → (s.loom l).images = [(k, i)] → Img.id i = y.image → Img.epilogue i = false → Img.mode i ≠ 2 → s.gives (.nodeDispatch d n) (fun t =>
          (∃ es, t.node d n = some { y with st := .running, pins := es }) ∧ (t.loom l).node = some (d, n) ∧ (t.loom l).run = { rank := 0, looms := 1, draft := d } ∧
          (∀ m, m ≠ l → t.loom m = s.loom m) ∧ (∀ m, m ≠ d → t.draft m = s.draft m) ∧ s.keeps t [.mem, .drafts, .looms])))) ∧
  (∀ (s : State) (d n : Nat) (x : Draft) (y : Node), s.draft d = some x → s.node d n = some y → s.deferred = [] → s.retired = [] → s.mates = [] →
    (y.kind = 3 ∨ y.kind = 8 ∨ y.kind = 9 ∨ y.kind = 0xA) → y.st = .running → s.runs x.part = true → y.worked = true → y.acks = 0 → y.failing = none →
    x.failed = false → (∃ k z, k ≠ n ∧ x.nodes[k]? = some z ∧ z.isDone = false) →
    ((s.part x.part).job.step = some d ∨ ((s.part x.part).job.step = none ∧ (s.part x.part).job.ended = none)) →
    s.gives (.nodeComplete d n) (fun t => (∃ z, t.node d n = some z ∧ z.st = .done stOK ∧ z.pins = [] ∧ z.bytes = y.bytes) ∧
      (∀ k z, k ≠ n → s.node d k = some z → t.node d k = some { z with deps := z.deps - y.succ.count k }) ∧
      (∀ k, k ≠ d → t.draft k = s.draft k) ∧ (∀ l, (s.loom l).node ≠ some (d, n) → t.loom l = s.loom l) ∧
      (∀ l, (s.loom l).node = some (d, n) → (t.loom l).node = none) ∧ s.keeps t [.mem, .drafts, .looms, .parts])) ∧
  (∀ (s : State) (p a n : Nat) (desc u v : List Byte), p < 16 → s.dispatches p = true → s.deferred = [] → a % 64 = 0 →
    s.fetch (partCtx p) a 64 = some desc → descOk desc = true → descOp desc = 1 → u = descSrc desc → v = descDst desc → tdRows v = 1 →
    fmtMx (tdFmt u) = false → n = tdRowBytes u → s.flips = [] → s.memCtl.poison = [] → s.memCtl.corrupt = [] → s.memCtl.armed = [] → s.shuttles = [] →
    s.tdOpen u = true → s.tdOpen v = true → s.isLocal (tdBase u) = true → s.isLocal (tdBase v) = true →
    gSpace (tdBase u) ≤ 1 → gSpace (tdBase v) ≤ 1 → gOffset (tdBase u) + n ≤ 2 ^ 48 → gOffset (tdBase v) + n ≤ 2 ^ 48 →
    s.readErr (partCtx p) (tdBase u) n = none → s.writeErr (partCtx p) (tdBase v) n = none →
    (gSpace (tdBase u) ≠ gSpace (tdBase v) ∨ gOffset (tdBase u) + n ≤ gOffset (tdBase v) ∨ gOffset (tdBase v) + n ≤ gOffset (tdBase u)) →
    s.gives (.shuttleRequest p a .outside) (fun t =>
      (∀ i, i < n → t.rd (s.dataKey (gSpace (tdBase v)) (gOffset (tdBase v) + i)) = s.rd (s.dataKey (gSpace (tdBase u)) (gOffset (tdBase u) + i))) ∧
      (∀ k, (∀ i, i < n → k ≠ s.dataKey (gSpace (tdBase v)) (gOffset (tdBase v) + i)) → t.rd k = s.rd k) ∧
      s.keeps t [.mem, .memCtl, .draws, .served]))

/-- At an open boundary where the one draft in flight is a DRAFT_RUN step whose effective pick has come and that has no PRE_STEP node, no entry waits
for the boundary, no loop is bound, no version stands, no step-size table is set and no activation runs, PICK_ADVANCE makes the job RUNNING under the
next pick with that step begun; the Heddle holds the pick, and it is on its way to every island of the partition. Without an open boundary it changes
nothing. PREFETCH_ISSUE of the first entry not issued, inside the window, for the selvage shuttles while nothing is queued there, whose descriptor is
a plain copy of one row between local ranges that do not overlap, leaves the source's bytes in the destination and no other byte changed, and notes
the entry as issued and completed (no line is poisoned, corrupt or armed, and no record waits to be written); past the window, of a draft that does
not starve, it does nothing. At the end of an interval the lead falls by one (undone raise without gain, or evictions), rises by one (stall above
STALL_HI, no raise blocked), or stays. (R21, R58, R59, R206, R212, R260, R261, R262) -/
def Obligations.PicksBeginAndPrefetchesRun : Prop :=
  (∀ (s : State) (p e : Nat) (d : Draft) (x : Entry), p < 16 → s.deferred = [] → s.boot.phase = .idle →
    (s.boundaryOpen p = false → exec (.pickAdvance p) s = .next (settle s)) ∧
    (s.boundaryOpen p = true → s.drafts = [d] → d.part = p → d.begun = false → d.noStep = false → d.failed = false → d.acc = some e → s.entry e = some x →
      x.effPick ≤ s.pickOf p + 1 → (∀ y ∈ d.nodes, y.preStep = false) → (∃ y ∈ d.nodes, y.isDone = false) →
      (∀ y ∈ s.entries, y.part = p → y.st ≠ .boundary) → (s.part p).shed = none → (∀ l, l < 4 → (s.loop p l).bound = false) →
      (s.part p).job.versions = [] → s.stepTable p = none → s.pickOf p < 2 ^ 64 - 1 → s.gives (.pickAdvance p) (fun t =>
        (t.part p).job = { (s.part p).job with
          st := .running, pick := s.pickOf p + 1, verdict := 0, reported := false, decided := none, locator := [], updated := false
          ended := none, unswitched := [], step := some d.id } ∧
        t.drafts = [{ d with begun := true }] ∧ t.entry e = some { x with pick := s.pickOf p + 1 } ∧
        tget 0 (t.island 0x20).picks p = s.pickOf p + 1 ∧
        (∀ i ∈ s.partIslands p, Transfer.pick p (s.pickOf p + 1) ∈ tget [] t.channels (256 * 0x20 + i)) ∧
        (∀ k, k ≠ p → t.part k = s.part k) ∧ s.keeps t [.mem, .islands, .channels, .ports, .parts, .entries, .drafts]))) ∧
  (∀ (s : State) (d k i : Nat) (x : Draft) (es : List (List Byte)) (b : List Byte), s.deferred = [] → s.draft d = some x → x.slot = some k →
    x.failed = false → s.dispatches x.part = true → es = (tget {} (s.part x.part).slots k).schedule.drop 1 → es[i]? = some b → i ∉ x.issued →
    (∀ j, j < i → j ∈ x.issued) →
    (∀ (n : Nat) (c : Ctx) (desc u v : List Byte), i < openEntry x es + s.leadOf x.part k → entryStaged b = false → le b 16 1 = 0xFF → c = fetchCtx x →
      (∀ f ∈ x.fetched, f.1 ≠ i) → i ∉ x.fetchWorked → tget 0 x.fetchAcks i = 0 → (∀ z ∈ x.staged, z.1 ≠ i) → s.shuttles = [] → s.mates = [] →
      s.fetch c (le b 8 8) 64 = some desc → descOk desc = true → descOp desc = 1 → u = descSrc desc → v = descDst desc → tdRows v = 1 →
      fmtMx (tdFmt u) = false → n = tdRowBytes u → s.flips = [] → s.memCtl.poison = [] → s.memCtl.corrupt = [] → s.memCtl.armed = [] →
      s.tdOpen u = true → s.tdOpen v = true → s.isLocal (tdBase u) = true → s.isLocal (tdBase v) = true → gSpace (tdBase u) ≤ 1 → gSpace (tdBase v) ≤ 1 →
      gOffset (tdBase u) + n ≤ 2 ^ 48 → gOffset (tdBase v) + n ≤ 2 ^ 48 → s.readErr c (tdBase u) n = none → s.writeErr c (tdBase v) n = none →
      (gSpace (tdBase u) ≠ gSpace (tdBase v) ∨ gOffset (tdBase u) + n ≤ gOffset (tdBase v) ∨ gOffset (tdBase v) + n ≤ gOffset (tdBase u)) →
      s.gives (.prefetchIssue d) (fun t =>
        t.draft d = some { x with issued := x.issued ++ [i], fetchWorked := x.fetchWorked ++ [i], fetched := x.fetched ++ [(i, stOK)] } ∧
        (∀ m, m ≠ d → t.draft m = s.draft m) ∧
        (∀ j, j < n → t.rd (s.dataKey (gSpace (tdBase v)) (gOffset (tdBase v) + j)) = s.rd (s.dataKey (gSpace (tdBase u)) (gOffset (tdBase u) + j))) ∧
        (∀ m, (∀ j, j < n → m ≠ s.dataKey (gSpace (tdBase v)) (gOffset (tdBase v) + j)) → t.rd m = s.rd m) ∧
        s.keeps t [.mem, .memCtl, .drafts, .draws, .shuttles, .served])) ∧
    (openEntry x es + s.leadOf x.part k ≤ i → s.starved x = false → exec (.prefetchIssue d) s = .next (settle s))) ∧
  (∀ (s : State) (p k stall ev : Nat) (x y : Slot), x = tget {} (s.part p).slots k → x.schedule ≠ [] → ev = (s.part p).pool.stagingEvictions - x.evBase →
    ((∃ v, x.prevS = some v ∧ 7 * v ≤ 8 * stall) → y = { x with lead := max x.leadMin (x.lead - 1), prevS := none, noRaise := 8 }) →
    ((∀ v, x.prevS = some v → 8 * stall < 7 * v) → 0 < ev → x.leadMin < x.lead → y = { x with lead := x.lead - 1, prevS := none, noRaise := x.noRaise - 1 }) →
    ((∀ v, x.prevS = some v → 8 * stall < 7 * v) → (ev = 0 ∨ x.lead ≤ x.leadMin) → x.stallHi < stall → x.lead < x.leadMax → x.noRaise = 0 →
      y = { x with lead := x.lead + 1, prevS := some stall, noRaise := x.noRaise - 1 }) →
    ((∀ v, x.prevS = some v → 8 * stall < 7 * v) → (ev = 0 ∨ x.lead ≤ x.leadMin) → (stall ≤ x.stallHi ∨ x.leadMax ≤ x.lead ∨ x.noRaise ≠ 0) →
      y = { x with noRaise := x.noRaise - 1 }) →
    x.interval ≤ x.picks → s.gives (.prefetchLeadTempleUpdate p k stall) (fun t =>
      tget {} (t.part p).slots k = { y with picks := 0, evBase := (s.part p).pool.stagingEvictions } ∧
      (∀ m, m ≠ k → tget {} (t.part p).slots m = tget {} (s.part p).slots m) ∧ (∀ m, m ≠ p → t.part m = s.part m) ∧ s.keeps t [.parts]))

/-- When the pool has an unused directory entry and a free run of the length asked (behind the 32 blocks of the directory), POOL_ALLOCATE writes one
entry that was unused, with the lowest block at which such a run begins, the length, the class, its owner pin (all classes but 1 and 2), no pin, one
reference for class 0 alone, the pick and the key; no other byte of memory changes. When no run is there and nothing may be evicted, for a class other
than 1 and 2, only counts of the pool change and EXHAUSTED rises by one. At the end of an interval the age is the pin while pinned; else half (at
least AGE_MIN) after a protected failure; else a quarter more (at least one, at most AGE_MAX) after a refault; else as it was. (R245, R246, R247,
R248, R251) -/
def Obligations.PoolAllocationIsFirstFit : Prop :=
  (∀ (s : State) (p cls key n : Nat), p < 16 → cls < 8 → 0 < n → n < 2 ^ 32 → s.pickOf p < 2 ^ 64 → 0 < s.poolBlocks p →
    ((∃ e, e < 65536 ∧ (s.pent p e).blocks = 0) →
      (∃ b, 32 ≤ b ∧ b + n ≤ s.poolBlocks p ∧ ∀ y ∈ s.pents p, b + n ≤ y.2.first ∨ y.2.first + y.2.blocks ≤ b) →
      s.gives (.poolAllocate p cls key n) (fun t => ∃ e b, e < 65536 ∧ (s.pent p e).blocks = 0 ∧
        32 ≤ b ∧ b + n ≤ s.poolBlocks p ∧ (∀ y ∈ s.pents p, b + n ≤ y.2.first ∨ y.2.first + y.2.blocks ≤ b) ∧
        (∀ c, 32 ≤ c → c + n ≤ s.poolBlocks p → (∀ y ∈ s.pents p, c + n ≤ y.2.first ∨ y.2.first + y.2.blocks ≤ c) → b ≤ c) ∧
        t.pent p e = { first := b, blocks := n, cls := cls, ownerPin := decide (cls ≠ 1 ∧ cls ≠ 2), freePending := false, pins := 0,
                       refs := if cls = 0 then 1 else 0, lastUse := s.pickOf p, counter := 0, key := key % 2 ^ 32 } ∧
        (∀ k, (∀ i, i < 32 → k ≠ s.dataKey 0 (s.poolBase p + 32 * e + i)) → t.rd k = s.rd k) ∧
        (∀ k, k ≠ p → t.part k = s.part k) ∧ s.keeps t [.mem, .parts])) ∧
    ((∀ b, 32 ≤ b → b + n ≤ s.poolBlocks p → ∃ y ∈ s.pents p, ¬(b + n ≤ y.2.first ∨ y.2.first + y.2.blocks ≤ b)) → s.victimEntry p = none →
      cls ≠ 1 → cls ≠ 2 → s.gives (.poolAllocate p cls key n) (fun t =>
        (t.part p).pool.exhausted = satInc 64 (s.part p).pool.exhausted 1 ∧ (t.part p).job = (s.part p).job ∧ (∀ k, k ≠ p → t.part k = s.part k) ∧
        s.keeps t [.parts]))) ∧
  (∀ (s : State) (p a : Nat) (x : Pool), x = (s.part p).pool →
    (s.bit (.tmpPool p) 0 = true → a = s.fld (.tmpPool p) 16 16) →
    (s.bit (.tmpPool p) 0 = false → x.failure = true → a = max (s.ageMin p) (x.age / 2)) →
    (s.bit (.tmpPool p) 0 = false → x.failure = false → x.refault = true → a = min (s.ageMax p) (x.age + max 1 (x.age / 4))) →
    (s.bit (.tmpPool p) 0 = false → x.failure = false → x.refault = false → a = x.age) →
    s.gives (.poolAgeTempleUpdate p) (fun t => (t.part p).pool = { x with age := a, failure := false, refault := false, picks := 0 } ∧
      (∀ k, k ≠ p → t.part k = s.part k) ∧ s.keeps t [.parts]))

/-- On a loom whose node runs an image in the warp-stationary mode, whose FETCH stages (if any) have brought all, that may enter its next row against
the active warp, with no guest, no armed check and every address in place: ARRAY_ROW_COMPLETE with a mismatch or a parity error only marks the row for
its second entry. With a match, for MXINT8 operands accumulated in INT32 without output path, element j of the accumulator row becomes its old value
(0 where the image clears first and the reduction begins) plus the sum over the 128 reduction rows of operand times warp, as signed bytes, in 32-bit
two's complement; no other byte changes, and the loom stands one step further. ROW_CHECK_RETRY_COMPLETE of a row that now matches counts one corrected
event of the loom, ends the retry and goes one step further. (R76, R81, R82, R83, R121, R124, R145, R146) -/
def Obligations.ArrayRowsAccumulate : Prop :=
  ∀ (s : State) (l n : Nat) (w : Work) (g0 g1 g3 : Gen) (wa : Nat) (wb : List Byte), s.guests = [] → s.deferred = [] → s.work l = some w → w.img.mode = 0 →
    w.img.gen 0 = some g0 → w.img.gen 1 = some g1 → w.img.gen 3 = some g3 → (s.loom l).warp = some (wa, wb) → (wa : Int) = g1.addr n →
    n = (s.loom l).run.step → ((s.loom l).run.fetchList w.node).length ≤ (s.loom l).run.fetched → s.arrayFault l w.img n = none → tget 0 (s.loom l).armed 1 = 0 →
    ((s.loom l).mayEnter w.img = true →
      s.gives (.arrayRowComplete l .mismatch) (fun t => t.loom l = { s.loom l with retry := true, retryParity := false } ∧
        (∀ m, m ≠ l → t.loom m = s.loom m) ∧ s.keeps t [.looms]) ∧
      s.gives (.arrayRowComplete l .parity) (fun t => t.loom l = { s.loom l with retry := true, retryParity := true } ∧
        (∀ m, m ≠ l → t.loom m = s.loom m) ∧ s.keeps t [.looms]) ∧
      (w.img.epilogue = false → w.img.acc = 15 → w.img.weft = 13 → w.img.warp = 13 → s.gives (.arrayRowComplete l .matches) (fun t =>
        (∀ j, j < 128 → t.rdN (s.localKey l ((g3.addr n).toNat + 4 * j)) 4 = ofSigned 32 (
          (if w.img.clearFirst = true ∧ (w.img.reduceEnds g3 n).1 = true then 0 else (s.rdN (s.localKey l ((g3.addr n).toNat + 4 * j)) 4 : Int)) +
          ((List.range 128).map (fun k => toSigned 8 (s.rd (s.localKey l ((g0.addr n).toNat + k))).toNat *
            toSigned 8 (wb.getD (128 * k + j) 0).toNat)).sum)) ∧
        s.keepsMem t (s.localKey l (g3.addr n).toNat) 512 ∧ (t.loom l).run.step = n + 1 ∧ (t.loom l).run.feedRows = (s.loom l).run.feedRows + 1 ∧
        (∀ m, m ≠ l → t.loom m = s.loom m) ∧ s.keeps t [.mem, .looms]))) ∧
    ((s.loom l).retry = true → tget 0 (s.loom l).armed 512 = 0 → w.img.epilogue = false → s.gives (.rowCheckRetryComplete l false 0) (fun t =>
      (t.loom l).retry = false ∧ (t.loom l).corrected = (s.loom l).corrected + 1 ∧ (t.loom l).run.step = n + 1 ∧
      t.unit 0 l = { s.unit 0 l with soft := (s.unit 0 l).soft + (s.unit 0 l).raw + 1, raw := 0 } ∧
      (∀ m, m ≠ l → t.loom m = s.loom m) ∧ s.keeps t [.mem, .looms, .units, .parts, .drafts]))

/-- WARP_SHADOW_LOAD_COMPLETE puts the bytes of the tile that the array needs next into the shadow registers. IMAGE_LOAD_COMPLETE of an image that can
be read and passes validation makes it resident in its slot; one that fails is not resident (when no draft waits for it, nothing else changes).
IMAGE_SWITCH to the resident image of the node dispatched on the loom makes it the active one, and drops the warps unless the image keeps them (an
image without output path). WEFT_SWAP of a pending swap whose FILL_BYTES have come exchanges the halves and starts the FILL count afresh, on a loom
with no node; with too few bytes nothing changes. Only that loom changes, and all this on a loom whose clock runs (R104). (R77, R91, R95, R96, R97,
R98) -/
def Obligations.LoomsLoadSwitchAndSwap : Prop :=
  (∀ (s : State) (l a : Nat) (w : Work) (g : Gen), s.deferred = [] → s.work l = some w → w.img.mode < 2 → (s.loom l).run.step < w.img.arraySteps →
    w.img.gen 1 = some g → (s.loom l).nextWarp w.img g = some (a : Int) → portReaches 1 a (tileBytes w.img.warp) = true →
    s.meetsBad l a (tileBytes w.img.warp) = false → (∀ b, (s.loom l).shadow ≠ some (a, b)) → s.gives (.warpShadowLoadComplete l) (fun t =>
      t.loom l = { s.loom l with shadow := some (a, s.localBytes l a (tileBytes w.img.warp)), loadingWarp := none } ∧ (∀ m, m ≠ l → t.loom m = s.loom m) ∧ s.keeps t [.looms])) ∧
  (∀ (s : State) (l slot p : Nat) (y : Load) (b : List Byte), s.deferred = [] → (s.loom l).loading.find? (fun z => z.slot == slot) = some y →
    s.clusterPart (l / 8) = some p → s.runs p = true → s.clocked l = true → s.fetch (partCtx p) y.addr y.length = some b →
    (Img.check b y.id y.length s.boot.image.numeric = stOK → s.gives (.imageLoadComplete l slot) (fun t =>
      t.loom l = { s.loom l with
        loading := (s.loom l).loading.filter (fun z => z.slot != slot), images := (slot, b) :: (s.loom l).images.filter (fun z => z.1 != slot) } ∧
      (∀ m, m ≠ l → t.loom m = s.loom m) ∧ s.keeps t [.looms])) ∧
    (Img.check b y.id y.length s.boot.image.numeric ≠ stOK → s.drafts = [] → s.gives (.imageLoadComplete l slot) (fun t =>
      t.loom l = { s.loom l with loading := (s.loom l).loading.filter (fun z => z.slot != slot) } ∧
      (∀ m, m ≠ l → t.loom m = s.loom m) ∧ s.keeps t [.looms]))) ∧
  (∀ (s : State) (l slot d n : Nat) (i : Img) (y : Node), s.deferred = [] → (s.loom l).node = some (d, n) →
    (s.loom l).images.find? (fun z => z.1 == slot) = some (slot, i) → (s.loom l).imageOf i.id = some i → s.clocked l = true →
    s.node d n = some y → y.image = i.id → (s.loom l).active ≠ some slot →
    i.epilogue = false → s.gives (.imageSwitch l slot) (fun t => t.loom l = { s.loom l with
        active := some slot, warp := if i.warpKeep then (s.loom l).warp else none, shadow := if i.warpKeep then (s.loom l).shadow else none
        loadingWarp := if i.warpKeep then (s.loom l).loadingWarp else none } ∧
      (∀ m, m ≠ l → t.loom m = s.loom m) ∧ s.keeps t [.looms])) ∧
  (∀ (s : State) (l fb : Nat), s.deferred = [] → (s.loom l).pendingSwap = some fb →
    (fb ≤ (s.loom l).fillBytes → (s.loom l).node = none → s.clocked l = true → s.gives (.weftSwap l) (fun t =>
      t.loom l = { s.loom l with feedH1 := !(s.loom l).feedH1, fillBytes := 0, pendingSwap := none } ∧ (∀ m, m ≠ l → t.loom m = s.loom m) ∧
      s.keeps t [.looms])) ∧
    ((s.loom l).fillBytes < fb → exec (.weftSwap l) s = .next (settle s)))

/-- SWAP_TIMEOUT of a loom whose node waits for a swap and for no acknowledgement, and READY_TIMEOUT of the tile row for which its output path waits,
set the cluster's knot bit with class 4 or 5 and end that node INVALID, which fails its draft (REACT 0; another node of the draft still runs; no loom
is retired). LOOM_SRAM_UNCORRECTABLE of a word whose second read fails too, not a stored error, sets the knot bit with class 3 and counts one hard
event of the loom; when the second read is good nothing changes, and when it is corrected the loom counts one corrected error. LOOM_SCRUB_READ of a
loom without a node whose clock runs, with SCRUB_EN, goes on to the next of its 2^19 words; on a good word nothing else changes, and a corrected one
is counted. (R84, R85, R100, R148, R435, R443) -/
def Obligations.LoomFaultsAreRecorded : Prop :=
  (∀ (s : State) (l d n k cls fb row : Nat) (w : Work) (x : Draft) (y z : Node) (c : Instr), l < 256 → s.work l = some w → w.d = d → w.n = n →
    s.draft d = some x → s.node d n = some y → y.acks = 0 → k ≠ n → x.nodes[k]? = some z → z.running = true → s.react (l / 8) = 0 → s.retired = [] →
    ((s.part x.part).job.step = some d ∨ ((s.part x.part).job.step = none ∧ (s.part x.part).job.ended = none)) →
    ((c = .swapTimeout l ∧ cls = 4 ∧ s.swapWaits l = some (w, fb)) ∨
     (c = .readyTimeout l row ∧ cls = 5 ∧ (s.loom l).run.out < w.img.outRows ∧ w.img.outAddr (s.loom l).run.out = some ((accBase + row * w.img.tileRow : Nat) : Int) ∧
      (s.loom l).notReady.contains (accBase + row * w.img.tileRow) = true)) →
    s.gives c (fun t => bitAt t.knot.word (l / 8) = true ∧ tget 0 t.knot.lastClass (l / 8) = cls ∧ (∃ y', t.node d n = some y' ∧ y'.st = .done stInvalid) ∧
      (∃ x', t.draft d = some x' ∧ x'.failed = true) ∧ (∀ m, m ≠ d → t.draft m = s.draft m) ∧ (t.loom l).node = none ∧
      s.keeps t [.mem, .ports, .knot, .drafts, .looms, .parts])) ∧
  (∀ (s : State) (l a : Nat), l < Config.looms → a < loomBytes → s.meetsBad l (a / 8 * 8) 8 = false →
    exec (.loomSramUncorrectable l a .clean .outside) s = .next (settle s) ∧
    s.gives (.loomSramUncorrectable l a .corrected .outside) (fun t => (t.loom l).corrected = (s.loom l).corrected + 1 ∧
      (∀ m, m ≠ l → t.loom m = s.loom m) ∧ s.keeps t [.looms]) ∧
    (s.react (l / 8) = 0 → s.gives (.loomSramUncorrectable l a .uncorrectable .outside) (fun t =>
      bitAt t.knot.word (l / 8) = true ∧ tget 0 t.knot.lastClass (l / 8) = 3 ∧ t.unit 0 l = { s.unit 0 l with hard := (s.unit 0 l).hard + 1 } ∧
      s.keeps t [.mem, .ports, .knot, .units]))) ∧
  (∀ (s : State) (l : Nat), l < Config.looms → s.bit .lmCfg 0 = true → (s.loom l).node = none → s.clocked l = true →
    s.meetsBad l (localPhys (s.loom l) (8 * (s.loom l).scrubAt) / 8 * 8) 8 = false →
    s.gives (.loomScrubRead ⟨l, .clean, .clean⟩) (fun t => t.loom l = { s.loom l with scrubAt := ((s.loom l).scrubAt + 1) % 2 ^ 19 } ∧
      (∀ m, m ≠ l → t.loom m = s.loom m) ∧ s.keeps t [.looms]) ∧
    s.gives (.loomScrubRead ⟨l, .corrected, .clean⟩) (fun t => (t.loom l).scrubAt = ((s.loom l).scrubAt + 1) % 2 ^ 19 ∧
      (t.loom l).corrected = (s.loom l).corrected + 1 ∧ (∀ m, m ≠ l → t.loom m = s.loom m) ∧ s.keeps t [.looms]))

/-- MEMORY_READ of a good line of a serving controller answers its 64 bytes; of a poisoned one that the cache does not hold no bytes; a line outside
the cache that reads uncorrectable twice is poisoned, counts one hard event of its unit and is recorded (REACT 0, room in the table). MEMORY_WRITE of
a whole line, with no fault armed, stores it and makes it good; of part of a poisoned line outside the cache it changes nothing. SCRUB_READ_DUE goes
on to the channel's next line; where the channel does not serve, the read waits. An accepted EXTERNAL_WRITE stores its bytes at the loom's local
address and counts those in the FILL half; a refused one stores nothing and is counted; one for a cluster whose PLL relocks waits in a channel (log
162). EXTERNAL_READ answers the bytes of permitted, good words, and none of a range that is not permitted. CROSSING_DELIVER outside T1 hands the
oldest transfer of a channel to an island that is on, which ungates, and nothing to one that is off or relocks; HANDSHAKE_TIMEOUT abandons it with a
record (REACT 0). (R50, R52, R53, R74, R75, R104, R232, R233, R234, R443) -/
def Obligations.LinesWordsAndTransfers : Prop :=
  (∀ (s : State) (a sp o k u : Nat), sp = gSpace a → o = gOffset a → k = s.dataKey sp (o / 64 * 64) → u = unitOf sp o → s.isLocal a = true → sp ≤ 1 →
    offsetValid sp o = true → s.serves sp o = true →
    (k ∉ s.memCtl.poison → k ∉ s.memCtl.corrupt → s.gives (.memoryRead a .clean .clean .outside) (fun t =>
      t.out = s.out ++ [.data ((List.range 64).map (fun i => s.rd (s.dataKey sp (o / 64 * 64 + i)))) true] ∧ s.keeps t [.out, .memCtl])) ∧
    (k ∈ s.memCtl.poison → s.cached k = false → s.gives (.memoryRead a .clean .clean .outside) (fun t => t.out = s.out ++ [.data [] false] ∧ s.keeps t [.out])) ∧
    (k ∉ s.memCtl.poison → k ∉ s.memCtl.corrupt → s.cached k = false → s.memCtl.poison.length < tableSize sp → s.react (unitSource (unitClass sp) u).1 = 0 →
      s.gives (.memoryRead a .uncorrectable .uncorrectable .outside) (fun t => t.memCtl = { s.memCtl with poison := s.memCtl.poison ++ [k] } ∧
        t.unit (unitClass sp) u = { s.unit (unitClass sp) u with hard := (s.unit (unitClass sp) u).hard + 1 } ∧
        bitAt t.knot.word (unitSource (unitClass sp) u).1 = true ∧ t.out = s.out ++ [.data [] false] ∧
        s.keeps t [.mem, .ports, .memCtl, .units, .knot, .out])) ∧
    (∀ bs, bs.length = 64 → o % 64 = 0 → tget 0 s.memCtl.armed (65536 * unitClass sp + u) = 0 → s.gives (.memoryWrite a bs .clean .clean .outside) (fun t =>
      (∀ i, i < 64 → t.rd (s.dataKey sp (o + i)) = bs.getD i 0) ∧ (∀ j, (∀ i, i < 64 → j ≠ s.dataKey sp (o + i)) → t.rd j = s.rd j) ∧
      k ∉ t.memCtl.poison ∧ k ∉ t.memCtl.corrupt ∧ s.keeps t [.mem, .memCtl])) ∧
    (∀ bs, 0 < bs.length → bs.length < 64 → o % 64 + bs.length ≤ 64 → k ∈ s.memCtl.poison → s.cached k = false → exec (.memoryWrite a bs .clean .clean .outside) s = .next (settle s))) ∧
  (∀ (s : State) (tier2 : Bool) (c n : Nat), c < (if tier2 then 64 else 256) → s.bit (.scrub tier2) 0 = true → n = 256 * b2n tier2 + c →
    (s.serves (b2n tier2) (channelLine (b2n tier2) c 0) = true → s.memCtl.corrupt = [] → s.gives (.scrubReadDue tier2 c .clean .clean) (fun t =>
      tget 0 t.memCtl.scrubNext n = (tget 0 s.memCtl.scrubNext n + 1) % channelLines (b2n tier2) ∧
      (∀ m, m ≠ n → tget 0 t.memCtl.scrubNext m = tget 0 s.memCtl.scrubNext m) ∧ t.memCtl.scrubWait = s.memCtl.scrubWait.erase n ∧
      t.memCtl.poison = s.memCtl.poison ∧ t.memCtl.corrupt = [] ∧ t.memCtl.cache = s.memCtl.cache ∧ s.keeps t [.memCtl, .draws])) ∧
    (s.serves (b2n tier2) (channelLine (b2n tier2) c 0) = false → s.gives (.scrubReadDue tier2 c .clean .clean) (fun t =>
      n ∈ t.memCtl.scrubWait ∧ t.memCtl = { s.memCtl with scrubWait := t.memCtl.scrubWait } ∧ s.keeps t [.memCtl]))) ∧
  (∀ (s : State) (a l o : Nat) (bs : List Byte) (c : Ctx), s.isLocal a = true → gSpace a = 2 → l = gOffset a / loomBytes → o = gOffset a % loomBytes →
    o + bs.length ≤ loomBytes → bs ≠ [] → c = { part := s.loomPart a } → s.allowed c a bs.length true = true →
    ((s.loomIsland l).relocking = true → s.gives (.externalWrite a bs .outside) (fun t =>
      tget [] t.channels (256 * 0x2E + s.hostOf l / 8) = tget [] s.channels (256 * 0x2E + s.hostOf l / 8) ++ [.store l o bs .outside] ∧
      s.keeps t [.channels])) ∧
    ((s.loomIsland l).relocking = false → s.extWriteOk l o bs.length = true → s.gives (.externalWrite a bs .outside) (fun t =>
      (∀ i, i < bs.length → t.rd (s.localKey l (o + i)) = bs.getD i 0) ∧ (∀ j, (∀ i, i < bs.length → j ≠ s.localKey l (o + i)) → t.rd j = s.rd j) ∧
      (t.loom l).fillBytes = (s.loom l).fillBytes + fillOverlap o bs.length ∧ (∀ m, m ≠ l → t.loom m = s.loom m) ∧ s.keeps t [.mem, .looms])) ∧
    ((s.loomIsland l).relocking = false → s.extWriteOk l o bs.length = false → ∀ p, s.loomPart a = some p → s.gives (.externalWrite a bs .outside) (fun t =>
      tget 0 (t.part p).counters 6 = satInc 64 (tget 0 (s.part p).counters 6) 1 ∧ (∀ m, m ≠ p → t.part m = s.part m) ∧ s.keeps t [.parts]))) ∧
  (∀ (s : State) (a n : Nat), s.deferred = [] → s.isLocal a = true → gSpace a = 2 →
    (∀ bs, s.fetch { part := s.loomPart a } (a / 8 * 8) (8 * n) = some bs → s.gives (.externalRead a ⟨n, .outside⟩) (fun t =>
      t.out = s.out ++ [.data bs true] ∧ s.keeps t [.out])) ∧
    (0 < n → s.allowed { part := s.loomPart a } (a / 8 * 8) (8 * n) false = false → s.gives (.externalRead a ⟨n, .outside⟩) (fun t =>
      t.out = s.out ++ [.data [] false] ∧ s.keeps t [.out]))) ∧
  (∀ (s : State) (i j p n : Nat) (rest : List Transfer), i < 256 → j < 256 → tget [] s.channels (256 * i + j) = .pick p n :: rest →
    ((s.island j).on = true → (s.island j).relocking = false → s.treadle.state ≠ 1 → s.gives (.crossingDeliver i j) (fun t =>
      (t.island j).gated = false ∧ tget [] t.channels (256 * i + j) = rest ∧ tget 0 (t.island j).picks p = n ∧
      (∀ m, m ≠ p → tget 0 (t.island j).picks m = tget 0 (s.island j).picks m) ∧ (∀ m, m ≠ j → t.island m = s.island m) ∧ s.keeps t [.channels, .islands])) ∧
    (((s.island j).on = false ∨ (s.island j).relocking = true) → exec (.crossingDeliver i j) s = .next (settle s)) ∧
    (s.react 59 = 0 → s.gives (.handshakeTimeout i j) (fun t => tget [] t.channels (256 * i + j) = rest ∧ bitAt t.knot.word 59 = true ∧
      tget 0 t.knot.lastClass 59 = 6 ∧ s.keeps t [.channels, .knot, .mem, .ports])))

/-- A BOLT_EMIT of a loom of the partition to an installed stream, whose slot lies in local HBM: where the bolt has no slot yet, or its group does not
serve, nothing changes (the loom stalls); where it is launched, LATE rises; an element emitted before, DUPLICATE rises; otherwise the FP32 word is
stored at its place, no byte but those and the bolt's header changes, and the element is noted. BOLT_LAUNCH of the stream's one bolt, ready and
readable, in its partition's turn at the reduction engine (log 197), whose plan entries each wait for another source: the bolt is LAUNCHED in its
header, its unemitted live elements are counted in UNFILLED, a LOCAL control entry holds the module's control line and maxima, and each element of a
moving granule that a LOCAL payload entry holds stands in the staging as its quantised word (0 where frozen); a bolt not ready, or out of turn, is not
launched. ORTHO_COMPLETE of a LOWRANK_P stream with every bolt DONE and the loom free, where no node goes before it there, stores the orthonormalised
matrix and its counts; of another mode, in a partition that dispatches nothing, or on a loom that runs other work than bubble-fill, nothing changes.
The bolt-size temple, at the end of an interval: pinned, PIN_SIZE in its bounds; else one less above TAIL_HI, one more below TAIL_LO, and the sums
start afresh; inside an interval nothing changes. (R291, R302, R303, R304, R305, R312, R313, R322, R329, R330) -/
def Obligations.BoltsFillLaunchAndResize : Prop :=
  (∀ (s : State) (p id e v loom : Nat) (x : Stream), s.deferred = [] → p < 16 → (s.clusters p).contains (loom / 8) = true →
    (s.part p).streams.find? (fun x => !x.gather && x.id == id) = some x → s.stream p x.draft x.node = some x → e < x.elements → x.status = none →
    (x.bolt (x.boltOf e) = none → exec (.boltEmit p id e v loom) s = .next (settle s)) ∧
    (∀ b, x.bolt (x.boltOf e) = some b →
      ∀ only : Stream → State → Prop, only = (fun y t => t.stream p x.draft x.node = some y ∧
        (∀ d n, (d ≠ x.draft ∨ n ≠ x.node) → t.stream p d n = s.stream p d n) ∧
        t.part p = { s.part p with streams := (t.part p).streams } ∧ ∀ q, q ≠ p → t.part q = s.part q) →
      (b.st ≠ 1 → s.gives (.boltEmit p id e v loom) (fun t => only { x with late := x.late + 1 } t ∧ s.keeps t [.parts])) ∧
      (b.st = 1 → s.rangeOpen (x.word b e) 4 = false → exec (.boltEmit p id e v loom) s = .next (settle s)) ∧
      (b.st = 1 → s.rangeOpen (x.word b e) 4 = true → e ∈ b.emitted → s.gives (.boltEmit p id e v loom) (fun t => only { x with duplicate := x.duplicate + 1 } t ∧ s.keeps t [.parts])) ∧
      (b.st = 1 → e ∉ b.emitted → ∀ w h, w = x.word b e → h = x.boltArea + 128 * b.slot → s.rangeOpen w 4 = true → s.flips = [] →
        s.memCtl.poison = [] → s.memCtl.corrupt = [] → s.memCtl.armed = [] →
        s.isLocal w = true → s.isLocal h = true → gSpace w = 0 → gSpace h = 0 → gOffset h + 128 ≤ gOffset w → gOffset w + 4 ≤ 2 ^ 48 →
        s.writeErr (partCtx p) w 4 = none → s.writeErr (partCtx p) h 128 = none → s.gives (.boltEmit p id e v loom) (fun t =>
          only (x.setBolt b.index (fun y => { y with emitted := y.emitted ++ [e] })) t ∧
          (∀ i, i < 4 → t.rd (s.dataKey 0 (gOffset w + i)) = (leBytes 4 (v % 2 ^ 32)).getD i 0) ∧
          (∀ k, (∀ i, i < 4 → k ≠ s.dataKey 0 (gOffset w + i)) → (∀ i, i < 128 → k ≠ s.dataKey 0 (gOffset h + i)) → t.rd k = s.rd k) ∧
          s.keeps t [.mem, .memCtl, .parts])))) ∧
  (∀ (s : State) (p id b h : Nat) (x : Stream) (y : Bolt) (o : Own), s.deferred = [] → (s.part p).streams.find? (fun x => !x.gather && x.id == id) = some x →
    s.stream p x.draft x.node = some x → x.status = none → x.bolts = [y] → y.index = b → o = s.ownControl p x y → h = x.boltArea + 128 * y.slot →
    (x.ready b = false ∨ s.hasTurn 1 p s.launchWaits = false → exec (.boltLaunch p id b) s = .next (settle s)) ∧
    (x.ready b = true → s.hasTurn 1 p s.launchWaits = true → x.slotNext = none → x.cells = [] → x.made = [] → y.ctl = none → (∀ f ∈ x.entries, ∃ m ∈ f.srcs, m ≠ ownSource) →
      (∀ f ∈ x.entries, f.ctrl = false → 0 < f.elems) → (∀ e ∈ y.emitted, s.readErr (partCtx p) (x.word y e) 4 = none) →
      (∀ g ∈ x.granulesOf b, s.readErr (partCtx p) (x.xhist + g) 1 = none) → s.fabric.owed = [] →
      s.flips = [] → s.memCtl.poison = [] → s.memCtl.corrupt = [] → s.memCtl.armed = [] → s.isLocal h = true → gSpace h = 0 → gOffset h + 128 ≤ 2 ^ 48 → s.writeErr (partCtx p) h 128 = none →
      s.gives (.boltLaunch p id b) (fun t => ∃ z, t.stream p x.draft x.node = some z ∧ z.bolts = [{ y with st := 2 }] ∧
        z.unfilled = x.unfilled + ((x.boltElems b).filter (fun e => !x.frozen e && !y.emitted.contains e)).length ∧ z.zeroed = x.zeroed + o.zeroed ∧
        (x.entries.any (fun f => f.ctrl && !f.dist && f.loc) = true →
          z.sum (cellKind 1 false false) b = o.ctl.range + 2 ^ 64 * o.ctl.poison + 2 ^ 128 * o.ctl.frozen + 2 ^ 192 * o.ctl.live ∧
          z.sum (cellKind 2 false false) b = o.ctl.max8) ∧
        (∀ e ∈ x.boltElems b, bitAt o.ctl.frozen (e / 262144 % 2 ^ x.size) = false → x.entries.any (fun f => !f.ctrl && !f.dist && f.loc && f.holds e) = true →
          z.cell (cellKind 0 false false) e = some ⟨cellKind 0 false false, e,
            if x.frozen e then 0 else quantise (s.xPred p x (e / 262144)) (s.boltWord p x y e), [ownSource]⟩) ∧
        t.rd (s.dataKey 0 (gOffset h + 17)) = 2 ∧ (∀ k, (∀ i, i < 128 → k ≠ s.dataKey 0 (gOffset h + i)) → t.rd k = s.rd k) ∧
        t.served = tset 0 s.served 1 (p + 1) ∧ (∀ q, q ≠ p → t.part q = s.part q) ∧ s.keeps t [.mem, .memCtl, .parts, .served]))) ∧
  (∀ (s : State) (p id loom : Nat) (x : Stream), s.deferred = [] → (s.part p).streams.find? (fun x => !x.gather && x.id == id) = some x →
    s.stream p x.draft x.node = some x → loom = s.physLoom p x.orthoLoom →
    ((x.mode ≠ 1 ∨ s.dispatches p = false ∨ (∃ d n, (s.loom loom).node = some (d, n) ∧ ∀ y, s.node d n = some y → y.bubble = false)) → exec (.orthoComplete p id) s = .next (settle s)) ∧
    (x.mode = 1 → s.dispatches p = true → (s.loom loom).node = none → (∀ e ∈ s.drafts, e.part = p →
      ((loomsOf e.nodes).contains x.orthoLoom = true → ∀ k, e.loop = some k → (s.loop p k).bubble = true) ∧
      (∀ m ∈ e.nodes.zipIdx, m.1.loomSet.contains x.orthoLoom = true → s.nodeReady e m.2 m.1 = true → m.1.bubble = false →
        lexLt (s.turn e m.2 m.1 e.loop.isSome) (s.orthoTurn x) = false)) → x.orthoDone = false → x.status = none → (∀ b, b < x.bolts' → ∃ y, x.bolt b = some y ∧ y.st = 4) →
      ∀ dr nd c lr bs m r, s.draft x.draft = some dr → s.node x.draft x.node = some nd → c = nodeCtx dr nd → s.fetch c x.lrState 64 = some lr →
        m = le lr 0 4 → r = le lr 8 1 → s.fetch c (le lr 16 8) (4 * m * r) = some bs →
        ∀ o s1, o = orthoRounds m r x.pick (le x.block 60 2) (matOf m r (fun i j => le bs (4 * (r * i + j)) 4)) 0 2 0 →
        s.put c (.node x.draft x.node) (le lr 24 8) (o.1.flatMap (fun row => row.flatMap (leBytes 4))) = (s1, none) →
        s1.deferred = [] → s1.stream p x.draft x.node = some x → s.gives (.orthoComplete p id) (fun t =>
          t.stream p x.draft x.node = some { x with orthoDone := true, rounds := o.2.1, replaced := o.2.2 } ∧
          (∀ k, t.rd k = s1.rd k) ∧ (∀ q, q ≠ p → t.part q = s1.part q) ∧ s1.keeps t [.parts]))) ∧
  (∀ (s : State) (p k id z : Nat) (y : Slot) (b : BoltSize), y = tget {} (s.part p).slots k →
    y.bolts.find? (fun b => b.1 == id) = some (id, b) →
    (b.picks < max 1 (s.fld (.tmpBolt p) 8 8) → exec (.boltSizeTempleUpdate p k id) s = .next (settle s)) ∧
    (max 1 (s.fld (.tmpBolt p) 8 8) ≤ b.picks →
      (s.bit (.tmpBolt p) 0 = true → z = clampTo b.lo b.hi (min 6 (s.fld (.tmpBolt p) 1 3))) →
      (s.bit (.tmpBolt p) 0 = false → 1024 * s.fld (.tmpBoltTail p) 0 16 * b.count < b.sum → z = if b.lo < b.size then b.size - 1 else b.size) →
      (s.bit (.tmpBolt p) 0 = false → b.sum < 1024 * min (s.fld (.tmpBoltTail p) 0 16) (s.fld (.tmpBoltTail p) 16 16) * b.count →
        z = if b.size < b.hi then b.size + 1 else b.size) →
      (s.bit (.tmpBolt p) 0 = false → b.sum ≤ 1024 * s.fld (.tmpBoltTail p) 0 16 * b.count →
        1024 * min (s.fld (.tmpBoltTail p) 0 16) (s.fld (.tmpBoltTail p) 16 16) * b.count ≤ b.sum → z = b.size) →
      s.gives (.boltSizeTempleUpdate p k id) (fun t =>
        t.part p = { s.part p with slots := (t.part p).slots } ∧
        tget {} (t.part p).slots k = { y with bolts := (id, { b with size := z, sum := 0, count := 0, picks := 0 }) :: y.bolts.filter (fun b => b.1 != id) } ∧
        (∀ m, m ≠ k → tget {} (t.part p).slots m = tget {} (s.part p).slots m) ∧ (∀ q, q ≠ p → t.part q = s.part q) ∧ s.keeps t [.parts])))

/-- A rail sample that loses nothing only sets VMAIN good (above 31.5 V; once good, from 30.5 to 41.0 V) and VSIDE good (from 1.62 V); one that finds
VMAIN lost in T0, or a loss of power-good of a domain that is no cluster's: T4 with only the standby domain on, FAULT_N, knot bit 57 with class 0x39,
every partition UNCONFIGURED or CONFIGURED (REACT 0); a sample that finds both rails good starts an awaited exit with wake source 0. VSTBY below 2.90
V resets everything but fuses, flash, retirement log and what lies outside the module (log 2, 15). A cluster's first loss of power-good: the domain
restarts, its epoch one up where it has been up before, and its looms start over. TRD_REQ of the administrative PF: codes 5 to 7 nothing; a deeper
state whose condition is not met sets REFUSED; T1 from T0 begins an entry; T0 from T1 to T3 begins an exit; during another entry the request is
pending. Entry to T1 gates the clusters and island 0x2E; to T2 and T3, once no transfer waits in a channel into an island that goes off, switches
domains and islands, tier 2 keeps its bytes, in T2 HBM too. Exit leaves T0, every domain on, each cluster that was off and had been up with its epoch
one up. A step-9 time-out without VMAIN: T4, FAULT_N, class 0x39. (R54, R55, R53, R457, R458, R460, R461, R468, R473, R478) -/
def Obligations.RailsAndStates : Prop :=
  (∀ (s : State) (vm vs vb : Nat), 2900 ≤ vb → ∀ g, g = (if s.treadle.vmainGood then decide (30500 ≤ vm ∧ vm ≤ 41000) else decide (31500 < vm ∧ vm ≤ 41000)) →
    (s.treadle.vmainGood = true → g = true) → (s.treadle.vsideGood = true → 1620 ≤ vs) →
    (s.treadle.awaiting = false → s.gives (.railSample vm vs vb) (fun t =>
      t.treadle = { s.treadle with vmainGood := g, vsideGood := decide (1620 ≤ vs) } ∧ s.keeps t [.treadle])) ∧
    (s.treadle.awaiting = true → g = true → 1620 ≤ vs → s.boot.state = .ready → s.treadle.state = 4 → s.treadle.moving = none →
      s.gives (.railSample vm vs vb) (fun t => t.treadle.moving = some (.exit 0) ∧ t.treadle.awaiting = false ∧ t.treadle.wakeSource = 0 ∧
        t.treadle.wakeFrom = 4 ∧ t.treadle.state = 4 ∧ t.treadle.vmainGood = true ∧ s.keeps t [.treadle]))) ∧
  (∀ (s : State) (c : Instr) (vm vs vb d mv : Nat), s.react 57 = 0 → s.treadle.moving = none →
    ((c = .railSample vm vs vb ∧ 2900 ≤ vb ∧ 1620 ≤ vs ∧ s.treadle.vmainGood = true ∧ s.treadle.state = 0 ∧ (vm < 30500 ∨ 41000 < vm)) ∨
     (c = .domainPowerGoodLost d mv ∧ s.treadle.domains.contains d = true ∧ (d < 0x10 ∨ 0x30 ≤ d))) →
    s.gives c (fun t => t.treadle.state = 4 ∧ t.treadle.domains = [0] ∧ t.treadle.awaiting = true ∧ t.treadle.moving = none ∧ t.faultN = true ∧
      bitAt t.knot.word 57 = true ∧ tget 0 t.knot.lastClass 57 = 0x39 ∧ (s.treadle.domains = allDomains → ∀ i, i < 0x31 → (t.island i).on = false) ∧ t.fuses = s.fuses ∧ t.retired = s.retired ∧
      (∀ p, p < 16 → (t.part p).st = if (s.part p).st = .unconfigured then .unconfigured else .configured))) ∧
  (∀ (s : State) (vm vs vb : Nat), vb < 2900 → exec (.railSample vm vs vb) s = exec .vstbyLoss s) ∧
  (∀ s : State, s.gives .vstbyLoss (fun t => t.fuses = s.fuses ∧ t.retired = s.retired ∧ (∀ r, t.reg r = r.reset) ∧ t.knot = State.reset.knot ∧
    t.treadle = State.reset.treadle ∧
    t.boot = { State.reset.boot with idNumeric := s.boot.idNumeric, idProtoMax := s.boot.idProtoMax } ∧ t.parts = [] ∧ t.links = [] ∧ t.entries = [] ∧ t.drafts = [] ∧ t.pending = s.pending ∧
    (∀ k, t.rd k = if (spaceKey 4 0 ≤ k ∧ k < spaceKey 6 0) ∨ (spaceKey flashSpace 0 ≤ k ∧ k < spaceKey (flashSpace + 1) 0) then s.rd k else 0))) ∧
  (∀ (s : State) (c mv : Nat), c < 32 → s.treadle.moving = none → s.treadle.domains.contains (0x10 + c) = true → (s.unit 0 (8 * c)).fails = 0 →
    s.react 57 = 0 → s.shuttles = [] → (∀ j, j < 8 → (s.loom (8 * c + j)).node = none) → s.gives (.domainPowerGoodLost (0x10 + c) mv) (fun t =>
      (∀ j, j < 8 → t.loom (8 * c + j) = {}) ∧ (∀ l, l / 8 ≠ c → t.loom l = s.loom l) ∧ (t.unit 0 (8 * c)).fails = 1 ∧ bitAt t.knot.word 57 = true ∧
      (t.island c).on = true ∧ (t.island c).cycle = 0 ∧ (t.island c).epoch = (if (s.island c).risen then ((s.island c).epoch + 1) % 256 else (s.island c).epoch) ∧
      (s.guests = [] → ∀ k, k < spaceKey 2 0 → t.rd k = s.rd k) ∧ s.keeps t [.mem, .ports, .knot, .units, .looms, .islands])) ∧
  (∀ (s : State) (src : Src) (v : Nat), s.arrives src = true → s.fromAdmin src = true → s.boot.state = .ready →
    (5 ≤ v % 8 → exec (.trdReq src v) s = .next (settle s)) ∧
    (s.treadle.moving = none → s.boot.phase = .idle → s.treadle.hold = 0 → s.treadle.state < v % 8 → v % 8 ≤ 4 →
      (s.mayEnter (v % 8) = false → s.gives (.trdReq src v) (fun t => t.treadle = { s.treadle with refused := true } ∧ s.keeps t [.treadle])) ∧
      (v % 8 = 1 → s.gives (.trdReq src v) (fun t => t.treadle = { s.treadle with moving := some (.entry 1) } ∧ s.keeps t [.treadle]))) ∧
    (v % 8 = 0 → s.treadle.moving = none → s.boot.phase = .idle → s.treadle.hold = 0 → s.bit .trdWakeEn 5 = true → 1 ≤ s.treadle.state → s.treadle.state ≤ 3 →
      s.gives (.trdReq src v) (fun t => t.treadle.moving = some (.exit 5) ∧ t.treadle.wakeFrom = s.treadle.state ∧ t.treadle.state = s.treadle.state ∧
        s.keeps t [.treadle])) ∧
    (∀ r, s.treadle.moving = some (.entry r) → 1 ≤ v % 8 → v % 8 ≤ 4 → v % 8 ≠ r → s.gives (.trdReq src v) (fun t =>
      t.treadle = { s.treadle with pending := some (v % 8), pendingWake := (5, 0) } ∧ s.keeps t [.treadle]))) ∧
  (∀ (s : State) (n : Nat), s.treadle.moving = some (.entry n) → s.treadle.pending = none → s.treadle.domains = allDomains → 1 ≤ n → n ≤ 3 →
    (2 ≤ n → (∃ x ∈ s.channels, x.2 ≠ [] ∧ x.1 % 256 < 32) → exec .powerStateEntryComplete s = .next (settle s)) ∧
    ((2 ≤ n → ∀ x ∈ s.channels, x.2 = []) → s.gives .powerStateEntryComplete (fun t => t.treadle = { s.treadle with state := n, moving := none, domains := domainsOn n } ∧
      (n = 1 → (∀ i, (t.island i) = if i < 32 ∨ i = 0x2E then { s.island i with gated := (s.island i).on } else s.island i) ∧ s.keeps t [.treadle, .islands]) ∧
      (2 ≤ n → (∀ i, i < 32 → (t.island i).on = false) ∧ (∀ i, i < 256 → t.loom i = {})) ∧
      (n = 2 → ∀ k, k < spaceKey 2 0 ∨ spaceKey 3 0 ≤ k → t.rd k = s.rd k) ∧ (∀ k, spaceKey 1 0 ≤ k → k < spaceKey 2 0 → t.rd k = s.rd k) ∧
      s.keeps t [.mem, .treadle, .islands, .looms]))) ∧
  (∀ (s : State) (w : Nat), s.treadle.moving = some (.exit w) → s.treadle.pending = none →
    s.gives .powerStateExitComplete (fun t => t.treadle.state = 0 ∧ t.treadle.moving = none ∧ t.treadle.domains = allDomains ∧ t.treadle.served = true ∧
      (∀ i, i < 32 → (t.island i).gated = false ∧ (s.treadle.domains.contains (0x10 + i) = false → (s.island i).on = false →
        (t.island i).on = true ∧ (t.island i).epoch = (if (s.island i).risen then ((s.island i).epoch + 1) % 256 else (s.island i).epoch))) ∧
      (s.treadle.state = 1 → s.treadle.domains = allDomains → s.keeps t [.treadle, .islands])) ∧
    (∀ d mv, s.treadle.vmainGood = false → s.react 57 = 0 → s.gives (.exitStepTimeout d mv) (fun t =>
      t.treadle.state = 4 ∧ t.treadle.moving = none ∧ t.treadle.domains = [0] ∧ t.faultN = true ∧ bitAt t.knot.word 57 = true ∧
      tget 0 t.knot.lastClass 57 = 0x39)))

/-- WAKE_N and a port's wake pin start an exit with wake source 1 or 2 from any state but T0 (from T4 once VMAIN is good) where the source is enabled
and nothing moves or holds; they do nothing in T0 or disabled, and the port's pin nothing while the module drives it or ignores it.
PORT_WAKE_DRIVE_END ends the drive. A thermal reading at the level of the last one and below T_HOT, without a hold, only sets what the sensors say
(THERM_N from T_WARN, the trip pin from 115 degrees) and the counts of readings in a row; a change of level sets knot bit 58 with class 0x38 (REACT
0); a second reading at T_HOT in T0 holds the module at T1 and starts the entry; with no analogue domain on nothing is read, and the readings in a row
are over. PWR_BRAKE throttles while asserted. A cap interval records the power: unpinned, above the cap or warm, every cluster at the highest clock
goes one step down, above its minimum; far enough below, every one at the lowest clock one step up, below its maximum; pinned, each takes its pinned
clock. A relock ends with DVFS_RELOCK_COMPLETE. (R104, R437, R468, R469, R470, R471, R472, R474, R475, R530) -/
def Obligations.WakesHeatAndTheCap : Prop :=
  (∀ (s : State) (c : Instr) (w port : Nat), ((c = .wakeNAssert ∧ w = 1 ∧ port = 0) ∨
      (c = .portWakeAssert port ∧ w = 2 ∧ s.treadle.driving = false ∧ s.treadle.ignoring = false)) →
    (s.treadle.moving = none → s.treadle.state = 0 ∨ s.bit .trdWakeEn w = false → exec c s = .next (settle s)) ∧
    (s.treadle.moving = none → s.bit .trdWakeEn w = true → s.treadle.state ≠ 0 → (s.treadle.state = 4 → s.treadle.vmainGood = true) → s.boot.state = .ready →
      s.boot.phase = .idle → s.treadle.hold = 0 → s.gives c (fun t => t.treadle = { s.treadle with
        moving := some (.exit w), wakeSource := w, wakeFrom := s.treadle.state, wakePort := port, wakeEpoch := (s.island 0x31).epoch
        wakeCycle := (s.island 0x31).cycle, driving := t.treadle.driving, ignoring := t.treadle.ignoring } ∧ s.keeps t [.treadle]))) ∧
  (∀ (s : State) (port : Nat) (b : Bool),
    (s.treadle.driving = true ∨ s.treadle.ignoring = true → exec (.portWakeAssert port) s = .next (settle s)) ∧
    s.gives (.portWakeDriveEnd b) (fun t => t.treadle = { s.treadle with driving := false, ignoring := s.treadle.ignoring && !b } ∧ s.keeps t [.treadle]) ∧
    s.gives .pwrBrakeAssert (fun t => t.treadle = { s.treadle with brake := true } ∧ s.keeps t [.treadle]) ∧
    s.gives .pwrBrakeRelease (fun t => t.treadle = { s.treadle with brake := false } ∧ s.keeps t [.treadle])) ∧
  (∀ (s : State) (es : List Nat) (temps : List (Nat × Nat)) (hot : Nat), temps = s.sensors.map (fun i => (i, es.getD i 0)) →
    hot = temps.foldl (fun m p => max m p.2) 0 →
    (s.sensors = [] → s.gives (.thermalReading es) (fun t => t.treadle = { s.treadle with
        temps := [], warm := false, pinTrip := false, level := 0, hotRun := 0, critRun := 0, coolRun := 0 } ∧ s.keeps t [.treadle])) ∧
    (s.sensors ≠ [] → ∀ x : Treadle, x = { s.treadle with
        temps := temps.filter (fun p => p.2 != 0), warm := decide (8 * s.tWarn ≤ hot), pinTrip := decide (920 ≤ hot)
        level := (s.thresholds.filter (fun t => decide (t ≤ hot))).length, hotRun := if 8 * s.tHot ≤ hot then min 2 (s.treadle.hotRun + 1) else 0
        critRun := if 840 ≤ hot then min 2 (s.treadle.critRun + 1) else 0
        coolRun := if hot < 8 * s.tWarn - 40 then min 1000 (s.treadle.coolRun + 1) else 0 } →
      (x.level = s.treadle.level → hot < 8 * s.tHot → s.treadle.hold = 0 → s.gives (.thermalReading es) (fun t => t.treadle = x ∧
        t.thermN = decide (8 * s.tWarn ≤ hot) ∧ s.keeps t [.treadle])) ∧
      (x.level ≠ s.treadle.level → hot < 8 * s.tHot → s.treadle.hold = 0 → s.react 58 = 0 → s.gives (.thermalReading es) (fun t => t.treadle = x ∧
        bitAt t.knot.word 58 = true ∧ tget 0 t.knot.lastClass 58 = 0x38 ∧ s.keeps t [.mem, .ports, .knot, .treadle])) ∧
      (x.level = s.treadle.level → 8 * s.tHot ≤ hot → s.treadle.hotRun = 1 → s.treadle.critRun = 0 → s.treadle.hold = 0 → s.treadle.state = 0 →
        s.treadle.moving = none → s.gives (.thermalReading es) (fun t => t.treadle = { x with hold := 1, moving := some (.entry 1) } ∧
          t.thermN = true ∧ (920 ≤ hot → t.faultN = true) ∧ s.keeps t [.treadle])))) ∧
  (∀ (s : State) (watts p hi lo : Nat) (cs : List Nat), p = min 4095 watts → cs = (List.range 32).filter (fun c => (s.island c).on) →
    hi = cs.foldl (fun m c => max m (s.fNow c)) 0 → lo = cs.foldl (fun m c => min m (s.fNow c)) 31 →
    s.gives (.powerCapInterval watts) (fun t => t.treadle.power = p ∧ s.keeps t [.treadle, .islands] ∧ (∀ c, c ∉ cs → t.island c = s.island c) ∧
      (s.bit .tmpCapCtl 0 = false → t.treadle = { s.treadle with
        power := p, overCap := 0, capThrottle := s.treadle.capThrottle && decide (s.cap ≤ p) } ∧ ∀ c ∈ cs, t.island c =
        if (s.cap < p ∨ s.treadle.warm = true) ∧ s.fNow c = hi ∧ s.fMin c < s.fNow c then { s.island c with freq := s.fNow c - 1, relocking := true }
        else if s.treadle.warm = false ∧ p + 8 * s.fld .tmpCapCtl 16 8 < s.cap ∧ s.fNow c = lo ∧ s.fNow c < s.fMax c then
          { s.island c with freq := s.fNow c + 1, relocking := true }
        else s.island c) ∧
      (s.bit .tmpCapCtl 0 = true → ∀ c ∈ cs, (t.island c).freq = s.pinFreq c))) ∧
  (∀ (s : State) (c : Nat), c < 32 → s.gives (.dvfsRelockComplete c) (fun t => t.island c = { s.island c with relocking := false } ∧
    (∀ i, i ≠ c → t.island i = s.island i) ∧ s.keeps t [.islands]))

/-- BOOT_START leaves RESET once VSTBY is good. BOOT_FUSES_DONE with a CRC mismatch leads to FAIL with cause 1 and knot bit 60 (REACT 0); else it
samples the 14 straps (no role without the capability) and takes the governing record's slot. A slot that verifies is measured; one that measures is
the image, in IDENTITY, and the ID block names its versions; a failure is reported in BOOT_SLOT with its cause and takes the other slot, then RECOVERY
with its four domains. BOOT_IDENTITY_DONE makes the module READY; where the slot booted is not the record's, the record names it afterwards; the exit
starts once both rails are good, or is awaited. ROLLBACK_COMMIT, KEY_REVOKE and DEBUG_LOCK of an administrative PF with CONFIRM, none at work, begin
to blow exactly their bits, or report 1 (nothing to blow) or 2 (no image verifies under the other key). FUSE_PROGRAM_COMPLETE blows them, clears none,
changes no other, and reports 1; a bit that does not take stays and reports 3 with knot bit 60. (R68, R481, R485, R486, R487, R488, R494, R495) -/
def Obligations.BootRunsItsCourse : Prop :=
  (∀ s : State, (s.boot.state = .reset → s.treadle.vstbyGood = true → s.gives .bootStart (fun t => t.boot = { s.boot with state := .fuses } ∧ s.keeps t [.boot])) ∧
    (s.boot.state ≠ .reset → exec .bootStart s = .next (settle s))) ∧
  (∀ (s : State) (straps : Nat), s.boot.state = .fuses →
    (crc32 (mfgBytes s.fuses) ≠ field s.fuses 992 32 → s.react 60 = 0 → s.gives (.bootFusesDone straps) (fun t =>
      t.boot = { s.boot with state := .fail, failCause := 1 } ∧ bitAt t.knot.word 60 = true ∧ s.keeps t [.mem, .ports, .knot, .boot])) ∧
    (crc32 (mfgBytes s.fuses) = field s.fuses 992 32 → (s.mgrCap = true ∨ straps % 2 ^ 14 / 4096 = 0) → s.gives (.bootFusesDone straps) (fun t =>
      t.straps = straps % 2 ^ 14 ∧ t.boot = { s.boot with state := .verify, recordSlot := s.recordSlot, trying := s.recordSlot, tried := 0 } ∧
      t.trust = { s.trust with jtagClosed := s.debugLock } ∧ s.keeps t [.straps, .boot, .trust]))) ∧
  (∀ (s : State) (k : Nat), s.boot.state = .verify → s.verifySlot s.boot.trying = .ok k → s.gives .bootVerifyDone (fun t =>
    t.boot = { s.boot with state := .measure, image := { s.boot.image with keySlot := k } } ∧ s.keeps t [.boot])) ∧
  (∀ s : State, s.boot.state = .measure → s.measureSlot s.boot.trying = 0 → s.gives .bootMeasureDone (fun t =>
    t.boot.state = .identity ∧ t.boot.image = s.imageOf s.boot.trying s.boot.image.keySlot ∧
    t.boot.idNumeric = t.boot.image.numeric ∧ t.boot.idProtoMax = t.boot.image.protoMax ∧ (t.slotInfo s.boot.trying).verified = true ∧ s.keeps t [.boot])) ∧
  (∀ (s : State) (c : Instr) (k : Nat), ((c = .bootVerifyDone ∧ s.boot.state = .verify ∧ s.verifySlot s.boot.trying = .error k) ∨
      (c = .bootMeasureDone ∧ s.boot.state = .measure ∧ s.measureSlot s.boot.trying = k ∧ k ≠ 0)) →
    s.gives c (fun t => t.slotInfo s.boot.trying = ⟨le (s.header s.boot.trying) 6 2, le (s.header s.boot.trying) 14 1, k, false⟩ ∧
      (s.boot.tried = 0 → t.boot.state = .verify ∧ t.boot.trying = 1 - s.boot.trying ∧ t.boot.tried = 1 ∧ s.keeps t [.boot]) ∧
      (s.boot.tried ≠ 0 → t.boot.state = .recovery ∧ t.treadle.domains = [0, 1, 5, 8, 0x33]))) ∧
  (∀ s : State, s.boot.state = .identity → s.gives .bootIdentityDone (fun t => t.boot = { s.boot with state := .ready, recordSlot := s.boot.trying } ∧
    t.trust = { s.trust with ready := true } ∧ s.keeps t [.mem, .boot, .trust, .treadle] ∧ (s.boot.trying = s.boot.recordSlot → ∀ k, t.rd k = s.rd k) ∧
    (s.boot.trying ≠ s.boot.recordSlot → s.boot.trying ≤ 1 → s.governing.2.1 < 2 ^ 64 - 1 → t.recordSlot = s.boot.trying ∧
      s.keepsMem t (recordKey (1 - s.governing.1)) 64) ∧
    (s.treadle.vmainGood = true → s.treadle.vsideGood = true → s.treadle.moving = none → t.treadle.moving = some (.exit 0)) ∧
    ((s.treadle.vmainGood = false ∨ s.treadle.vsideGood = false) → t.treadle = { s.treadle with awaiting := true }))) ∧
  (∀ (s : State) (src : Src) (v : Nat), s.arrives src = true → s.adminPf src = true → field v 16 16 = 0x9600 → s.trust.blowBusy = false →
    ∀ begins : List Nat → State → Prop, begins = (fun bs t => t.trust = { s.trust with blowing := bs, blowBusy := true } ∧ s.keeps t [.trust]) →
    ∀ reports : Nat → State → Prop, reports = (fun r t => t.trust = { s.trust with progResult := r } ∧ s.keeps t [.trust]) →
    (s.rollback < s.boot.image.svn →
      s.gives (.rollbackCommit src v) (begins ((List.range (s.boot.image.svn - s.rollback)).map (770 + s.rollback + ·)))) ∧
    (s.boot.image.svn ≤ s.rollback → s.gives (.rollbackCommit src v) (reports 1)) ∧
    (s.verifiesUnder (1 - field v 8 1) = true → s.gives (.keyRevoke src v) (begins [768 + field v 8 1])) ∧
    (s.verifiesUnder (1 - field v 8 1) = false → s.gives (.keyRevoke src v) (reports 2)) ∧
    s.gives (.debugLock src v) (begins [898])) ∧
  (∀ s : State, s.trust.blowBusy = true →
    s.gives (.fuseProgramComplete none) (fun t => (∀ i, bitAt t.fuses i = (bitAt s.fuses i || s.trust.blowing.contains i)) ∧
      t.trust = { s.trust with blowing := [], blowBusy := false, progResult := 1 } ∧ s.keeps t [.fuses, .trust]) ∧
    (∀ b, b ∈ s.trust.blowing → s.react 60 = 0 → s.gives (.fuseProgramComplete (some b)) (fun t =>
      (∀ i, bitAt t.fuses i = (bitAt s.fuses i || (s.trust.blowing.contains i && i != b))) ∧ t.trust.progResult = 3 ∧ t.trust.blowBusy = false ∧
      bitAt t.knot.word 60 = true ∧ s.keeps t [.mem, .ports, .knot, .fuses, .trust])))

/-- A STAGING_BUFFER_WRITE of a permitted writer puts its bytes into the 64 KiB buffer; STAGE_WRITE begins to program a unit and marks the standby
slot unverified; STAGE_COMMIT begins the check; each of them only sets STAGE_ERR while one is under way. STAGE_OPERATION_COMPLETE of a unit leaves the
buffer's bytes in that unit of the standby slot and every other byte as it was; of a commit it reports the check in BOOT_SLOT, and in RECOVERY a pass
makes boot go on with that slot. ACTIVATION_GO: result 4 while one runs; 2 where the slot is not verified or fails the rollback check; 3 where the
numeric version differs and a partition works; else VERIFYING. ACTIVATION_VERIFY_COMPLETE: result 2, or HOLDING, which holds every partition that may
be held and goes on to SWITCHING once all are. ACTIVATION_SWITCH_COMPLETE (no protocol change, no jobs): the slot is the image and the record's, every
loom image slot is empty, the ID block names its versions, result 1. ACTIVATION_HOLD_TIMEOUT: result 5, nothing else. (The ends with no power-state
request waiting, R491.) (R4, R481, R488, R489, R490, R491) -/
def Obligations.ImagesAreStagedAndActivated : Prop :=
  (∀ (s : State) (src : Src), s.arrives src = true → s.bootWriter src = true →
    (s.stageBlocked = true → ∀ c : Instr, ((∃ o b, c = .stagingBufferWrite src o b) ∨ (∃ u, c = .stageWrite src u) ∨ c = .stageCommit src) →
      s.gives c (fun t => t.boot = { s.boot with stageErr := true } ∧ s.keeps t [.boot])) ∧
    (s.stageBlocked = false →
      (∀ o b, o + b.length ≤ 65536 → s.gives (.stagingBufferWrite src o b) (fun t => t.boot = { s.boot with buffer := t.boot.buffer } ∧ s.keeps t [.boot] ∧
        ∀ k, tget 0 t.boot.buffer k = if o ≤ k ∧ k < o + b.length then b.getD (k - o) 0 else tget 0 s.boot.buffer k)) ∧
      (∀ u, u < 1792 → s.gives (.stageWrite src u) (fun t => t.boot = { s.boot with stage := .write u, slots := t.boot.slots } ∧
        t.slotInfo s.standby = { s.slotInfo s.standby with verified := false } ∧ (∀ k, k ≠ s.standby → t.slotInfo k = s.slotInfo k) ∧ s.keeps t [.boot])) ∧
      s.gives (.stageCommit src) (fun t => t.boot = { s.boot with stage := .commit } ∧ s.keeps t [.boot])) ∧
    (∀ v slot, slot = s.standby →
      (s.boot.phase ≠ .idle → bitAt v 0 = true → s.gives (.activationGo src v) (fun t => t.boot = { s.boot with result := 4 } ∧ s.keeps t [.boot])) ∧
      (s.boot.phase = .idle → bitAt v 0 = true → s.gives (.activationGo src v) (fun t => s.keeps t [.boot, .regs] ∧
        t.reg .bootAct = v % 64 / 2 * 2 ∧ (∀ r, r ≠ .bootAct → t.reg r = s.reg r) ∧
        (((s.slotInfo slot).verified = false ∨ le (s.header slot) 14 1 < s.rollback) → t.boot = { s.boot with result := 2 }) ∧
        ((s.slotInfo slot).verified = true → s.rollback ≤ le (s.header slot) 14 1 →
          (le (s.header slot) 8 2 ≠ s.boot.image.numeric → (∃ p, p < 16 ∧ (s.part p).st.idle = false) → t.boot = { s.boot with result := 3 }) ∧
          ((le (s.header slot) 8 2 = s.boot.image.numeric ∨ ∀ p, p < 16 → (s.part p).st.idle = true) →
            t.boot = { s.boot with phase := .verifying, held := 0 })))))) ∧
  (∀ (s : State) (u k : Nat), s.boot.stage = .write u → k = slotKey s.standby + u * 65536 → Machine.twf 0 s.boot.buffer = true →
    (∀ c ∈ s.boot.buffer, c.1 < 65536) → s.gives .stageOperationComplete (fun t => t.boot = { s.boot with stage := .idle } ∧
      (∀ o, o < 65536 → t.rd (k + o) = tget 0 s.boot.buffer o) ∧ s.keepsMem t k 65536 ∧ s.keeps t [.mem, .boot])) ∧
  (∀ (s : State) (h : List Byte), s.boot.stage = .commit → h = s.header s.standby →
    (∀ c, s.checkSlot s.standby = .error c → s.gives .stageOperationComplete (fun t => t.slotInfo s.standby = ⟨le h 6 2, le h 14 1, c, c == 0⟩ ∧
      t.boot = { s.boot with stage := .idle, slots := t.boot.slots } ∧ s.keeps t [.boot])) ∧
    (∀ k, s.checkSlot s.standby = .ok k →
      (s.boot.state ≠ .recovery → s.gives .stageOperationComplete (fun t => t.slotInfo s.standby = ⟨le h 6 2, le h 14 1, 0, true⟩ ∧
        t.boot = { s.boot with stage := .idle, slots := t.boot.slots } ∧ s.keeps t [.boot])) ∧
      (s.boot.state = .recovery → s.governing.2.1 < 2 ^ 64 - 1 → s.gives .stageOperationComplete (fun t => t.boot.state = .verify ∧
        t.boot.trying = s.standby ∧ t.boot.tried = 0 ∧ t.recordSlot = s.standby ∧ s.keepsMem t (recordKey (1 - s.governing.1)) 64 ∧ s.keeps t [.mem, .boot])))) ∧
  (∀ s : State, s.boot.phase = .verifying → s.treadle.pending = none →
    (∀ c, s.checkSlot s.standby = .error c → s.gives .activationVerifyComplete (fun t =>
      t.boot = { s.boot with phase := .idle, result := 2, slots := t.boot.slots } ∧ s.keeps t [.boot])) ∧
    (∀ k, s.checkSlot s.standby = .ok k → s.gives .activationVerifyComplete (fun t => s.keeps t [.boot] ∧
      t.boot = { s.boot with phase := t.boot.phase, held := t.boot.held } ∧ (∀ p, p < 16 → bitAt t.boot.held p = s.holdable p) ∧
      ((∀ p, p < 16 → s.holdable p = true) → t.boot.phase = .switching) ∧ ((∃ p, p < 16 ∧ s.holdable p = false) → t.boot.phase = .holding)))) ∧
  (∀ (s : State) (k : Nat), s.boot.phase = .switching → s.treadle.pending = none → s.verifySlot s.standby = .ok k → (∀ p, s.hasJob p = false) → s.governing.2.1 < 2 ^ 64 - 1 →
    s.boot.image.protoMin = (s.imageOf s.standby k).protoMin → s.boot.image.protoMax = (s.imageOf s.standby k).protoMax →
    s.gives .activationSwitchComplete (fun t => t.boot = { s.boot with
        image := s.imageOf s.standby k, idNumeric := (s.imageOf s.standby k).numeric, idProtoMax := (s.imageOf s.standby k).protoMax,
        recordSlot := s.standby, phase := .idle, result := 1, held := 0 } ∧
      (∀ l, t.loom l = { s.loom l with images := [], active := none, used := [], loading := [] }) ∧ t.recordSlot = s.standby ∧
      s.keepsMem t (recordKey (1 - s.governing.1)) 64 ∧ s.keeps t [.mem, .boot, .looms])) ∧
  (∀ s : State, s.boot.phase = .holding → s.treadle.pending = none → s.gives .activationHoldTimeout (fun t => t.boot = { s.boot with phase := .idle, result := 5, held := 0 } ∧ s.keeps t [.boot]))

/-- A request of the wrong length or with a reserved byte set answers INVALID, one before IDENTITY NOT_READY, one with four queued on its transport
BUSY; nothing else changes. With an idle engine GET_IDENTITY answers the public key; GET_REPORT begins the report of the image as it stands.
REPORT_SIGN_COMPLETE of the only request answers body and signature, counts it, and sets ATTESTED of its port over PCIe, nothing over SMBus. Set
Endpoint ID takes 1 to 254 and answers; Get Endpoint ID, version and message-type support answer (their forms are PRESUMED, log 17; the version value
is free). Over SMBus with VSIDE good: a wrong PEC draws no acknowledgement and has no effect; REG_READ answers the register at the offset, STATUS its
six registers; REG_WRITE does what the register write does in the TRD and BOOT blocks and nothing elsewhere; an MCTP message of the module's own type
does what GET_IDENTITY or GET_REPORT does, another command answers INVALID. Without VSIDE nothing answers. (R6, R488, R495, R496, R497, R498, R499,
R519, R520) -/
def Obligations.ReportsAndTheSideband : Prop :=
  (∀ (s : State) (tr : Transport) (b : List Byte),
    (∀ c n, ((c = Instr.getIdentity tr b ∧ n = 1 ∧ b ≠ []) ∨ (c = .getReport tr b ∧ n = 2 ∧ ¬(b.length = 34 ∧ zeroAt b 32 2 = true))) →
      s.gives c (fun t => t.out = s.out ++ [.mctp tr n 2 []] ∧ s.keeps t [.out])) ∧
    (∀ c n, ((c = Instr.getIdentity tr [] ∧ n = 1) ∨ (c = .getReport tr b ∧ n = 2 ∧ b.length = 34 ∧ zeroAt b 32 2 = true)) →
      (s.trust.ready = false → s.gives c (fun t => t.out = s.out ++ [.mctp tr n 3 []] ∧ s.keeps t [.out])) ∧
      (s.trust.ready = true → 4 ≤ (s.trust.queue.filter (fun x => x.1 == tr)).length →
        s.gives c (fun t => t.out = s.out ++ [.mctp tr n 1 []] ∧ s.keeps t [.out]))) ∧
    (s.trust.ready = true → s.trust.queue = [] →
      s.gives (.getIdentity tr []) (fun t => t.out = s.out ++ [.mctp tr 1 0 s.publicKey] ∧ s.keeps t [.out]) ∧
      (b.length = 34 → zeroAt b 32 2 = true → s.gives (.getReport tr b) (fun t =>
        t.trust = { s.trust with queue := [(tr, .report (b.take 32) (some (s.reportBody (b.take 32))))] } ∧ s.keeps t [.trust])))) ∧
  (∀ (s : State) (tr : Transport) (nonce body : List Byte), s.trust.queue = [(tr, .report nonce (some body))] → s.gives .reportSignComplete (fun t =>
    t.out = s.out ++ [.mctp tr 2 0 (body ++ Config.mldsaSign (field s.fuses 0 256) body)] ∧
    t.trust = { s.trust with queue := [], attested := t.trust.attested, reports := satInc 16 s.trust.reports 1 } ∧
    (∀ q, tr = .pcie q → ∀ i, bitAt t.trust.attested i = (bitAt s.trust.attested i || i == q)) ∧
    (tr = .smbus → t.trust.attested = s.trust.attested) ∧ s.keeps t [.trust, .out])) ∧
  (∀ (s : State) (tr : Transport) (eid : Nat),
    (1 ≤ eid → eid ≤ 254 → s.gives (.setEndpointId tr eid) (fun t => tget 0 t.trust.eids (transportId tr) = eid ∧
      (∀ k, k ≠ transportId tr → tget 0 t.trust.eids k = tget 0 s.trust.eids k) ∧ t.trust = { s.trust with eids := t.trust.eids } ∧
      t.out = s.out ++ [.mctpControl tr 1 [0, 0, BitVec.ofNat 8 eid, 0]] ∧ s.keeps t [.trust, .out])) ∧
    ((eid = 0 ∨ 255 ≤ eid) → s.gives (.setEndpointId tr eid) (fun t => t.out = s.out ++ [.mctpControl tr 1 [2]] ∧ s.keeps t [.out])) ∧
    s.gives (.getEndpointId tr) (fun t =>
      t.out = s.out ++ [.mctpControl tr 2 [0, BitVec.ofNat 8 (tget 0 s.trust.eids (transportId tr)), 0, 0]] ∧ s.keeps t [.out]) ∧
    s.gives (.getMctpVersionSupport tr) (fun t => (∃ v, t.out = s.out ++ [.mctpControl tr 4 ([0, 1] ++ leBytes 4 v)]) ∧ s.keeps t [.out, .draws]) ∧
    s.gives (.getMessageTypeSupport tr) (fun t => t.out = s.out ++ [.mctpControl tr 5 [0, 1, 0x7E]] ∧ s.keeps t [.out])) ∧
  (∀ (s : State) (off v : Nat) (m : List Byte) (pec : Bool) (c : Instr),
    (c = .regRead off pec ∨ c = .regWrite off v pec ∨ c = .status pec ∨ c = .mctp m pec) →
    (s.treadle.vsideGood = false → exec c s = .next (settle s)) ∧
    (s.treadle.vsideGood = true → pec = false → s.gives c (fun t => t.out = s.out ++ [.smbusNack] ∧ s.keeps t [.out]))) ∧
  (∀ s : State, s.treadle.vsideGood = true →
    (∀ off, s.gives (.regRead off true) (fun t => t.out = s.out ++ [.smbus (leBytes 4 (s.regRead off))] ∧ s.keeps t [.out])) ∧
    s.gives (.status true) (fun t => t.out = s.out ++ [.smbus ([Reg.bootStat, .trdStat, .knotWord false, .knotWord true, .trdTherm, .hifModule].flatMap
      (fun r => leBytes 4 (s.regValue r)))] ∧ s.keeps t [.out]) ∧
    (∀ off v, (off / 0x80000 ≠ 16 → off / 0x80000 ≠ 17 → exec (.regWrite off v true) s = .next (settle s)) ∧
      (off / 0x80000 = 16 ∨ off / 0x80000 = 17 → exec (.regWrite off v true) s = exec (.registerWrite .smbus off v) s) ∧
      (s.boot.state ≠ .fail → s.gives (.regWrite 0x800030 v true) (fun t =>
        t.reg .trdCap = (v % 2 ^ 32 &&& 0xFFF) ∧ (∀ r, r ≠ .trdCap → t.reg r = s.reg r) ∧ s.keeps t [.regs]))) ∧
    (∀ m, le m 0 1 % 128 = 0x7E → slice m 1 2 = [0x1F, 0xD7] →
      (le m 3 1 = 1 → le m 4 1 = 0 → exec (.mctp m true) s = exec (.getIdentity .smbus (m.drop 5)) s) ∧
      (le m 3 1 = 2 → le m 4 1 = 0 → exec (.mctp m true) s = exec (.getReport .smbus (m.drop 5)) s) ∧
      ((le m 3 1 ≠ 1 → le m 3 1 ≠ 2 → s.gives (.mctp m true) (fun t => t.out = s.out ++ [.mctp .smbus (le m 3 1) 2 []] ∧ s.keeps t [.out])))))

/-- PERST or the loss of a link that was up, on a port at rest (nothing outstanding, no ring pair enabled): the link is down, its functions, SR- IOV
and BAR4 windows are at reset, and knot bit 50 + q is set with class 0x28 (REACT 0); on a link that was down there is no event. PERST_RELEASE trains
the link at the width left to it while its supplies are on. Configuration: Retry Status before the first exit has ended; then identities, power
states, VFs, BAR sizes, MSI-X enable and the payload and read-request maxima change what they name only. A function level reset returns the function's
BAR4 window to reset, leaves none of its ring pairs enabled, and begins to disable its ACTIVE partitions. BAR4 in T0 from an administrative PF: a
permitted read answers the bytes of the place, a permitted write stores them there and nowhere else; one not permitted, or in a space above 2, is
dropped or answers all ones and is counted. Unmasking a vector sends its pending message. A correctable error counts one sixteenth of a soft event (as
R443 says); a JTAG session is noted where JTAG is open, on a secure part never. (R233, R440, R443, R493, R500, R501, R502, R503, R504, R505, R509; R5)
-/
def Obligations.PortsFunctionsAndWindows : Prop :=
  (∀ (s : State) (q : Nat) (pin : Bool), q < 2 → (∀ h ∈ s.hostReads, h.1 ≠ q) → (∀ h ∈ s.fabric.hostWaits, h.1 ≠ q) → (∀ k, k < 256 → (s.ring q k).en = false) →
    ∀ down : State → Prop, down = (fun t => (t.port q).linkUp = false ∧ (t.port q).width = 0 ∧ (t.port q).numVfs = 0 ∧ (t.port q).waiting = [] ∧
      (t.port q).perst = ((s.port q).perst || pin) ∧ (∀ f, f < 64 → t.func q f = {} ∧ t.reg (.fnBar4 q f) = (Reg.fnBar4 q f).reset) ∧
      (∀ r, (∀ f, r ≠ .fnBar4 q f) → t.reg r = s.reg r)) →
    ((s.port q).linkUp = false → s.gives (.perstAssert q pin) (fun t => down t ∧ s.keeps t [.ports, .funcs, .regs])) ∧
    ((s.port q).linkUp = true → s.react (50 + q) = 0 → s.gives (.perstAssert q pin) (fun t => down t ∧ bitAt t.knot.word (50 + q) = true ∧
      tget 0 t.knot.lastClass (50 + q) = 0x28 ∧ s.keeps t [.mem, .ports, .funcs, .regs, .knot, .draws]))) ∧
  (∀ (s : State) (q : Nat), q < 2 → ((s.port q).perst = true ∨ (s.port q).linkUp = false) → s.gives (.perstRelease q) (fun t => s.keeps t [.ports] ∧
    (∀ k, k ≠ q → t.port k = s.port k) ∧ t.port q = if s.pcieOn = true ∧ (s.port q).maxWidth ≠ 0 then
      { s.port q with perst := false, linkUp := true, width := (s.port q).maxWidth, speed := 5 } else { s.port q with perst := false })) ∧
  (∀ (s : State) (q f : Nat), q < 2 → f < 64 → (s.port q).linkUp = true → s.exists_ q f = true →
    (s.treadle.served = false → s.boot.state ≠ .recovery → ∀ op, s.gives (.configRequest q f op) (fun t => t.out = s.out ++ [.config q f 0 true] ∧ s.keeps t [.out])) ∧
    (s.treadle.served = true → s.awake → ∀ sets : Func → State → Prop, sets = (fun y t => t.func q f = y ∧ ∀ q' f', f' < 64 → (q' ≠ q ∨ f' ≠ f) → t.func q' f' = s.func q' f') →
      s.gives (.configRequest q f .readIds) (fun t => t.out = s.out ++ [.config q f (s.identity f) false] ∧ s.keeps t [.out]) ∧
      s.gives (.configRequest q f (.powerState true)) (fun t => sets { s.func q f with d3 := true } t ∧ s.keeps t [.funcs]) ∧
      ((∀ w ∈ (s.port q).waiting, w.1 ≠ f) → s.gives (.configRequest q f (.powerState false)) (fun t =>
        sets { s.func q f with d3 := false } t ∧ (∀ k, t.port k = s.port k) ∧ s.keeps t [.funcs, .ports])) ∧
      (∀ on, (s.func q f).pendingBits = 0 → s.gives (.configRequest q f (.msixEnable on)) (fun t => sets { s.func q f with msixOn := on } t ∧ s.keeps t [.funcs])) ∧
      (∀ n, f = 0 → n ≤ 63 → s.gives (.configRequest q f (.numVfs n)) (fun t => t.port q = { s.port q with numVfs := n } ∧
        (∀ i, i < 64 → t.func q i = if n < i then {} else s.func q i) ∧ s.keeps t [.ports, .funcs])) ∧
      (∀ g, f = 0 → g ≤ 9 → s.gives (.configRequest q f (.bar4Size g)) (fun t => sets { s.func q f with bar4 := g } t ∧ s.keeps t [.funcs])) ∧
      (∀ m r, m ≤ 2 → r ≤ 5 → s.gives (.configRequest q f (.deviceControl m r)) (fun t =>
        sets { s.func q f with payload := m, request := r } t ∧ s.keeps t [.funcs])))) ∧
  (∀ (s : State) (q f : Nat), q < 2 → f < 64 → (s.port q).linkUp = true → s.exists_ q f = true → s.gives (.functionLevelReset q f) (fun t =>
    t.reg (.fnBar4 q f) = (Reg.fnBar4 q f).reset ∧ (∀ k, k < 256 → s.ringFunc q k = f → (t.ring q k).en = false) ∧
    (∀ p, p < 16 → s.owns q f p = true → (s.part p).st = .active → (s.part p).en = true → (t.part p).st = .disabling) ∧
    ((∀ k, k < 256 → s.ringFunc q k = f → (s.ring q k).en = false) → (∀ p, p < 16 → s.owns q f p = false) → s.keeps t [.regs, .funcs]))) ∧
  (∀ (s : State) (q f off len sp o a : Nat), s.deferred = [] → s.arrives (.port q f) = true → s.serving (.port q f) = true → s.isAdmin q f = true → s.awake →
    off + len ≤ 2 ^ (30 + (s.func q f).bar4) → 0 < len → sp = s.fld (.fnBar4 q f) 0 4 → o = s.fld (.fnBar4 q f) 8 24 * 0x200000 + off → o + len ≤ 2 ^ 48 →
    a = s.moduleNum * 2 ^ 52 + spaceKey sp o → ∀ c : Ctx, c = { part := none, admin := true } →
    (sp ≤ 1 → s.allowed c a len false = true → s.readErr c a len = none → s.gives (.bar4Access q f off len none) (fun t =>
      t.out = s.out ++ [.data (s.readAt c a len) true] ∧ s.keeps t [.out, .memCtl])) ∧
    (∀ bs, bs.length = len → sp ≤ 1 → s.flips = [] → s.memCtl.poison = [] → s.memCtl.corrupt = [] → s.allowed c a len true = true → s.writeErr c a len = none →
      s.gives (.bar4Access q f off len (some bs)) (fun t => (∀ i, i < len → t.rd (s.dataKey sp (o + i)) = bs.getD i 0) ∧
        (∀ k, (∀ i, i < len → k ≠ s.dataKey sp (o + i)) → t.rd k = s.rd k) ∧ s.keeps t [.mem, .memCtl])) ∧
    ((2 < sp ∨ s.allowed c a len false = false) → s.gives (.bar4Access q f off len none) (fun t => t.out = s.out ++ [.data (List.replicate len 0xFF) true] ∧
      t.port q = { s.port q with refused := satInc 16 (s.port q).refused 1 } ∧ (∀ k, k ≠ q → t.port k = s.port k) ∧ s.keeps t [.out, .ports])) ∧
    (∀ bs, bs.length = len → (2 < sp ∨ s.allowed c a len true = false) → s.gives (.bar4Access q f off len (some bs)) (fun t =>
      t.port q = { s.port q with refused := satInc 16 (s.port q).refused 1 } ∧ (∀ k, k ≠ q → t.port k = s.port k) ∧ s.keeps t [.ports]))) ∧
  (∀ (s : State) (q f v : Nat), s.arrives (.port q f) = true → f < 64 → v < 32 → s.gives (.msixUnmask q f v) (fun t => (t.func q f).masked v = false ∧
    (∀ w, w < 32 → w ≠ v → (t.func q f).masked w = (s.func q f).masked w) ∧
    ((s.func q f).pendingBits = 0 → (t.func q f).pendingBits = 0 ∧ s.keeps t [.funcs]) ∧
    ((s.func q f).pendingBits = 2 ^ v → (s.func q f).msixOn = true → (t.func q f).pendingBits = 0 ∧ t.out = s.out ++ [.msix q f v] ∧ s.keeps t [.funcs, .out]))) ∧
  (∀ (s : State) (q : Nat), q < 2 → s.gives (.correctableAerError q) (fun t => t.unit 4 q = { s.unit 4 q with
      soft := (s.unit 4 q).soft + ((s.unit 4 q).raw + 1) / 16, raw := ((s.unit 4 q).raw + 1) % 16 } ∧
    (∀ cls u, u < 65536 → (cls ≠ 4 ∨ u ≠ q) → t.unit cls u = s.unit cls u) ∧ s.keeps t [.units])) ∧
  (∀ s : State, s.gives .jtagSession (fun t => t.trust = { s.trust with debugSeen := s.trust.debugSeen || !(s.trust.jtagClosed || s.secure) } ∧ s.keeps t [.trust]))

/-- A write of the administrative PF to a plain set-up register takes its RW fields and changes nothing else; from another source it changes nothing,
and so does a write to a read-only register or a reserved offset. With PIN of TMP_CAP_CTL set every cluster that is up runs at its pinned clock. A
word of the writer's own MSI-X table takes the value (nothing pending). SELF_ALIAS_LOCK takes the fields and the lock, once; afterwards HIF_MODULE
changes no more. HIF_ADOPT from port 1's PF with GO: adopted with CONFIRM, under policy 0b11 and with port 0 down long enough, else ADOPT_REFUSED. A
good host read completion puts the bytes where the host memory shows, one acknowledgement fewer is missing of the HOST_WAIT node that asked, and the
last judges it; a failed one, or a completion time-out, completes the entry that asked RETRY_EXHAUSTED, once it awaits no other. (R15, R69, R202,
R207, R241, R502, R507, R511, R512, R517; R474) -/
def Obligations.RegistersAndHostAnswers : Prop :=
  (∀ (s : State) (src : Src) (off v : Nat) (r : Reg), s.arrives src = true → regAt off = some r →
    (r ∈ [.lmCfg, .lmSwapWdog, .accReadyWdog, .knotIrq, .tmpClassCtl, .hifAdoptDelay] →
      (s.fromAdmin src = true → s.gives (.registerWrite src off v) (fun t => t.reg r = (v % 2 ^ 32 &&& r.rw) ∧ (∀ x, x ≠ r → t.reg x = s.reg x) ∧ s.keeps t [.regs])) ∧
      (s.fromAdmin src = false → exec (.registerWrite src off v) s = .next (settle s))) ∧
    (r = .tmpCapCtl → (s.fromAdmin src = false → exec (.registerWrite src off v) s = .next (settle s)) ∧
      (s.fromAdmin src = true → s.gives (.registerWrite src off v) (fun t => t.reg r = (v % 2 ^ 32 &&& r.rw) ∧ (∀ x, x ≠ r → t.reg x = s.reg x) ∧
        (t.bit .tmpCapCtl 0 = false → s.keeps t [.regs]) ∧
        (t.bit .tmpCapCtl 0 = true → s.keeps t [.regs, .islands] ∧ ∀ c, c < 32 → (s.island c).on = true → (t.island c).freq = s.pinFreq c)))) ∧
    (r ∈ [.knotMergeCount, .knotLogStat, .trdPower, .trdLastWake, .bootStat, .bootActStat, .fusProgStat, .truStat, .mgrStat] →
      exec (.registerWrite src off v) s = .next (settle s))) ∧
  (∀ (s : State) (src : Src) (off v : Nat), s.arrives src = true → regAt off = none → inStaging off = false → ¬(0xF00000 ≤ off ∧ off < 0xF00200) →
    exec (.registerWrite src off v) s = .next (settle s)) ∧
  (∀ (s : State) (q f i v : Nat), s.arrives (.port q f) = true → f < 64 → i < 128 → (s.func q f).pendingBits = 0 →
    s.gives (.registerWrite (.port q f) (0xF00000 + 4 * i) v) (fun t => tget (if i % 4 = 3 then 1 else 0) (t.func q f).table i = v % 2 ^ 32 ∧
      (∀ w, w < 32 → w ≠ i / 4 → (t.func q f).masked w = (s.func q f).masked w) ∧ t.func q f = { s.func q f with table := (t.func q f).table } ∧
      (∀ q' f', f' < 64 → (q' ≠ q ∨ f' ≠ f) → t.func q' f' = s.func q' f') ∧ s.keeps t [.funcs])) ∧
  (∀ (s : State) (src : Src) (v : Nat), s.arrives src = true → s.fromAdmin src = true →
    (s.bit .hifModule 27 = false → s.gives (.selfAliasLock src v) (fun t => t.reg .hifModule = (setField v 27 1 1 &&& Reg.hifModule.rw) ∧
      t.bit .hifModule 27 = true ∧ (∀ x, x ≠ .hifModule → t.reg x = s.reg x) ∧ s.keeps t [.regs])) ∧
    (s.bit .hifModule 27 = true → exec (.selfAliasLock src v) s = .next (settle s))) ∧
  (∀ (s : State) (v : Nat) (long : Bool), s.arrives (.port 1 0) = true → s.serving (.port 1 0) = true →
    (bitAt v 0 = true → s.gives (.adopt (.port 1 0) v long) (fun t =>
      (field v 16 16 = 0x9600 → field s.fuses 899 2 = 3 → long = true → (s.port 0).linkUp = false → t.adopted = true ∧ s.keeps t [.adopted]) ∧
      ((field v 16 16 ≠ 0x9600 ∨ field s.fuses 899 2 ≠ 3 ∨ long = false ∨ (s.port 0).linkUp = true) → t.adoptRefused = true ∧ s.keeps t [.adoptRefused]))) ∧
    (bitAt v 0 = false → exec (.adopt (.port 1 0) v long) s = .next (settle s))) ∧
  (∀ (s : State) (a d n q : Nat) (x : Draft) (y : Node) (bs : List Byte), s.deferred = [] → (gSpace a = 4 ∨ gSpace a = 5) → q = gSpace a - 4 → s.hostReads.contains (q, .node d n) = true →
    s.draft d = some x → s.node d n = some y → y.kind = 0xA → y.st = .running → y.failing = none → y.arg 104 8 = a → s.isLocal a = true →
    gOffset a + 8 ≤ 2 ^ 48 → (∀ g ∈ s.mates, Issuer.node d n ∉ g) → bs.length = 8 → s.gives (.hostReadCompletion (.node d n) a bs true) (fun t =>
      t.node d n = some (if 1 < y.acks then { y with acks := y.acks - 1 }
        else { y with acks := 0, seen := some (le bs 0 8), worked := y.worked || y.satisfied (le bs 0 8) }) ∧
      (∀ i, i < 8 → t.rd (spaceKey (4 + q) (gOffset a) + i) = bs.getD i 0) ∧ s.keepsMem t (spaceKey (4 + q) (gOffset a)) 8 ∧
      t.hostReads = s.hostReads.erase (q, .node d n) ∧ (∀ k, k ≠ d → t.draft k = s.draft k) ∧ s.keeps t [.mem, .hostReads, .drafts])) ∧
  (∀ (s : State) (c : Instr) (a e q : Nat) (x : Entry) (bs : List Byte), s.deferred = [] → s.entry e = some x → s.hostReads = [(q, .entry e)] →
    ((c = .hostReadCompletion (.entry e) a bs false ∧ (gSpace a = 4 ∨ gSpace a = 5) ∧ q = gSpace a - 4) ∨ c = .completionTimeout (.entry e)) →
    (x.acks ≤ 1 → x.failing = none → x.parked = none → s.runs x.part = true → s.gives c (fun t =>
      State.completed x stRetryExhausted x.result t ∧ t.hostReads = [] ∧ s.keeps t [.hostReads, .entries, .rings])) ∧
    (1 < x.acks → s.gives c (fun t => t.entry e = some { x with acks := x.acks - 1, worked := true, failing := some (x.failing.getD stRetryExhausted) } ∧
      (∀ k, k ≠ e → t.entry k = s.entry k) ∧ t.hostReads = [] ∧ s.keeps t [.hostReads, .entries])))
end

