-- ==== Sys2Proof/Laws/Sparse.lean ====
section
/-!
SUPPORT. Laws/Sparse.lean: what the operations on sparse tables do: every one keeps the canonical form, a read after a write gives the value
written, and a write leaves every other key alone.
-/

namespace Sys2Proof.Machine

variable {α : Type}

/-- The bound `lo` lies below `k`. -/
def above (lo : Option Nat) (k : Nat) : Prop := ∀ b, lo = some b → b < k

theorem risingFrom_cons (lo : Option Nat) (k : Nat) (v : α) (l : List (Nat × α)) :
    risingFrom lo ((k, v) :: l) = true ↔ above lo k ∧ risingFrom (some k) l = true := by
  cases lo <;> simp [risingFrom, above]

theorem risingFrom_weaken {l : List (Nat × α)} {a : Nat} {lo : Option Nat} (h : risingFrom (some a) l = true) (ha : ∀ b, lo = some b → b ≤ a) :
    risingFrom lo l = true := by
  cases l with
  | nil => simp [risingFrom]
  | cons p r =>
    obtain ⟨k, v⟩ := p
    rw [risingFrom_cons] at h ⊢
    exact ⟨fun b hb => lt_of_le_of_lt (ha b hb) (h.1 a rfl), h.2⟩

theorem risingFrom_filter (p : Nat × α → Bool) {l : List (Nat × α)} : ∀ {lo : Option Nat}, risingFrom lo l = true → risingFrom lo (l.filter p) = true := by
  induction l with
  | nil => intro lo _; simp [risingFrom]
  | cons q r ih =>
    obtain ⟨k, v⟩ := q
    intro lo h
    rw [risingFrom_cons] at h
    by_cases hp : p (k, v) = true
    · rw [List.filter_cons_of_pos hp, risingFrom_cons]
      exact ⟨h.1, ih h.2⟩
    · rw [List.filter_cons_of_neg hp]
      exact risingFrom_weaken (ih h.2) (fun b hb => le_of_lt (h.1 b hb))

theorem risingFrom_tinsert (k : Nat) (v : α) {l : List (Nat × α)} :
    ∀ {lo : Option Nat}, risingFrom lo l = true → above lo k → (∀ p ∈ l, p.1 ≠ k) → risingFrom lo (tinsert k v l) = true := by
  induction l with
  | nil => intro lo _ hk _; exact (risingFrom_cons lo k v []).2 ⟨hk, rfl⟩
  | cons q r ih =>
    obtain ⟨k', v'⟩ := q
    intro lo h hk hne
    rw [risingFrom_cons] at h
    have hk' : k' ≠ k := hne (k', v') (by simp)
    simp only [tinsert]
    split
    · next hlt => rw [risingFrom_cons, risingFrom_cons]; exact ⟨hk, fun b hb => by cases hb; exact hlt, h.2⟩
    · next hge =>
      rw [risingFrom_cons]
      exact ⟨h.1, ih h.2 (fun b hb => by cases hb; omega) (fun p hp => hne p (by simp [hp]))⟩

theorem mem_tinsert (k : Nat) (v : α) (l : List (Nat × α)) (p : Nat × α) : p ∈ tinsert k v l ↔ p = (k, v) ∨ p ∈ l := by
  induction l with
  | nil => simp [tinsert]
  | cons q r ih =>
    obtain ⟨k', v'⟩ := q
    simp only [tinsert]
    split
    · simp
    · simp only [List.mem_cons, ih]; tauto

theorem mem_terase (l : List (Nat × α)) (k : Nat) (p : Nat × α) : p ∈ terase l k ↔ p ∈ l ∧ p.1 ≠ k := by simp [terase]

/-- A write keeps the canonical form. -/
theorem tset_wf [DecidableEq α] (d : α) (l : List (Nat × α)) (k : Nat) (v : α) (h : twf d l = true) : twf d (tset d l k v) = true := by
  simp only [twf, Bool.and_eq_true, List.all_eq_true, decide_eq_true_eq] at h ⊢
  have he : risingFrom none (terase l k) = true := risingFrom_filter _ h.1
  simp only [tset]
  split
  · exact ⟨he, fun p hp => h.2 p ((mem_terase l k p).1 hp).1⟩
  · next hv =>
    refine ⟨risingFrom_tinsert k v he (fun b hb => by cases hb) (fun p hp => ((mem_terase l k p).1 hp).2), fun p hp => ?_⟩
    rcases (mem_tinsert k v _ p).1 hp with rfl | hp
    · exact hv
    · exact h.2 p ((mem_terase l k p).1 hp).1

/-- Taking entries out keeps the canonical form. -/
theorem filter_wf [DecidableEq α] (d : α) (p : Nat × α → Bool) (l : List (Nat × α)) (h : twf d l = true) : twf d (l.filter p) = true := by
  simp only [twf, Bool.and_eq_true, List.all_eq_true, decide_eq_true_eq] at h ⊢
  exact ⟨risingFrom_filter _ h.1, fun q hq => h.2 q (List.mem_of_mem_filter hq)⟩

theorem tclear_wf [DecidableEq α] (d : α) (l : List (Nat × α)) (lo hi : Nat) (h : twf d l = true) : twf d (tclear l lo hi) = true :=
  filter_wf d _ l h

/-- The canonical form is canonical. -/
theorem tcanon_wf [DecidableEq α] (d : α) (l : List (Nat × α)) : twf d (tcanon d l) = true := by
  induction l with
  | nil => rfl
  | cons p r ih => exact tset_wf d _ p.1 p.2 ih

theorem foldl_wf [DecidableEq α] {β : Type} (d : α) (f : List (Nat × α) → β → List (Nat × α)) (hf : ∀ m b, twf d m = true → twf d (f m b) = true)
    (bs : List β) : ∀ m, twf d m = true → twf d (bs.foldl f m) = true := by
  induction bs with
  | nil => intro m h; exact h
  | cons b bs ih => intro m h; exact ih _ (hf m b h)

-- ## Reading

theorem tget_terase (d : α) (l : List (Nat × α)) (k j : Nat) : tget d (terase l k) j = if j = k then d else tget d l j := by
  induction l with
  | nil => simp [terase, tget]
  | cons p r ih =>
    obtain ⟨k', v⟩ := p
    by_cases hk : k' = k
    · subst hk
      rw [show terase ((k', v) :: r) k' = terase r k' by simp [terase], ih]
      by_cases hj : j = k'
      · simp [hj]
      · have hj' : k' ≠ j := fun h => hj h.symm
        simp [tget, hj, hj']
    · rw [show terase ((k', v) :: r) k = (k', v) :: terase r k by simp [terase, hk]]
      simp only [tget, ih]
      by_cases hj : j = k
      · subst hj; simp [hk]
      · simp [hj]

theorem tget_tinsert (d v : α) (k j : Nat) (l : List (Nat × α)) (h : ∀ p ∈ l, p.1 ≠ k) :
    tget d (tinsert k v l) j = if j = k then v else tget d l j := by
  induction l with
  | nil => simp [tinsert, tget, eq_comm]
  | cons p r ih =>
    obtain ⟨k', v'⟩ := p
    have hk : k' ≠ k := h (k', v') (by simp)
    simp only [tinsert]
    by_cases hj : j = k
    · subst hj
      split
      · simp [tget]
      · simp [tget, ih (fun p hp => h p (by simp [hp])), hk]
    · have hj' : k ≠ j := fun h => hj h.symm
      split
      · simp [tget, hj, hj']
      · simp [tget, ih (fun p hp => h p (by simp [hp])), hj]

/-- A read after a write: the value written at its key, every other key as before. -/
theorem tget_tset [DecidableEq α] (d v : α) (l : List (Nat × α)) (k j : Nat) : tget d (tset d l k v) j = if j = k then v else tget d l j := by
  simp only [tset]
  split
  · next hv => rw [tget_terase, hv]
  · rw [tget_tinsert d v k j _ (fun p hp => ((mem_terase l k p).1 hp).2), tget_terase]
    split <;> simp_all

@[simp] theorem tget_tset_same [DecidableEq α] (d v : α) (l : List (Nat × α)) (k : Nat) : tget d (tset d l k v) k = v := by simp [tget_tset]

theorem tget_tset_ne [DecidableEq α] (d v : α) (l : List (Nat × α)) {k j : Nat} (h : j ≠ k) : tget d (tset d l k v) j = tget d l j := by
  simp [tget_tset, h]

/-- The canonical form of a table reads as the table does. -/
@[simp] theorem tget_tcanon [DecidableEq α] (d : α) (l : List (Nat × α)) (j : Nat) : tget d (tcanon d l) j = tget d l j := by
  induction l with
  | nil => rfl
  | cons p r ih =>
    obtain ⟨k, v⟩ := p
    show tget d (tset d (tcanon d r) k v) j = _
    rw [tget_tset, ih]
    simp only [tget, eq_comm]

theorem tget_tclear (d : α) (l : List (Nat × α)) (lo hi j : Nat) : tget d (tclear l lo hi) j = if lo ≤ j ∧ j < hi then d else tget d l j := by
  induction l with
  | nil => simp [tclear, tget]
  | cons p r ih =>
    obtain ⟨k, v⟩ := p
    by_cases hk : k < lo ∨ hi ≤ k
    · rw [show tclear ((k, v) :: r) lo hi = (k, v) :: tclear r lo hi by simp [tclear, hk]]
      simp only [tget, ih]
      by_cases hj : k = j
      · subst hj; rw [if_pos rfl, if_pos rfl, if_neg (by omega)]
      · rw [if_neg hj, if_neg hj]
    · rw [show tclear ((k, v) :: r) lo hi = tclear r lo hi by simp [tclear, hk]]
      rw [ih]
      by_cases hj : lo ≤ j ∧ j < hi
      · rw [if_pos hj, if_pos hj]
      · rw [if_neg hj, if_neg hj, tget, if_neg (by omega)]

end Sys2Proof.Machine
end

