-- ==== Sys2Proof/Laws/State.lean ====
section
/-!
SUPPORT. Laws/State.lean: what each setter of State changes and what it leaves alone, field by field, and what a read of a component gives after a
write of one.
-/

namespace Sys2Proof.Machine

-- ## State.setIsland

@[simp] theorem State.setIsland_mem (s : State) (i : Nat) (x : Island) : (s.setIsland i x).mem = s.mem := rfl
@[simp] theorem State.setIsland_regs (s : State) (i : Nat) (x : Island) : (s.setIsland i x).regs = s.regs := rfl
@[simp] theorem State.setIsland_fuses (s : State) (i : Nat) (x : Island) : (s.setIsland i x).fuses = s.fuses := rfl
@[simp] theorem State.setIsland_straps (s : State) (i : Nat) (x : Island) : (s.setIsland i x).straps = s.straps := rfl
@[simp] theorem State.setIsland_channels (s : State) (i : Nat) (x : Island) : (s.setIsland i x).channels = s.channels := rfl
@[simp] theorem State.setIsland_ports (s : State) (i : Nat) (x : Island) : (s.setIsland i x).ports = s.ports := rfl
@[simp] theorem State.setIsland_adopted (s : State) (i : Nat) (x : Island) : (s.setIsland i x).adopted = s.adopted := rfl
@[simp] theorem State.setIsland_adoptRefused (s : State) (i : Nat) (x : Island) : (s.setIsland i x).adoptRefused = s.adoptRefused := rfl
@[simp] theorem State.setIsland_shrRefused (s : State) (i : Nat) (x : Island) : (s.setIsland i x).shrRefused = s.shrRefused := rfl
@[simp] theorem State.setIsland_funcs (s : State) (i : Nat) (x : Island) : (s.setIsland i x).funcs = s.funcs := rfl
@[simp] theorem State.setIsland_rings (s : State) (i : Nat) (x : Island) : (s.setIsland i x).rings = s.rings := rfl
@[simp] theorem State.setIsland_accepted (s : State) (i : Nat) (x : Island) : (s.setIsland i x).accepted = s.accepted := rfl
@[simp] theorem State.setIsland_entries (s : State) (i : Nat) (x : Island) : (s.setIsland i x).entries = s.entries := rfl
@[simp] theorem State.setIsland_draftIds (s : State) (i : Nat) (x : Island) : (s.setIsland i x).draftIds = s.draftIds := rfl
@[simp] theorem State.setIsland_drafts (s : State) (i : Nat) (x : Island) : (s.setIsland i x).drafts = s.drafts := rfl
@[simp] theorem State.setIsland_parts (s : State) (i : Nat) (x : Island) : (s.setIsland i x).parts = s.parts := rfl
@[simp] theorem State.setIsland_looms (s : State) (i : Nat) (x : Island) : (s.setIsland i x).looms = s.looms := rfl
@[simp] theorem State.setIsland_hostReads (s : State) (i : Nat) (x : Island) : (s.setIsland i x).hostReads = s.hostReads := rfl
@[simp] theorem State.setIsland_memCtl (s : State) (i : Nat) (x : Island) : (s.setIsland i x).memCtl = s.memCtl := rfl
@[simp] theorem State.setIsland_shuttles (s : State) (i : Nat) (x : Island) : (s.setIsland i x).shuttles = s.shuttles := rfl
@[simp] theorem State.setIsland_mates (s : State) (i : Nat) (x : Island) : (s.setIsland i x).mates = s.mates := rfl
@[simp] theorem State.setIsland_served (s : State) (i : Nat) (x : Island) : (s.setIsland i x).served = s.served := rfl
@[simp] theorem State.setIsland_links (s : State) (i : Nat) (x : Island) : (s.setIsland i x).links = s.links := rfl
@[simp] theorem State.setIsland_fabric (s : State) (i : Nat) (x : Island) : (s.setIsland i x).fabric = s.fabric := rfl
@[simp] theorem State.setIsland_manager (s : State) (i : Nat) (x : Island) : (s.setIsland i x).manager = s.manager := rfl
@[simp] theorem State.setIsland_knot (s : State) (i : Nat) (x : Island) : (s.setIsland i x).knot = s.knot := rfl
@[simp] theorem State.setIsland_units (s : State) (i : Nat) (x : Island) : (s.setIsland i x).units = s.units := rfl
@[simp] theorem State.setIsland_retired (s : State) (i : Nat) (x : Island) : (s.setIsland i x).retired = s.retired := rfl
@[simp] theorem State.setIsland_guests (s : State) (i : Nat) (x : Island) : (s.setIsland i x).guests = s.guests := rfl
@[simp] theorem State.setIsland_vacant (s : State) (i : Nat) (x : Island) : (s.setIsland i x).vacant = s.vacant := rfl
@[simp] theorem State.setIsland_genRetire (s : State) (i : Nat) (x : Island) : (s.setIsland i x).genRetire = s.genRetire := rfl
@[simp] theorem State.setIsland_treadle (s : State) (i : Nat) (x : Island) : (s.setIsland i x).treadle = s.treadle := rfl
@[simp] theorem State.setIsland_boot (s : State) (i : Nat) (x : Island) : (s.setIsland i x).boot = s.boot := rfl
@[simp] theorem State.setIsland_trust (s : State) (i : Nat) (x : Island) : (s.setIsland i x).trust = s.trust := rfl
@[simp] theorem State.setIsland_faultN (s : State) (i : Nat) (x : Island) : (s.setIsland i x).faultN = s.faultN := rfl
@[simp] theorem State.setIsland_thermN (s : State) (i : Nat) (x : Island) : (s.setIsland i x).thermN = s.thermN := rfl
@[simp] theorem State.setIsland_pgOut (s : State) (i : Nat) (x : Island) : (s.setIsland i x).pgOut = s.pgOut := rfl
@[simp] theorem State.setIsland_deferred (s : State) (i : Nat) (x : Island) : (s.setIsland i x).deferred = s.deferred := rfl
@[simp] theorem State.setIsland_out (s : State) (i : Nat) (x : Island) : (s.setIsland i x).out = s.out := rfl
@[simp] theorem State.setIsland_draws (s : State) (i : Nat) (x : Island) : (s.setIsland i x).draws = s.draws := rfl
@[simp] theorem State.setIsland_pending (s : State) (i : Nat) (x : Island) : (s.setIsland i x).pending = s.pending := rfl
@[simp] theorem State.setIsland_port (s : State) (i : Nat) (x : Island) (j : Nat) : (s.setIsland i x).port j = s.port j := rfl
@[simp] theorem State.setIsland_func (s : State) (i : Nat) (x : Island) (j j2 : Nat) : (s.setIsland i x).func j j2 = s.func j j2 := rfl
@[simp] theorem State.setIsland_ring (s : State) (i : Nat) (x : Island) (j j2 : Nat) : (s.setIsland i x).ring j j2 = s.ring j j2 := rfl
@[simp] theorem State.setIsland_part (s : State) (i : Nat) (x : Island) (j : Nat) : (s.setIsland i x).part j = s.part j := rfl
@[simp] theorem State.setIsland_loom (s : State) (i : Nat) (x : Island) (j : Nat) : (s.setIsland i x).loom j = s.loom j := rfl
@[simp] theorem State.setIsland_unit (s : State) (i : Nat) (x : Island) (j j2 : Nat) : (s.setIsland i x).unit j j2 = s.unit j j2 := rfl
@[simp] theorem State.setIsland_link (s : State) (i : Nat) (x : Island) (j : Nat) : (s.setIsland i x).link j = s.link j := rfl
@[simp] theorem State.setIsland_rd (s : State) (i : Nat) (x : Island) (j : Nat) : (s.setIsland i x).rd j = s.rd j := rfl
@[simp] theorem State.setIsland_reg (s : State) (i : Nat) (x : Island) (j : Reg) : (s.setIsland i x).reg j = s.reg j := rfl

-- ## State.setPort

@[simp] theorem State.setPort_mem (s : State) (q : Nat) (x : Port) : (s.setPort q x).mem = s.mem := rfl
@[simp] theorem State.setPort_regs (s : State) (q : Nat) (x : Port) : (s.setPort q x).regs = s.regs := rfl
@[simp] theorem State.setPort_fuses (s : State) (q : Nat) (x : Port) : (s.setPort q x).fuses = s.fuses := rfl
@[simp] theorem State.setPort_straps (s : State) (q : Nat) (x : Port) : (s.setPort q x).straps = s.straps := rfl
@[simp] theorem State.setPort_islands (s : State) (q : Nat) (x : Port) : (s.setPort q x).islands = s.islands := rfl
@[simp] theorem State.setPort_channels (s : State) (q : Nat) (x : Port) : (s.setPort q x).channels = s.channels := rfl
@[simp] theorem State.setPort_adopted (s : State) (q : Nat) (x : Port) : (s.setPort q x).adopted = s.adopted := rfl
@[simp] theorem State.setPort_adoptRefused (s : State) (q : Nat) (x : Port) : (s.setPort q x).adoptRefused = s.adoptRefused := rfl
@[simp] theorem State.setPort_shrRefused (s : State) (q : Nat) (x : Port) : (s.setPort q x).shrRefused = s.shrRefused := rfl
@[simp] theorem State.setPort_funcs (s : State) (q : Nat) (x : Port) : (s.setPort q x).funcs = s.funcs := rfl
@[simp] theorem State.setPort_rings (s : State) (q : Nat) (x : Port) : (s.setPort q x).rings = s.rings := rfl
@[simp] theorem State.setPort_accepted (s : State) (q : Nat) (x : Port) : (s.setPort q x).accepted = s.accepted := rfl
@[simp] theorem State.setPort_entries (s : State) (q : Nat) (x : Port) : (s.setPort q x).entries = s.entries := rfl
@[simp] theorem State.setPort_draftIds (s : State) (q : Nat) (x : Port) : (s.setPort q x).draftIds = s.draftIds := rfl
@[simp] theorem State.setPort_drafts (s : State) (q : Nat) (x : Port) : (s.setPort q x).drafts = s.drafts := rfl
@[simp] theorem State.setPort_parts (s : State) (q : Nat) (x : Port) : (s.setPort q x).parts = s.parts := rfl
@[simp] theorem State.setPort_looms (s : State) (q : Nat) (x : Port) : (s.setPort q x).looms = s.looms := rfl
@[simp] theorem State.setPort_hostReads (s : State) (q : Nat) (x : Port) : (s.setPort q x).hostReads = s.hostReads := rfl
@[simp] theorem State.setPort_memCtl (s : State) (q : Nat) (x : Port) : (s.setPort q x).memCtl = s.memCtl := rfl
@[simp] theorem State.setPort_shuttles (s : State) (q : Nat) (x : Port) : (s.setPort q x).shuttles = s.shuttles := rfl
@[simp] theorem State.setPort_mates (s : State) (q : Nat) (x : Port) : (s.setPort q x).mates = s.mates := rfl
@[simp] theorem State.setPort_served (s : State) (q : Nat) (x : Port) : (s.setPort q x).served = s.served := rfl
@[simp] theorem State.setPort_links (s : State) (q : Nat) (x : Port) : (s.setPort q x).links = s.links := rfl
@[simp] theorem State.setPort_fabric (s : State) (q : Nat) (x : Port) : (s.setPort q x).fabric = s.fabric := rfl
@[simp] theorem State.setPort_manager (s : State) (q : Nat) (x : Port) : (s.setPort q x).manager = s.manager := rfl
@[simp] theorem State.setPort_knot (s : State) (q : Nat) (x : Port) : (s.setPort q x).knot = s.knot := rfl
@[simp] theorem State.setPort_units (s : State) (q : Nat) (x : Port) : (s.setPort q x).units = s.units := rfl
@[simp] theorem State.setPort_retired (s : State) (q : Nat) (x : Port) : (s.setPort q x).retired = s.retired := rfl
@[simp] theorem State.setPort_guests (s : State) (q : Nat) (x : Port) : (s.setPort q x).guests = s.guests := rfl
@[simp] theorem State.setPort_vacant (s : State) (q : Nat) (x : Port) : (s.setPort q x).vacant = s.vacant := rfl
@[simp] theorem State.setPort_genRetire (s : State) (q : Nat) (x : Port) : (s.setPort q x).genRetire = s.genRetire := rfl
@[simp] theorem State.setPort_treadle (s : State) (q : Nat) (x : Port) : (s.setPort q x).treadle = s.treadle := rfl
@[simp] theorem State.setPort_boot (s : State) (q : Nat) (x : Port) : (s.setPort q x).boot = s.boot := rfl
@[simp] theorem State.setPort_trust (s : State) (q : Nat) (x : Port) : (s.setPort q x).trust = s.trust := rfl
@[simp] theorem State.setPort_faultN (s : State) (q : Nat) (x : Port) : (s.setPort q x).faultN = s.faultN := rfl
@[simp] theorem State.setPort_thermN (s : State) (q : Nat) (x : Port) : (s.setPort q x).thermN = s.thermN := rfl
@[simp] theorem State.setPort_pgOut (s : State) (q : Nat) (x : Port) : (s.setPort q x).pgOut = s.pgOut := rfl
@[simp] theorem State.setPort_deferred (s : State) (q : Nat) (x : Port) : (s.setPort q x).deferred = s.deferred := rfl
@[simp] theorem State.setPort_out (s : State) (q : Nat) (x : Port) : (s.setPort q x).out = s.out := rfl
@[simp] theorem State.setPort_draws (s : State) (q : Nat) (x : Port) : (s.setPort q x).draws = s.draws := rfl
@[simp] theorem State.setPort_pending (s : State) (q : Nat) (x : Port) : (s.setPort q x).pending = s.pending := rfl
@[simp] theorem State.setPort_island (s : State) (q : Nat) (x : Port) (j : Nat) : (s.setPort q x).island j = s.island j := rfl
@[simp] theorem State.setPort_func (s : State) (q : Nat) (x : Port) (j j2 : Nat) : (s.setPort q x).func j j2 = s.func j j2 := rfl
@[simp] theorem State.setPort_ring (s : State) (q : Nat) (x : Port) (j j2 : Nat) : (s.setPort q x).ring j j2 = s.ring j j2 := rfl
@[simp] theorem State.setPort_part (s : State) (q : Nat) (x : Port) (j : Nat) : (s.setPort q x).part j = s.part j := rfl
@[simp] theorem State.setPort_loom (s : State) (q : Nat) (x : Port) (j : Nat) : (s.setPort q x).loom j = s.loom j := rfl
@[simp] theorem State.setPort_unit (s : State) (q : Nat) (x : Port) (j j2 : Nat) : (s.setPort q x).unit j j2 = s.unit j j2 := rfl
@[simp] theorem State.setPort_link (s : State) (q : Nat) (x : Port) (j : Nat) : (s.setPort q x).link j = s.link j := rfl
@[simp] theorem State.setPort_rd (s : State) (q : Nat) (x : Port) (j : Nat) : (s.setPort q x).rd j = s.rd j := rfl
@[simp] theorem State.setPort_reg (s : State) (q : Nat) (x : Port) (j : Reg) : (s.setPort q x).reg j = s.reg j := rfl

-- ## State.setFunc

@[simp] theorem State.setFunc_mem (s : State) (q f : Nat) (x : Func) : (s.setFunc q f x).mem = s.mem := rfl
@[simp] theorem State.setFunc_regs (s : State) (q f : Nat) (x : Func) : (s.setFunc q f x).regs = s.regs := rfl
@[simp] theorem State.setFunc_fuses (s : State) (q f : Nat) (x : Func) : (s.setFunc q f x).fuses = s.fuses := rfl
@[simp] theorem State.setFunc_straps (s : State) (q f : Nat) (x : Func) : (s.setFunc q f x).straps = s.straps := rfl
@[simp] theorem State.setFunc_islands (s : State) (q f : Nat) (x : Func) : (s.setFunc q f x).islands = s.islands := rfl
@[simp] theorem State.setFunc_channels (s : State) (q f : Nat) (x : Func) : (s.setFunc q f x).channels = s.channels := rfl
@[simp] theorem State.setFunc_ports (s : State) (q f : Nat) (x : Func) : (s.setFunc q f x).ports = s.ports := rfl
@[simp] theorem State.setFunc_adopted (s : State) (q f : Nat) (x : Func) : (s.setFunc q f x).adopted = s.adopted := rfl
@[simp] theorem State.setFunc_adoptRefused (s : State) (q f : Nat) (x : Func) : (s.setFunc q f x).adoptRefused = s.adoptRefused := rfl
@[simp] theorem State.setFunc_shrRefused (s : State) (q f : Nat) (x : Func) : (s.setFunc q f x).shrRefused = s.shrRefused := rfl
@[simp] theorem State.setFunc_rings (s : State) (q f : Nat) (x : Func) : (s.setFunc q f x).rings = s.rings := rfl
@[simp] theorem State.setFunc_accepted (s : State) (q f : Nat) (x : Func) : (s.setFunc q f x).accepted = s.accepted := rfl
@[simp] theorem State.setFunc_entries (s : State) (q f : Nat) (x : Func) : (s.setFunc q f x).entries = s.entries := rfl
@[simp] theorem State.setFunc_draftIds (s : State) (q f : Nat) (x : Func) : (s.setFunc q f x).draftIds = s.draftIds := rfl
@[simp] theorem State.setFunc_drafts (s : State) (q f : Nat) (x : Func) : (s.setFunc q f x).drafts = s.drafts := rfl
@[simp] theorem State.setFunc_parts (s : State) (q f : Nat) (x : Func) : (s.setFunc q f x).parts = s.parts := rfl
@[simp] theorem State.setFunc_looms (s : State) (q f : Nat) (x : Func) : (s.setFunc q f x).looms = s.looms := rfl
@[simp] theorem State.setFunc_hostReads (s : State) (q f : Nat) (x : Func) : (s.setFunc q f x).hostReads = s.hostReads := rfl
@[simp] theorem State.setFunc_memCtl (s : State) (q f : Nat) (x : Func) : (s.setFunc q f x).memCtl = s.memCtl := rfl
@[simp] theorem State.setFunc_shuttles (s : State) (q f : Nat) (x : Func) : (s.setFunc q f x).shuttles = s.shuttles := rfl
@[simp] theorem State.setFunc_mates (s : State) (q f : Nat) (x : Func) : (s.setFunc q f x).mates = s.mates := rfl
@[simp] theorem State.setFunc_served (s : State) (q f : Nat) (x : Func) : (s.setFunc q f x).served = s.served := rfl
@[simp] theorem State.setFunc_links (s : State) (q f : Nat) (x : Func) : (s.setFunc q f x).links = s.links := rfl
@[simp] theorem State.setFunc_fabric (s : State) (q f : Nat) (x : Func) : (s.setFunc q f x).fabric = s.fabric := rfl
@[simp] theorem State.setFunc_manager (s : State) (q f : Nat) (x : Func) : (s.setFunc q f x).manager = s.manager := rfl
@[simp] theorem State.setFunc_knot (s : State) (q f : Nat) (x : Func) : (s.setFunc q f x).knot = s.knot := rfl
@[simp] theorem State.setFunc_units (s : State) (q f : Nat) (x : Func) : (s.setFunc q f x).units = s.units := rfl
@[simp] theorem State.setFunc_retired (s : State) (q f : Nat) (x : Func) : (s.setFunc q f x).retired = s.retired := rfl
@[simp] theorem State.setFunc_guests (s : State) (q f : Nat) (x : Func) : (s.setFunc q f x).guests = s.guests := rfl
@[simp] theorem State.setFunc_vacant (s : State) (q f : Nat) (x : Func) : (s.setFunc q f x).vacant = s.vacant := rfl
@[simp] theorem State.setFunc_genRetire (s : State) (q f : Nat) (x : Func) : (s.setFunc q f x).genRetire = s.genRetire := rfl
@[simp] theorem State.setFunc_treadle (s : State) (q f : Nat) (x : Func) : (s.setFunc q f x).treadle = s.treadle := rfl
@[simp] theorem State.setFunc_boot (s : State) (q f : Nat) (x : Func) : (s.setFunc q f x).boot = s.boot := rfl
@[simp] theorem State.setFunc_trust (s : State) (q f : Nat) (x : Func) : (s.setFunc q f x).trust = s.trust := rfl
@[simp] theorem State.setFunc_faultN (s : State) (q f : Nat) (x : Func) : (s.setFunc q f x).faultN = s.faultN := rfl
@[simp] theorem State.setFunc_thermN (s : State) (q f : Nat) (x : Func) : (s.setFunc q f x).thermN = s.thermN := rfl
@[simp] theorem State.setFunc_pgOut (s : State) (q f : Nat) (x : Func) : (s.setFunc q f x).pgOut = s.pgOut := rfl
@[simp] theorem State.setFunc_deferred (s : State) (q f : Nat) (x : Func) : (s.setFunc q f x).deferred = s.deferred := rfl
@[simp] theorem State.setFunc_out (s : State) (q f : Nat) (x : Func) : (s.setFunc q f x).out = s.out := rfl
@[simp] theorem State.setFunc_draws (s : State) (q f : Nat) (x : Func) : (s.setFunc q f x).draws = s.draws := rfl
@[simp] theorem State.setFunc_pending (s : State) (q f : Nat) (x : Func) : (s.setFunc q f x).pending = s.pending := rfl
@[simp] theorem State.setFunc_island (s : State) (q f : Nat) (x : Func) (j : Nat) : (s.setFunc q f x).island j = s.island j := rfl
@[simp] theorem State.setFunc_port (s : State) (q f : Nat) (x : Func) (j : Nat) : (s.setFunc q f x).port j = s.port j := rfl
@[simp] theorem State.setFunc_ring (s : State) (q f : Nat) (x : Func) (j j2 : Nat) : (s.setFunc q f x).ring j j2 = s.ring j j2 := rfl
@[simp] theorem State.setFunc_part (s : State) (q f : Nat) (x : Func) (j : Nat) : (s.setFunc q f x).part j = s.part j := rfl
@[simp] theorem State.setFunc_loom (s : State) (q f : Nat) (x : Func) (j : Nat) : (s.setFunc q f x).loom j = s.loom j := rfl
@[simp] theorem State.setFunc_unit (s : State) (q f : Nat) (x : Func) (j j2 : Nat) : (s.setFunc q f x).unit j j2 = s.unit j j2 := rfl
@[simp] theorem State.setFunc_link (s : State) (q f : Nat) (x : Func) (j : Nat) : (s.setFunc q f x).link j = s.link j := rfl
@[simp] theorem State.setFunc_rd (s : State) (q f : Nat) (x : Func) (j : Nat) : (s.setFunc q f x).rd j = s.rd j := rfl
@[simp] theorem State.setFunc_reg (s : State) (q f : Nat) (x : Func) (j : Reg) : (s.setFunc q f x).reg j = s.reg j := rfl

-- ## State.setRing

@[simp] theorem State.setRing_mem (s : State) (q k : Nat) (x : Ring) : (s.setRing q k x).mem = s.mem := rfl
@[simp] theorem State.setRing_regs (s : State) (q k : Nat) (x : Ring) : (s.setRing q k x).regs = s.regs := rfl
@[simp] theorem State.setRing_fuses (s : State) (q k : Nat) (x : Ring) : (s.setRing q k x).fuses = s.fuses := rfl
@[simp] theorem State.setRing_straps (s : State) (q k : Nat) (x : Ring) : (s.setRing q k x).straps = s.straps := rfl
@[simp] theorem State.setRing_islands (s : State) (q k : Nat) (x : Ring) : (s.setRing q k x).islands = s.islands := rfl
@[simp] theorem State.setRing_channels (s : State) (q k : Nat) (x : Ring) : (s.setRing q k x).channels = s.channels := rfl
@[simp] theorem State.setRing_ports (s : State) (q k : Nat) (x : Ring) : (s.setRing q k x).ports = s.ports := rfl
@[simp] theorem State.setRing_adopted (s : State) (q k : Nat) (x : Ring) : (s.setRing q k x).adopted = s.adopted := rfl
@[simp] theorem State.setRing_adoptRefused (s : State) (q k : Nat) (x : Ring) : (s.setRing q k x).adoptRefused = s.adoptRefused := rfl
@[simp] theorem State.setRing_shrRefused (s : State) (q k : Nat) (x : Ring) : (s.setRing q k x).shrRefused = s.shrRefused := rfl
@[simp] theorem State.setRing_funcs (s : State) (q k : Nat) (x : Ring) : (s.setRing q k x).funcs = s.funcs := rfl
@[simp] theorem State.setRing_accepted (s : State) (q k : Nat) (x : Ring) : (s.setRing q k x).accepted = s.accepted := rfl
@[simp] theorem State.setRing_entries (s : State) (q k : Nat) (x : Ring) : (s.setRing q k x).entries = s.entries := rfl
@[simp] theorem State.setRing_draftIds (s : State) (q k : Nat) (x : Ring) : (s.setRing q k x).draftIds = s.draftIds := rfl
@[simp] theorem State.setRing_drafts (s : State) (q k : Nat) (x : Ring) : (s.setRing q k x).drafts = s.drafts := rfl
@[simp] theorem State.setRing_parts (s : State) (q k : Nat) (x : Ring) : (s.setRing q k x).parts = s.parts := rfl
@[simp] theorem State.setRing_looms (s : State) (q k : Nat) (x : Ring) : (s.setRing q k x).looms = s.looms := rfl
@[simp] theorem State.setRing_hostReads (s : State) (q k : Nat) (x : Ring) : (s.setRing q k x).hostReads = s.hostReads := rfl
@[simp] theorem State.setRing_memCtl (s : State) (q k : Nat) (x : Ring) : (s.setRing q k x).memCtl = s.memCtl := rfl
@[simp] theorem State.setRing_shuttles (s : State) (q k : Nat) (x : Ring) : (s.setRing q k x).shuttles = s.shuttles := rfl
@[simp] theorem State.setRing_mates (s : State) (q k : Nat) (x : Ring) : (s.setRing q k x).mates = s.mates := rfl
@[simp] theorem State.setRing_served (s : State) (q k : Nat) (x : Ring) : (s.setRing q k x).served = s.served := rfl
@[simp] theorem State.setRing_links (s : State) (q k : Nat) (x : Ring) : (s.setRing q k x).links = s.links := rfl
@[simp] theorem State.setRing_fabric (s : State) (q k : Nat) (x : Ring) : (s.setRing q k x).fabric = s.fabric := rfl
@[simp] theorem State.setRing_manager (s : State) (q k : Nat) (x : Ring) : (s.setRing q k x).manager = s.manager := rfl
@[simp] theorem State.setRing_knot (s : State) (q k : Nat) (x : Ring) : (s.setRing q k x).knot = s.knot := rfl
@[simp] theorem State.setRing_units (s : State) (q k : Nat) (x : Ring) : (s.setRing q k x).units = s.units := rfl
@[simp] theorem State.setRing_retired (s : State) (q k : Nat) (x : Ring) : (s.setRing q k x).retired = s.retired := rfl
@[simp] theorem State.setRing_guests (s : State) (q k : Nat) (x : Ring) : (s.setRing q k x).guests = s.guests := rfl
@[simp] theorem State.setRing_vacant (s : State) (q k : Nat) (x : Ring) : (s.setRing q k x).vacant = s.vacant := rfl
@[simp] theorem State.setRing_genRetire (s : State) (q k : Nat) (x : Ring) : (s.setRing q k x).genRetire = s.genRetire := rfl
@[simp] theorem State.setRing_treadle (s : State) (q k : Nat) (x : Ring) : (s.setRing q k x).treadle = s.treadle := rfl
@[simp] theorem State.setRing_boot (s : State) (q k : Nat) (x : Ring) : (s.setRing q k x).boot = s.boot := rfl
@[simp] theorem State.setRing_trust (s : State) (q k : Nat) (x : Ring) : (s.setRing q k x).trust = s.trust := rfl
@[simp] theorem State.setRing_faultN (s : State) (q k : Nat) (x : Ring) : (s.setRing q k x).faultN = s.faultN := rfl
@[simp] theorem State.setRing_thermN (s : State) (q k : Nat) (x : Ring) : (s.setRing q k x).thermN = s.thermN := rfl
@[simp] theorem State.setRing_pgOut (s : State) (q k : Nat) (x : Ring) : (s.setRing q k x).pgOut = s.pgOut := rfl
@[simp] theorem State.setRing_deferred (s : State) (q k : Nat) (x : Ring) : (s.setRing q k x).deferred = s.deferred := rfl
@[simp] theorem State.setRing_out (s : State) (q k : Nat) (x : Ring) : (s.setRing q k x).out = s.out := rfl
@[simp] theorem State.setRing_draws (s : State) (q k : Nat) (x : Ring) : (s.setRing q k x).draws = s.draws := rfl
@[simp] theorem State.setRing_pending (s : State) (q k : Nat) (x : Ring) : (s.setRing q k x).pending = s.pending := rfl
@[simp] theorem State.setRing_island (s : State) (q k : Nat) (x : Ring) (j : Nat) : (s.setRing q k x).island j = s.island j := rfl
@[simp] theorem State.setRing_port (s : State) (q k : Nat) (x : Ring) (j : Nat) : (s.setRing q k x).port j = s.port j := rfl
@[simp] theorem State.setRing_func (s : State) (q k : Nat) (x : Ring) (j j2 : Nat) : (s.setRing q k x).func j j2 = s.func j j2 := rfl
@[simp] theorem State.setRing_part (s : State) (q k : Nat) (x : Ring) (j : Nat) : (s.setRing q k x).part j = s.part j := rfl
@[simp] theorem State.setRing_loom (s : State) (q k : Nat) (x : Ring) (j : Nat) : (s.setRing q k x).loom j = s.loom j := rfl
@[simp] theorem State.setRing_unit (s : State) (q k : Nat) (x : Ring) (j j2 : Nat) : (s.setRing q k x).unit j j2 = s.unit j j2 := rfl
@[simp] theorem State.setRing_link (s : State) (q k : Nat) (x : Ring) (j : Nat) : (s.setRing q k x).link j = s.link j := rfl
@[simp] theorem State.setRing_rd (s : State) (q k : Nat) (x : Ring) (j : Nat) : (s.setRing q k x).rd j = s.rd j := rfl
@[simp] theorem State.setRing_reg (s : State) (q k : Nat) (x : Ring) (j : Reg) : (s.setRing q k x).reg j = s.reg j := rfl

-- ## State.setPart

@[simp] theorem State.setPart_mem (s : State) (p : Nat) (x : Part) : (s.setPart p x).mem = s.mem := rfl
@[simp] theorem State.setPart_regs (s : State) (p : Nat) (x : Part) : (s.setPart p x).regs = s.regs := rfl
@[simp] theorem State.setPart_fuses (s : State) (p : Nat) (x : Part) : (s.setPart p x).fuses = s.fuses := rfl
@[simp] theorem State.setPart_straps (s : State) (p : Nat) (x : Part) : (s.setPart p x).straps = s.straps := rfl
@[simp] theorem State.setPart_islands (s : State) (p : Nat) (x : Part) : (s.setPart p x).islands = s.islands := rfl
@[simp] theorem State.setPart_channels (s : State) (p : Nat) (x : Part) : (s.setPart p x).channels = s.channels := rfl
@[simp] theorem State.setPart_ports (s : State) (p : Nat) (x : Part) : (s.setPart p x).ports = s.ports := rfl
@[simp] theorem State.setPart_adopted (s : State) (p : Nat) (x : Part) : (s.setPart p x).adopted = s.adopted := rfl
@[simp] theorem State.setPart_adoptRefused (s : State) (p : Nat) (x : Part) : (s.setPart p x).adoptRefused = s.adoptRefused := rfl
@[simp] theorem State.setPart_shrRefused (s : State) (p : Nat) (x : Part) : (s.setPart p x).shrRefused = s.shrRefused := rfl
@[simp] theorem State.setPart_funcs (s : State) (p : Nat) (x : Part) : (s.setPart p x).funcs = s.funcs := rfl
@[simp] theorem State.setPart_rings (s : State) (p : Nat) (x : Part) : (s.setPart p x).rings = s.rings := rfl
@[simp] theorem State.setPart_accepted (s : State) (p : Nat) (x : Part) : (s.setPart p x).accepted = s.accepted := rfl
@[simp] theorem State.setPart_entries (s : State) (p : Nat) (x : Part) : (s.setPart p x).entries = s.entries := rfl
@[simp] theorem State.setPart_draftIds (s : State) (p : Nat) (x : Part) : (s.setPart p x).draftIds = s.draftIds := rfl
@[simp] theorem State.setPart_drafts (s : State) (p : Nat) (x : Part) : (s.setPart p x).drafts = s.drafts := rfl
@[simp] theorem State.setPart_looms (s : State) (p : Nat) (x : Part) : (s.setPart p x).looms = s.looms := rfl
@[simp] theorem State.setPart_hostReads (s : State) (p : Nat) (x : Part) : (s.setPart p x).hostReads = s.hostReads := rfl
@[simp] theorem State.setPart_memCtl (s : State) (p : Nat) (x : Part) : (s.setPart p x).memCtl = s.memCtl := rfl
@[simp] theorem State.setPart_shuttles (s : State) (p : Nat) (x : Part) : (s.setPart p x).shuttles = s.shuttles := rfl
@[simp] theorem State.setPart_mates (s : State) (p : Nat) (x : Part) : (s.setPart p x).mates = s.mates := rfl
@[simp] theorem State.setPart_served (s : State) (p : Nat) (x : Part) : (s.setPart p x).served = s.served := rfl
@[simp] theorem State.setPart_links (s : State) (p : Nat) (x : Part) : (s.setPart p x).links = s.links := rfl
@[simp] theorem State.setPart_fabric (s : State) (p : Nat) (x : Part) : (s.setPart p x).fabric = s.fabric := rfl
@[simp] theorem State.setPart_manager (s : State) (p : Nat) (x : Part) : (s.setPart p x).manager = s.manager := rfl
@[simp] theorem State.setPart_knot (s : State) (p : Nat) (x : Part) : (s.setPart p x).knot = s.knot := rfl
@[simp] theorem State.setPart_units (s : State) (p : Nat) (x : Part) : (s.setPart p x).units = s.units := rfl
@[simp] theorem State.setPart_retired (s : State) (p : Nat) (x : Part) : (s.setPart p x).retired = s.retired := rfl
@[simp] theorem State.setPart_guests (s : State) (p : Nat) (x : Part) : (s.setPart p x).guests = s.guests := rfl
@[simp] theorem State.setPart_vacant (s : State) (p : Nat) (x : Part) : (s.setPart p x).vacant = s.vacant := rfl
@[simp] theorem State.setPart_genRetire (s : State) (p : Nat) (x : Part) : (s.setPart p x).genRetire = s.genRetire := rfl
@[simp] theorem State.setPart_treadle (s : State) (p : Nat) (x : Part) : (s.setPart p x).treadle = s.treadle := rfl
@[simp] theorem State.setPart_boot (s : State) (p : Nat) (x : Part) : (s.setPart p x).boot = s.boot := rfl
@[simp] theorem State.setPart_trust (s : State) (p : Nat) (x : Part) : (s.setPart p x).trust = s.trust := rfl
@[simp] theorem State.setPart_faultN (s : State) (p : Nat) (x : Part) : (s.setPart p x).faultN = s.faultN := rfl
@[simp] theorem State.setPart_thermN (s : State) (p : Nat) (x : Part) : (s.setPart p x).thermN = s.thermN := rfl
@[simp] theorem State.setPart_pgOut (s : State) (p : Nat) (x : Part) : (s.setPart p x).pgOut = s.pgOut := rfl
@[simp] theorem State.setPart_deferred (s : State) (p : Nat) (x : Part) : (s.setPart p x).deferred = s.deferred := rfl
@[simp] theorem State.setPart_out (s : State) (p : Nat) (x : Part) : (s.setPart p x).out = s.out := rfl
@[simp] theorem State.setPart_draws (s : State) (p : Nat) (x : Part) : (s.setPart p x).draws = s.draws := rfl
@[simp] theorem State.setPart_pending (s : State) (p : Nat) (x : Part) : (s.setPart p x).pending = s.pending := rfl
@[simp] theorem State.setPart_island (s : State) (p : Nat) (x : Part) (j : Nat) : (s.setPart p x).island j = s.island j := rfl
@[simp] theorem State.setPart_port (s : State) (p : Nat) (x : Part) (j : Nat) : (s.setPart p x).port j = s.port j := rfl
@[simp] theorem State.setPart_func (s : State) (p : Nat) (x : Part) (j j2 : Nat) : (s.setPart p x).func j j2 = s.func j j2 := rfl
@[simp] theorem State.setPart_ring (s : State) (p : Nat) (x : Part) (j j2 : Nat) : (s.setPart p x).ring j j2 = s.ring j j2 := rfl
@[simp] theorem State.setPart_loom (s : State) (p : Nat) (x : Part) (j : Nat) : (s.setPart p x).loom j = s.loom j := rfl
@[simp] theorem State.setPart_unit (s : State) (p : Nat) (x : Part) (j j2 : Nat) : (s.setPart p x).unit j j2 = s.unit j j2 := rfl
@[simp] theorem State.setPart_link (s : State) (p : Nat) (x : Part) (j : Nat) : (s.setPart p x).link j = s.link j := rfl
@[simp] theorem State.setPart_rd (s : State) (p : Nat) (x : Part) (j : Nat) : (s.setPart p x).rd j = s.rd j := rfl
@[simp] theorem State.setPart_reg (s : State) (p : Nat) (x : Part) (j : Reg) : (s.setPart p x).reg j = s.reg j := rfl

-- ## State.setLoom

@[simp] theorem State.setLoom_mem (s : State) (l : Nat) (x : Loom) : (s.setLoom l x).mem = s.mem := rfl
@[simp] theorem State.setLoom_regs (s : State) (l : Nat) (x : Loom) : (s.setLoom l x).regs = s.regs := rfl
@[simp] theorem State.setLoom_fuses (s : State) (l : Nat) (x : Loom) : (s.setLoom l x).fuses = s.fuses := rfl
@[simp] theorem State.setLoom_straps (s : State) (l : Nat) (x : Loom) : (s.setLoom l x).straps = s.straps := rfl
@[simp] theorem State.setLoom_islands (s : State) (l : Nat) (x : Loom) : (s.setLoom l x).islands = s.islands := rfl
@[simp] theorem State.setLoom_channels (s : State) (l : Nat) (x : Loom) : (s.setLoom l x).channels = s.channels := rfl
@[simp] theorem State.setLoom_ports (s : State) (l : Nat) (x : Loom) : (s.setLoom l x).ports = s.ports := rfl
@[simp] theorem State.setLoom_adopted (s : State) (l : Nat) (x : Loom) : (s.setLoom l x).adopted = s.adopted := rfl
@[simp] theorem State.setLoom_adoptRefused (s : State) (l : Nat) (x : Loom) : (s.setLoom l x).adoptRefused = s.adoptRefused := rfl
@[simp] theorem State.setLoom_shrRefused (s : State) (l : Nat) (x : Loom) : (s.setLoom l x).shrRefused = s.shrRefused := rfl
@[simp] theorem State.setLoom_funcs (s : State) (l : Nat) (x : Loom) : (s.setLoom l x).funcs = s.funcs := rfl
@[simp] theorem State.setLoom_rings (s : State) (l : Nat) (x : Loom) : (s.setLoom l x).rings = s.rings := rfl
@[simp] theorem State.setLoom_accepted (s : State) (l : Nat) (x : Loom) : (s.setLoom l x).accepted = s.accepted := rfl
@[simp] theorem State.setLoom_entries (s : State) (l : Nat) (x : Loom) : (s.setLoom l x).entries = s.entries := rfl
@[simp] theorem State.setLoom_draftIds (s : State) (l : Nat) (x : Loom) : (s.setLoom l x).draftIds = s.draftIds := rfl
@[simp] theorem State.setLoom_drafts (s : State) (l : Nat) (x : Loom) : (s.setLoom l x).drafts = s.drafts := rfl
@[simp] theorem State.setLoom_parts (s : State) (l : Nat) (x : Loom) : (s.setLoom l x).parts = s.parts := rfl
@[simp] theorem State.setLoom_hostReads (s : State) (l : Nat) (x : Loom) : (s.setLoom l x).hostReads = s.hostReads := rfl
@[simp] theorem State.setLoom_memCtl (s : State) (l : Nat) (x : Loom) : (s.setLoom l x).memCtl = s.memCtl := rfl
@[simp] theorem State.setLoom_shuttles (s : State) (l : Nat) (x : Loom) : (s.setLoom l x).shuttles = s.shuttles := rfl
@[simp] theorem State.setLoom_mates (s : State) (l : Nat) (x : Loom) : (s.setLoom l x).mates = s.mates := rfl
@[simp] theorem State.setLoom_served (s : State) (l : Nat) (x : Loom) : (s.setLoom l x).served = s.served := rfl
@[simp] theorem State.setLoom_links (s : State) (l : Nat) (x : Loom) : (s.setLoom l x).links = s.links := rfl
@[simp] theorem State.setLoom_fabric (s : State) (l : Nat) (x : Loom) : (s.setLoom l x).fabric = s.fabric := rfl
@[simp] theorem State.setLoom_manager (s : State) (l : Nat) (x : Loom) : (s.setLoom l x).manager = s.manager := rfl
@[simp] theorem State.setLoom_knot (s : State) (l : Nat) (x : Loom) : (s.setLoom l x).knot = s.knot := rfl
@[simp] theorem State.setLoom_units (s : State) (l : Nat) (x : Loom) : (s.setLoom l x).units = s.units := rfl
@[simp] theorem State.setLoom_retired (s : State) (l : Nat) (x : Loom) : (s.setLoom l x).retired = s.retired := rfl
@[simp] theorem State.setLoom_guests (s : State) (l : Nat) (x : Loom) : (s.setLoom l x).guests = s.guests := rfl
@[simp] theorem State.setLoom_vacant (s : State) (l : Nat) (x : Loom) : (s.setLoom l x).vacant = s.vacant := rfl
@[simp] theorem State.setLoom_genRetire (s : State) (l : Nat) (x : Loom) : (s.setLoom l x).genRetire = s.genRetire := rfl
@[simp] theorem State.setLoom_treadle (s : State) (l : Nat) (x : Loom) : (s.setLoom l x).treadle = s.treadle := rfl
@[simp] theorem State.setLoom_boot (s : State) (l : Nat) (x : Loom) : (s.setLoom l x).boot = s.boot := rfl
@[simp] theorem State.setLoom_trust (s : State) (l : Nat) (x : Loom) : (s.setLoom l x).trust = s.trust := rfl
@[simp] theorem State.setLoom_faultN (s : State) (l : Nat) (x : Loom) : (s.setLoom l x).faultN = s.faultN := rfl
@[simp] theorem State.setLoom_thermN (s : State) (l : Nat) (x : Loom) : (s.setLoom l x).thermN = s.thermN := rfl
@[simp] theorem State.setLoom_pgOut (s : State) (l : Nat) (x : Loom) : (s.setLoom l x).pgOut = s.pgOut := rfl
@[simp] theorem State.setLoom_deferred (s : State) (l : Nat) (x : Loom) : (s.setLoom l x).deferred = s.deferred := rfl
@[simp] theorem State.setLoom_out (s : State) (l : Nat) (x : Loom) : (s.setLoom l x).out = s.out := rfl
@[simp] theorem State.setLoom_draws (s : State) (l : Nat) (x : Loom) : (s.setLoom l x).draws = s.draws := rfl
@[simp] theorem State.setLoom_pending (s : State) (l : Nat) (x : Loom) : (s.setLoom l x).pending = s.pending := rfl
@[simp] theorem State.setLoom_island (s : State) (l : Nat) (x : Loom) (j : Nat) : (s.setLoom l x).island j = s.island j := rfl
@[simp] theorem State.setLoom_port (s : State) (l : Nat) (x : Loom) (j : Nat) : (s.setLoom l x).port j = s.port j := rfl
@[simp] theorem State.setLoom_func (s : State) (l : Nat) (x : Loom) (j j2 : Nat) : (s.setLoom l x).func j j2 = s.func j j2 := rfl
@[simp] theorem State.setLoom_ring (s : State) (l : Nat) (x : Loom) (j j2 : Nat) : (s.setLoom l x).ring j j2 = s.ring j j2 := rfl
@[simp] theorem State.setLoom_part (s : State) (l : Nat) (x : Loom) (j : Nat) : (s.setLoom l x).part j = s.part j := rfl
@[simp] theorem State.setLoom_unit (s : State) (l : Nat) (x : Loom) (j j2 : Nat) : (s.setLoom l x).unit j j2 = s.unit j j2 := rfl
@[simp] theorem State.setLoom_link (s : State) (l : Nat) (x : Loom) (j : Nat) : (s.setLoom l x).link j = s.link j := rfl
@[simp] theorem State.setLoom_rd (s : State) (l : Nat) (x : Loom) (j : Nat) : (s.setLoom l x).rd j = s.rd j := rfl
@[simp] theorem State.setLoom_reg (s : State) (l : Nat) (x : Loom) (j : Reg) : (s.setLoom l x).reg j = s.reg j := rfl

-- ## State.setUnit

@[simp] theorem State.setUnit_mem (s : State) (c u : Nat) (x : Unit) : (s.setUnit c u x).mem = s.mem := rfl
@[simp] theorem State.setUnit_regs (s : State) (c u : Nat) (x : Unit) : (s.setUnit c u x).regs = s.regs := rfl
@[simp] theorem State.setUnit_fuses (s : State) (c u : Nat) (x : Unit) : (s.setUnit c u x).fuses = s.fuses := rfl
@[simp] theorem State.setUnit_straps (s : State) (c u : Nat) (x : Unit) : (s.setUnit c u x).straps = s.straps := rfl
@[simp] theorem State.setUnit_islands (s : State) (c u : Nat) (x : Unit) : (s.setUnit c u x).islands = s.islands := rfl
@[simp] theorem State.setUnit_channels (s : State) (c u : Nat) (x : Unit) : (s.setUnit c u x).channels = s.channels := rfl
@[simp] theorem State.setUnit_ports (s : State) (c u : Nat) (x : Unit) : (s.setUnit c u x).ports = s.ports := rfl
@[simp] theorem State.setUnit_adopted (s : State) (c u : Nat) (x : Unit) : (s.setUnit c u x).adopted = s.adopted := rfl
@[simp] theorem State.setUnit_adoptRefused (s : State) (c u : Nat) (x : Unit) : (s.setUnit c u x).adoptRefused = s.adoptRefused := rfl
@[simp] theorem State.setUnit_shrRefused (s : State) (c u : Nat) (x : Unit) : (s.setUnit c u x).shrRefused = s.shrRefused := rfl
@[simp] theorem State.setUnit_funcs (s : State) (c u : Nat) (x : Unit) : (s.setUnit c u x).funcs = s.funcs := rfl
@[simp] theorem State.setUnit_rings (s : State) (c u : Nat) (x : Unit) : (s.setUnit c u x).rings = s.rings := rfl
@[simp] theorem State.setUnit_accepted (s : State) (c u : Nat) (x : Unit) : (s.setUnit c u x).accepted = s.accepted := rfl
@[simp] theorem State.setUnit_entries (s : State) (c u : Nat) (x : Unit) : (s.setUnit c u x).entries = s.entries := rfl
@[simp] theorem State.setUnit_draftIds (s : State) (c u : Nat) (x : Unit) : (s.setUnit c u x).draftIds = s.draftIds := rfl
@[simp] theorem State.setUnit_drafts (s : State) (c u : Nat) (x : Unit) : (s.setUnit c u x).drafts = s.drafts := rfl
@[simp] theorem State.setUnit_parts (s : State) (c u : Nat) (x : Unit) : (s.setUnit c u x).parts = s.parts := rfl
@[simp] theorem State.setUnit_looms (s : State) (c u : Nat) (x : Unit) : (s.setUnit c u x).looms = s.looms := rfl
@[simp] theorem State.setUnit_hostReads (s : State) (c u : Nat) (x : Unit) : (s.setUnit c u x).hostReads = s.hostReads := rfl
@[simp] theorem State.setUnit_memCtl (s : State) (c u : Nat) (x : Unit) : (s.setUnit c u x).memCtl = s.memCtl := rfl
@[simp] theorem State.setUnit_shuttles (s : State) (c u : Nat) (x : Unit) : (s.setUnit c u x).shuttles = s.shuttles := rfl
@[simp] theorem State.setUnit_mates (s : State) (c u : Nat) (x : Unit) : (s.setUnit c u x).mates = s.mates := rfl
@[simp] theorem State.setUnit_served (s : State) (c u : Nat) (x : Unit) : (s.setUnit c u x).served = s.served := rfl
@[simp] theorem State.setUnit_links (s : State) (c u : Nat) (x : Unit) : (s.setUnit c u x).links = s.links := rfl
@[simp] theorem State.setUnit_fabric (s : State) (c u : Nat) (x : Unit) : (s.setUnit c u x).fabric = s.fabric := rfl
@[simp] theorem State.setUnit_manager (s : State) (c u : Nat) (x : Unit) : (s.setUnit c u x).manager = s.manager := rfl
@[simp] theorem State.setUnit_knot (s : State) (c u : Nat) (x : Unit) : (s.setUnit c u x).knot = s.knot := rfl
@[simp] theorem State.setUnit_retired (s : State) (c u : Nat) (x : Unit) : (s.setUnit c u x).retired = s.retired := rfl
@[simp] theorem State.setUnit_guests (s : State) (c u : Nat) (x : Unit) : (s.setUnit c u x).guests = s.guests := rfl
@[simp] theorem State.setUnit_vacant (s : State) (c u : Nat) (x : Unit) : (s.setUnit c u x).vacant = s.vacant := rfl
@[simp] theorem State.setUnit_genRetire (s : State) (c u : Nat) (x : Unit) : (s.setUnit c u x).genRetire = s.genRetire := rfl
@[simp] theorem State.setUnit_treadle (s : State) (c u : Nat) (x : Unit) : (s.setUnit c u x).treadle = s.treadle := rfl
@[simp] theorem State.setUnit_boot (s : State) (c u : Nat) (x : Unit) : (s.setUnit c u x).boot = s.boot := rfl
@[simp] theorem State.setUnit_trust (s : State) (c u : Nat) (x : Unit) : (s.setUnit c u x).trust = s.trust := rfl
@[simp] theorem State.setUnit_faultN (s : State) (c u : Nat) (x : Unit) : (s.setUnit c u x).faultN = s.faultN := rfl
@[simp] theorem State.setUnit_thermN (s : State) (c u : Nat) (x : Unit) : (s.setUnit c u x).thermN = s.thermN := rfl
@[simp] theorem State.setUnit_pgOut (s : State) (c u : Nat) (x : Unit) : (s.setUnit c u x).pgOut = s.pgOut := rfl
@[simp] theorem State.setUnit_deferred (s : State) (c u : Nat) (x : Unit) : (s.setUnit c u x).deferred = s.deferred := rfl
@[simp] theorem State.setUnit_out (s : State) (c u : Nat) (x : Unit) : (s.setUnit c u x).out = s.out := rfl
@[simp] theorem State.setUnit_draws (s : State) (c u : Nat) (x : Unit) : (s.setUnit c u x).draws = s.draws := rfl
@[simp] theorem State.setUnit_pending (s : State) (c u : Nat) (x : Unit) : (s.setUnit c u x).pending = s.pending := rfl
@[simp] theorem State.setUnit_island (s : State) (c u : Nat) (x : Unit) (j : Nat) : (s.setUnit c u x).island j = s.island j := rfl
@[simp] theorem State.setUnit_port (s : State) (c u : Nat) (x : Unit) (j : Nat) : (s.setUnit c u x).port j = s.port j := rfl
@[simp] theorem State.setUnit_func (s : State) (c u : Nat) (x : Unit) (j j2 : Nat) : (s.setUnit c u x).func j j2 = s.func j j2 := rfl
@[simp] theorem State.setUnit_ring (s : State) (c u : Nat) (x : Unit) (j j2 : Nat) : (s.setUnit c u x).ring j j2 = s.ring j j2 := rfl
@[simp] theorem State.setUnit_part (s : State) (c u : Nat) (x : Unit) (j : Nat) : (s.setUnit c u x).part j = s.part j := rfl
@[simp] theorem State.setUnit_loom (s : State) (c u : Nat) (x : Unit) (j : Nat) : (s.setUnit c u x).loom j = s.loom j := rfl
@[simp] theorem State.setUnit_link (s : State) (c u : Nat) (x : Unit) (j : Nat) : (s.setUnit c u x).link j = s.link j := rfl
@[simp] theorem State.setUnit_rd (s : State) (c u : Nat) (x : Unit) (j : Nat) : (s.setUnit c u x).rd j = s.rd j := rfl
@[simp] theorem State.setUnit_reg (s : State) (c u : Nat) (x : Unit) (j : Reg) : (s.setUnit c u x).reg j = s.reg j := rfl

-- ## State.setLink

@[simp] theorem State.setLink_mem (s : State) (l : Nat) (x : Link) : (s.setLink l x).mem = s.mem := rfl
@[simp] theorem State.setLink_regs (s : State) (l : Nat) (x : Link) : (s.setLink l x).regs = s.regs := rfl
@[simp] theorem State.setLink_fuses (s : State) (l : Nat) (x : Link) : (s.setLink l x).fuses = s.fuses := rfl
@[simp] theorem State.setLink_straps (s : State) (l : Nat) (x : Link) : (s.setLink l x).straps = s.straps := rfl
@[simp] theorem State.setLink_islands (s : State) (l : Nat) (x : Link) : (s.setLink l x).islands = s.islands := rfl
@[simp] theorem State.setLink_channels (s : State) (l : Nat) (x : Link) : (s.setLink l x).channels = s.channels := rfl
@[simp] theorem State.setLink_ports (s : State) (l : Nat) (x : Link) : (s.setLink l x).ports = s.ports := rfl
@[simp] theorem State.setLink_adopted (s : State) (l : Nat) (x : Link) : (s.setLink l x).adopted = s.adopted := rfl
@[simp] theorem State.setLink_adoptRefused (s : State) (l : Nat) (x : Link) : (s.setLink l x).adoptRefused = s.adoptRefused := rfl
@[simp] theorem State.setLink_shrRefused (s : State) (l : Nat) (x : Link) : (s.setLink l x).shrRefused = s.shrRefused := rfl
@[simp] theorem State.setLink_funcs (s : State) (l : Nat) (x : Link) : (s.setLink l x).funcs = s.funcs := rfl
@[simp] theorem State.setLink_rings (s : State) (l : Nat) (x : Link) : (s.setLink l x).rings = s.rings := rfl
@[simp] theorem State.setLink_accepted (s : State) (l : Nat) (x : Link) : (s.setLink l x).accepted = s.accepted := rfl
@[simp] theorem State.setLink_entries (s : State) (l : Nat) (x : Link) : (s.setLink l x).entries = s.entries := rfl
@[simp] theorem State.setLink_draftIds (s : State) (l : Nat) (x : Link) : (s.setLink l x).draftIds = s.draftIds := rfl
@[simp] theorem State.setLink_drafts (s : State) (l : Nat) (x : Link) : (s.setLink l x).drafts = s.drafts := rfl
@[simp] theorem State.setLink_parts (s : State) (l : Nat) (x : Link) : (s.setLink l x).parts = s.parts := rfl
@[simp] theorem State.setLink_looms (s : State) (l : Nat) (x : Link) : (s.setLink l x).looms = s.looms := rfl
@[simp] theorem State.setLink_hostReads (s : State) (l : Nat) (x : Link) : (s.setLink l x).hostReads = s.hostReads := rfl
@[simp] theorem State.setLink_memCtl (s : State) (l : Nat) (x : Link) : (s.setLink l x).memCtl = s.memCtl := rfl
@[simp] theorem State.setLink_shuttles (s : State) (l : Nat) (x : Link) : (s.setLink l x).shuttles = s.shuttles := rfl
@[simp] theorem State.setLink_mates (s : State) (l : Nat) (x : Link) : (s.setLink l x).mates = s.mates := rfl
@[simp] theorem State.setLink_served (s : State) (l : Nat) (x : Link) : (s.setLink l x).served = s.served := rfl
@[simp] theorem State.setLink_fabric (s : State) (l : Nat) (x : Link) : (s.setLink l x).fabric = s.fabric := rfl
@[simp] theorem State.setLink_manager (s : State) (l : Nat) (x : Link) : (s.setLink l x).manager = s.manager := rfl
@[simp] theorem State.setLink_knot (s : State) (l : Nat) (x : Link) : (s.setLink l x).knot = s.knot := rfl
@[simp] theorem State.setLink_units (s : State) (l : Nat) (x : Link) : (s.setLink l x).units = s.units := rfl
@[simp] theorem State.setLink_retired (s : State) (l : Nat) (x : Link) : (s.setLink l x).retired = s.retired := rfl
@[simp] theorem State.setLink_guests (s : State) (l : Nat) (x : Link) : (s.setLink l x).guests = s.guests := rfl
@[simp] theorem State.setLink_vacant (s : State) (l : Nat) (x : Link) : (s.setLink l x).vacant = s.vacant := rfl
@[simp] theorem State.setLink_genRetire (s : State) (l : Nat) (x : Link) : (s.setLink l x).genRetire = s.genRetire := rfl
@[simp] theorem State.setLink_treadle (s : State) (l : Nat) (x : Link) : (s.setLink l x).treadle = s.treadle := rfl
@[simp] theorem State.setLink_boot (s : State) (l : Nat) (x : Link) : (s.setLink l x).boot = s.boot := rfl
@[simp] theorem State.setLink_trust (s : State) (l : Nat) (x : Link) : (s.setLink l x).trust = s.trust := rfl
@[simp] theorem State.setLink_faultN (s : State) (l : Nat) (x : Link) : (s.setLink l x).faultN = s.faultN := rfl
@[simp] theorem State.setLink_thermN (s : State) (l : Nat) (x : Link) : (s.setLink l x).thermN = s.thermN := rfl
@[simp] theorem State.setLink_pgOut (s : State) (l : Nat) (x : Link) : (s.setLink l x).pgOut = s.pgOut := rfl
@[simp] theorem State.setLink_deferred (s : State) (l : Nat) (x : Link) : (s.setLink l x).deferred = s.deferred := rfl
@[simp] theorem State.setLink_out (s : State) (l : Nat) (x : Link) : (s.setLink l x).out = s.out := rfl
@[simp] theorem State.setLink_draws (s : State) (l : Nat) (x : Link) : (s.setLink l x).draws = s.draws := rfl
@[simp] theorem State.setLink_pending (s : State) (l : Nat) (x : Link) : (s.setLink l x).pending = s.pending := rfl
@[simp] theorem State.setLink_island (s : State) (l : Nat) (x : Link) (j : Nat) : (s.setLink l x).island j = s.island j := rfl
@[simp] theorem State.setLink_port (s : State) (l : Nat) (x : Link) (j : Nat) : (s.setLink l x).port j = s.port j := rfl
@[simp] theorem State.setLink_func (s : State) (l : Nat) (x : Link) (j j2 : Nat) : (s.setLink l x).func j j2 = s.func j j2 := rfl
@[simp] theorem State.setLink_ring (s : State) (l : Nat) (x : Link) (j j2 : Nat) : (s.setLink l x).ring j j2 = s.ring j j2 := rfl
@[simp] theorem State.setLink_part (s : State) (l : Nat) (x : Link) (j : Nat) : (s.setLink l x).part j = s.part j := rfl
@[simp] theorem State.setLink_loom (s : State) (l : Nat) (x : Link) (j : Nat) : (s.setLink l x).loom j = s.loom j := rfl
@[simp] theorem State.setLink_unit (s : State) (l : Nat) (x : Link) (j j2 : Nat) : (s.setLink l x).unit j j2 = s.unit j j2 := rfl
@[simp] theorem State.setLink_rd (s : State) (l : Nat) (x : Link) (j : Nat) : (s.setLink l x).rd j = s.rd j := rfl
@[simp] theorem State.setLink_reg (s : State) (l : Nat) (x : Link) (j : Reg) : (s.setLink l x).reg j = s.reg j := rfl

-- ## State.emit

@[simp] theorem State.emit_mem (s : State) (o : Out) : (s.emit o).mem = s.mem := rfl
@[simp] theorem State.emit_regs (s : State) (o : Out) : (s.emit o).regs = s.regs := rfl
@[simp] theorem State.emit_fuses (s : State) (o : Out) : (s.emit o).fuses = s.fuses := rfl
@[simp] theorem State.emit_straps (s : State) (o : Out) : (s.emit o).straps = s.straps := rfl
@[simp] theorem State.emit_islands (s : State) (o : Out) : (s.emit o).islands = s.islands := rfl
@[simp] theorem State.emit_channels (s : State) (o : Out) : (s.emit o).channels = s.channels := rfl
@[simp] theorem State.emit_ports (s : State) (o : Out) : (s.emit o).ports = s.ports := rfl
@[simp] theorem State.emit_adopted (s : State) (o : Out) : (s.emit o).adopted = s.adopted := rfl
@[simp] theorem State.emit_adoptRefused (s : State) (o : Out) : (s.emit o).adoptRefused = s.adoptRefused := rfl
@[simp] theorem State.emit_shrRefused (s : State) (o : Out) : (s.emit o).shrRefused = s.shrRefused := rfl
@[simp] theorem State.emit_funcs (s : State) (o : Out) : (s.emit o).funcs = s.funcs := rfl
@[simp] theorem State.emit_rings (s : State) (o : Out) : (s.emit o).rings = s.rings := rfl
@[simp] theorem State.emit_accepted (s : State) (o : Out) : (s.emit o).accepted = s.accepted := rfl
@[simp] theorem State.emit_entries (s : State) (o : Out) : (s.emit o).entries = s.entries := rfl
@[simp] theorem State.emit_draftIds (s : State) (o : Out) : (s.emit o).draftIds = s.draftIds := rfl
@[simp] theorem State.emit_drafts (s : State) (o : Out) : (s.emit o).drafts = s.drafts := rfl
@[simp] theorem State.emit_parts (s : State) (o : Out) : (s.emit o).parts = s.parts := rfl
@[simp] theorem State.emit_looms (s : State) (o : Out) : (s.emit o).looms = s.looms := rfl
@[simp] theorem State.emit_hostReads (s : State) (o : Out) : (s.emit o).hostReads = s.hostReads := rfl
@[simp] theorem State.emit_memCtl (s : State) (o : Out) : (s.emit o).memCtl = s.memCtl := rfl
@[simp] theorem State.emit_shuttles (s : State) (o : Out) : (s.emit o).shuttles = s.shuttles := rfl
@[simp] theorem State.emit_mates (s : State) (o : Out) : (s.emit o).mates = s.mates := rfl
@[simp] theorem State.emit_served (s : State) (o : Out) : (s.emit o).served = s.served := rfl
@[simp] theorem State.emit_links (s : State) (o : Out) : (s.emit o).links = s.links := rfl
@[simp] theorem State.emit_fabric (s : State) (o : Out) : (s.emit o).fabric = s.fabric := rfl
@[simp] theorem State.emit_manager (s : State) (o : Out) : (s.emit o).manager = s.manager := rfl
@[simp] theorem State.emit_knot (s : State) (o : Out) : (s.emit o).knot = s.knot := rfl
@[simp] theorem State.emit_units (s : State) (o : Out) : (s.emit o).units = s.units := rfl
@[simp] theorem State.emit_retired (s : State) (o : Out) : (s.emit o).retired = s.retired := rfl
@[simp] theorem State.emit_guests (s : State) (o : Out) : (s.emit o).guests = s.guests := rfl
@[simp] theorem State.emit_vacant (s : State) (o : Out) : (s.emit o).vacant = s.vacant := rfl
@[simp] theorem State.emit_genRetire (s : State) (o : Out) : (s.emit o).genRetire = s.genRetire := rfl
@[simp] theorem State.emit_treadle (s : State) (o : Out) : (s.emit o).treadle = s.treadle := rfl
@[simp] theorem State.emit_boot (s : State) (o : Out) : (s.emit o).boot = s.boot := rfl
@[simp] theorem State.emit_trust (s : State) (o : Out) : (s.emit o).trust = s.trust := rfl
@[simp] theorem State.emit_faultN (s : State) (o : Out) : (s.emit o).faultN = s.faultN := rfl
@[simp] theorem State.emit_thermN (s : State) (o : Out) : (s.emit o).thermN = s.thermN := rfl
@[simp] theorem State.emit_pgOut (s : State) (o : Out) : (s.emit o).pgOut = s.pgOut := rfl
@[simp] theorem State.emit_deferred (s : State) (o : Out) : (s.emit o).deferred = s.deferred := rfl
@[simp] theorem State.emit_draws (s : State) (o : Out) : (s.emit o).draws = s.draws := rfl
@[simp] theorem State.emit_pending (s : State) (o : Out) : (s.emit o).pending = s.pending := rfl
@[simp] theorem State.emit_island (s : State) (o : Out) (j : Nat) : (s.emit o).island j = s.island j := rfl
@[simp] theorem State.emit_port (s : State) (o : Out) (j : Nat) : (s.emit o).port j = s.port j := rfl
@[simp] theorem State.emit_func (s : State) (o : Out) (j j2 : Nat) : (s.emit o).func j j2 = s.func j j2 := rfl
@[simp] theorem State.emit_ring (s : State) (o : Out) (j j2 : Nat) : (s.emit o).ring j j2 = s.ring j j2 := rfl
@[simp] theorem State.emit_part (s : State) (o : Out) (j : Nat) : (s.emit o).part j = s.part j := rfl
@[simp] theorem State.emit_loom (s : State) (o : Out) (j : Nat) : (s.emit o).loom j = s.loom j := rfl
@[simp] theorem State.emit_unit (s : State) (o : Out) (j j2 : Nat) : (s.emit o).unit j j2 = s.unit j j2 := rfl
@[simp] theorem State.emit_link (s : State) (o : Out) (j : Nat) : (s.emit o).link j = s.link j := rfl
@[simp] theorem State.emit_rd (s : State) (o : Out) (j : Nat) : (s.emit o).rd j = s.rd j := rfl
@[simp] theorem State.emit_reg (s : State) (o : Out) (j : Reg) : (s.emit o).reg j = s.reg j := rfl

-- ## State.wr

@[simp] theorem State.wr_regs (s : State) (k : Nat) (b : Byte) : (s.wr k b).regs = s.regs := rfl
@[simp] theorem State.wr_fuses (s : State) (k : Nat) (b : Byte) : (s.wr k b).fuses = s.fuses := rfl
@[simp] theorem State.wr_straps (s : State) (k : Nat) (b : Byte) : (s.wr k b).straps = s.straps := rfl
@[simp] theorem State.wr_islands (s : State) (k : Nat) (b : Byte) : (s.wr k b).islands = s.islands := rfl
@[simp] theorem State.wr_channels (s : State) (k : Nat) (b : Byte) : (s.wr k b).channels = s.channels := rfl
@[simp] theorem State.wr_ports (s : State) (k : Nat) (b : Byte) : (s.wr k b).ports = s.ports := rfl
@[simp] theorem State.wr_adopted (s : State) (k : Nat) (b : Byte) : (s.wr k b).adopted = s.adopted := rfl
@[simp] theorem State.wr_adoptRefused (s : State) (k : Nat) (b : Byte) : (s.wr k b).adoptRefused = s.adoptRefused := rfl
@[simp] theorem State.wr_shrRefused (s : State) (k : Nat) (b : Byte) : (s.wr k b).shrRefused = s.shrRefused := rfl
@[simp] theorem State.wr_funcs (s : State) (k : Nat) (b : Byte) : (s.wr k b).funcs = s.funcs := rfl
@[simp] theorem State.wr_rings (s : State) (k : Nat) (b : Byte) : (s.wr k b).rings = s.rings := rfl
@[simp] theorem State.wr_accepted (s : State) (k : Nat) (b : Byte) : (s.wr k b).accepted = s.accepted := rfl
@[simp] theorem State.wr_entries (s : State) (k : Nat) (b : Byte) : (s.wr k b).entries = s.entries := rfl
@[simp] theorem State.wr_draftIds (s : State) (k : Nat) (b : Byte) : (s.wr k b).draftIds = s.draftIds := rfl
@[simp] theorem State.wr_drafts (s : State) (k : Nat) (b : Byte) : (s.wr k b).drafts = s.drafts := rfl
@[simp] theorem State.wr_parts (s : State) (k : Nat) (b : Byte) : (s.wr k b).parts = s.parts := rfl
@[simp] theorem State.wr_looms (s : State) (k : Nat) (b : Byte) : (s.wr k b).looms = s.looms := rfl
@[simp] theorem State.wr_hostReads (s : State) (k : Nat) (b : Byte) : (s.wr k b).hostReads = s.hostReads := rfl
@[simp] theorem State.wr_memCtl (s : State) (k : Nat) (b : Byte) : (s.wr k b).memCtl = s.memCtl := rfl
@[simp] theorem State.wr_shuttles (s : State) (k : Nat) (b : Byte) : (s.wr k b).shuttles = s.shuttles := rfl
@[simp] theorem State.wr_mates (s : State) (k : Nat) (b : Byte) : (s.wr k b).mates = s.mates := rfl
@[simp] theorem State.wr_served (s : State) (k : Nat) (b : Byte) : (s.wr k b).served = s.served := rfl
@[simp] theorem State.wr_links (s : State) (k : Nat) (b : Byte) : (s.wr k b).links = s.links := rfl
@[simp] theorem State.wr_fabric (s : State) (k : Nat) (b : Byte) : (s.wr k b).fabric = s.fabric := rfl
@[simp] theorem State.wr_manager (s : State) (k : Nat) (b : Byte) : (s.wr k b).manager = s.manager := rfl
@[simp] theorem State.wr_knot (s : State) (k : Nat) (b : Byte) : (s.wr k b).knot = s.knot := rfl
@[simp] theorem State.wr_units (s : State) (k : Nat) (b : Byte) : (s.wr k b).units = s.units := rfl
@[simp] theorem State.wr_retired (s : State) (k : Nat) (b : Byte) : (s.wr k b).retired = s.retired := rfl
@[simp] theorem State.wr_guests (s : State) (k : Nat) (b : Byte) : (s.wr k b).guests = s.guests := rfl
@[simp] theorem State.wr_vacant (s : State) (k : Nat) (b : Byte) : (s.wr k b).vacant = s.vacant := rfl
@[simp] theorem State.wr_genRetire (s : State) (k : Nat) (b : Byte) : (s.wr k b).genRetire = s.genRetire := rfl
@[simp] theorem State.wr_treadle (s : State) (k : Nat) (b : Byte) : (s.wr k b).treadle = s.treadle := rfl
@[simp] theorem State.wr_boot (s : State) (k : Nat) (b : Byte) : (s.wr k b).boot = s.boot := rfl
@[simp] theorem State.wr_trust (s : State) (k : Nat) (b : Byte) : (s.wr k b).trust = s.trust := rfl
@[simp] theorem State.wr_faultN (s : State) (k : Nat) (b : Byte) : (s.wr k b).faultN = s.faultN := rfl
@[simp] theorem State.wr_thermN (s : State) (k : Nat) (b : Byte) : (s.wr k b).thermN = s.thermN := rfl
@[simp] theorem State.wr_pgOut (s : State) (k : Nat) (b : Byte) : (s.wr k b).pgOut = s.pgOut := rfl
@[simp] theorem State.wr_deferred (s : State) (k : Nat) (b : Byte) : (s.wr k b).deferred = s.deferred := rfl
@[simp] theorem State.wr_out (s : State) (k : Nat) (b : Byte) : (s.wr k b).out = s.out := rfl
@[simp] theorem State.wr_draws (s : State) (k : Nat) (b : Byte) : (s.wr k b).draws = s.draws := rfl
@[simp] theorem State.wr_pending (s : State) (k : Nat) (b : Byte) : (s.wr k b).pending = s.pending := rfl
@[simp] theorem State.wr_island (s : State) (k : Nat) (b : Byte) (j : Nat) : (s.wr k b).island j = s.island j := rfl
@[simp] theorem State.wr_port (s : State) (k : Nat) (b : Byte) (j : Nat) : (s.wr k b).port j = s.port j := rfl
@[simp] theorem State.wr_func (s : State) (k : Nat) (b : Byte) (j j2 : Nat) : (s.wr k b).func j j2 = s.func j j2 := rfl
@[simp] theorem State.wr_ring (s : State) (k : Nat) (b : Byte) (j j2 : Nat) : (s.wr k b).ring j j2 = s.ring j j2 := rfl
@[simp] theorem State.wr_part (s : State) (k : Nat) (b : Byte) (j : Nat) : (s.wr k b).part j = s.part j := rfl
@[simp] theorem State.wr_loom (s : State) (k : Nat) (b : Byte) (j : Nat) : (s.wr k b).loom j = s.loom j := rfl
@[simp] theorem State.wr_unit (s : State) (k : Nat) (b : Byte) (j j2 : Nat) : (s.wr k b).unit j j2 = s.unit j j2 := rfl
@[simp] theorem State.wr_link (s : State) (k : Nat) (b : Byte) (j : Nat) : (s.wr k b).link j = s.link j := rfl
@[simp] theorem State.wr_reg (s : State) (k : Nat) (b : Byte) (j : Reg) : (s.wr k b).reg j = s.reg j := rfl

-- ## State.wrBytes

@[simp] theorem State.wrBytes_regs (s : State) (k : Nat) (bs : List Byte) : (s.wrBytes k bs).regs = s.regs := rfl
@[simp] theorem State.wrBytes_fuses (s : State) (k : Nat) (bs : List Byte) : (s.wrBytes k bs).fuses = s.fuses := rfl
@[simp] theorem State.wrBytes_straps (s : State) (k : Nat) (bs : List Byte) : (s.wrBytes k bs).straps = s.straps := rfl
@[simp] theorem State.wrBytes_islands (s : State) (k : Nat) (bs : List Byte) : (s.wrBytes k bs).islands = s.islands := rfl
@[simp] theorem State.wrBytes_channels (s : State) (k : Nat) (bs : List Byte) : (s.wrBytes k bs).channels = s.channels := rfl
@[simp] theorem State.wrBytes_ports (s : State) (k : Nat) (bs : List Byte) : (s.wrBytes k bs).ports = s.ports := rfl
@[simp] theorem State.wrBytes_adopted (s : State) (k : Nat) (bs : List Byte) : (s.wrBytes k bs).adopted = s.adopted := rfl
@[simp] theorem State.wrBytes_adoptRefused (s : State) (k : Nat) (bs : List Byte) : (s.wrBytes k bs).adoptRefused = s.adoptRefused := rfl
@[simp] theorem State.wrBytes_shrRefused (s : State) (k : Nat) (bs : List Byte) : (s.wrBytes k bs).shrRefused = s.shrRefused := rfl
@[simp] theorem State.wrBytes_funcs (s : State) (k : Nat) (bs : List Byte) : (s.wrBytes k bs).funcs = s.funcs := rfl
@[simp] theorem State.wrBytes_rings (s : State) (k : Nat) (bs : List Byte) : (s.wrBytes k bs).rings = s.rings := rfl
@[simp] theorem State.wrBytes_accepted (s : State) (k : Nat) (bs : List Byte) : (s.wrBytes k bs).accepted = s.accepted := rfl
@[simp] theorem State.wrBytes_entries (s : State) (k : Nat) (bs : List Byte) : (s.wrBytes k bs).entries = s.entries := rfl
@[simp] theorem State.wrBytes_draftIds (s : State) (k : Nat) (bs : List Byte) : (s.wrBytes k bs).draftIds = s.draftIds := rfl
@[simp] theorem State.wrBytes_drafts (s : State) (k : Nat) (bs : List Byte) : (s.wrBytes k bs).drafts = s.drafts := rfl
@[simp] theorem State.wrBytes_parts (s : State) (k : Nat) (bs : List Byte) : (s.wrBytes k bs).parts = s.parts := rfl
@[simp] theorem State.wrBytes_looms (s : State) (k : Nat) (bs : List Byte) : (s.wrBytes k bs).looms = s.looms := rfl
@[simp] theorem State.wrBytes_hostReads (s : State) (k : Nat) (bs : List Byte) : (s.wrBytes k bs).hostReads = s.hostReads := rfl
@[simp] theorem State.wrBytes_memCtl (s : State) (k : Nat) (bs : List Byte) : (s.wrBytes k bs).memCtl = s.memCtl := rfl
@[simp] theorem State.wrBytes_shuttles (s : State) (k : Nat) (bs : List Byte) : (s.wrBytes k bs).shuttles = s.shuttles := rfl
@[simp] theorem State.wrBytes_mates (s : State) (k : Nat) (bs : List Byte) : (s.wrBytes k bs).mates = s.mates := rfl
@[simp] theorem State.wrBytes_served (s : State) (k : Nat) (bs : List Byte) : (s.wrBytes k bs).served = s.served := rfl
@[simp] theorem State.wrBytes_links (s : State) (k : Nat) (bs : List Byte) : (s.wrBytes k bs).links = s.links := rfl
@[simp] theorem State.wrBytes_fabric (s : State) (k : Nat) (bs : List Byte) : (s.wrBytes k bs).fabric = s.fabric := rfl
@[simp] theorem State.wrBytes_manager (s : State) (k : Nat) (bs : List Byte) : (s.wrBytes k bs).manager = s.manager := rfl
@[simp] theorem State.wrBytes_knot (s : State) (k : Nat) (bs : List Byte) : (s.wrBytes k bs).knot = s.knot := rfl
@[simp] theorem State.wrBytes_units (s : State) (k : Nat) (bs : List Byte) : (s.wrBytes k bs).units = s.units := rfl
@[simp] theorem State.wrBytes_retired (s : State) (k : Nat) (bs : List Byte) : (s.wrBytes k bs).retired = s.retired := rfl
@[simp] theorem State.wrBytes_guests (s : State) (k : Nat) (bs : List Byte) : (s.wrBytes k bs).guests = s.guests := rfl
@[simp] theorem State.wrBytes_vacant (s : State) (k : Nat) (bs : List Byte) : (s.wrBytes k bs).vacant = s.vacant := rfl
@[simp] theorem State.wrBytes_genRetire (s : State) (k : Nat) (bs : List Byte) : (s.wrBytes k bs).genRetire = s.genRetire := rfl
@[simp] theorem State.wrBytes_treadle (s : State) (k : Nat) (bs : List Byte) : (s.wrBytes k bs).treadle = s.treadle := rfl
@[simp] theorem State.wrBytes_boot (s : State) (k : Nat) (bs : List Byte) : (s.wrBytes k bs).boot = s.boot := rfl
@[simp] theorem State.wrBytes_trust (s : State) (k : Nat) (bs : List Byte) : (s.wrBytes k bs).trust = s.trust := rfl
@[simp] theorem State.wrBytes_faultN (s : State) (k : Nat) (bs : List Byte) : (s.wrBytes k bs).faultN = s.faultN := rfl
@[simp] theorem State.wrBytes_thermN (s : State) (k : Nat) (bs : List Byte) : (s.wrBytes k bs).thermN = s.thermN := rfl
@[simp] theorem State.wrBytes_pgOut (s : State) (k : Nat) (bs : List Byte) : (s.wrBytes k bs).pgOut = s.pgOut := rfl
@[simp] theorem State.wrBytes_deferred (s : State) (k : Nat) (bs : List Byte) : (s.wrBytes k bs).deferred = s.deferred := rfl
@[simp] theorem State.wrBytes_out (s : State) (k : Nat) (bs : List Byte) : (s.wrBytes k bs).out = s.out := rfl
@[simp] theorem State.wrBytes_draws (s : State) (k : Nat) (bs : List Byte) : (s.wrBytes k bs).draws = s.draws := rfl
@[simp] theorem State.wrBytes_pending (s : State) (k : Nat) (bs : List Byte) : (s.wrBytes k bs).pending = s.pending := rfl
@[simp] theorem State.wrBytes_island (s : State) (k : Nat) (bs : List Byte) (j : Nat) : (s.wrBytes k bs).island j = s.island j := rfl
@[simp] theorem State.wrBytes_port (s : State) (k : Nat) (bs : List Byte) (j : Nat) : (s.wrBytes k bs).port j = s.port j := rfl
@[simp] theorem State.wrBytes_func (s : State) (k : Nat) (bs : List Byte) (j j2 : Nat) : (s.wrBytes k bs).func j j2 = s.func j j2 := rfl
@[simp] theorem State.wrBytes_ring (s : State) (k : Nat) (bs : List Byte) (j j2 : Nat) : (s.wrBytes k bs).ring j j2 = s.ring j j2 := rfl
@[simp] theorem State.wrBytes_part (s : State) (k : Nat) (bs : List Byte) (j : Nat) : (s.wrBytes k bs).part j = s.part j := rfl
@[simp] theorem State.wrBytes_loom (s : State) (k : Nat) (bs : List Byte) (j : Nat) : (s.wrBytes k bs).loom j = s.loom j := rfl
@[simp] theorem State.wrBytes_unit (s : State) (k : Nat) (bs : List Byte) (j j2 : Nat) : (s.wrBytes k bs).unit j j2 = s.unit j j2 := rfl
@[simp] theorem State.wrBytes_link (s : State) (k : Nat) (bs : List Byte) (j : Nat) : (s.wrBytes k bs).link j = s.link j := rfl
@[simp] theorem State.wrBytes_reg (s : State) (k : Nat) (bs : List Byte) (j : Reg) : (s.wrBytes k bs).reg j = s.reg j := rfl

-- ## State.zero

@[simp] theorem State.zero_regs (s : State) (k n : Nat) : (s.zero k n).regs = s.regs := rfl
@[simp] theorem State.zero_fuses (s : State) (k n : Nat) : (s.zero k n).fuses = s.fuses := rfl
@[simp] theorem State.zero_straps (s : State) (k n : Nat) : (s.zero k n).straps = s.straps := rfl
@[simp] theorem State.zero_islands (s : State) (k n : Nat) : (s.zero k n).islands = s.islands := rfl
@[simp] theorem State.zero_channels (s : State) (k n : Nat) : (s.zero k n).channels = s.channels := rfl
@[simp] theorem State.zero_ports (s : State) (k n : Nat) : (s.zero k n).ports = s.ports := rfl
@[simp] theorem State.zero_adopted (s : State) (k n : Nat) : (s.zero k n).adopted = s.adopted := rfl
@[simp] theorem State.zero_adoptRefused (s : State) (k n : Nat) : (s.zero k n).adoptRefused = s.adoptRefused := rfl
@[simp] theorem State.zero_shrRefused (s : State) (k n : Nat) : (s.zero k n).shrRefused = s.shrRefused := rfl
@[simp] theorem State.zero_funcs (s : State) (k n : Nat) : (s.zero k n).funcs = s.funcs := rfl
@[simp] theorem State.zero_rings (s : State) (k n : Nat) : (s.zero k n).rings = s.rings := rfl
@[simp] theorem State.zero_accepted (s : State) (k n : Nat) : (s.zero k n).accepted = s.accepted := rfl
@[simp] theorem State.zero_entries (s : State) (k n : Nat) : (s.zero k n).entries = s.entries := rfl
@[simp] theorem State.zero_draftIds (s : State) (k n : Nat) : (s.zero k n).draftIds = s.draftIds := rfl
@[simp] theorem State.zero_drafts (s : State) (k n : Nat) : (s.zero k n).drafts = s.drafts := rfl
@[simp] theorem State.zero_parts (s : State) (k n : Nat) : (s.zero k n).parts = s.parts := rfl
@[simp] theorem State.zero_looms (s : State) (k n : Nat) : (s.zero k n).looms = s.looms := rfl
@[simp] theorem State.zero_hostReads (s : State) (k n : Nat) : (s.zero k n).hostReads = s.hostReads := rfl
@[simp] theorem State.zero_memCtl (s : State) (k n : Nat) : (s.zero k n).memCtl = s.memCtl := rfl
@[simp] theorem State.zero_shuttles (s : State) (k n : Nat) : (s.zero k n).shuttles = s.shuttles := rfl
@[simp] theorem State.zero_mates (s : State) (k n : Nat) : (s.zero k n).mates = s.mates := rfl
@[simp] theorem State.zero_served (s : State) (k n : Nat) : (s.zero k n).served = s.served := rfl
@[simp] theorem State.zero_links (s : State) (k n : Nat) : (s.zero k n).links = s.links := rfl
@[simp] theorem State.zero_fabric (s : State) (k n : Nat) : (s.zero k n).fabric = s.fabric := rfl
@[simp] theorem State.zero_manager (s : State) (k n : Nat) : (s.zero k n).manager = s.manager := rfl
@[simp] theorem State.zero_knot (s : State) (k n : Nat) : (s.zero k n).knot = s.knot := rfl
@[simp] theorem State.zero_units (s : State) (k n : Nat) : (s.zero k n).units = s.units := rfl
@[simp] theorem State.zero_retired (s : State) (k n : Nat) : (s.zero k n).retired = s.retired := rfl
@[simp] theorem State.zero_guests (s : State) (k n : Nat) : (s.zero k n).guests = s.guests := rfl
@[simp] theorem State.zero_vacant (s : State) (k n : Nat) : (s.zero k n).vacant = s.vacant := rfl
@[simp] theorem State.zero_genRetire (s : State) (k n : Nat) : (s.zero k n).genRetire = s.genRetire := rfl
@[simp] theorem State.zero_treadle (s : State) (k n : Nat) : (s.zero k n).treadle = s.treadle := rfl
@[simp] theorem State.zero_boot (s : State) (k n : Nat) : (s.zero k n).boot = s.boot := rfl
@[simp] theorem State.zero_trust (s : State) (k n : Nat) : (s.zero k n).trust = s.trust := rfl
@[simp] theorem State.zero_faultN (s : State) (k n : Nat) : (s.zero k n).faultN = s.faultN := rfl
@[simp] theorem State.zero_thermN (s : State) (k n : Nat) : (s.zero k n).thermN = s.thermN := rfl
@[simp] theorem State.zero_pgOut (s : State) (k n : Nat) : (s.zero k n).pgOut = s.pgOut := rfl
@[simp] theorem State.zero_deferred (s : State) (k n : Nat) : (s.zero k n).deferred = s.deferred := rfl
@[simp] theorem State.zero_out (s : State) (k n : Nat) : (s.zero k n).out = s.out := rfl
@[simp] theorem State.zero_draws (s : State) (k n : Nat) : (s.zero k n).draws = s.draws := rfl
@[simp] theorem State.zero_pending (s : State) (k n : Nat) : (s.zero k n).pending = s.pending := rfl
@[simp] theorem State.zero_island (s : State) (k n : Nat) (j : Nat) : (s.zero k n).island j = s.island j := rfl
@[simp] theorem State.zero_port (s : State) (k n : Nat) (j : Nat) : (s.zero k n).port j = s.port j := rfl
@[simp] theorem State.zero_func (s : State) (k n : Nat) (j j2 : Nat) : (s.zero k n).func j j2 = s.func j j2 := rfl
@[simp] theorem State.zero_ring (s : State) (k n : Nat) (j j2 : Nat) : (s.zero k n).ring j j2 = s.ring j j2 := rfl
@[simp] theorem State.zero_part (s : State) (k n : Nat) (j : Nat) : (s.zero k n).part j = s.part j := rfl
@[simp] theorem State.zero_loom (s : State) (k n : Nat) (j : Nat) : (s.zero k n).loom j = s.loom j := rfl
@[simp] theorem State.zero_unit (s : State) (k n : Nat) (j j2 : Nat) : (s.zero k n).unit j j2 = s.unit j j2 := rfl
@[simp] theorem State.zero_link (s : State) (k n : Nat) (j : Nat) : (s.zero k n).link j = s.link j := rfl
@[simp] theorem State.zero_reg (s : State) (k n : Nat) (j : Reg) : (s.zero k n).reg j = s.reg j := rfl

-- ## State.setReg

@[simp] theorem State.setReg_mem (s : State) (r : Reg) (v : Nat) : (s.setReg r v).mem = s.mem := rfl
@[simp] theorem State.setReg_fuses (s : State) (r : Reg) (v : Nat) : (s.setReg r v).fuses = s.fuses := rfl
@[simp] theorem State.setReg_straps (s : State) (r : Reg) (v : Nat) : (s.setReg r v).straps = s.straps := rfl
@[simp] theorem State.setReg_islands (s : State) (r : Reg) (v : Nat) : (s.setReg r v).islands = s.islands := rfl
@[simp] theorem State.setReg_channels (s : State) (r : Reg) (v : Nat) : (s.setReg r v).channels = s.channels := rfl
@[simp] theorem State.setReg_ports (s : State) (r : Reg) (v : Nat) : (s.setReg r v).ports = s.ports := rfl
@[simp] theorem State.setReg_adopted (s : State) (r : Reg) (v : Nat) : (s.setReg r v).adopted = s.adopted := rfl
@[simp] theorem State.setReg_adoptRefused (s : State) (r : Reg) (v : Nat) : (s.setReg r v).adoptRefused = s.adoptRefused := rfl
@[simp] theorem State.setReg_shrRefused (s : State) (r : Reg) (v : Nat) : (s.setReg r v).shrRefused = s.shrRefused := rfl
@[simp] theorem State.setReg_funcs (s : State) (r : Reg) (v : Nat) : (s.setReg r v).funcs = s.funcs := rfl
@[simp] theorem State.setReg_rings (s : State) (r : Reg) (v : Nat) : (s.setReg r v).rings = s.rings := rfl
@[simp] theorem State.setReg_accepted (s : State) (r : Reg) (v : Nat) : (s.setReg r v).accepted = s.accepted := rfl
@[simp] theorem State.setReg_entries (s : State) (r : Reg) (v : Nat) : (s.setReg r v).entries = s.entries := rfl
@[simp] theorem State.setReg_draftIds (s : State) (r : Reg) (v : Nat) : (s.setReg r v).draftIds = s.draftIds := rfl
@[simp] theorem State.setReg_drafts (s : State) (r : Reg) (v : Nat) : (s.setReg r v).drafts = s.drafts := rfl
@[simp] theorem State.setReg_parts (s : State) (r : Reg) (v : Nat) : (s.setReg r v).parts = s.parts := rfl
@[simp] theorem State.setReg_looms (s : State) (r : Reg) (v : Nat) : (s.setReg r v).looms = s.looms := rfl
@[simp] theorem State.setReg_hostReads (s : State) (r : Reg) (v : Nat) : (s.setReg r v).hostReads = s.hostReads := rfl
@[simp] theorem State.setReg_memCtl (s : State) (r : Reg) (v : Nat) : (s.setReg r v).memCtl = s.memCtl := rfl
@[simp] theorem State.setReg_shuttles (s : State) (r : Reg) (v : Nat) : (s.setReg r v).shuttles = s.shuttles := rfl
@[simp] theorem State.setReg_mates (s : State) (r : Reg) (v : Nat) : (s.setReg r v).mates = s.mates := rfl
@[simp] theorem State.setReg_served (s : State) (r : Reg) (v : Nat) : (s.setReg r v).served = s.served := rfl
@[simp] theorem State.setReg_links (s : State) (r : Reg) (v : Nat) : (s.setReg r v).links = s.links := rfl
@[simp] theorem State.setReg_fabric (s : State) (r : Reg) (v : Nat) : (s.setReg r v).fabric = s.fabric := rfl
@[simp] theorem State.setReg_manager (s : State) (r : Reg) (v : Nat) : (s.setReg r v).manager = s.manager := rfl
@[simp] theorem State.setReg_knot (s : State) (r : Reg) (v : Nat) : (s.setReg r v).knot = s.knot := rfl
@[simp] theorem State.setReg_units (s : State) (r : Reg) (v : Nat) : (s.setReg r v).units = s.units := rfl
@[simp] theorem State.setReg_retired (s : State) (r : Reg) (v : Nat) : (s.setReg r v).retired = s.retired := rfl
@[simp] theorem State.setReg_guests (s : State) (r : Reg) (v : Nat) : (s.setReg r v).guests = s.guests := rfl
@[simp] theorem State.setReg_vacant (s : State) (r : Reg) (v : Nat) : (s.setReg r v).vacant = s.vacant := rfl
@[simp] theorem State.setReg_genRetire (s : State) (r : Reg) (v : Nat) : (s.setReg r v).genRetire = s.genRetire := rfl
@[simp] theorem State.setReg_treadle (s : State) (r : Reg) (v : Nat) : (s.setReg r v).treadle = s.treadle := rfl
@[simp] theorem State.setReg_boot (s : State) (r : Reg) (v : Nat) : (s.setReg r v).boot = s.boot := rfl
@[simp] theorem State.setReg_trust (s : State) (r : Reg) (v : Nat) : (s.setReg r v).trust = s.trust := rfl
@[simp] theorem State.setReg_faultN (s : State) (r : Reg) (v : Nat) : (s.setReg r v).faultN = s.faultN := rfl
@[simp] theorem State.setReg_thermN (s : State) (r : Reg) (v : Nat) : (s.setReg r v).thermN = s.thermN := rfl
@[simp] theorem State.setReg_pgOut (s : State) (r : Reg) (v : Nat) : (s.setReg r v).pgOut = s.pgOut := rfl
@[simp] theorem State.setReg_deferred (s : State) (r : Reg) (v : Nat) : (s.setReg r v).deferred = s.deferred := rfl
@[simp] theorem State.setReg_out (s : State) (r : Reg) (v : Nat) : (s.setReg r v).out = s.out := rfl
@[simp] theorem State.setReg_draws (s : State) (r : Reg) (v : Nat) : (s.setReg r v).draws = s.draws := rfl
@[simp] theorem State.setReg_pending (s : State) (r : Reg) (v : Nat) : (s.setReg r v).pending = s.pending := rfl
@[simp] theorem State.setReg_island (s : State) (r : Reg) (v : Nat) (j : Nat) : (s.setReg r v).island j = s.island j := rfl
@[simp] theorem State.setReg_port (s : State) (r : Reg) (v : Nat) (j : Nat) : (s.setReg r v).port j = s.port j := rfl
@[simp] theorem State.setReg_func (s : State) (r : Reg) (v : Nat) (j j2 : Nat) : (s.setReg r v).func j j2 = s.func j j2 := rfl
@[simp] theorem State.setReg_ring (s : State) (r : Reg) (v : Nat) (j j2 : Nat) : (s.setReg r v).ring j j2 = s.ring j j2 := rfl
@[simp] theorem State.setReg_part (s : State) (r : Reg) (v : Nat) (j : Nat) : (s.setReg r v).part j = s.part j := rfl
@[simp] theorem State.setReg_loom (s : State) (r : Reg) (v : Nat) (j : Nat) : (s.setReg r v).loom j = s.loom j := rfl
@[simp] theorem State.setReg_unit (s : State) (r : Reg) (v : Nat) (j j2 : Nat) : (s.setReg r v).unit j j2 = s.unit j j2 := rfl
@[simp] theorem State.setReg_link (s : State) (r : Reg) (v : Nat) (j : Nat) : (s.setReg r v).link j = s.link j := rfl
@[simp] theorem State.setReg_rd (s : State) (r : Reg) (v : Nat) (j : Nat) : (s.setReg r v).rd j = s.rd j := rfl

-- ## What a command ends with

@[simp] theorem settle_regs (s : State) : (settle s).regs = s.regs := rfl
@[simp] theorem settle_fuses (s : State) : (settle s).fuses = s.fuses := rfl
@[simp] theorem settle_straps (s : State) : (settle s).straps = s.straps := rfl
@[simp] theorem settle_islands (s : State) : (settle s).islands = s.islands := rfl
@[simp] theorem settle_channels (s : State) : (settle s).channels = s.channels := rfl
@[simp] theorem settle_ports (s : State) : (settle s).ports = s.ports := rfl
@[simp] theorem settle_adopted (s : State) : (settle s).adopted = s.adopted := rfl
@[simp] theorem settle_adoptRefused (s : State) : (settle s).adoptRefused = s.adoptRefused := rfl
@[simp] theorem settle_shrRefused (s : State) : (settle s).shrRefused = s.shrRefused := rfl
@[simp] theorem settle_funcs (s : State) : (settle s).funcs = s.funcs := rfl
@[simp] theorem settle_rings (s : State) : (settle s).rings = s.rings := rfl
@[simp] theorem settle_accepted (s : State) : (settle s).accepted = s.accepted := rfl
@[simp] theorem settle_entries (s : State) : (settle s).entries = s.entries := rfl
@[simp] theorem settle_draftIds (s : State) : (settle s).draftIds = s.draftIds := rfl
@[simp] theorem settle_drafts (s : State) : (settle s).drafts = s.drafts := rfl
@[simp] theorem settle_parts (s : State) : (settle s).parts = s.parts := rfl
@[simp] theorem settle_looms (s : State) : (settle s).looms = s.looms := rfl
@[simp] theorem settle_hostReads (s : State) : (settle s).hostReads = s.hostReads := rfl
@[simp] theorem settle_memCtl (s : State) : (settle s).memCtl = s.memCtl := rfl
@[simp] theorem settle_shuttles (s : State) : (settle s).shuttles = s.shuttles := rfl
@[simp] theorem settle_mates (s : State) : (settle s).mates = s.mates := rfl
@[simp] theorem settle_served (s : State) : (settle s).served = s.served := rfl
@[simp] theorem settle_links (s : State) : (settle s).links = s.links := rfl
@[simp] theorem settle_fabric (s : State) : (settle s).fabric = s.fabric := rfl
@[simp] theorem settle_manager (s : State) : (settle s).manager = s.manager := rfl
@[simp] theorem settle_knot (s : State) : (settle s).knot = s.knot := rfl
@[simp] theorem settle_units (s : State) : (settle s).units = s.units := rfl
@[simp] theorem settle_retired (s : State) : (settle s).retired = s.retired := rfl
@[simp] theorem settle_guests (s : State) : (settle s).guests = s.guests := rfl
@[simp] theorem settle_vacant (s : State) : (settle s).vacant = s.vacant := rfl
@[simp] theorem settle_genRetire (s : State) : (settle s).genRetire = s.genRetire := rfl
@[simp] theorem settle_treadle (s : State) : (settle s).treadle = s.treadle := rfl
@[simp] theorem settle_boot (s : State) : (settle s).boot = s.boot := rfl
@[simp] theorem settle_trust (s : State) : (settle s).trust = s.trust := rfl
@[simp] theorem settle_deferred (s : State) : (settle s).deferred = s.deferred := rfl
@[simp] theorem settle_out (s : State) : (settle s).out = s.out := rfl
@[simp] theorem settle_draws (s : State) : (settle s).draws = s.draws := rfl
@[simp] theorem settle_pending (s : State) : (settle s).pending = s.pending := rfl
@[simp] theorem settle_island (s : State) (j : Nat) : (settle s).island j = s.island j := rfl
@[simp] theorem settle_port (s : State) (j : Nat) : (settle s).port j = s.port j := rfl
@[simp] theorem settle_func (s : State) (j j2 : Nat) : (settle s).func j j2 = s.func j j2 := rfl
@[simp] theorem settle_ring (s : State) (j j2 : Nat) : (settle s).ring j j2 = s.ring j j2 := rfl
@[simp] theorem settle_part (s : State) (j : Nat) : (settle s).part j = s.part j := rfl
@[simp] theorem settle_loom (s : State) (j : Nat) : (settle s).loom j = s.loom j := rfl
@[simp] theorem settle_unit (s : State) (j j2 : Nat) : (settle s).unit j j2 = s.unit j j2 := rfl
@[simp] theorem settle_link (s : State) (j : Nat) : (settle s).link j = s.link j := rfl
@[simp] theorem settle_reg (s : State) (j : Reg) : (settle s).reg j = s.reg j := rfl
@[simp] theorem settle_rd (s : State) (j : Nat) : (settle s).rd j = s.rd j := tget_tcanon 0 s.mem j

-- ## A component after a write of one

theorem State.setIsland_island (s : State) (i j : Nat) (x : Island) : (s.setIsland i x).island j = if j = i then x else s.island j := tget_tset _ _ _ _ _
@[simp] theorem State.setIsland_island_same (s : State) (i : Nat) (x : Island) : (s.setIsland i x).island i = x := tget_tset_same _ _ _ _
theorem State.setPort_port (s : State) (i j : Nat) (x : Port) : (s.setPort i x).port j = if j = i then x else s.port j := tget_tset _ _ _ _ _
@[simp] theorem State.setPort_port_same (s : State) (i : Nat) (x : Port) : (s.setPort i x).port i = x := tget_tset_same _ _ _ _
theorem State.setPart_part (s : State) (i j : Nat) (x : Part) : (s.setPart i x).part j = if j = i then x else s.part j := tget_tset _ _ _ _ _
@[simp] theorem State.setPart_part_same (s : State) (i : Nat) (x : Part) : (s.setPart i x).part i = x := tget_tset_same _ _ _ _
theorem State.setLoom_loom (s : State) (i j : Nat) (x : Loom) : (s.setLoom i x).loom j = if j = i then x else s.loom j := tget_tset _ _ _ _ _
@[simp] theorem State.setLoom_loom_same (s : State) (i : Nat) (x : Loom) : (s.setLoom i x).loom i = x := tget_tset_same _ _ _ _
theorem State.setLink_link (s : State) (i j : Nat) (x : Link) : (s.setLink i x).link j = if j = i then x else s.link j := tget_tset _ _ _ _ _
@[simp] theorem State.setLink_link_same (s : State) (i : Nat) (x : Link) : (s.setLink i x).link i = x := tget_tset_same _ _ _ _
@[simp] theorem State.setFunc_func_same (s : State) (i j : Nat) (x : Func) : (s.setFunc i j x).func i j = x := tget_tset_same _ _ _ _
@[simp] theorem State.setRing_ring_same (s : State) (i j : Nat) (x : Ring) : (s.setRing i j x).ring i j = x := tget_tset_same _ _ _ _
@[simp] theorem State.setUnit_unit_same (s : State) (i j : Nat) (x : Unit) : (s.setUnit i j x).unit i j = x := tget_tset_same _ _ _ _
theorem State.setRing_ring (s : State) (q k q2 k2 : Nat) (x : Ring) : (s.setRing q k x).ring q2 k2 = if 256 * q2 + k2 = 256 * q + k then x else s.ring q2 k2 :=
  tget_tset _ _ _ _ _
theorem State.setFunc_func (s : State) (q f q2 f2 : Nat) (x : Func) : (s.setFunc q f x).func q2 f2 = if 64 * q2 + f2 = 64 * q + f then x else s.func q2 f2 :=
  tget_tset _ _ _ _ _
theorem State.setUnit_unit (s : State) (c u c2 u2 : Nat) (x : Unit) : (s.setUnit c u x).unit c2 u2 = if 65536 * c2 + u2 = 65536 * c + u then x else s.unit c2 u2 :=
  tget_tset _ _ _ _ _
theorem State.wr_rd (s : State) (k j : Nat) (b : Byte) : (s.wr k b).rd j = if j = k then b else s.rd j := tget_tset _ _ _ _ _

end Sys2Proof.Machine
end

