-- ==== Sys2Proof/Laws/Memory.lean ====
section
/-!
SUPPORT. Laws/Memory.lean: every memory operation keeps memory in its canonical form, and what each reads as afterwards.
-/

namespace Sys2Proof.Machine

-- ## Byte strings

theorem memPut_wf (bs : List Byte) : ∀ (m : List Host.Cell) (k : Nat), Memory.wf m → Memory.wf (memPut m k bs) := by
  induction bs with
  | nil => intro m k h; exact h
  | cons b bs ih => intro m k h; exact ih _ _ (tset_wf 0 m k b h)

/-- A byte string written at `k` reads back from there; every other byte is as before. -/
theorem tget_memPut (bs : List Byte) : ∀ (m : List Host.Cell) (k j : Nat),
    tget 0 (memPut m k bs) j = if k ≤ j ∧ j < k + bs.length then bs.getD (j - k) 0 else tget 0 m j := by
  induction bs with
  | nil => intro m k j; simp [memPut]
  | cons b bs ih =>
    intro m k j
    simp only [memPut, ih, tget_tset, List.length_cons]
    by_cases h1 : k + 1 ≤ j ∧ j < k + 1 + bs.length
    · rw [if_pos h1, if_pos (by omega), show j - k = (j - (k + 1)) + 1 by omega, List.getD_cons_succ]
    · rw [if_neg h1]
      by_cases h2 : j = k
      · subst h2; rw [if_pos rfl, if_pos (by omega), Nat.sub_self, List.getD_cons_zero]
      · rw [if_neg h2, if_neg (by omega)]

theorem State.wr_wf (s : State) (k : Nat) (b : Byte) (h : Memory.wf s.mem) : Memory.wf (s.wr k b).mem := tset_wf 0 _ k b h

theorem State.wrBytes_wf (s : State) (k : Nat) (bs : List Byte) (h : Memory.wf s.mem) : Memory.wf (s.wrBytes k bs).mem := memPut_wf bs _ k h

theorem State.wrN_wf (s : State) (k n v : Nat) (h : Memory.wf s.mem) : Memory.wf (s.wrN k n v).mem := memPut_wf _ _ k h

theorem State.wrBytes_rd (s : State) (k : Nat) (bs : List Byte) (j : Nat) :
    (s.wrBytes k bs).rd j = if k ≤ j ∧ j < k + bs.length then bs.getD (j - k) 0 else s.rd j := tget_memPut bs _ k j

theorem State.wrBytes_rd_outside (s : State) (k : Nat) (bs : List Byte) {j : Nat} (h : j < k ∨ k + bs.length ≤ j) :
    (s.wrBytes k bs).rd j = s.rd j := by
  rw [State.wrBytes_rd, if_neg (by omega)]

-- ## Clearing and copying

theorem State.zero_wf (s : State) (k n : Nat) (h : Memory.wf s.mem) : Memory.wf (s.zero k n).mem := tclear_wf 0 _ _ _ h

theorem State.zero_rd (s : State) (k n j : Nat) : (s.zero k n).rd j = if k ≤ j ∧ j < k + n then 0 else s.rd j := tget_tclear 0 _ _ _ _

theorem memCopy_wf (m : List Host.Cell) (a b n : Nat) (h : Memory.wf m) : Memory.wf (memCopy m a b n) :=
  foldl_wf 0 _ (fun m' c h' => tset_wf 0 m' (c.1 - a + b) c.2 h') _ _ (tclear_wf 0 _ _ _ h)

theorem State.copyMem_wf (s : State) (a b n : Nat) (h : Memory.wf s.mem) : Memory.wf (s.copyMem a b n).mem := memCopy_wf _ _ _ _ h

theorem State.swapMem_wf (s : State) (a b n : Nat) (h : Memory.wf s.mem) : Memory.wf (s.swapMem a b n).mem :=
  foldl_wf 0 _ (fun m' c h' => tset_wf 0 m' (c.1 - a + b) c.2 h') _ _ (tclear_wf 0 _ _ _ (memCopy_wf _ _ _ _ h))

theorem State.zeroData_wf (s : State) (sp o n : Nat) (h : Memory.wf s.mem) : Memory.wf (s.zeroData sp o n).mem :=
  State.zero_wf _ _ _ (State.zero_wf _ _ _ h)

/-- A fold of byte writes keeps the form, wherever each byte goes. -/
theorem foldl_wr_wf {β : Type} (key : State → β → Nat) (val : β → Byte) (cs : List β) :
    ∀ s : State, Memory.wf s.mem → Memory.wf (cs.foldl (fun s c => s.wr (key s c) (val c)) s).mem := by
  induction cs with
  | nil => intro s h; exact h
  | cons c cs ih => intro s h; exact ih _ (State.wr_wf _ _ _ h)

theorem State.putCells_wf (s : State) (sp o : Nat) (cs : List Host.Cell) (h : Memory.wf s.mem) : Memory.wf (s.putCells sp o cs).mem := by
  unfold State.putCells
  exact foldl_wr_wf (fun (s : State) (c : Host.Cell) => s.dataKey sp (o + c.1)) (fun c => c.2) cs s h

theorem State.copyData_wf (s : State) (sp a b n : Nat) (h : Memory.wf s.mem) : Memory.wf (s.copyData sp a b n).mem :=
  State.putCells_wf _ _ _ _ (State.zeroData_wf _ _ _ _ h)

theorem State.loomToHbm_wf (s : State) (key o n : Nat) (h : Memory.wf s.mem) : Memory.wf (s.loomToHbm key o n).mem :=
  State.putCells_wf _ _ _ _ (State.zeroData_wf _ _ _ _ h)

theorem State.hbmToLoom_wf (s : State) (o key n : Nat) (h : Memory.wf s.mem) : Memory.wf (s.hbmToLoom o key n).mem := by
  unfold State.hbmToLoom
  exact foldl_wr_wf (fun (_ : State) (c : Host.Cell) => key + c.1) (fun c => c.2) _ _ (State.zero_wf _ _ _ h)

-- ## Lines, poison and accesses

theorem State.storeLine_mem (s : State) (k : Nat) (w : Bool) : (s.storeLine k w).mem = s.mem := by
  simp only [State.storeLine]; split <;> (try split) <;> rfl

theorem foldl_mem_eq {β : Type} (f : State → β → State) (hf : ∀ s b, (f s b).mem = s.mem) (bs : List β) : ∀ s, (bs.foldl f s).mem = s.mem := by
  induction bs with
  | nil => intro s; rfl
  | cons b bs ih => intro s; rw [List.foldl_cons, ih, hf]

theorem State.storeLines_mem (s : State) (c : Ctx) (a n : Nat) : (s.storeLines c a n).mem = s.mem := by
  simp only [State.storeLines]
  split
  · rfl
  · exact foldl_mem_eq _ (fun s i => State.storeLine_mem _ _ _) _ _

theorem State.lineAccess_mem (s : State) (k : Nat) (w x : Bool) : (s.lineAccess k w x).mem = s.mem := by
  simp only [State.lineAccess]; split <;> rfl

theorem State.dropLine_mem (s : State) (l : CacheLine) : (s.dropLine l).mem = s.mem := by
  simp only [State.dropLine]
  split
  · rw [State.lineAccess_mem]; exact State.storeLine_mem _ _ _
  · rfl

theorem State.allocLine_mem (s : State) (k ways : Nat) (d : Bool) : (s.allocLine k ways d).mem = s.mem := by
  simp only [State.allocLine]
  split
  · rfl
  · exact State.dropLine_mem _ _
  · rfl

theorem State.passLine_mem (s : State) (k : Nat) (w x : Bool) : (s.passLine k w x).mem = s.mem := by
  simp only [State.passLine]
  split
  · exact State.lineAccess_mem _ _ _ _
  · split
    · rfl
    · split
      · exact State.lineAccess_mem _ _ _ _
      · rw [State.allocLine_mem]; split <;> first | rfl | exact State.lineAccess_mem _ _ _ _

theorem State.pass_mem (s : State) (c : Ctx) (a n : Nat) (w : Bool) : (s.pass c a n w).mem = s.mem := by
  simp only [State.pass]
  split
  · rfl
  · exact foldl_mem_eq _ (fun s i => State.passLine_mem _ _ _ _) _ _

theorem State.cure_mem (s : State) (c : Ctx) (a n : Nat) : (s.cure c a n).mem = s.mem := by
  simp only [State.cure]; split <;> rfl

theorem State.dirtyUnit_wf (s : State) (f : Flip) (u : Nat) (w : Bool) (h : Memory.wf s.mem) : Memory.wf (s.dirtyUnit f u w).mem := by
  simp only [State.dirtyUnit]
  split
  · exact h
  · refine State.wr_wf _ _ _ ?_
    split
    · exact h
    · split <;> exact State.copyData_wf _ _ _ _ _ h

theorem foldl_state_wf {β : Type} (f : State → β → State) (hf : ∀ s b, Memory.wf s.mem → Memory.wf (f s b).mem) (bs : List β) :
    ∀ s, Memory.wf s.mem → Memory.wf (bs.foldl f s).mem := by
  induction bs with
  | nil => intro s h; exact h
  | cons b bs ih => intro s h; exact ih _ (hf s b h)

/-- A checked write at a local address keeps the form. -/
theorem State.writeAt_wf (s : State) (c : Ctx) (a : Nat) (bs : List Byte) (h : Memory.wf s.mem) : Memory.wf (s.writeAt c a bs).mem := by
  simp only [State.writeAt]
  refine foldl_wr_wf (fun (s : State) (ib : Nat × Byte) => s.keyOf c (a + ib.1) true) (fun ib => ib.2) _ _ ?_
  rw [State.pass_mem, State.storeLines_mem]
  split
  · exact foldl_state_wf _ (fun s fu h' => State.dirtyUnit_wf _ _ _ _ h') _ _ h
  · exact h

-- ## After a command

/-- What a command ends with has the invariant, whatever it did. -/
theorem settle_inv (s : State) : (settle s).Inv :=
  ⟨tcanon_wf 0 s.mem, rfl, rfl, rfl⟩

theorem finish_next (s : State) : finish s = .next (settle s) := rfl

theorem idle_inv (s : State) : (idle s).Inv := settle_inv _

end Sys2Proof.Machine
end

