-- ==== Sys2Proof/Laws/Frames.lean ====
section
/-!
SUPPORT. Laws/Frames.lean: frames: how they compose, what every setter keeps, and what the shared operations on ring pairs and entries change.
-/

namespace Sys2Proof.Machine

-- ## Composition

theorem Field.same_refl (s : State) (f : Field) : Field.same s s f := by cases f <;> simp [Field.same]

theorem Field.same_trans {s t u : State} {f : Field} (h1 : Field.same s t f) (h2 : Field.same t u f) : Field.same s u f := by
  cases f <;> simp_all [Field.same]

theorem State.keeps_refl (s : State) (fs : List Field) : s.keeps s fs := fun f _ => Field.same_refl s f

theorem State.keeps_trans {s t u : State} {fs : List Field} (h1 : s.keeps t fs) (h2 : t.keeps u fs) : s.keeps u fs :=
  fun f hf => Field.same_trans (h1 f hf) (h2 f hf)

theorem State.keeps_mono {s t : State} {fs gs : List Field} (h : s.keeps t fs) (hs : ∀ f ∈ fs, f ∈ gs) : s.keeps t gs :=
  fun f hf => h f (fun hf' => hf (hs f hf'))

/-- A fold keeps what each of its steps keeps. -/
theorem State.keeps_foldl {β : Type} (fs : List Field) (f : State → β → State) (hf : ∀ (s : State) (b : β), s.keeps (f s b) fs) (bs : List β) :
    ∀ s : State, s.keeps (bs.foldl f s) fs := by
  induction bs with
  | nil => intro s; exact s.keeps_refl fs
  | cons b bs ih => intro s; exact State.keeps_trans (hf s b) (ih _)

/-- What a command ends with keeps everything. -/
theorem State.keeps_settle (s : State) (fs : List Field) : s.keeps (settle s) fs := by
  intro f _; cases f <;> first | rfl | exact fun k => settle_rd s k

theorem State.keeps_settled {s t : State} {fs : List Field} (h : s.keeps t fs) : s.keeps (settle t) fs :=
  State.keeps_trans h (State.keeps_settle t fs)

-- ## Setters

theorem State.setIsland_keeps (s : State) (i : Nat) (x : Island) : s.keeps (s.setIsland i x) [.islands] := by
  intro f hf; cases f <;> first | rfl | exact fun _ => rfl | simp at hf
theorem State.setPort_keeps (s : State) (q : Nat) (x : Port) : s.keeps (s.setPort q x) [.ports] := by
  intro f hf; cases f <;> first | rfl | exact fun _ => rfl | simp at hf
theorem State.setFunc_keeps (s : State) (q f : Nat) (x : Func) : s.keeps (s.setFunc q f x) [.funcs] := by
  intro f hf; cases f <;> first | rfl | exact fun _ => rfl | simp at hf
theorem State.setRing_keeps (s : State) (q k : Nat) (x : Ring) : s.keeps (s.setRing q k x) [.rings] := by
  intro f hf; cases f <;> first | rfl | exact fun _ => rfl | simp at hf
theorem State.setPart_keeps (s : State) (p : Nat) (x : Part) : s.keeps (s.setPart p x) [.parts] := by
  intro f hf; cases f <;> first | rfl | exact fun _ => rfl | simp at hf
theorem State.setLoom_keeps (s : State) (l : Nat) (x : Loom) : s.keeps (s.setLoom l x) [.looms] := by
  intro f hf; cases f <;> first | rfl | exact fun _ => rfl | simp at hf
theorem State.setUnit_keeps (s : State) (c u : Nat) (x : Unit) : s.keeps (s.setUnit c u x) [.units] := by
  intro f hf; cases f <;> first | rfl | exact fun _ => rfl | simp at hf
theorem State.setLink_keeps (s : State) (l : Nat) (x : Link) : s.keeps (s.setLink l x) [.links] := by
  intro f hf; cases f <;> first | rfl | exact fun _ => rfl | simp at hf
theorem State.setReg_keeps (s : State) (r : Reg) (v : Nat) : s.keeps (s.setReg r v) [.regs] := by
  intro f hf; cases f <;> first | rfl | exact fun _ => rfl | simp at hf
theorem State.emit_keeps (s : State) (o : Out) : s.keeps (s.emit o) [.out] := by
  intro f hf; cases f <;> first | rfl | exact fun _ => rfl | simp at hf
theorem State.wrBytes_keeps (s : State) (k : Nat) (bs : List Byte) : s.keeps (s.wrBytes k bs) [.mem] := by
  intro f hf; cases f <;> first | rfl | exact fun _ => rfl | simp at hf
theorem State.wr_keeps (s : State) (k : Nat) (b : Byte) : s.keeps (s.wr k b) [.mem] := by
  intro f hf; cases f <;> first | rfl | exact fun _ => rfl | simp at hf
theorem State.zero_keeps (s : State) (k n : Nat) : s.keeps (s.zero k n) [.mem] := by
  intro f hf; cases f <;> first | rfl | exact fun _ => rfl | simp at hf
theorem State.setEntry_keeps (s : State) (e : Nat) (g : Entry → Entry) : s.keeps (s.setEntry e g) [.entries] := by
  intro f hf; cases f <;> first | rfl | exact fun _ => rfl | simp at hf
theorem State.setDraft_keeps (s : State) (d : Nat) (g : Draft → Draft) : s.keeps (s.setDraft d g) [.drafts] := by
  intro f hf; cases f <;> first | rfl | exact fun _ => rfl | simp at hf

-- ## Host writes (R501, R502, R504)

theorem State.hostPut_keeps (s : State) (q f key : Nat) (bs : List Byte) : s.keeps (s.hostPut q f key bs) [.mem, .ports] := by
  simp only [State.hostPut]
  split
  · exact State.keeps_mono (State.setPort_keeps _ _ _) (by simp)
  · split
    · exact State.keeps_mono (State.setPort_keeps _ _ _) (by simp)
    · exact State.keeps_mono (State.wrBytes_keeps _ _ _) (by simp)

/-- A host write to a port whose link is up, for a function in D0, is made. -/
theorem State.hostPut_up (s : State) (q f key : Nat) (bs : List Byte) (h1 : (s.port q).linkUp = true) (h2 : (s.func q f).d3 = false) :
    s.hostPut q f key bs = s.wrBytes key bs := by
  simp [State.hostPut, h1, h2]

theorem State.msix_keeps (s : State) (q f v : Nat) : s.keeps (s.msix q f v) [.ports, .funcs, .out] := by
  simp only [State.msix]
  split
  · exact State.keeps_mono (State.setPort_keeps _ _ _) (by simp)
  · split
    · exact State.keeps_mono (State.setPort_keeps _ _ _) (by simp)
    · split
      · exact State.keeps_mono (State.setFunc_keeps _ _ _ _) (by simp)
      · exact State.keeps_mono (State.emit_keeps _ _) (by simp)

-- ## Completions (R184, R188, R190)

theorem State.pushCompl_keeps (s : State) (h : Nat × Nat) (c : Compl) : s.keeps (s.pushCompl h c) [.rings] := State.setRing_keeps _ _ _ _

theorem State.recordStatus_keeps (s : State) (q k tag st : Nat) : s.keeps (s.recordStatus q k tag st) [.rings, .entries] := by
  intro f hf; cases f <;> first | rfl | exact fun _ => rfl | simp at hf

theorem State.leave_keeps (s : State) (x : Entry) (st pick res : Nat) : s.keeps (s.leave x st pick res) [.entries, .rings] := by
  unfold State.leave
  refine State.keeps_trans (t := { s with entries := s.entries.filter (fun y => y.acc != x.acc) }) ?_ ?_
  · intro f hf; cases f <;> first | rfl | exact fun _ => rfl | simp at hf
  · exact State.keeps_trans (State.keeps_mono (State.pushCompl_keeps _ _ _) (by simp))
      (State.keeps_mono (State.recordStatus_keeps _ _ _ _ _) (by simp))

theorem State.completeWith_keeps (s : State) (e st pick res : Nat) : s.keeps (s.completeWith e st pick res) [.entries, .rings] := by
  simp only [State.completeWith]
  split
  · exact s.keeps_refl _
  · split
    · exact s.keeps_refl _
    · split
      · exact State.keeps_mono (State.setEntry_keeps _ _ _) (by simp)
      · exact State.leave_keeps _ _ _ _ _

theorem State.complete_keeps (s : State) (e st res : Nat) : s.keeps (s.complete e st res) [.entries, .rings] := by
  simp only [State.complete]
  split
  · exact s.keeps_refl _
  · exact State.completeWith_keeps _ _ _ _ _

theorem State.entry_acc {s : State} {e : Nat} {x : Entry} (h : s.entry e = some x) : x.acc = e := by
  have := List.find?_some h; simpa using this

/-- Another record of the same entry stands where the old one stood. -/
theorem State.setEntry_entry (s : State) (e : Nat) (g : Entry → Entry) (hg : ∀ y, (g y).acc = y.acc) (x : Entry) (h : s.entry e = some x) :
    (s.setEntry e g).entry e = some (g x) := by
  have hx : x.acc = e := State.entry_acc h
  have hf : ((fun y : Entry => y.acc == e) ∘ fun y => if y.acc = e then g y else y) = fun y => y.acc == e := by
    funext y; simp only [Function.comp]; split <;> simp [hg]
  simp only [State.entry, State.setEntry, List.find?_map, hf]
  simp only [State.entry] at h
  rw [h]; simp [hx]

/-- What completes says the same of two records of an entry that agree on where and how it answers. -/
theorem State.completed_congr {x y : Entry} {st res : Nat} {t : State} (ha : y.acc = x.acc) (hh : y.home = x.home) (ht : y.tag = x.tag)
    (ho : y.opcode = x.opcode) (hc : y.cookie = x.cookie) (h : State.completed y st res t) : State.completed x st res t := by
  simp only [State.completed, ← ha, ← hh, ← ht, ← ho, ← hc]; exact h

/-- An entry that leaves is outstanding no more, and its completion waits in its ring pair. -/
theorem State.leave_completed (s : State) (x : Entry) (st pick res : Nat) : State.completed x st res (s.leave x st pick res) := by
  refine Or.inl ⟨?_, x.compl st pick res, ?_, by simp [Entry.compl]⟩
  · simp only [State.leave, State.entry, State.recordStatus, State.pushCompl, State.setRing, List.find?_map, Option.map_eq_none_iff, List.find?_eq_none]
    intro y hy
    have hne : y.acc ≠ x.acc := by have := List.mem_filter.1 hy; simpa using this.2
    simp only [Function.comp, beq_iff_eq]
    split <;> exact hne
  · simp only [State.leave, State.recordStatus]
    show _ ∈ (State.ring (State.setRing _ _ _ _) _ _).held
    rw [State.setRing_ring]
    split
    · next heq =>
      have : (x.compl st pick res) ∈ (State.ring (State.pushCompl { s with entries := s.entries.filter (fun y => y.acc != x.acc) } x.home (x.compl st pick res)) x.port x.ring).held := by
        unfold State.pushCompl
        rw [State.setRing_ring, if_pos heq.symm]
        simp
      exact this
    · unfold State.pushCompl
      rw [State.setRing_ring, if_pos rfl]
      simp

/-- An outstanding entry that completes is outstanding no more, and its completion waits in its ring pair; or it waits in its engine. -/
theorem State.completeWith_completed (s : State) (e st pick res : Nat) (x : Entry) (h : s.entry e = some x) (hp : x.parked = none) :
    State.completed x st res (s.completeWith e st pick res) := by
  have hacc := State.entry_acc h
  simp only [State.completeWith, h, hp, Option.isSome_none, Bool.false_eq_true, if_false]
  split
  · next hb =>
    refine Or.inr ⟨hb, { x with st := .running, parked := some (st, pick, res) }, pick, ?_, rfl, rfl, rfl, rfl, rfl⟩
    exact hacc ▸ State.setEntry_entry s e (fun x => { x with st := .running, parked := some (st, pick, res) }) (fun _ => rfl) x h
  · exact State.leave_completed _ _ _ _ _

theorem State.complete_completed (s : State) (e st res : Nat) (x : Entry) (h : s.entry e = some x) (hp : x.parked = none) :
    State.completed x st res (s.complete e st res) := by
  simp only [State.complete, h]
  exact State.completeWith_completed _ _ _ _ _ _ h hp

theorem State.completed_settle {x : Entry} {st res : Nat} {t : State} (h : State.completed x st res t) : State.completed x st res (settle t) := h

end Sys2Proof.Machine
end

