-- ==== Sys2Proof/Laws/Pool.lean ====
section
/-!
SUPPORT. Laws/Pool.lean: what allocation from a pool whose directory is empty answers (R245, R247, R248).
-/

namespace Sys2Proof.Machine

/-- A key that no entry of a table has reads as the default. -/
theorem tget_of_absent {α : Type} (d : α) (l : List (Nat × α)) (k : Nat) (h : ∀ c ∈ l, c.1 ≠ k) : tget d l k = d := by
  induction l with
  | nil => rfl
  | cons c r ih => rw [tget, if_neg (h c (by simp)), ih (fun c hc => h c (by simp [hc]))]

/-- No listed byte lies in a partition's pool directory. -/
def State.bareDirectory (s : State) (p : Nat) : Bool :=
  s.memCtl.relocated.isEmpty && s.mem.all (fun c => decide (c.1 < s.poolBase p ∨ s.poolBase p + 2 ^ 21 ≤ c.1))

/-- An entry of a bare directory is unused. -/
theorem State.pent_blocks_bare (s : State) (p e : Nat) (h : s.bareDirectory p = true) (he : e < 65536) : (s.pent p e).blocks = 0 := by
  simp only [State.bareDirectory, Bool.and_eq_true, List.isEmpty_iff, List.all_eq_true, decide_eq_true_eq] at h
  have hb : s.hbm (s.poolBase p + 32 * e) 32 = (List.range 32).map (fun _ => 0) := by
    rw [State.hbm]
    refine List.map_congr_left (fun i hi => ?_)
    have hi := List.mem_range.1 hi
    simp only [State.rd, State.dataKey, h.1]
    exact tget_of_absent _ _ _ (fun c hc => by have := h.2 c hc; simp [spaceKey]; omega)
  rw [State.pent, hb]
  rfl

theorem State.pents_bare (s : State) (p : Nat) (h : s.bareDirectory p = true) : s.pents p = [] := by
  rw [State.pents]
  split
  · rfl
  · rw [List.filter_eq_nil_iff]
    intro x hx
    obtain ⟨e, he, rfl⟩ := List.mem_map.1 hx
    simp [State.pent_blocks_bare s p e h (List.mem_range.1 he)]

theorem State.unusedEntry_bare (s : State) (p : Nat) (h : s.bareDirectory p = true) : s.unusedEntry p = some 0 := by
  rw [State.unusedEntry, firstIdx, List.range_eq_range', List.range'_succ, List.find?_cons_of_pos]
  simp [State.pent_blocks_bare s p 0 h (by omega)]

/-- An allocation from a bare directory with room for it takes entry 0 and the first blocks behind the directory. -/
theorem State.alloc_bare (s : State) (p cls key n counter : Nat) (h : s.bareDirectory p = true) (he : (s.part p).pool.evicted = [])
    (hn : 0 < n) (hr : 32 + n ≤ s.poolBlocks p) :
    s.alloc p cls key n counter =
      (let s1 := s.setPent p 0 ⟨32, n, cls, ownerPinned cls, false, 0, if cls = 0 then 1 else 0, s.counterPick p counter, counter, key % 2 ^ 32⟩
       s1.setPart p { s1.part p with pool := { (s1.part p).pool with highWater := max (s1.part p).pool.highWater (s1.blocksUsed p) } }, some 0) := by
  have h0 : s.noteRefault p cls key (s.counterPick p counter) = s := by simp [State.noteRefault, he]
  have hp : s.place p n = some (0, 32) := by
    rw [State.place, if_neg (by omega), State.unusedEntry_bare s p h, State.pents_bare s p h]
    simp [freeRun, hr]
  have hm : s.makeRoom p cls n 65536 = (s, some (0, 32)) := by rw [State.makeRoom, hp]
  simp only [State.alloc, h0, ite_self, hm]

end Sys2Proof.Machine
end

