-- ==== Sys2Proof/Laws/Regs.lean ====
section
/-!
SUPPORT. Laws/Regs.lean: a register read after a register write.
-/

namespace Sys2Proof.Machine

theorem find_terase {α : Type} (l : List (Nat × α)) (k j : Nat) :
    (terase l k).find? (fun e => e.1 == j) = if j = k then none else l.find? (fun e => e.1 == j) := by
  induction l with
  | nil => simp [terase]
  | cons p r ih =>
    obtain ⟨a, v⟩ := p
    by_cases ha : a = k
    · subst ha
      rw [show terase ((a, v) :: r) a = terase r a by simp [terase], ih]
      by_cases hj : j = a
      · simp [hj]
      · have hj' : ¬ a = j := fun h => hj h.symm
        simp [hj, hj']
    · rw [show terase ((a, v) :: r) k = (a, v) :: terase r k by simp [terase, ha]]
      by_cases hj : j = k
      · subst hj; simp [ha, ih]
      · by_cases haj : a = j <;> simp [haj, hj, ih]

theorem find_tinsert {α : Type} (k j : Nat) (v : α) (l : List (Nat × α)) (h : ∀ p ∈ l, p.1 ≠ k) :
    (tinsert k v l).find? (fun e => e.1 == j) = if j = k then some (k, v) else l.find? (fun e => e.1 == j) := by
  induction l with
  | nil =>
    by_cases hj : j = k
    · simp [tinsert, hj]
    · have hj' : ¬ k = j := fun h => hj h.symm
      simp [tinsert, hj, hj']
  | cons p r ih =>
    obtain ⟨a, w⟩ := p
    have ha : a ≠ k := h (a, w) (by simp)
    have ih := ih (fun p hp => h p (by simp [hp]))
    simp only [tinsert]
    by_cases hj : j = k
    · subst hj
      split
      · simp
      · simp [ha, ih]
    · have hj' : k ≠ j := fun h => hj h.symm
      split
      · simp [hj, hj']
      · by_cases haj : a = j <;> simp [haj, hj, ih]

/-- A register reads as it was written, in 32 bits. -/
@[simp] theorem State.setReg_reg_same (s : State) (r : Reg) (v : Nat) : (s.setReg r v).reg r = v % 2 ^ 32 := by
  have he : ∀ p ∈ terase s.regs r.offset, p.1 ≠ r.offset := fun p hp => ((mem_terase _ _ p).1 hp).2
  simp only [State.setReg, State.reg]
  by_cases hv : v % 2 ^ 32 = r.reset
  · simp only [hv, if_true, find_terase]
  · simp only [hv, if_false, find_tinsert _ _ _ _ he, if_true, BitVec.toNat_ofNat, Nat.mod_mod]

/-- A register at another offset is unchanged. -/
theorem State.setReg_reg_ne (s : State) {r q : Reg} (v : Nat) (h : q.offset ≠ r.offset) : (s.setReg r v).reg q = s.reg q := by
  have he : ∀ p ∈ terase s.regs r.offset, p.1 ≠ r.offset := fun p hp => ((mem_terase _ _ p).1 hp).2
  simp only [State.setReg, State.reg]
  by_cases hv : v % 2 ^ 32 = r.reset
  · simp only [hv, if_true, find_terase, h, if_false]
  · simp only [hv, if_false, find_tinsert _ _ _ _ he, find_terase, h]

end Sys2Proof.Machine
end

