-- ==== Sys2Proof/Laws/Step.lean ====
section
/-!
SUPPORT. Laws/Step.lean: what every command and every step answers.
-/

namespace Sys2Proof.Machine

/-- Every command answers a next state, and it is a settled one: memory in canonical form, the pins as the rest of the state makes them. -/
theorem exec_settles (c : Instr) (s : State) : ∃ u, exec c s = .next (settle u) := by
  cases c <;> exact ⟨_, rfl⟩

theorem exec_next (c : Instr) (s : State) : ∃ t, exec c s = .next t := let ⟨u, h⟩ := exec_settles c s; ⟨settle u, h⟩

end Sys2Proof.Machine
end

