-- ==== Sys2Proof/Tests/Slice0.lean ====
section
/-!
SUPPORT. Tests/Slice0.lean: a witness for the hypotheses of every statement (test_meets_<Name>), an ill-formed term for each check of
WellFormed.lean, and a few small steps. Expected values come from the manual's rules or from the standards they name.
-/

namespace Sys2Proof.Tests

set_option maxRecDepth 20000
set_option Elab.async false

open Machine

/-- Registers of a small state. -/
def withRegs (s : State) (l : List (Reg × Nat)) : State := l.foldl (fun s r => s.setReg r.1 r.2) s

/-- A module in T0 whose boot has ended: port 0's link is up, port 1's not. -/
def up : State := { State.reset with
  treadle := { State.reset.treadle with state := 0, domains := allDomains, vmainGood := true, vsideGood := true, served := true }
  boot := { State.reset.boot with state := .ready }
  ports := [(0, { linkUp := true, width := 16, speed := 5 })] }

/-- Partition 0, of clusters 0, HBM groups 0 to 3 and tier-2 group 0, owned by the PF of port 0, ACTIVE. -/
def work : State := { withRegs up [(.partClusters 0, 1), (.partGroups 0, 0xF), (.partT2Ways 0, 1), (.partOwner 0, 0x80)] with
  parts := [(0, { st := .active })] }

/-- An accepted entry of ring pair 0 for partition 0, free to start. -/
def entryOf (acc : Nat) (bytes : List Byte) (st : EntrySt := .ready) : Entry :=
  { acc := acc, port := 0, ring := 0, func := 0, admin := true, bytes := bytes, st := st, home := (0, 0) }

/-- The 64 bytes of an entry with its CRC (R186): opcode, TAG, EFFECTIVE_PICK, three arguments, WAIT. -/
def entryBytes (op tag pick a0 a1 a2 : Nat) (wait : Nat := 0) (part : Nat := 0) : List Byte :=
  let b := leBytes 2 op ++ zeros 1 ++ leBytes 1 part ++ leBytes 4 tag ++ leBytes 8 pick ++ leBytes 8 a0 ++ leBytes 8 a1 ++ leBytes 8 a2 ++ zeros 8 ++
    leBytes 8 wait ++ zeros 6
  b ++ leBytes 2 (crc16 b)

-- ## The machine

theorem test_meets_StepKeepsInvariant : State.reset.Inv := by unfold State.Inv State.pinsWf; decide +kernel

theorem test_meets_StepRunsFrontCommand :
    ({ up with pending := [.wakeNAssert, .vstbyLoss] } : State).pending = .wakeNAssert :: [.vstbyLoss] ∧ up.pending = [] := by decide +kernel

theorem test_meets_IdleCountsIslands : up.pending = [] ∧ ∃ t, step up = .next t := ⟨rfl, _, rfl⟩

theorem test_islands_count : ((State.setIsland up 3 { on := true, relocking := true }).island 3).counts = false ∧
    ((State.setIsland up 3 { on := true, gated := true }).island 3).counts = true := by decide +kernel

/-- Ring pair 0 of port 0, ACTIVE, of 64 entries. -/
def ringed : State := { work with rings := [(0, { active := true, cqHead := 60, cqUsed := 4 })] }

theorem test_meets_DoorbellTailsMoveOrCount :
    (0 < 2 ∧ 0 < 64 ∧ 0 < 256 ∧ ringed.awake ∧ ringed.arrives (.port 0 0) = true ∧ (ringed.ring 0 0).active = true ∧ 0 = ringed.ringFunc 0 0) ∧
    63 % 65536 < ringed.ringSize 0 0 ∧ ringed.ringSize 0 0 ≤ 64 % 65536 ∧ ringed.entries = [] := by unfold State.awake; decide +kernel

theorem test_meets_InlineWindowHoldsWrittenBytes :
    60 + ([1, 2, 3, 4] : List Byte).length ≤ 64 ∧ ringed.arrives (.port 0 0) = true ∧ (ringed.ring 0 0).active = true ∧ 0 = ringed.ringFunc 0 0 := by
  decide +kernel

/-- A record of a node: kind and KIND_ARGS from byte 104 (R201). -/
def nodeRec (kind : Nat) (tds : List Byte) (args : List Byte) : List Byte :=
  patch (patch (zeros 128) 2 (leBytes 1 kind)) 32 tds |> fun b => patch b 104 args

/-- A HOST_WAIT node of the semaphore at offset 0x1000 of port 0's window, awaiting 7. -/
def waitNode : Node := { bytes := nodeRec 0xA [] (leBytes 8 (spaceKey 4 0x1000) ++ leBytes 8 7), succ := [], deps := 0, st := .running }

/-- A draft of one node in flight. -/
def oneDraft (x : Node) : Draft := { id := 1, part := 0, acc := some 1, nodes := [x] }
def drafted (x : Node) : State := { work with drafts := [oneDraft x], draftIds := 1, rings := ringed.rings }

theorem test_meets_HostWaitReadsAreIssued :
    ((drafted waitNode).draft 1 = some (oneDraft waitNode) ∧ (drafted waitNode).node 1 0 = some waitNode ∧ waitNode.kind = 0xA ∧
      waitNode.st = .running ∧ (drafted waitNode).runs 0 = true ∧ (drafted waitNode).isLocal (waitNode.arg 104 8) = true ∧
      gSpace (waitNode.arg 104 8) = 4 ∧ 120 % 64 ≤ 56 ∧ (drafted waitNode).readErr (nodeCtx (oneDraft waitNode) waitNode) (waitNode.arg 104 8) 8 = none) ∧
    (ringed.awake ∧ ringed.arrives (.port 0 0) = true ∧ (ringed.ring 0 0).active = true ∧ 0 = ringed.ringFunc 0 0 ∧ bitAt 1 0 = true ∧ ringed.drafts = []) ∧
    ((drafted waitNode).awake ∧ (drafted waitNode).arrives (.port 0 0) = true ∧ ((drafted waitNode).ring 0 0).active = true ∧
      0 = (drafted waitNode).ringFunc 0 0 ∧ (drafted waitNode).drafts = [oneDraft waitNode] ∧ (drafted waitNode).owns 0 0 0 = true ∧
      (oneDraft waitNode).nodes = [waitNode]) := by unfold State.awake; decide +kernel

/-- Ring pair 0 with one announced entry, captured inline. -/
def announced (b : List Byte) : State := { work with rings := [(0, { active := true, sqTail := 1, inlined := [(0, b)] })] }
def fenceBytes : List Byte := entryBytes 3 9 0 0 0 0
def fenceEntry : Entry := { entryOf 1 fenceBytes with func := 0 }

theorem test_meets_AcceptanceTakesTheNextEntry :
    (((announced fenceBytes).ring 0 0).active = true ∧ ((announced fenceBytes).ring 0 0).sqHead ≠ ((announced fenceBytes).ring 0 0).sqTail ∧
      (announced fenceBytes).submitHeld 0 0 = false ∧ ((announced fenceBytes).port 0).linkUp = true ∧ (announced fenceBytes).entries = [] ∧
      (announced fenceBytes).isAdmin 0 ((announced fenceBytes).ringFunc 0 0) = true ∧ (announced fenceBytes).accepted = 0) ∧
    (fenceEntry.formOk = true ∧ (announced fenceBytes).entryAllowed fenceEntry = true ∧ bitAt fenceEntry.wait 63 = false) ∧
    ((entryOf 1 (entryBytes 3 9 0 0 0 0 (2 ^ 63 + 5))).formOk = true ∧ (entryOf 1 (entryBytes 3 9 0 0 0 0 (2 ^ 63 + 5))).waitsOn = (0, 0, 5) ∧
      (entryOf 7 (entryBytes 3 5 0 0 0 0)).tag = 5) ∧
    ((entryOf 1 (entryBytes 3 9 1 4 0 0)).formOk = false) := by decide +kernel

/-- Entries of ring pair 0. -/
def entered (xs : List Entry) : State := { work with rings := ringed.rings, entries := xs, accepted := xs.length }

theorem test_meets_WaitsAndFencesDecide :
    (let x := { entryOf 2 (entryBytes 3 9 0 0 0 0 (2 ^ 63 + 5)) .waiting with waitDone := some 0 }
     (entered [x]).entry 2 = some x ∧ x.st = .waiting ∧ x.parked = none ∧ bitAt x.wait 40 = false) ∧
    (let x := { entryOf 2 (entryBytes 3 9 0 0 0 0 (2 ^ 63 + 2 ^ 40 + 5)) .waiting with waitDone := some 5 }
     (entered [x]).entry 2 = some x ∧ x.parked = none ∧ bitAt x.wait 40 = true) ∧
    (let x := { entryOf 2 (entryBytes 3 9 0 0 0 0 (2 ^ 63 + 5)) .waiting with waitDone := some 5 }
     (entered [x]).entry 2 = some x ∧ x.parked = none ∧ bitAt x.wait 40 = false ∧ 5 ≠ 0) ∧
    (entered [fenceEntry]).startable 1 3 = some fenceEntry ∧
    (let x := entryOf 2 fenceBytes
     (entered [entryOf 1 (entryBytes 4 1 0 0 0 0), x]).startable 2 3 = some x ∧ (entered [entryOf 1 (entryBytes 4 1 0 0 0 0), x]).fenceOpen x = false) := by
  decide +kernel

/-- A completion held. -/
def doneHeld : Compl := (entryOf 1 fenceBytes).compl 0 0 0
def holding (used : Nat) : State := { work with rings := [(0, { active := true, held := [doneHeld], cqUsed := used })] }

theorem test_meets_CompletionIsWrittenToTheFreedSlot :
    (∀ n ∈ [63, 64], ((holding n).ring 0 0).held = doneHeld :: [] ∧ ((holding n).port 0).linkUp = true ∧
      ((holding n).func 0 ((holding n).ringFunc 0 0)).d3 = false ∧ ((holding n).ring 0 0).closing = false ∧ ((holding n).ring 0 0).ops = []) ∧
    ((holding 63).ring 0 0).cqUsed < (holding 63).ringSize 0 0 ∧ (holding 64).ringSize 0 0 ≤ ((holding 64).ring 0 0).cqUsed ∧ (holding 63).entries = [] ∧
    (let x := { entryOf 2 fenceBytes with st := .running, parked := some (5, 0, 7) }
     let s : State := { holding 63 with entries := [x] }
     0 - (s.ringSize 0 0 - ((s.ring 0 0).cqUsed + 1)) < 256 ∧ s.entries.filter (fun e => e.home == (0, 0) && e.parked.isSome) = [x] ∧
     x.parked = some (5, 0, 7)) := by decide +kernel

theorem test_meets_RingPairEnableAndDisable :
    (work.arrives (.port 0 0) = true ∧ work.ringWriter (.port 0 0) 0 255 = true ∧ (work.ring 0 255).active = false ∧ (work.ring 0 255).closing = false ∧
      (work.ring 0 255).ops = []) ∧
    (ringed.ringWriter (.port 0 0) 0 0 = true ∧ (ringed.ring 0 0).active = true ∧ (ringed.ring 0 0).ops = [] ∧ ringed.ringDrained 0 0 = true) := by
  decide +kernel

-- ## Partitions

/-- Partition 0 configured in a state, with a save area at HBM offset 0x10000, its draft store at 0x8000000 and its image table at 0x40. -/
def placed (st : PartState) : State := { withRegs work [(.partAddr 0 0, 0x10000), (.partAddr 0 6, 0x8000000), (.partAddr 0 8, 0x40)] with
  parts := [(0, { st := st })] }

/-- A CONFIGURED partition without an owner. -/
def ownerless : State := { up with parts := [(0, { st := .configured })] }

theorem test_meets_PartitionConfiguresEnablesDisables :
    (up.arrives (.port 0 0) = true ∧ up.fromAdmin (.port 0 0) = true ∧ (up.part 0).st.idle = true ∧
      up.resourceFree 0 (.partClusters 0) (2 ^ 31 % 2 ^ 32) = true ∧ up.portPart 0 ≠ 0 ∧ 2 ^ 31 % 2 ^ 32 ≠ 0) ∧
    ((work.part 0).st.idle = false) ∧
    ((up.part 15).st.idle = true ∧ up.portAllowed 15 (field (0x80 % 65536) 6 1) = true ∧ up.owner 15 = none) := by decide +kernel

theorem test_meets_PartitionConfiguresEnablesDisables_enable :
    ((placed .configured).partWriter (.port 0 0) 0 = true ∧ ((placed .configured).part 0).st = .configured ∧ ((placed .configured).part 0).ops = [] ∧
      (placed .configured).guests = []) ∧
    (ownerless.enableFail 0 ≠ 0 ∧ ownerless.partWriter (.port 0 0) 0 = true ∧ (ownerless.part 0).st = .configured) ∧
    (((placed .enabling).part 0).st = .enabling ∧ (placed .enabling).boot.phase ≠ .holding) ∧
    ((work.part 0).st = .active ∧ (work.part 0).ops = [] ∧ work.partWriter (.port 0 0) 0 = true) ∧ ((placed .disabling).part 0).st = .disabling := by
  decide +kernel

theorem test_meets_PartitionConfiguresEnablesDisables_checks :
    (let s := withRegs (placed .configured) [(.partT2Ways 0, 0x10001)]
     s.enableFail 0 = 0 ∧ s.ways 0 ≠ 0 ∧ s.guests = [] ∧ s.partWriter (.port 0 0) 0 = true ∧ (s.part 0).st = .configured ∧ (s.part 0).ops = []) ∧
    (placed .configured).enableFail 0 = 0 ∧ (placed .configured).ways 0 = 0 ∧ work.entries = [] ∧ (placed .disabling).memCtl.changes = [] := by decide +kernel

/-- A PREEMPT or RESUME entry of partition 0, and a partition that one of them works on. -/
def preemptEntry : Entry := entryOf 1 (entryBytes 0x50 9 0 0 0 0)
def resumeEntry : Entry := entryOf 1 (entryBytes 0x51 9 0 0 0 0)
def saved : State :=
  let h := leBytes 2 1 ++ leBytes 2 0 ++ leBytes 2 1 ++ zeros 54
  { (placed .preempted).setHbm 0x10000 (h ++ leBytes 4 (crc32 h)) with parts := [(0, { st := .preempted, savedN := 1 })], entries := [resumeEntry] }

theorem test_meets_PreemptSavesAndResumeRestores :
    (let s : State := { placed .active with entries := [preemptEntry] }
     s.partEntry 1 0x50 = some preemptEntry ∧ preemptEntry.parked = none ∧ (s.part 0).shed = none ∧ bitAt preemptEntry.arg0 0 = false ∧ (s.part 0).st = .active ∧ (s.saveBase 0).isSome = true) ∧
    (let s : State := { placed .preempted with entries := [preemptEntry] }
     s.partEntry 1 0x50 = some preemptEntry ∧ (s.part 0).shed = none ∧ (s.part 0).st = .preempted) ∧
    (let s : State := { placed .preempting with entries := [preemptEntry], parts := [(0, { st := .preempting, saving := [1] })] }
     (s.part 0).st = .preempting ∧ (s.saveBase 0).isSome = true ∧ (s.part 0).saving = [1] ∧ s.entry 1 = some preemptEntry ∧ (s.part 0).ops = [] ∧
     preemptEntry.parked = none ∧ s.retrying 0 = false ∧ s.boot.phase ≠ .holding) ∧
    (∀ st ∈ [PartState.active, .resuming], let s : State := { placed st with entries := [resumeEntry] }
     s.partEntry 1 0x51 = some resumeEntry ∧ resumeEntry.parked = none ∧ (s.part 0).st ≠ .preempted ∧ (s.part 0).st ≠ .preempting) ∧
    (saved.partEntry 1 0x51 = some resumeEntry ∧ (saved.part 0).st = .preempted ∧ saved.resumeStatus 0 = 0) ∧
    (let s : State := { saved with parts := [(0, { st := .resuming, restoring := [1], savedN := 1 })] }
     (s.part 0).st = .resuming ∧ s.saveBase 0 = some 0x10000 ∧ (s.part 0).restoring = [1] ∧ s.entry 1 = some resumeEntry ∧ resumeEntry.worked = false ∧
     resumeEntry.parked = none ∧ s.treadle.state = 0 ∧ (s.part 0).ops = [] ∧ s.anyPoison (partCtx 0) (s.moduleNum * 2 ^ 52 + 0x10000) (bankBytes (s.part 0).savedN) false = false) := by decide +kernel

theorem test_meets_CacheWaysAndSharedRegionsChange :
    (∀ v ∈ [0x30000, 0x20000], let s : State := withRegs up [(.partT2Ways 0, 0x10000)]
      s.arrives (.port 0 0) = true ∧ s.fromAdmin (.port 0 0) = true ∧ (s.part 0).st.idle = true ∧ s.resourceFree 0 (.partT2Ways 0) (v % 2 ^ 32) = true ∧
      s.changeOf (.partT2Ways 0) = none ∧ v % 2 ^ 32 ≠ s.reg (.partT2Ways 0)) ∧
    (field 0x10000 16 16 &&& field 0x30000 16 16 = field 0x10000 16 16 ∧ field 0x10000 16 16 &&& field 0x20000 16 16 ≠ field 0x10000 16 16) ∧
    (up.changeOf (.mscPolicy 2) = none ∧ policyValue (up.reg (.mscPolicy 2)) 1 ≠ up.reg (.mscPolicy 2)) ∧
    regAt (Reg.mscPolicy 2).offset = some (.mscPolicy 2) ∧
    (∀ r ∈ [Reg.partT2Ways 0, .mscPolicy 0, .partCtl 0], let l : CacheLine := { key := spaceKey 0 0x40, way := 0, dirty := true }
     let c : CacheChange := { off := r.offset, value := 0 }
     let s := withRegs work [(.partT2Ways 0, 0x10001), (.mscPolicy 0, 2)]
     let t : State := { s with memCtl := { s.memCtl with changes := [c], cache := [l] } }
     t.memCtl.changes = c :: [] ∧ regAt c.off = some r ∧ t.memCtl.scrubWait = [] ∧ t.leavesCache c l = true) ∧
    (bitAt (up.reg (.shrCtl 3)) 24 = false) ∧
    (let s : State := withRegs work [(.shrCtl 0, 2 ^ 24 + 1)]
     bitAt (s.reg (.shrCtl 0)) 24 = true ∧ bitAt 0 24 = false ∧ bitAt (s.reg (.shrCtl 0)) 0 = true ∧ (s.part 0).st.live = true) := by decide +kernel

-- ## Faults

/-- A LINK event of port 0's first link (R440), and one of a stack. -/
def anEvent : FaultEv := { source := 32, cls := 0x10, unit := 0, unit2 := 0, address := 0, detail := 0, island := 0x22, part := none }
def injectEntry (a1 : Nat) : Entry := entryOf 1 (entryBytes 0x70 9 0 32 a1 0)

theorem test_meets_FaultEventsSetTheKnot :
    (classBelongs anEvent.source anEvent.cls = true ∧ anEvent.cls ≠ 0x3E ∧ anEvent.cls ≠ 0x40 ∧ anEvent.cls ≠ 0x14 ∧ up.react 32 ≠ 0 ∧ up.knot.windowOpen = false) ∧
    ((withRegs up [(.knotSrc 32, 0)]).react 32 = 0) ∧
    (∀ d ∈ [false, true], let l : CacheLine := { key := spaceKey 0 0x40, way := 0, dirty := d }
     let ev : FaultEv := { anEvent with source := 56, cls := 0x14, address := 0x7F }
     let s : State := { up with memCtl := { up.memCtl with cache := [l] } }
     classBelongs ev.source ev.cls = true ∧ s.cachedLine ev.address = some l ∧ l.dirty = d ∧ up.cachedLine ev.address = none) ∧
    (up.arrives (.port 0 0) = true ∧ up.fromAdmin (.port 0 0) = true ∧ 61 < 62) ∧
    (let x := injectEntry 0x10
     let s : State := { withRegs work [(.knotSrc 32, 2)] with entries := [x] }
     s.startable 1 0x70 = some x ∧ x.arg1 < 2 ^ 40 ∧ field x.arg1 10 6 = 0 ∧ classBelongs x.arg0 (field x.arg1 0 8) = true ∧
     bitAt x.arg1 8 = false ∧ s.react x.arg0 ≤ 2) ∧
    (let x := injectEntry (0x110 + 255 * 2 ^ 16 + 2 ^ 32)
     (entered [x]).startable 1 0x70 = some x ∧ x.arg1 < 2 ^ 40 ∧ field x.arg1 10 6 = 0 ∧ classBelongs x.arg0 (field x.arg1 0 8) = true ∧
     bitAt x.arg1 8 = true ∧ field x.arg1 0 8 = 0x10 ∧ field x.arg1 16 16 < 256) := by decide +kernel

theorem test_meets_HostClearsTheKnot : up.arrives (.port 0 0) = true ∧ up.fromAdmin (.port 0 0) = true ∧ bitAt 0x10000 16 = true := by decide +kernel

theorem test_meets_RelocationKeepsEveryByte :
    let s : State := { up with memCtl := { up.memCtl with relocating := [31] } }
    0 = b2n false ∧ 31 < 32 ∧ Memory.wf s.mem ∧ s.memCtl.relocating.contains (256 * 0 + 31) = true ∧ s.memCtl.poison = [] ∧ s.memCtl.corrupt = [] := by decide +kernel

/-- Relocation of the tier-2 group that holds unit 0, retired, one line of which was found bad. -/
theorem test_meets_RelocationKeepsEveryByte_bad :
    let s : State := withRegs { up with memCtl := { up.memCtl with relocating := [256] }, retired := [65536 * 2] } ((List.range 12).map (fun i => (.knotSrc (32 + i), 0)))
    1 = b2n true ∧ 0 < 16 ∧ Memory.wf s.mem ∧ s.memCtl.relocating.contains (256 * 1 + 0) = true ∧ s.memCtl.corrupt = [] ∧ s.memCtl.poison.length + 1 < 4096 ∧
    (∀ source, 32 ≤ source → source < 44 → s.react source = 0) ∧ s.bit .knotLogCtl 4 = false ∧ s.memCtl.poison = [] ∧
    (∀ b ∈ [0], b < 2 ^ 48 ∧ groupOf 1 b = 0 ∧ s.isRetired (unitClass 1) (unitOf 1 b) = true ∧
      s.memCtl.relocated.contains (65536 * unitClass 1 + unitOf 1 b) = false) := by
  refine ⟨by decide +kernel, by decide +kernel, by decide +kernel, by decide +kernel, by decide +kernel, by decide +kernel, ?_, by decide +kernel⟩
  intro source h1 h2
  interval_cases source <;> decide +kernel

theorem test_meets_RetirementByScore :
    (4 < unitCount 3 ∧ (up.setUnit 3 4 { score := 0 / 2 + 16 * 0 + 0 }).permanentAt 3 > 0 / 2 + 16 * 0 + 0) ∧
    (up.isRetired 1 255 = false ∧
      (({ up with units := [(65536 + 255, { hard := 1000 })] } : State).setUnit 1 255 { score := 0 / 2 + 16 * 1000 + 0 }).permanentAt 1 ≤ 16 * 1000) ∧
    (up.fromAdmin (.port 0 0) = true ∧ bitAt 1 0 = true ∧ (∀ p, p < 16 → (up.part p).st = .unconfigured)) ∧
    ((work.part 0).st ≠ .unconfigured) ∧ 32 ≤ 43 ∧ (up.port 1).perst = false ∧ (up.port 1).maxWidth ≠ 0 ∧ up.memCtl.scrubWait = [] := by decide +kernel

-- ## Links

/-- The module at the origin of a torus of 4 × 4 × 4, DOMAIN 1, version 1 to 2. -/
def torus : State := withRegs up [(.wflTorus, 0x333)]
/-- One link of that module. -/
def linked (l : Nat) (x : Link) : State := { torus with links := [(l, x)] }
/-- The module that port 0 faces. -/
def facing : State := { torus with straps := 1 }

theorem test_meets_LinksTrainAndFail :
    (torus.arrives (.port 0 0) = true ∧ torus.wflWriter (.port 0 0) = true ∧ torus.linkEn 95 = false ∧ (torus.link 95).st = 0 ∧ torus.extent (95 / 32) ≠ 1) ∧
    ((linked 95 { st := 1 }).link 95).st = 1 ∧ ((linked 95 { st := 2 }).link 95).st = 2 ∧
    (let s := linked 3 { st := 3 }
     let block := facing.identBlock 19
     (s.link 3).st = 3 ∧ block.length = 32 ∧ crc32 (block.take 28) = le block 28 4 ∧ s.identCause 3 block = 0 ∧ (s.commonVersion block).isSome = true ∧
     (s.link 3).switching = none ∧ (s.link 3).resends < 2 ^ 32 ∧ (s.link 3).replay = [] ∧ s.fabric.queue = [] ∧ s.modePolicy 3 ≠ 1 ∧
     (∀ m, m < 96 → m / 16 = 3 / 16 → (s.link m).retrainDue = false)) ∧
    (let s := withRegs (linked 3 { st := 3 }) [(.knotSrc 44, 1)]
     let block := facing.identBlock 20
     s.react (44 + 3 / 16) ≤ 1 ∧ (s.link 3).st = 3 ∧ block.length = 32 ∧ crc32 (block.take 28) = le block 28 4 ∧ s.identCause 3 block ≠ 0) ∧
    (let s := withRegs up [(.knotSrc 49, 0)]
     s.react (44 + 95 / 16) ≤ 1 ∧ s.arrives .manager = true ∧ s.wflWriter .manager = true ∧ s.linkEn 95 = false ∧ (s.link 95).st = 0 ∧ s.extent (95 / 32) = 1) := by
  decide +kernel

theorem test_meets_FacingEndsIdentify :
    ∀ l ∈ [3, 15], l < 96 ∧ l + 16 = 16 * (l / 32 * 2 + (1 - l / 16 % 2)) + l % 16 ∧ facing.moduleNum = torus.neighbour (l / 16) ∧
      torus.inTorus torus.moduleNum = true ∧ facing.regs = torus.regs ∧ facing.domain = torus.domain ∧ torus.boot.image.protoMax < 65536 ∧
      max torus.boot.image.protoMin facing.boot.image.protoMin ≤ min torus.boot.image.protoMax facing.boot.image.protoMax := by decide +kernel

theorem test_meets_LinksLeaveService :
    ((linked 0 { st := 4 }).link 0).st = 4 ∧ ((linked 95 { st := 6 }).link 95).st = 6 ∧
    (let s := withRegs (linked 15 { st := 4 }) [(.wflPortCfg 0, 0x8000)]
     (s.link 15).replay = [] ∧ s.fabric.queue = [] ∧ (s.link 15).fwd = none ∧ (s.link 15).busy = none ∧ s.arrives (.port 0 0) = true ∧
     s.wflWriter (.port 0 0) = true ∧ s.linkEn 15 = true ∧ (s.link 15).st = 4) ∧
    (let s : State := { withRegs torus [(.wflPortCfg 0, 0x8000)] with
       links := [(15, { st := 4, fwd := some 32, rxBuf := [1] }), (32, { st := 4, busy := some 15, sinceIdle := 4093 })] }
     (s.link 15).replay = [] ∧ s.fabric.queue = [] ∧ (s.link 15).busy = none ∧ s.arrives (.port 0 0) = true ∧ s.wflWriter (.port 0 0) = true ∧
     s.linkEn 15 = true ∧ (s.link 15).st = 4 ∧ (s.link 15).fwd = some 32 ∧ 32 ≠ 15 ∧ (s.link 32).st = 4 ∧ (s.link 32).sinceIdle + 1 < 4095) ∧
    (let s := linked 15 { st := 9 }
     (s.link 15).st = 9 ∧ (s.link 15).heldEnable = false) ∧
    (∀ b ∈ [false, true], let s := withRegs (linked 15 { st := 9, heldEnable := true }) [(.wflPortCfg 0, 0x8000 * b2n b)]
     (s.link 15).st = 9 ∧ (s.link 15).heldEnable = true ∧ s.linkEn 15 = b ∧ s.extent (15 / 32) ≠ 1 ∧ (s.link 15).fwd = none ∧ (s.link 15).busy = none ∧
     (s.link 15).replay = [] ∧ s.fabric.queue = []) := by decide +kernel

/-- An unacknowledged flit. -/
def aSent (n : Nat) (tries : Nat := 0) : Sent := { seq := n, body := zeros 496, pkt := none, tries := tries }

theorem test_meets_ReplayAndModes :
    (∀ n ∈ [7, 8], let x : Link := { st := 4, replay := [aSent 4095 n, aSent 0], sinceIdle := 4092 }
      ((linked 0 x).link 0).st = 4 ∧ x.replay = aSent 4095 n :: [aSent 0] ∧ (aSent 4095 n).seq < 4096 ∧ x.armed = 0 ∧ (aSent 4095 n).tries = n ∧
      x.sinceIdle + x.replay.length < 4095 ∧ (∀ g ∈ x.replay, g.seq ≠ ((aSent 4095 n).seq + 4095) % 4096)) ∧
    (let x : Link := { st := 4, ll := true, want := some 1 }
     ((linked 0 x).link 0).st = 4 ∧ x.switching = none ∧ x.ll = true ∧ x.want ≠ some 0) ∧
    (let x : Link := { st := 4, want := some 1 }
     ((linked 0 x).link 0).st = 4 ∧ x.switching = none ∧ x.ll = false ∧ (x.want ≠ some 1 ∨ 0 = 0)) ∧
    (let x : Link := { st := 4, proto := 2, switching := some 1, replay := [aSent 0] }
     ((linked 0 x).link 0).switching = some 1 ∧ x.proto ≠ 1 ∧ x.replay ≠ []) ∧
    (let x : Link := { st := 4, proto := 2, switching := some 0 }
     ((linked 0 x).link 0).switching = some 0 ∧ x.proto ≠ 1 ∧ x.replay = [] ∧ (linked 0 x).fabric.queue = [] ∧
     ((linked 0 x).modePolicy 0 = 0 → 0 ≠ 1) ∧ ((linked 0 x).modePolicy 0 = 1 → 0 = 1)) ∧
    torus.modePolicy 0 ≠ 2 ∧
    (let s := withRegs (linked 0 { st := 4, llq := true, clean := 7, sinceIdle := 4093 }) [(.wflPortCfg 0, 0x20000)]
     s.modePolicy 0 = 2 ∧ (s.link 0).st = 4 ∧ (s.link 0).switching = none ∧ (s.link 0).ll = false ∧ (s.link 0).llq = true ∧
     satInc 32 (s.link 0).fecCorrected 0 ≤ s.fld .wflTemple 16 16 ∧ 7 ≤ (s.link 0).clean ∧ (s.link 0).peerWant ≠ some 1 ∧
     (s.link 0).sinceIdle + 1 < 4095) := by decide +kernel

/-- A packet of module 1 for module 0, of DOMAIN 1 and partition 0, to HBM. -/
def packetOf (ty : Nat) (data : List Byte := []) (len : Nat := 1) (space : Nat := 0) (off : Nat := 0x1000) : Packet :=
  { ty := ty, len := len, vc := 0, detoured := false, dst := 0, space := space, src := 1, srcPart := 0, domain := 1, tag := 77, offset := off, data := data }

theorem test_meets_PacketCrossesALinkWhole :
    (let p := packetOf 3 (zeros 960) 15
     p.wf = true ∧ p.ty ≠ 0 ∧ p.data.length = 64 * pktLines p) ∧
    (let p := packetOf 1 []
     p.wf = true ∧ p.ty ≠ 0 ∧ p.data.length = 64 * pktLines p) := by decide +kernel

/-- A data flit whose body holds nothing but a packet's first 24 bytes at its end. -/
def aFlit (kind seq ack : Nat) : List Byte := flitBytes kind seq ack 0 (zeros 480 ++ leBytes 16 3)

theorem test_meets_FlitsAreTakenInSequence :
    (let f := patch (aFlit 0 0 4095) 100 [1]
     let s : State := { linked 0 { st := 4, rxSeq := 5 } with links := [(0, { st := 4, fwd := some 32, sinceIdle := 4093 }), (32, { st := 4, sinceIdle := 4093 })] }
     f.length = 512 ∧ crc32 (f.take 508) ≠ le f 508 4 ∧ field (le f 0 1) 0 2 = 0 ∧ ((linked 0 { st := 4, naked := true }).link 0).naked = true ∧
     field (le f 2 2) 0 12 ≠ ((linked 0 { st := 4, rxSeq := 5 }).link 0).rxSeq ∧ (s.link 0).naked = false ∧ field (le f 2 2) 0 12 = (s.link 0).rxSeq ∧
     (s.link 0).rxDrop = false ∧ (s.link 0).fwd = some 32 ∧ (s.link 32).sinceIdle + 1 < 4095 ∧ (s.link 0).sinceIdle + 1 < 4095 ∧ s.parts = []) ∧
    (let f := aFlit 4 9 4095
     f.length = 512 ∧ crc32 (f.take 508) = le f 508 4 ∧ bitAt (le f 0 1) 2 = true) ∧
    (let f := aFlit 0 4095 4095
     let x : Link := { st := 4, rxSeq := 4095, naked := true }
     f.length = 512 ∧ crc32 (f.take 508) = le f 508 4 ∧ bitAt (le f 0 1) 2 = false ∧ field (le f 0 1) 0 2 = 0 ∧ field (le f 2 2) 0 12 ≠ 0 ∧
     field (le f 2 2) 0 12 = x.rxSeq ∧ (splitBody 32 x.rxBuf (slice f 12 496)).1 = [] ∧ (∀ g ∈ x.replay, g.seq ≠ field (le f 4 2) 0 12) ∧
     field (le f 6 2) 3 9 = 0 ∧ (pktOfBytes ((splitBody 32 x.rxBuf (slice f 12 496)).2.take 16)).dst = up.moduleNum) := by decide +kernel

-- ## Packets

theorem test_meets_CombinationIsOrderFree :
    [(1, 5), (2, 2 ^ 64 - 1)].Perm [(2, 2 ^ 64 - 1), (1, 5)] ∧ (∀ c ∈ [(1, 5), (2, 2 ^ 64 - 1)], c.2 < if 4 % 4 = 0 then 2 ^ 64 else 2 ^ 512) ∧
    (∀ c ∈ [(1, 2 ^ 512 - 1)], c.2 < if 5 % 4 = 0 then 2 ^ 64 else 2 ^ 512) := by decide +kernel

/-- Partition 0 ACTIVE, exporting 16 MiB of HBM to every module; links of dimension 0 carry packets. -/
def exporting : State :=
  { withRegs work [(.wflTorus, 0x333), (.expCtl 0 0, 0xF0), (.expLimit 0 0, 0xFF), (.expSrc 0 0, 0xFFF000)] with links := [(0, { st := 4 }), (16, { st := 4 })] }

theorem test_meets_RequestsArePerformed :
    (∀ q ∈ [packetOf 1, packetOf 1 [] 8 0 (2 ^ 24 - 512), packetOf 3 (zeros 64), packetOf 3 (zeros 512) 8, packetOf 5 (leBytes 1 2 ++ zeros 63)],
      q.domain = exporting.domain ∧ q.dst = exporting.moduleNum ∧ exporting.treadle.state ≠ 2 ∧ exporting.checkRequest q = .ok (some 0) ∧ q.space < 2) ∧
    exporting.deferred = [] ∧ exporting.flips = [] ∧ (exporting.part 0).shed = none ∧ exporting.fabric.applied = [] ∧
    (packetOf 3 (zeros 512) 8).data.length = 64 * 8 ∧ (packetOf 5 (leBytes 1 2 ++ zeros 63)).data.length = 64 := by decide +kernel

/-- One request remembered as applied. -/
def remembered (q : Packet) : State := { exporting with fabric := { applied := [{ src := q.src, tag := q.tag, resp := q }] } }

theorem test_meets_RequestsAreRefusedOrRepeated :
    ({ packetOf 1 with domain := 2 }).domain ≠ exporting.domain ∧
    (let q := packetOf 3 (zeros 64)
     q.domain = (remembered q).domain ∧ q.dst = (remembered q).moduleNum ∧ q.ty ≠ 1 ∧
     (remembered q).fabric.applied.find? (fun y => y.src == q.src && y.tag == q.tag) = some { src := q.src, tag := q.tag, resp := q }) ∧
    (let s : State := { exporting with treadle := { exporting.treadle with state := 2 } }
     s.treadle.state = 2 ∧ (packetOf 1).domain = s.domain ∧ (packetOf 1).dst = s.moduleNum ∧ (packetOf 1).ty = 1 ∧ (packetOf 1).space = 0) ∧
    (exporting.deferred = [] ∧ exporting.memCtl.corrupt = [] ∧ exporting.looms = [] ∧ exporting.checkRequest (packetOf 1 [] 8 0 (2 ^ 24)) = .error 2 ∧ exporting.checkRequest (packetOf 1 [] 1 0 8) = .error 3) := by decide +kernel

/-- One request of this module to module 1, outstanding. -/
def asked (q : Packet) (i : Issuer) (waiting : Bool := false) : State :=
  { exporting with fabric := { requests := [{ dst := 1, tag := 77, pkt := q, issuer := i, waiting := waiting }] } }
/-- An entry that waits for acknowledgements. -/
def waiter (acks : Nat) : Entry := { fenceEntry with st := .running, acks := acks, worked := true }

theorem test_meets_ResponsesEndTheirRequests :
    (let q := packetOf 4 []
     q.domain = exporting.domain ∧ q.dst = exporting.moduleNum ∧ (asked (packetOf 3 (zeros 64)) .outside).openReq q.src q.tag =
       some { dst := 1, tag := 77, pkt := packetOf 3 (zeros 64), issuer := .outside } ∧ (packetOf 3).ty + 1 = q.ty) ∧
    (let q := packetOf 2 (zeros 512) 8
     ((asked (packetOf 1 [] 8) .outside).openReq q.src q.tag).isSome = true ∧ q.ty = 2 ∧ (packetOf 1 [] 8).ty = 1 ∧
     q.data.length = 64 * (packetOf 1 [] 8).len) ∧
    (∀ n ∈ [1, 2], let s : State := { asked (packetOf 3 (zeros 64)) (.entry 1) with entries := [waiter n] }
      s.entry 1 = some (waiter n) ∧ (waiter n).worked = true ∧ s.runs (waiter n).part = true ∧ (waiter n).failing = none ∧ (waiter n).acks = n ∧
      s.deferred = [] ∧ s.mates = [] ∧ (waiter n).parked = none ∧
      (s.openReq 1 77).isSome = true) ∧
    (let q := { packetOf 8 [] with offset := 5 }
     q.ty = 8 ∧ q.vc < 4 ∧ nackStatus (q.offset % 256) = some stRetryExhausted) ∧
    (let q := { packetOf 8 [] with offset := 1 }
     q.vc < 4 ∧ q.offset % 256 = 1) ∧
    (let s := asked { packetOf 3 (zeros 64) with dst := 1, src := 0 } .outside true
     (s.fabric.requests.filter (fun y => y.dst == 1 && !y.waiting)).length < 4096 ∧ (s.send { packetOf 3 (zeros 64) with dst := 1, src := 0 }).2 = true) := by
  decide +kernel

/-- A stream of collective 0 without a plan. -/
def bareStream : Stream := { draft := 1, node := 0, block := zeros 64, pick := 3, attempt := 1 }
def streaming (x : Stream) : State := { exporting with parts := [(0, { st := .active, streams := [x] })] }

theorem test_meets_ReductionPacketsJoinTheirStream :
    (let q := packetOf 0x10 (zeros 64) 1 0 0
     q.domain = exporting.domain ∧ q.dst = exporting.moduleNum ∧ exporting.redStream (field (q.offset / 2 ^ 32) 0 12) q.src = none) ∧
    (let q := packetOf 0x10 (zeros 64) 1 0 0
     (streaming bareStream).redStream (field (q.offset / 2 ^ 32) 0 12) q.src = some (0, bareStream) ∧
     (streaming bareStream).stream 0 1 0 = some bareStream ∧ bareStream.tag ≠ q.tag) ∧
    (let q := { packetOf 0x10 (zeros 64) 1 0 0 with tag := 0x103 }
     let x : Stream := { bareStream with status := some 0 }
     (streaming x).redStream 0 q.src = some (0, x) ∧ x.tag = q.tag ∧ (streaming x).stream 0 1 0 = some x ∧ (x.fates q).length = 8) ∧
    (let q := { packetOf 8 [] with vc := 4, offset := 1 }
     q.ty = 8 ∧ q.domain = exporting.domain ∧ q.dst = exporting.moduleNum ∧ 4 ≤ q.vc ∧ q.offset % 256 = 1) ∧
    exporting.deferred = [] ∧ exporting.fabric.redRetry = [] ∧
    (let y := packetOf 0x10 (zeros 64)
     let s : State := { streaming { bareStream with sent := [y] } with fabric := { redRetry := [y] } }
     s.fabric.redRetry = [y] ∧ ∃ a ∈ s.parts, ∃ x ∈ a.2.streams, y ∈ x.sent) := by decide +kernel

-- ## The manager and its members

/-- A manager message of module 1 for job 7. -/
def msgOf (msg : Nat) (line : List Byte) (part : Nat := 0) : Packet :=
  { packetOf 0x20 (line ++ zeros (64 - line.length)) with len := if msg = 1 then 0 else 1, offset := msg + 256 * 7, srcPart := part }
/-- This module as the manager of a pod: job 7 in slot 3, FLOOR 2, numeric version 1, members module 1 and 2. -/
def managing (j : MgrJob) (role : Nat := 1) : State :=
  { withRegs exporting [(.jtCtl 3, 0x10007), (.jtVer 3, 0x10002)] with straps := 4096 * role, manager := { jobs := [(3, j)] } }
/-- Partition 0 as a member of job 7 under the manager at module 1. -/
def member (j : Job) : State :=
  { withRegs exporting [(.jobCtl 0, 0x10007), (.jobMgr 0, 1 + 2 * 4096 + 2 ^ 24)] with parts := [(0, { st := .active, job := j })] }

def joinLine (v n part : Nat) : List Byte := leBytes 2 v ++ leBytes 2 n ++ leBytes 4 part

theorem test_meets_MembersJoinTheirJob :
    (let s : State := (withRegs exporting [(.jtAddr 63 0, 0x20000)]).setHbm 0x20000 (leBytes 4 2 ++ zeros 60 ++ leBytes 4 1 ++ leBytes 4 0x1002)
     s.arrives (.port 0 0) = true ∧ s.mgrWriter (.port 0 0) = true ∧ bitAt 0x10007 16 = true ∧ s.slotOn 63 = false ∧ s.memberTable 63 = some [1, 0x1002]) ∧
    (exporting.memberTable 63 = none ∧ exporting.slotOn 63 = false) ∧ (bitAt 0 16 = false ∧ (managing {}).slotOn 3 = true) ∧
    (exporting.memberWriter (.port 0 0) 15 = true ∧ bitAt 0x30007 16 = true ∧ bitAt 0x30007 17 = true ∧ bitAt 0x10007 17 = false ∧
      (exporting.part 15).job.joined = false ∧ (exporting.part 15).job.joining = false) ∧
    ((member { st := .halted, joined := true }).memberWriter .manager 0 = true ∧ ((member { st := .halted, joined := true }).part 0).job.st = .halted) := by
  decide +kernel

theorem test_meets_MembersJoinTheirJob_manager :
    (∀ q ∈ [msgOf 2 (joinLine 1 1 0), msgOf 2 (joinLine 2 0 0)],
      let s := managing { members := [1, 2] }
      s.isMgr q 2 = true ∧ s.slotOf (mgrJobId q) = some 3 ∧ (le q.data 0 2 < s.floor 3 ∨ le q.data 2 2 ≠ s.numericOf 3)) ∧
    (let q := msgOf 2 (joinLine 2 1 0)
     let s := managing { members := [1, 2] }
     s.isMgr q 2 = true ∧ s.slotOf (mgrJobId q) = some 3 ∧ 1 = q.src + 4096 * (le q.data 4 4 % 16) ∧ s.floor 3 ≤ le q.data 0 2 ∧
     le q.data 2 2 = s.numericOf 3 ∧ (s.mjob 3).st = 0 ∧ 1 ∈ (s.mjob 3).members ∧ (∃ k ∈ (s.mjob 3).members, k ≠ 1 ∧ k ∉ (s.mjob 3).joined)) ∧
    (let s := managing { members := [1, 2], joined := [2] }
     s.slotUp 3 = false ∧ (s.mjob 3).st = 0 ∧ (∀ k ∈ (s.mjob 3).members, k = 1 ∨ k ∈ (s.mjob 3).joined)) ∧
    (let q := msgOf 2 (joinLine 2 1 15)
     let s := managing { members := [1, 2], joined := [1, 2], st := 1 }
     1 + 4096 * 15 = q.src + 4096 * (le q.data 4 4 % 16) ∧ (s.mjob 3).st ≠ 0 ∧ 1 + 4096 * 15 ∉ (s.mjob 3).members ∧ (s.mjob 3).members ≠ [] ∧
     1 ∈ (s.mjob 3).members) ∧
    (∀ n ∈ [0, 3], let q := msgOf 3 (leBytes 2 n)
      let s := member { joining := true }
      s.isMgr q 3 = true ∧ s.membersOf q = [0] ∧ s.relayed q = none ∧ (s.part 0).job.joining = true ∧ le q.data 0 2 = n) := by decide +kernel

def reportLine (pick attempt verdict gen : Nat) : List Byte := leBytes 8 pick ++ leBytes 1 attempt ++ leBytes 1 verdict ++ zeros 2 ++ leBytes 4 gen ++ leBytes 12 99

theorem test_meets_StepsAreDecidedTogether :
    (let q := msgOf 4 (reportLine 9 2 1 1)
     let s := managing { members := [1, 2], joined := [1, 2], st := 1, pick := 8, current := 258 }
     s.isMgr q 4 = true ∧ s.slotOf (mgrJobId q) = some 3 ∧ 1 = q.src + 4096 * q.srcPart ∧ 9 = le q.data 0 8 ∧ 1 ∈ (s.mjob 3).members ∧
     (s.mjob 3).told ≤ le q.data 12 4 ∧ (s.mjob 3).pick < 9 ∧ le q.data 8 1 = (s.mjob 3).current % 256 ∧ (s.mjob 3).reports = [] ∧
     (∃ k ∈ (s.mjob 3).members, k ≠ 1)) ∧
    (let s := managing { members := [1, 2], st := 1, pick := 8, current := 258, reports := [{ member := 2, pick := 9, attempt := 2, verdict := 0, locator := [] }] }
     s.slotUp 3 = false ∧ (∀ k ∈ (s.mjob 3).members, k = 1 ∨ ∃ x ∈ (s.mjob 3).reports, x.member = k ∧ x.pick = 9 ∧ x.attempt = (s.mjob 3).current % 256)) ∧
    (let q := msgOf 0xA (leBytes 8 9 ++ leBytes 2 5)
     let s := managing { members := [1, 2], st := 1 }
     let t := managing { members := [1, 2], st := 1, barriers := [(2, 9, 5)] }
     s.isMgr q 0xA = true ∧ s.slotOf (mgrJobId q) = some 3 ∧ (9, 5) = (le q.data 0 8, le q.data 8 2) ∧ (s.mjob 3).barriers = [] ∧
     (∀ k ∈ (t.mjob 3).members, k = 1 ∨ (k, 9, 5) ∈ (t.mjob 3).barriers) ∧ t.slotUp 3 = false) ∧
    (let q := msgOf 5 (leBytes 8 9 ++ leBytes 1 1 ++ leBytes 1 2)
     let s := member { st := .running, joined := true, pick := 9, attempt := 257, reported := true }
     s.isMgr q 5 = true ∧ s.membersOf q = [0] ∧ s.relayed q = none ∧ (s.part 0).job.reported = true ∧ le q.data 0 8 = (s.part 0).job.pick ∧
     le q.data 8 1 = (s.part 0).job.attempt % 256 ∧ le q.data 9 1 ≤ 2 ∧ (s.part 0).st = .active ∧ (s.part 0).job.st ≠ .preempted ∧
     (s.part 0).job.st ≠ .halted ∧ s.boot.phase = .idle) ∧
    (let q := msgOf 0xB (leBytes 8 9 ++ leBytes 2 0)
     let y : Node := { bytes := nodeRec 8 [] [], succ := [], deps := 0, st := .running }
     let x : Draft := { id := 1, part := 0, acc := some 1, nodes := [y, y] }
     let s : State := { member { st := .running, joined := true, pick := 9, barriers := [(1, 0)], step := some 1 } with drafts := [x] }
     s.isMgr q 0xB = true ∧ s.membersOf q = [0] ∧ s.relayed q = none ∧ (s.part 0).job.pick = le q.data 0 8 ∧ 0 = le q.data 8 2 ∧ s.draft 1 = some x ∧
     x.nodes[0]? = some y ∧ y.isDone = false ∧ y.acks = 0 ∧ y.failing = none ∧ x.nodes[1]? = some y ∧ x.failed = false) :=
  ⟨by decide +kernel, by decide +kernel, by decide +kernel, by decide +kernel, by decide +kernel⟩

theorem test_meets_LossesAndTakeovers :
    (let s := managing { members := [1, 2], st := 1, missed := [(0x1001, 3), (2, 4)] }
     s.isMgr (msgOf 1 []) 1 = true ∧ s.slotOf (mgrJobId (msgOf 1 [])) = some 3 ∧ s.role ≠ 3) ∧
    (up.role = 0 ∧ (managing {} 3).role = 3 ∧ (managing { members := [1, 2] }).role ≠ 0 ∧ (managing {}).slotOn 3 = true ∧ ([1, 2] : List Nat).Nodup) ∧
    (let s := withRegs (managing { members := [1, 2], st := 1, missed := [(2, 4)] }) [(.mgrHb, 0x400)]
     s.deferred = [] ∧ (s.mjob 3).going = none ∧ s.acts = true ∧ s.slotOn 3 = true ∧ (∃ k ∈ (s.mjob 3).members, k % 4096 = 2) ∧ (∃ x ∈ (s.mjob 3).missed, x.1 % 4096 = 2 ∧ s.hbMiss ≤ x.2) ∧
     (let v := 2 ^ 31 + 3 * 4096 + 2
      s.arrives (.port 0 0) = true ∧ s.mgrWriter (.port 0 0) = true ∧ bitAt v 31 = true ∧ field v 12 6 = 3 ∧ field v 0 12 = 2)) ∧
    (let q := msgOf 8 (leBytes 2 5 ++ zeros 2 ++ leBytes 4 2)
     let s := member { st := .running, joined := true, pick := 9, attempt := 254, memberGen := 1 }
     s.deferred = [] ∧ s.memCtl.corrupt = [] ∧ s.looms = [] ∧ s.isMgr q 8 = true ∧ s.membersOf q = [0] ∧ s.slotOf (mgrJobId q) = none ∧ (s.part 0).job.joined = true ∧ (s.part 0).job.st ≠ .halted ∧
     (s.part 0).job.memberGen < le q.data 4 4 ∧ le q.data 0 2 % 4096 ≠ s.moduleNum ∧ (s.part 0).shed = none ∧ (s.part 0).job.attempt < 255) ∧
    (let q := { msgOf 9 (leBytes 2 1) with src := 2 }
     let s := member { joined := true }
     s.isMgr q 9 = true ∧ s.hasJob 0 = true ∧ s.fld (.jobMgr 0) 0 12 = le q.data 0 2 % 4096 ∧ s.bit (.jobMgr 0) 24 = true ∧
     s.fld (.jobMgr 0) 12 12 = q.src) ∧
    (let s : State := { managing {} 3 with manager := { silent := 4 } }
     s.role = 3 ∧ s.manager.tookOver = false ∧ s.hbMiss ≤ s.manager.silent) := by decide +kernel

/-- A plan's bytes: PLAN_ID 5, two RECV entries of 64 bytes from module 1. -/
def recvEntry : List Byte := patch (patch (patch (zeros 32) 0 [2]) 12 (leBytes 2 1)) 24 (leBytes 4 64)
def aPlan : List Byte := patch (patch (zeros 64) 0 (leBytes 4 5)) 24 (leBytes 4 2) ++ recvEntry ++ recvEntry
def shedding (x : Shed) : State := { member { st := .boundary, joined := true } with parts := [(0, { st := .active, shed := some x, job := { st := .boundary, joined := true } })] }

theorem test_meets_ShedChangesAdvance :
    (let x := entryOf 1 (entryBytes 0x22 9 1 0x40000 0 0)
     let s : State := { member { st := .boundary, joined := true } with entries := [x] }
     s.deferred = [] ∧ s.memCtl.corrupt = [] ∧ s.looms = [] ∧ s.startable 1 0x22 = some x ∧ (s.part x.part).st.idle = false ∧ s.hasJob x.part = true ∧ (s.part x.part).job.joined = true ∧
     s.solo x.part = false ∧ s.due x = true) ∧
    (let q := msgOf 6 (leBytes 4 5)
     let s := managing { members := [1, 2], st := 1 }
     s.isMgr q 6 = true ∧ s.slotOf (mgrJobId q) = some 3 ∧ le q.data 6 1 = 0 ∧ 1 ∈ (s.mjob 3).members ∧ (s.mjob 3).going = none ∧
     (s.mjob 3).sheds = [] ∧ (∃ k ∈ (s.mjob 3).members, k ≠ 1)) ∧
    (let s := managing { members := [1, 2], st := 1, sheds := [{ member := 2, plan := 5, status := 0, phase := 0 }] }
     (∀ x ∈ (s.mjob 3).sheds, ¬(x.member = 1 ∧ x.phase = 0)) ∧ (∀ k ∈ (s.mjob 3).members, k = 1 ∨ ∃ x ∈ (s.mjob 3).sheds, x.member = k) ∧
     s.slotUp 3 = false ∧ (s.mjob 3).sheds ≠ [] ∧ (∀ x ∈ (s.mjob 3).sheds, x.status = 0 ∧ x.plan = 5) ∧ s.listStatus 3 5 = 0) ∧
    (le (msgOf 6 (leBytes 4 5 ++ leBytes 2 8)).data 4 2 ≠ 0) ∧
    (∀ n ∈ [0, 2], let q := msgOf 7 (leBytes 4 5 ++ leBytes 2 n)
      let x : Shed := { issuer := .outside, plan := aPlan }
      let s := shedding x
      s.isMgr q 7 = true ∧ s.membersOf q = [0] ∧ s.relayed q = none ∧ (s.part 0).shed = some x ∧ planId x.plan = le q.data 0 4 ∧ le q.data 6 1 = 0 ∧
      s.deferred = [] ∧ x.peerFailing = none ∧ x.go = false ∧ le q.data 4 2 = n ∧ x.status = 0 ∧ planResume x.plan = false ∧ x.failing = none ∧
      0 < planEntryCount x.plan) ∧
    (let q := msgOf 0xC (leBytes 4 5 ++ leBytes 4 1)
     let x : Shed := { issuer := .outside, plan := aPlan, go := true, arrived := [(1, 64)] }
     let s := shedding x
     s.isMgr q 0xC = true ∧ (List.range 16).filter (fun p => s.hasJob p && s.jobId p == mgrJobId q) = [0] ∧ planId x.plan = le q.data 0 4 ∧
     q.src + 4096 * le q.data 4 4 ∉ x.cleared ∧ s.deferred = [] ∧ s.memCtl.corrupt = [] ∧ x.peerFailing = none ∧ s.runs 0 = true ∧ x.failing = none ∧ 1 < planEntryCount x.plan ∧ moveOp (planMove x.plan 0) = 2 ∧
     x.taken (movePeer (planMove x.plan 0)) + moveBytes (planMove x.plan 0) ≤ tget 0 x.arrived (movePeer (planMove x.plan 0)) ∧
     (∃ k, k < planEntryCount x.plan ∧ k ≠ 0 ∧ k ∉ x.done)) := by
  refine ⟨by decide +kernel, by decide +kernel, by decide +kernel, by decide +kernel, by decide +kernel, ?_⟩
  exact ⟨by decide +kernel, by decide +kernel, by decide +kernel, by decide +kernel, by decide +kernel, by decide +kernel, by decide +kernel,
    by decide +kernel, by decide +kernel, by decide +kernel, by decide +kernel, by decide +kernel, 1, by decide +kernel⟩

-- ## Entries

theorem test_meets_CopyAndSignal :
    (∀ n ∈ [1, 100], let x := entryOf 1 (entryBytes 2 9 0 0x20000 0x40000 n)
      let s := entered [x]
      let c := s.entryCtx x
      s.startable 1 2 = some x ∧ s.due x = true ∧ s.behind x = false ∧ n = field x.arg2 0 40 ∧ s.deferred = [] ∧ s.flips = [] ∧ s.memCtl.poison = [] ∧
      s.memCtl.corrupt = [] ∧ s.memCtl.armed = [] ∧ s.shuttles = [] ∧ s.mates = [] ∧ x.worked = false ∧ s.rangeOpen x.arg0 n = true ∧ s.rangeOpen x.arg1 n = true ∧
      x.acks = 0 ∧ x.failing = none ∧ x.result = 0 ∧ s.isLocal x.arg0 = true ∧ s.isLocal x.arg1 = true ∧ gSpace x.arg0 ≤ 1 ∧
      gOffset x.arg0 + n ≤ 2 ^ 48 ∧ s.readErr c x.arg0 n = none ∧ s.writeErr c x.arg1 n = none ∧ gOffset x.arg0 + n ≤ gOffset x.arg1 ∧
      (List.range n).all (fun i => s.byteAllowed c (x.arg1 + i) true) = true) ∧
    (∀ op ∈ [0, 1, 2], let x := entryOf 1 (entryBytes 4 9 0 0x20008 (2 ^ 64 - 1) op)
      let s := entered [x]
      let c := s.entryCtx x
      s.startable 1 4 = some x ∧ s.deferred = [] ∧ s.flips = [] ∧ s.memCtl.poison = [] ∧ s.memCtl.corrupt = [] ∧ s.memCtl.armed = [] ∧ s.mates = [] ∧
      x.acks = 0 ∧ x.failing = none ∧ x.result = 0 ∧ (∀ y ∈ s.entries, y.before x = false) ∧ x.arg0 % 8 = 0 ∧ x.arg2 = op ∧ s.readErr c x.arg0 8 = none ∧
      s.writeErr c x.arg0 8 = none ∧ gSpace x.arg0 ≤ 1 ∧ s.isLocal x.arg0 = true) := by decide +kernel

theorem test_meets_QueryAnswers :
    ∀ k ∈ [0, 1, 2, 3, 255], let x := entryOf 1 (entryBytes 0x60 9 0 k 0 0)
      let s := entered [x]
      s.entry 1 = some x ∧ x.opcode = 0x60 ∧ x.st = .ready ∧ x.parked = none ∧ s.fenced x = false ∧ field x.arg0 0 8 = k := by decide +kernel

/-- A joined member of a SOLO job, at a boundary. -/
def soloJob (j : Job) (xs : List Entry) : State :=
  { withRegs (entered xs) [(.jobCtl 0, 0x30007)] with parts := [(0, { st := .active, job := j })] }
/-- DRAFT_RUN of `n` nodes at HBM offset 0x20000. -/
def runEntry (n : Nat) : Entry := entryOf 1 (entryBytes 1 9 0 0x20000 n 0x30000)
/-- A BARRIER node's record. -/
def barrierRec (id : Nat) : List Byte := patch (nodeRec 8 [] []) 0 (leBytes 2 id)

theorem test_meets_DraftRunEntersTheHeddle :
    (let x := runEntry 2
     let s := (soloJob { st := .boundary, joined := true } [x]).setHbm 0x20000 (barrierRec 0 ++ barrierRec 1)
     let c := s.entryCtx x
     s.startable 1 1 = some x ∧ (s.part x.part).st.idle = false ∧ 2 = field x.arg1 0 17 ∧ x.resident = false ∧ x.makeResident = false ∧ x.noStep = false ∧
     s.deferred = [] ∧ s.overLimit x = false ∧ (s.part x.part).job.joined = true ∧ s.secure = false ∧ s.fetch c x.arg0 256 = some (barrierRec 0 ++ barrierRec 1) ∧
     s.fetch c x.arg2 (2 * succLength (barrierRec 0 ++ barrierRec 1)) = some [] ∧
     draftFault (s.clusterCount x.part) (nodesOf (barrierRec 0 ++ barrierRec 1) []) = none) ∧
    (let x := runEntry 1
     let s := soloJob { st := .boundary, joined := true } [x]
     s.fetch (s.entryCtx x) x.arg0 128 = some (zeros 128) ∧ draftFault (s.clusterCount x.part) (nodesOf (zeros 128) []) = some 0) ∧
    (let s : State := { soloJob { joined := true } [runEntry 1] with fuses := deliveredFuses + 2 ^ 954 }
     s.startable 1 1 = some (runEntry 1) ∧ s.secure = true ∧ s.owner 0 = some (0, 0) ∧ bitAt s.trust.attested 0 = false) ∧
    (let s := soloJob {} [runEntry 1]
     s.startable 1 1 = some (runEntry 1) ∧ s.attestedFor 0 = true ∧ (s.part 0).job.joined = false ∧ (s.part 0).job.refusal = none) := by decide +kernel

/-- Four versions, the second current. -/
def fourVersions : List Version := [{ number := 1, st := .held, hold := false }, { number := 2, st := .current, hold := false },
  { number := 3, st := .published, forms := 1 }, { number := 4, st := .published }]

theorem test_meets_VersionsArePublishedAndSwitched :
    (let x := entryOf 1 (entryBytes 0x20 9 5 5 0 0)
     let s := soloJob { st := .boundary, joined := true, pick := 5, versions := fourVersions, maxVersion := 4 } [x]
     let t := soloJob { st := .boundary, joined := true, pick := 5, versions := fourVersions.take 3, maxVersion := 4 } [x]
     let u := soloJob { st := .boundary, joined := true, pick := 5, versions := fourVersions, maxVersion := 5 } [x]
     s.startable 1 0x20 = some x ∧ (s.part 0).st.idle = false ∧ s.hasJob 0 = true ∧ 5 = field x.arg0 0 32 ∧ s.atBoundary 0 = true ∧
     (t.part 0).job.joined = true ∧ (t.part 0).job.st = .boundary ∧ t.atBoundary 0 = true ∧ t.startable 1 0x20 = some x ∧ t.hasJob 0 = true ∧
     x.effPick ≤ t.pickOf 0 ∧ (t.part 0).job.maxVersion < 5 ∧ x.effPick ≤ s.pickOf 0 ∧ 4 ≤ (s.part 0).job.versions.length ∧ (t.part 0).job.versions.length < 4 ∧ 5 ≤ (u.part 0).job.maxVersion ∧ x.part = 0) ∧
    (let x := entryOf 1 (entryBytes 0x20 9 6 5 0 0)
     let s := soloJob { st := .boundary, joined := true, pick := 5 } [x]
     s.startable 1 0x20 = some x ∧ s.pickOf x.part < x.effPick) ∧
    (∀ w ∈ [3, 2], let x := entryOf 1 (entryBytes 0x21 9 6 w 0 0)
      let s := soloJob { st := .boundary, joined := true, pick := 5, versions := fourVersions } [x]
      s.startable 1 0x21 = some x ∧ (s.part 0).st.idle = false ∧ s.hasJob 0 = true ∧ (s.part 0).job.joined = true ∧ w = field x.arg0 0 32 ∧
      s.due x = true ∧ s.behind x = false ∧ (s.part 0).job.unswitched = [] ∧ s.maySwitch 0 w = decide (w = 3)) ∧
    (let x := entryOf 1 (entryBytes 0x21 9 7 3 0 0)
     let s := soloJob { st := .boundary, joined := true, pick := 5, versions := fourVersions } [x]
     s.startable 1 0x21 = some x ∧ s.due x = false) := by decide +kernel

/-- Partition 0 with a step-size table and a freeze table in HBM. -/
def tabled (xs : List Entry) : State := withRegs (entered xs) [(.updStep 0 0, 0x100000), (.updFreeze 0 0, 0x200000)]
def freezeItem (op group layer base : Nat) (mask : List Byte) : List Byte :=
  leBytes 1 op ++ zeros 1 ++ leBytes 2 group ++ leBytes 2 layer ++ zeros 2 ++ leBytes 8 base ++ zeros 16 ++ mask

theorem test_meets_StepSizesAndFreezes :
    (∀ g ∈ [0, 4095], let x := entryOf 1 (entryBytes 0x30 9 0 g 0x3F800000 0)
      let s := tabled [x]
      let b := 0x100000 + 1024 + 32 * x.arg0 + 12
      s.startable 1 0x30 = some x ∧ s.due x = true ∧ s.behind x = false ∧ s.stepTable x.part = some 0x100000 ∧ x.arg0 < 4096 ∧
      s.privileged x.part x.arg0 = false ∧ s.isLocal b = true ∧ gSpace b = 0 ∧ s.flips = [] ∧ s.writeErr (partCtx x.part) b 12 = none) ∧
    (let x := entryOf 1 (entryBytes 0x30 9 0 4096 0x3F800000 0)
     (tabled [x]).startable 1 0x30 = some x ∧ (entered [x]).stepTable 0 = none ∧ 4096 ≤ x.arg0) ∧
    (∀ op ∈ [1, 5], let x := entryOf 1 (entryBytes 0x31 9 0 0x300000 1 0)
      let item := freezeItem op 4095 0 0 (zeros 32)
      let s := (tabled [x]).setHbm 0x300000 item
      s.startable 1 0x31 = some x ∧ s.due x = true ∧ s.behind x = false ∧ s.freezeTable x.part = some 0x200000 ∧ x.arg0 % 64 = 0 ∧
      s.fetch (s.entryCtx x) x.arg0 (64 * x.arg1) = some item ∧
      ((List.range x.arg1).map (fun i => slice item (64 * i) 64)).all freezeEntryOk = decide (op = 1) ∧
      (freezeApply (s.freezeEntries x.part) (le (s.valueAt (partCtx x.part) 0x200000 512) 0 512) [item]).isSome = true ∧
      s.deferred = [] ∧ s.isLocal 0x200000 = true ∧ s.flips = [] ∧ s.memCtl.poison = [] ∧ s.memCtl.corrupt = [] ∧ s.memCtl.armed = [] ∧
      s.writeErr (partCtx x.part) 0x200000 512 = none ∧ s.writeErr (partCtx x.part) (0x200000 + 1024) 65536 = none) := by decide +kernel

/-- A freeze table whose 1,024 entries are all valid: byte 2 of each is 1. -/
def fullCells (n : Nat) : List Host.Cell := (List.range' 0 n).map (fun k => (0x200402 + 64 * k, (1 : Byte)))
def fullTable (xs : List Entry) : State := { tabled xs with mem := fullCells 1024 }

theorem tget_stride (d v : Byte) (b x : Nat) : ∀ n m, tget d ((List.range' m n).map (fun k => (b + 64 * k, v))) x =
    if b + 64 * m ≤ x ∧ x < b + 64 * (m + n) ∧ (x - b) % 64 = 0 then v else d
  | 0, m => by simp [tget]; omega
  | n + 1, m => by
    rw [List.range'_succ, List.map_cons, tget, tget_stride d v b x n (m + 1)]
    split_ifs <;> first | rfl | omega

theorem fullTable_mem (x : Nat) : (fullTable []).rd x =
    if 0x200402 ≤ x ∧ x < 0x200402 + 65536 ∧ (x - 0x200402) % 64 = 0 then 1 else 0 := by
  have e : (fullTable []).mem = fullCells 1024 := rfl
  rw [State.rd, e, fullCells, tget_stride]

theorem fullTable_key (o : Nat) (h : o < 2 ^ 48) : (fullTable []).isLocal o = true ∧ gSpace o ≠ 8 ∧ (fullTable []).keyOf (partCtx 0) o false = o := by
  have hf : (fullTable []).flips = [] := by decide +kernel
  have hr : (fullTable []).memCtl.relocated = [] := by decide +kernel
  have hm : (fullTable []).moduleNum = 0 := by decide +kernel
  have hs : gSpace o = 0 := by simp only [gSpace]; omega
  have ho : gOffset o = o := by simp only [gOffset]; omega
  have hg : gModule o = 0 := by simp only [gModule]; omega
  refine ⟨by simp [State.isLocal, hg, hm], by simp [hs], ?_⟩
  simp only [State.keyOf, hs, ho, State.flipOffset, State.flipAt, hf, State.dataKey, hr]
  simp [spaceKey]

theorem fullTable_entry (k : Nat) (h : k < 1024) : le ((fullTable []).valueAt (partCtx 0) (0x200000 + 1024 + 64 * k) 64) 0 2 = 0 ∧
    le ((fullTable []).valueAt (partCtx 0) (0x200000 + 1024 + 64 * k) 64) 2 1 = 1 := by
  obtain ⟨hl, hs, -⟩ := fullTable_key (0x200000 + 1024 + 64 * k) (by omega)
  have hk (i : Nat) (hi : i < 3) : (fullTable []).keyOf (partCtx 0) (0x200000 + 1024 + 64 * k + i) false = 0x200400 + 64 * k + i := by
    rw [(fullTable_key _ (by omega)).2.2]
  have hr : (List.range 64) = 0 :: 1 :: 2 :: List.range' 3 61 := by decide +kernel
  simp only [State.valueAt, hl, hs, State.readAt, hr, if_true, if_false, List.map_cons, hk 0 (by omega), hk 1 (by omega), hk 2 (by omega),
    fullTable_mem, le, slice, List.drop, List.take, ofLe]
  rw [if_neg (by omega), if_neg (by omega), if_pos (by omega)]
  decide

theorem freezeApply_full (es : List (List Byte)) (bits : Nat) (b : List Byte) (ho : le b 0 1 = 3) (hl : le b 4 2 ≠ 0)
    (h : ∀ e ∈ es, le e 0 2 = 0 ∧ le e 2 1 = 1) : freezeApply es bits [b] = none := by
  have h1 : es.findIdx? (freezeKey (le b 4 2) (le b 8 8)) = none :=
    List.findIdx?_eq_none_iff.2 (fun e he => by simp [freezeKey, freezeOf, (h e he).1, Ne.symm hl])
  have h2 : es.findIdx? (fun e => !bitAt (le e 2 1) 0) = none :=
    List.findIdx?_eq_none_iff.2 (fun e he => by simp [(h e he).2, bitAt])
  unfold freezeApply
  simp only [ho, h1, h2, Option.or]

theorem test_meets_StepSizesAndFreezes_full :
    freezeApply ((fullTable []).freezeEntries 0) 0 [freezeItem 3 0 7 0 (zeros 32)] = none := by
  refine freezeApply_full _ _ _ (by decide +kernel) (by decide +kernel) ?_
  have hf : (fullTable []).freezeTable 0 = some 0x200000 := by decide +kernel
  intro e he
  rw [State.freezeEntries, hf] at he
  obtain ⟨k, hk, rfl⟩ := List.mem_map.1 he
  exact fullTable_entry k (List.mem_range.1 hk)

-- ## Serving

/-- A configuration block: 2 sequences of 512 tokens, 1 queue, budget 16 to 128 from 64, its tables in HBM from 0x50000; `flags` is byte 1. -/
def loopCfg (flags : Nat := 0) (ringSize : Nat := 0) : List Byte :=
  leBytes 1 0 ++ leBytes 1 flags ++ leBytes 2 1 ++ leBytes 4 256 ++ leBytes 4 512 ++ leBytes 2 2 ++ leBytes 2 2 ++ leBytes 2 1 ++ leBytes 2 64 ++
  leBytes 2 16 ++ leBytes 2 128 ++ leBytes 2 1 ++ zeros 2 ++ leBytes 4 100 ++ leBytes 8 0x50000 ++ leBytes 8 0x60000 ++ leBytes 8 0x70000 ++
  leBytes 8 0x80000 ++ zeros 1 ++ leBytes 1 ringSize ++ zeros 2 ++ leBytes 4 256 ++ leBytes 2 3 ++ zeros 54
/-- A RUNNING loop with that block. -/
def aLoop : Loop := { st := .running, cfg := loopCfg, budget := 64 }
/-- Partition 0 with that loop as loop 0, a resident draft of one node in slot 0, a current version in the replicated form, a pool of 64 blocks at
HBM offset 0x800000 and its draft store at 0x8000000. -/
def serving (x : Loop) (xs : List Entry) (ads : List Adapter := []) : State :=
  { withRegs (entered xs) [(.poolBase 0, 4), (.poolSize 0, 2), (.partAddr 0 6, 0x8000000)] with
    parts := [(0, { st := .active, loops := [(0, x)], slots := [(0, { loaded := true, nodeCount := 1 })], adapters := ads
                    job := { joined := true, versions := [{ number := 4, st := .current, forms := 1 }] } })] }

theorem test_meets_ServingLoopsStartAndStop :
    (∀ b ∈ [loopCfg, zeros 128], let x := entryOf 1 (entryBytes 0x10 9 0 0x20000 8 0)
      let s := (serving {} [x]).setHbm 0x20000 b
      s.startable 1 0x10 = some x ∧ s.deferred = [] ∧ 0 = x.part ∧ 0 = x.loop ∧ (s.part 0).st.idle = false ∧ (s.part 0).job.joined = true ∧ s.loopDue x = true ∧
      (s.followsJob x && s.behind x) = false ∧ (s.loop 0 0).ops = [] ∧ bitAt x.arg1 3 = true ∧ (s.loop 0 0).st = .disabled ∧ x.arg0 % 64 = 0 ∧
      s.secure = false ∧ s.fetch (s.entryCtx x) x.arg0 128 = some b ∧ s.loopCfgOk (s.entryCtx x) 0 0 (bitAt x.arg1 2) b = decide (b = loopCfg)) ∧
    (let x := entryOf 1 (entryBytes 0x10 9 0 0 0 0)
     let s := serving aLoop [x]
     s.startable 1 0x10 = some x ∧ s.loopDue x = true ∧ s.secure = false ∧ bitAt x.arg1 3 = false ∧ (s.loop 0 0).st = .running ∧ (s.loop 0 0).step = none) ∧
    (∀ n ∈ [0, 65536], let x := entryOf 1 (entryBytes 0x40 9 0 (spaceKey 4 0x10000) n 0)
      let s := serving aLoop [x]
      s.startable 1 0x40 = some x ∧ 0 = field x.arg2 0 2 ∧ (s.loop 0 0).st = .running ∧ s.seqsIn 0 (s.loop 0 0) 4 = 0 ∧ (s.loop 0 0).seqs = [] ∧
      s.isLocal x.arg0 = true ∧ s.hostAllowed (s.entryCtx x) (gSpace x.arg0 - 4) = true ∧ x.arg1 = n ∧ x.arg0 % 65536 = 0 ∧ gOffset x.arg0 + x.arg1 ≤ 2 ^ 48) ∧
    (let x := entryOf 1 (entryBytes 0x40 9 0 0x10000 65536 0)
     (serving aLoop [x]).startable 1 0x40 = some x ∧ x.arg1 ≠ 0 ∧ gSpace x.arg0 < 4) ∧
    (let x : Loop := { aLoop with steps := 1, sumSteps := 101 }
     let s := serving x []
     s.loop 0 0 = x ∧ x.interval ≤ x.steps ∧ s.bit (.tmpChunkCtl 0) 0 = false ∧ x.target < x.sumSteps / x.steps ∧ x.bMin < x.budget) := by decide +kernel

def descriptor (prompt new : Nat) : List Byte := leBytes 4 prompt ++ leBytes 4 new ++ leBytes 8 0x90000 ++ leBytes 8 0xA0000 ++ zeros 24 ++ leBytes 8 0xB0000 ++ zeros 8
/-- That partition with weight 1 for queue 0 and a sequence descriptor at 0x20000. -/
def admitting (x : Loop) (vs : List Version) (e : Entry) (b : List Byte) : State :=
  let s := serving x [e]
  ({ s with parts := [(0, { s.part 0 with job := { joined := true, versions := vs } })] } : State).setHbm 0x20000 b |>.setHbm 0x50000 [1]

theorem test_meets_SequencesAreTakenIn :
    let e := entryOf 1 (entryBytes 0x11 9 0 0x20000 0 0)
    let vs : List Version := [{ number := 4, st := .current, forms := 1 }]
    let taken : List SeqX := [{ slot := 1, acc := 9, admitPick := 0 }]
    (∀ n ∈ [0, 1], let s := admitting aLoop vs e (descriptor n 3)
      s.deferred = [] ∧ s.startable 1 0x11 = some e ∧ (s.part 0).st.idle = false ∧ (s.part 0).job.joined = true ∧ s.loopDue e = true ∧ (s.followsJob e && s.behind e) = false ∧
      (s.loop 0 0).st = .running ∧ e.arg0 % 64 = 0 ∧ s.fetch (s.entryCtx e) e.arg0 64 = some (descriptor n 3) ∧ 0 = e.loop ∧ 0 = e.part ∧
      s.admitOk (s.entryCtx e) 0 0 (field e.arg1 8 8) (bitAt e.arg1 16) (descriptor n 3) = decide (n = 1)) ∧
    ((admitting aLoop [] e (descriptor 1 3)).formNow 0 0 = none ∧ (admitting aLoop vs e (descriptor 1 3)).formNow 0 0 = vs.head?) ∧
    (let s := admitting { aLoop with seqs := taken ++ [{ slot := 0, acc := 8, admitPick := 0 }] } vs e (descriptor 1 3)
     ∀ k, k < (s.loop 0 0).maxSeqs → ∃ q ∈ (s.loop 0 0).seqs, q.slot = k) ∧
    (let s := admitting { aLoop with seqs := taken } vs e (descriptor 1 3)
     s.handle 0 0 (le (descriptor 1 3) 24 4) = none ∧ 0 < (s.loop 0 0).maxSeqs ∧ (∀ q ∈ (s.loop 0 0).seqs, q.slot ≠ 0) ∧ le (descriptor 1 3) 28 4 = 0 ∧ (s.part 0).adapters = [] ∧
     s.flips = [] ∧ gSpace (s.loop 0 0).seqTable = 0 ∧ gSpace (s.loop 0 0).ptArea = 0 ∧
     gOffset (s.loop 0 0).ptArea + 4 * (s.loop 0 0).maxSeqs * (s.loop 0 0).ptEntries ≤ 2 ^ 48 ∧
     gOffset (s.loop 0 0).seqTable + 128 * (s.loop 0 0).maxSeqs ≤ gOffset (s.loop 0 0).ptArea) := by decide +kernel

theorem test_meets_CancelNamesByTagAndRingPair :
    let e := entryOf 1 (entryBytes 0x12 9 0 (77 + 2 ^ 32 * 0) 0 0)
    let x : Loop := { aLoop with seqs := [{ slot := 1, acc := 9, admitPick := 0 }] }
    let s := (serving x [e]).setHbm (0x60000 + 128) (leBytes 4 77)
    let t := (serving x [e]).setHbm (0x60000 + 128) (leBytes 4 77 ++ [0, 1, 0, 2])
    s.startable 1 0x12 = some e ∧ s.seqGet 0 0 1 0 4 = field e.arg0 0 32 ∧ s.seqGet 0 0 1 4 1 = field e.arg0 32 8 ∧ (s.part 0).loops = [(0, x)] ∧
    s.seqCancelled 0 0 1 = false ∧ s.flips = [] ∧ gSpace ((s.loop 0 0).seqTable + 128 * 1 + 7) ≤ 1 ∧
    t.startable 1 0x12 = some e ∧ t.seqGet 0 0 1 0 4 = 77 ∧ t.seqCancelled 0 0 1 = true := by decide +kernel

/-- A handle of loop 0, and an adapter. -/
def aHandle (st : HandleSt) : Handle := { id := 3, st := st, tokens := 300, queue := 0, addr := 0x90000, adapter := 0, adapterGen := 0, version := 4, pages := [0, 1] }
def anAdapter : Adapter := { id := 6, gen := 1, entry := 0, copied := true }
def prefixBytes : List Byte := leBytes 4 1 ++ zeros 4 ++ leBytes 8 0x90000 ++ zeros 16

theorem handlePages_one (s s1 : State) (p l id e : Nat)
    (h : s.alloc p 1 id (s.loop p l).pageBlocks (s.loopCounter p l) = (s1, some e)) : s.handlePages p l id 1 = (s1, some [e]) := by
  simp [State.handlePages, h]

theorem test_meets_PrefixesAndAdapters :
    let e := entryOf 1 (entryBytes 0x13 9 0 0x20000 0 0)
    let s := ((serving aLoop [e]).setHbm 0x20000 prefixBytes).setHbm 0x50000 [1]
    (s.deferred = [] ∧ s.startable 1 0x13 = some e ∧ 0 = e.part ∧ 0 = e.loop ∧ (s.part 0).st.idle = false ∧ s.loopDue e = true ∧ (s.followsJob e && s.behind e) = false ∧
      (s.loop 0 0).st = .running ∧ e.arg0 % 64 = 0 ∧ s.fetch (s.entryCtx e) e.arg0 32 = some prefixBytes ∧ 1 = le prefixBytes 0 4 ∧ zeroAt prefixBytes 5 3 = true ∧
      zeroAt prefixBytes 20 12 = true ∧ 1 < (s.loop 0 0).maxContext ∧ le prefixBytes 4 1 < (s.loop 0 0).queues ∧ s.weight 0 0 (le prefixBytes 4 1) ≠ 0 ∧
      (s.adapterOk 0 (le prefixBytes 16 4)).isSome = true ∧ s.readable (s.entryCtx e) (le prefixBytes 8 8) (4 * 1) = true ∧ (s.formNow 0 0).isSome = true ∧
      (s.loop 0 0).handles = []) ∧
    ((s.loopMark e).handlePages 0 0 (s.loop 0 0).nextHandle (ceilDiv 1 256)).2 = some [0] := by
  refine ⟨by decide +kernel, ?_⟩
  rw [show ceilDiv 1 256 = 1 by decide, handlePages_one _ _ _ _ _ _
    (State.alloc_bare _ _ _ _ _ _ (by decide +kernel) (by decide +kernel) (by decide +kernel) (by decide +kernel))]

theorem test_meets_PrefixesAndAdapters_release :
    ∀ h ∈ [aHandle .filling, aHandle .released], let e := entryOf 1 (entryBytes 0x14 9 0 3 0 0)
      let s := serving { aLoop with handles := [h] } [e]
      s.startable 1 0x14 = some e ∧ (s.part 0).st.idle = false ∧ s.loopDue e = true ∧ (s.followsJob e && s.behind e) = false ∧
      s.handle 0 0 (field e.arg0 0 32) = some h ∧ (s.loop 0 0).st = .running := by decide +kernel

theorem test_meets_PrefixesAndAdapters_load :
    let e := entryOf 1 (entryBytes 0x15 9 0 0x20000 64 6)
    let s := serving aLoop [e]
    (s.deferred = [] ∧ s.startable 1 0x15 = some e ∧ (s.part 0).st.idle = false ∧ e.arg2 ≠ 0 ∧ adapterLength e.arg1 = true ∧ (s.part 0).adapters = []) ∧
    (∃ s1, (s.setEntry 1 (fun y => { y with st := .running })).alloc 0 5 e.arg2 (ceilDiv e.arg1 65536) 0 = (s1, some 0) ∧
      s1.isLocal e.arg0 = true ∧ gSpace e.arg0 ≤ 2 ∧ s1.readErr (s1.entryCtx e) e.arg0 e.arg1 = none) := by
  refine ⟨by decide +kernel, _, State.alloc_bare _ _ _ _ _ _ (by decide +kernel) (by decide +kernel) (by decide +kernel) (by decide +kernel), ?_⟩
  decide +kernel

theorem test_meets_PrefixesAndAdapters_copy :
    let a : Adapter := { id := 6, gen := 1, entry := 0, loading := some 1 }
    let e := { entryOf 1 (entryBytes 0x15 9 0 0x20000 64 6) with st := .running }
    let s := (serving aLoop [e] [a]).setHbm 0x800000 (leBytes 4 32 ++ leBytes 4 1)
    let r := s.copyRange (s.entryCtx e) .outside e.arg0 (s.pentAddr 0 a.entry) e.arg1
    (s.part 0).adapters = [a] ∧ a.copied = false ∧ a.loading = some 1 ∧ s.entry 1 = some e ∧ e.parked = none ∧ e.opcode = 0x15 ∧ e.acks = 0 ∧ s.runs 0 = true ∧
    r.2 = none ∧ (r.1.part 0).adapters = [a] ∧ r.1.entry 1 = some e := by decide +kernel

theorem test_meets_PrefixesAndAdapters_replace :
    ∀ id ∈ [6, 7], let e := entryOf 1 (entryBytes 0x16 9 0 0x20000 0 id)
      let s := serving aLoop [e] [anAdapter]
      s.deferred = [] ∧ s.startable 1 0x16 = some e ∧ (s.part 0).st.idle = false ∧ s.due e = true ∧ s.behind e = false ∧ (∀ a ∈ (s.part 0).adapters, a.loading = none) ∧
      (∀ y ∈ s.entries, y.opcode = 0x16 → 1 ≤ y.acc) ∧ e.arg1 = 0 ∧ (s.adapterNow 0 e.arg2).isSome = decide (id = 6) := by decide +kernel

/-- A row that fills 44 positions of a prefix, and the step that runs it. -/
def fillRow : BatchRow := { who := 3, kind := 2, pos := 256, count := 44 }
def stepDraft : Draft := { id := 1, part := 0, acc := none, loop := some 0, slot := some 0, begun := true, nodes := [{ bytes := barrierRec 0, succ := [], deps := 0, st := .done 0 }] }

theorem test_meets_BatchStepsBeginAndEnd :
    (let x : Loop := { aLoop with pick := 2 ^ 64 - 2 }
     let s := serving x []
     s.deferred = [] ∧ s.loop 0 0 = x ∧ x.st = .running ∧ s.dispatches 0 = true ∧ x.step = none ∧ x.stage = 0 ∧ s.drafts = [] ∧ x.bound = false ∧ x.seqs = [] ∧ x.handles = [] ∧
     x.ring = [] ∧ s.entries = [] ∧ (s.part 0).adapters = [] ∧ s.boot.phase = .idle ∧ x.pick < 2 ^ 64 - 1 ∧ s.flips = [] ∧ gSpace x.batchTable = 0 ∧
     gOffset x.batchTable + 64 ≤ 2 ^ 48) ∧
    (let x : Loop := { aLoop with stage := 6, rows := [fillRow], handles := [aHandle .filling] }
     let s := serving x []
     let n := s.moduleNum * 2 ^ 52 + s.areaOff 0 x.slot
     s.loop 0 0 = x ∧ s.dispatches 0 = true ∧ x.rows = [fillRow] ∧ fillRow.kind = 2 ∧ s.memCtl.armed = [] ∧ s.memCtl.corrupt = [] ∧ s.memCtl.poison = [] ∧ s.drafts = [] ∧ s.looms = [] ∧ s.deferred = [] ∧
     s.readErr (partCtx 0) n (128 * (tget {} (s.part 0).slots x.slot).nodeCount) = none ∧
     s.readErr (partCtx 0) (n + 0x800000) (2 * (tget {} (s.part 0).slots x.slot).succCount) = none) ∧
    (let x : Loop := { aLoop with step := some 1, rows := [fillRow], handles := [{ aHandle .filling with pos := 256 }] }
     let s : State := { serving x [] with drafts := [stepDraft], draftIds := 1 }
     s.deferred = [] ∧ s.draft 1 = some stepDraft ∧ stepDraft.ended = true ∧ s.runs 0 = true ∧ s.failNode stepDraft = none ∧ (s.handle 0 0 fillRow.who).isSome = true ∧ s.boot.phase = .idle) ∧
    (let e := { entryOf 9 (entryBytes 0x11 9 0 0x20000 0 0) with st := .running, func := 1 }
     let s := serving { aLoop with seqs := [{ slot := 1, acc := 9, admitPick := 0, moving := 1 }] } [e]
     s.deferred = [] ∧ s.memCtl.corrupt = [] ∧ (s.seqX 0 0 1).isSome = true ∧ s.entry 9 = some e ∧ s.isAdmin e.port e.func = false) := by decide +kernel

theorem test_meets_BatchStepsBeginAndEnd_ring :
    let x : Loop := { aLoop with cfg := loopCfg 2 2, bound := true, step := some 1, ring := [(65536 + 7, 0)] }
    let s := serving x []
    (s.loop 0 0 = x ∧ x.st = .running ∧ x.step.isSome = true ∧ x.ringOn = true ∧ 1 < x.ringSize ∧ s.runs 0 = true ∧ (∀ r ∈ x.ring, r.1 ≠ 65536 * 1 + 65535) ∧
      (∀ r ∈ x.ring, r.1 ≠ 65536 * 0 + 0) ∧ (∃ r ∈ x.ring, r.1 = 65536 * 1 + 7)) ∧ (s.alloc 0 3 65535 x.ringBlocks (s.loopCounter 0 0)).2 = some 0 := by
  refine ⟨by decide +kernel, ?_⟩
  rw [State.alloc_bare _ _ _ _ _ _ (by decide +kernel) (by decide +kernel) (by decide +kernel) (by decide +kernel)]

-- ## Nodes

/-- A descriptor of one row of `n` FP32 elements. -/
def rowTd (base n : Nat) : List Byte := leBytes 8 base ++ zeros 4 ++ leBytes 12 (0x40 + 256 * (n - 1))
def copyRec (n : Nat) : List Byte := nodeRec 3 (rowTd 0x20000 n ++ rowTd 0x40000 n) []

/-- An image that loads as id 5: MXINT8 operands accumulated in INT32, the first row of a reduction clearing, two rows of one tile row each. -/
def genBytes (port base count stride : Nat) : List Byte := leBytes 4 base ++ leBytes 2 (count - 1) ++ zeros 6 ++ leBytes 4 stride ++ zeros 12 ++ leBytes 1 port ++ zeros 3
def anImage : List Byte :=
  let h := leBytes 4 5 ++ leBytes 4 192 ++ zeros 3 ++ leBytes 1 0xDD ++ leBytes 1 0xFF ++ zeros 1 ++ leBytes 1 3 ++ zeros 1 ++ leBytes 2 64 ++ zeros 2 ++
    leBytes 2 160 ++ zeros 42 ++ genBytes 0 0x2E0000 2 128 ++ genBytes 1 0 2 0 ++ genBytes 3 0x380000 2 512 ++ zeros 3 ++ leBytes 1 1 ++ zeros 28
  patch h 60 (leBytes 4 (crc32 h))
/-- A LOOM_TASK on loom 3 of the partition's cluster under that image. -/
def taskRec (mask : Nat := 8) : List Byte := patch (patch (patch (nodeRec 1 [] []) 4 (leBytes 4 1)) 8 (leBytes 1 mask)) 16 (leBytes 4 5)

def nodeOf (b : List Byte) (st : NodeSt := .ready) : Node := { bytes := b, succ := [], deps := 0, st := st }
/-- A draft that runs as the step of a SOLO job's pick, on islands that are on and hold the pick. -/
def draftOf (ns : List Node) : Draft := { id := 1, part := 0, acc := some 1, begun := true, nodes := ns }
def heddling (ns : List Node) (ls : List (Nat × Loom) := []) : State :=
  { ((soloJob { st := .running, joined := true, pick := 5, step := some 1 } []).setIsland 0 { on := true, picks := [(0, 5)] }).setIsland 46
      { on := true, picks := [(0, 5)] } with
    drafts := [draftOf ns], draftIds := 1, looms := ls }

/-- That state with the image in the partition's image table (PART_ADDR 8, at 0x70000). -/
def withTable (s : State) : State :=
  (withRegs s [(.partAddr 0 8, 0x70000), (.partItabCount 0, 1)]).setHbm 0x70000 (leBytes 4 5 ++ leBytes 4 192 ++ leBytes 8 0x20000)

theorem test_meets_NodesAreDispatchedAndEnd :
    (∀ b ∈ [copyRec 1, copyRec 1000, barrierRec 0], let y := nodeOf b
      let s := heddling [y]
      s.draft 1 = some (draftOf [y]) ∧ s.node 1 0 = some y ∧ s.deferred = [] ∧ s.dispatches 0 = true ∧ s.nodeReady (draftOf [y]) 0 y = true ∧
      s.outranked (draftOf [y]) 0 y = false ∧ s.awaitsPick (draftOf [y]) y = false ∧ s.stepWaits (draftOf [y]) = false ∧
      s.reserved (draftOf [y]) y = false ∧ s.bankTaken (draftOf [y]) 0 y = false ∧ y.st ≠ .stopped) ∧
    ((heddling [nodeOf (barrierRec 0) .running]).nodeReady (draftOf [nodeOf (barrierRec 0) .running]) 0 (nodeOf (barrierRec 0) .running) = false) ∧
    (let y := nodeOf (copyRec 1000)
     let s := heddling [y]
     y.kind = 3 ∧ y.arg 104 8 = 0 ∧ descOk (plainDesc (y.td 0) (y.td 1)) = true ∧ tdRows (y.td 0) = 1 ∧ fmtMx (tdFmt (y.td 0)) = false ∧
     s.isLocal (tdBase (y.td 0)) = true ∧ gSpace (tdBase (y.td 0)) ≤ 2 ∧ s.readErr (nodeCtx (draftOf [y]) y) (tdBase (y.td 0)) (tdRowBytes (y.td 0)) = none) ∧
    ((nodeOf (barrierRec 0)).kind = 8 ∧ (nodeOf (barrierRec 0)).arg 104 1 = 0) ∧
    (let y := nodeOf taskRec
     let s := withTable (heddling [y] [(3, { images := [(2, anImage)] })])
     s.deferred = [] ∧ s.stepWaits (draftOf [y]) = false ∧ s.reserved (draftOf [y]) y = false ∧ s.bankTaken (draftOf [y]) 0 y = false ∧ y.st ≠ .stopped ∧
     (s.imageEntry 0 y.image).isSome = true ∧ (s.loom 3).alternates 1 anImage = false ∧ s.dispatches 0 = true ∧ s.nodeReady (draftOf [y]) 0 y = true ∧ s.outranked (draftOf [y]) 0 y = false ∧ s.awaitsPick (draftOf [y]) y = false ∧
     y.kind = 1 ∧ s.nodeLooms (draftOf [y]) y = [3] ∧ (∀ lg ∈ y.loomSet, s.isVacant 0 lg = false) ∧ (s.loom 3).node = none ∧
     (s.loom 3).images = [(2, anImage)] ∧ Img.id anImage = y.image ∧ Img.epilogue anImage = false ∧ Img.mode anImage ≠ 2) ∧
    (∀ b ∈ [copyRec 1, barrierRec 0, nodeRec 9 [] [], nodeRec 0xA [] []], let y := { nodeOf b .running with worked := true }
      let s := heddling [y, nodeOf (barrierRec 1)]
      s.node 1 0 = some y ∧ s.deferred = [] ∧ s.mates = [] ∧ s.retired = [] ∧ (y.kind = 3 ∨ y.kind = 8 ∨ y.kind = 9 ∨ y.kind = 0xA) ∧ s.runs 0 = true ∧ y.acks = 0 ∧ y.failing = none ∧
      (draftOf [y, nodeOf (barrierRec 1)]).failed = false ∧ (nodeOf (barrierRec 1)).isDone = false ∧ (s.part 0).job.step = some 1) ∧
    (let desc := plainDesc (rowTd 0x20000 16) (rowTd 0x40000 16)
     let s := (heddling []).setHbm 0x30000 desc
     s.dispatches 0 = true ∧ s.deferred = [] ∧ s.memCtl.corrupt = [] ∧ s.memCtl.armed = [] ∧ s.shuttles = [] ∧ s.tdOpen (descSrc desc) = true ∧
     s.tdOpen (descDst desc) = true ∧ s.fetch (partCtx 0) 0x30000 64 = some desc ∧ descOk desc = true ∧ descOp desc = 1 ∧ tdRows (descDst desc) = 1 ∧
     fmtMx (tdFmt (descSrc desc)) = false ∧ 64 = tdRowBytes (descSrc desc) ∧ s.flips = [] ∧ s.memCtl.poison = [] ∧ gSpace (tdBase (descDst desc)) ≤ 1 ∧
     s.readErr (partCtx 0) (tdBase (descSrc desc)) 64 = none ∧ s.writeErr (partCtx 0) (tdBase (descDst desc)) 64 = none ∧
     gOffset (tdBase (descSrc desc)) + 64 ≤ gOffset (tdBase (descDst desc))) :=
  ⟨by decide +kernel, by decide +kernel, by decide +kernel, by decide +kernel, by decide +kernel, by decide +kernel, by decide +kernel⟩

/-- A prefetch schedule of two entries for nodes 0 and 1: a header, then entries for the selvage shuttles whose descriptors lie at 0x30000. -/
def schedEntry (consumer : Nat) : List Byte := leBytes 2 consumer ++ zeros 6 ++ leBytes 8 0x30000 ++ [0xFF]
def fetching (lead : Nat) (ns : List Node) (issued : List Nat := []) : State :=
  let s := heddling ns
  ({ s with
    drafts := [{ draftOf ns with slot := some 2, issued := issued }]
    parts := [(0, { s.part 0 with slots := [(2, { loaded := true, schedule := [zeros 16, schedEntry 0, schedEntry 1], lead := lead })] })] } : State).setHbm
      0x30000 (plainDesc (rowTd 0x20000 16) (rowTd 0x40000 16))

theorem test_meets_PicksBeginAndPrefetchesRun :
    (heddling []).boundaryOpen 0 = false ∧
    (let e : Entry := { runEntry 1 with st := .running }
     let d : Draft := { id := 1, part := 0, acc := some 1, nodes := [nodeOf (barrierRec 0)] }
     let s : State := { soloJob { st := .boundary, joined := true, pick := 5 } [e] with drafts := [d], draftIds := 1 }
     s.boundaryOpen 0 = true ∧ s.deferred = [] ∧ s.boot.phase = .idle ∧ s.entry 1 = some e ∧ e.effPick ≤ s.pickOf 0 + 1 ∧ (∀ y ∈ d.nodes, y.preStep = false) ∧
     (∃ y ∈ d.nodes, y.isDone = false) ∧ (∀ y ∈ s.entries, y.part = 0 → y.st ≠ .boundary) ∧ (s.part 0).shed = none ∧
     (∀ l, l < 4 → (s.loop 0 l).bound = false) ∧ (s.part 0).job.versions = [] ∧ s.stepTable 0 = none ∧ s.pickOf 0 < 2 ^ 64 - 1) ∧
    (let x : Draft := { draftOf [nodeOf (barrierRec 0), nodeOf (barrierRec 1)] with slot := some 2 }
     let s := fetching 1 x.nodes
     let es := (tget {} (s.part 0).slots 2).schedule.drop 1
     let desc := plainDesc (rowTd 0x20000 16) (rowTd 0x40000 16)
     let c := fetchCtx x
     s.deferred = [] ∧ s.draft 1 = some x ∧ x.failed = false ∧ s.dispatches 0 = true ∧ es[0]? = some (schedEntry 0) ∧ 0 ∉ x.issued ∧
     0 < openEntry x es + s.leadOf 0 2 ∧ entryStaged (schedEntry 0) = false ∧ le (schedEntry 0) 16 1 = 0xFF ∧ x.fetched = [] ∧ x.fetchWorked = [] ∧
     tget 0 x.fetchAcks 0 = 0 ∧ x.staged = [] ∧ s.shuttles = [] ∧ s.mates = [] ∧ s.fetch c (le (schedEntry 0) 8 8) 64 = some desc ∧ descOk desc = true ∧
     descOp desc = 1 ∧ tdRows (descDst desc) = 1 ∧ fmtMx (tdFmt (descSrc desc)) = false ∧ tdRowBytes (descSrc desc) = 64 ∧ s.flips = [] ∧
     s.memCtl.poison = [] ∧ s.memCtl.corrupt = [] ∧ s.memCtl.armed = [] ∧ s.tdOpen (descSrc desc) = true ∧ s.tdOpen (descDst desc) = true ∧
     s.isLocal (tdBase (descSrc desc)) = true ∧ s.isLocal (tdBase (descDst desc)) = true ∧ gSpace (tdBase (descDst desc)) ≤ 1 ∧
     s.readErr c (tdBase (descSrc desc)) 64 = none ∧ s.writeErr c (tdBase (descDst desc)) 64 = none ∧
     gOffset (tdBase (descSrc desc)) + 64 ≤ gOffset (tdBase (descDst desc))) ∧
    (let x : Draft := { draftOf [nodeOf (barrierRec 0) .running, nodeOf (barrierRec 1)] with slot := some 2, issued := [0] }
     let s := fetching 1 x.nodes [0]
     let es := (tget {} (s.part 0).slots 2).schedule.drop 1
     s.deferred = [] ∧ s.dispatches 0 = true ∧ s.draft 1 = some x ∧ es[1]? = some (schedEntry 1) ∧ (∀ j, j < 1 → j ∈ x.issued) ∧ openEntry x es + s.leadOf 0 2 ≤ 1 ∧ s.starved x = false) :=
  ⟨by decide +kernel, by decide +kernel, by decide +kernel, by decide +kernel⟩

theorem test_meets_PicksBeginAndPrefetchesRun_temple :
    let x : Slot := { loaded := true, schedule := [zeros 16], leadMin := 1, leadMax := 4, lead := 2, stallHi := 10 }
    x.schedule ≠ [] ∧ (∃ v, ({ x with prevS := some 8 } : Slot).prevS = some v ∧ 7 * v ≤ 8 * 7) ∧ (∀ v, ({ x with prevS := some 9 } : Slot).prevS = some v → 8 * 7 < 7 * v) ∧
    x.leadMin < x.lead ∧ 10 ≤ x.stallHi ∧ x.stallHi < 11 ∧ x.lead < x.leadMax ∧ x.noRaise = 0 ∧ x.interval ≤ x.picks := by
  refine ⟨by decide, ⟨8, rfl, by decide⟩, ?_, by decide⟩
  rintro v ⟨⟩
  decide

theorem bare_pool_places (s : State) (h : s.bareDirectory 0 = true) (hb : s.poolBlocks 0 = 64) :
    (∃ e, e < 65536 ∧ (s.pent 0 e).blocks = 0) ∧ 32 + 32 ≤ s.poolBlocks 0 ∧ (∀ y ∈ s.pents 0, 32 + 32 ≤ y.2.first) ∧
    (∀ b, 32 ≤ b → b + 33 ≤ s.poolBlocks 0 → ∃ y ∈ s.pents 0, ¬(b + 33 ≤ y.2.first ∨ y.2.first + y.2.blocks ≤ b)) ∧ s.victimEntry 0 = none := by
  refine ⟨⟨0, by decide, State.pent_blocks_bare s 0 0 h (by decide)⟩, by omega, ?_, fun b h1 h2 => by omega, ?_⟩
  · simp [State.pents_bare s 0 h]
  · simp [State.victimEntry, State.pents_bare s 0 h]

theorem test_meets_PoolAllocationIsFirstFit : (serving aLoop []).bareDirectory 0 = true ∧ (serving aLoop []).poolBlocks 0 = 64 ∧ (serving aLoop []).pickOf 0 < 2 ^ 64 := by
  decide +kernel

theorem test_meets_PoolAllocationIsFirstFit_age :
    (withRegs work [(.tmpPool 0, 2 ^ 16 + 1)]).bit (.tmpPool 0) 0 = true ∧ work.bit (.tmpPool 0) 0 = false ∧
    (work.part 0).pool.failure = false ∧ (work.part 0).pool.refault = false := by decide +kernel

-- ## Looms

/-- Loom 3 running that image: its node is dispatched, the image active, the warp at address 0 in place. -/
def running (x : Loom) (img : List Byte := anImage) (ns : List Node := []) : State :=
  heddling (nodeOf taskRec .running :: ns) [(3, { x with node := some (1, 0), images := [(2, img)], active := some 2 })]
def warped : Loom := { warp := some (0, [1]) }

theorem test_meets_ArrayRowsAccumulate :
    ∀ n ∈ [0, 1], let s := running { warped with run := { step := n } }
      let t := running { warped with run := { step := n }, retry := true }
      s.guests = [] ∧ s.deferred = [] ∧ (s.work 3).isSome = true ∧ (∀ w, s.work 3 = some w → w.img = anImage) ∧ Img.mode anImage = 0 ∧
      (Img.gen anImage 0).isSome = true ∧ (Img.gen anImage 1).map (fun g => g.addr n) = some 0 ∧ (Img.gen anImage 3).isSome = true ∧ n = (s.loom 3).run.step ∧
      (∀ w, s.work 3 = some w → ((s.loom 3).run.fetchList w.node).length ≤ (s.loom 3).run.fetched) ∧ s.arrayFault 3 anImage n = none ∧ tget 0 (s.loom 3).armed 1 = 0 ∧ (s.loom 3).mayEnter anImage = true ∧ Img.epilogue anImage = false ∧ Img.acc anImage = 15 ∧
      Img.weft anImage = 13 ∧ Img.warp anImage = 13 ∧ (t.work 3).isSome = true ∧ (t.loom 3).retry = true ∧ tget 0 (t.loom 3).armed 512 = 0 ∧
      t.arrayFault 3 anImage n = none := by
  intro n hn
  have hw (s : State) (i : List Byte) (h : (s.work 3).map (·.img) = some i) : ∀ w, s.work 3 = some w → w.img = i := by
    intro w e; rw [e] at h; exact Option.some.inj h
  have hf (s : State) (h : (s.work 3).all (fun w => decide (((s.loom 3).run.fetchList w.node).length ≤ (s.loom 3).run.fetched)) = true) :
      ∀ w, s.work 3 = some w → ((s.loom 3).run.fetchList w.node).length ≤ (s.loom 3).run.fetched := by
    intro w e; rw [e] at h; exact of_decide_eq_true h
  fin_cases hn <;>
    exact ⟨by decide +kernel, by decide +kernel, by decide +kernel, hw _ _ (by decide +kernel), by decide +kernel, by decide +kernel, by decide +kernel,
      by decide +kernel, by decide +kernel, hf _ (by decide +kernel), by decide +kernel⟩

theorem test_meets_LoomsLoadSwitchAndSwap :
    (let s := running { run := { step := 1 } }
     s.deferred = [] ∧ (s.work 3).map (·.img) = some anImage ∧ Img.mode anImage < 2 ∧ (s.loom 3).run.step < Img.arraySteps anImage ∧ (Img.gen anImage 1).isSome = true ∧
     (Img.gen anImage 1).bind (fun g => (s.loom 3).nextWarp anImage g) = some 0 ∧ portReaches 1 0 (tileBytes (Img.warp anImage)) = true ∧
     s.meetsBad 3 0 (tileBytes (Img.warp anImage)) = false ∧ (s.loom 3).shadow = none) ∧
    (∀ b ∈ [anImage, patch anImage 60 [0, 0]], let s := (heddling [] [(3, { loading := [{ slot := 7, id := 5, length := 192, addr := 0x20000 }] })]).setHbm 0x20000 b
      ((s.loom 3).loading.find? (fun z => z.slot == 7)).isSome = true ∧ s.clusterPart (3 / 8) = some 0 ∧ s.runs 0 = true ∧ s.deferred = [] ∧
      s.clocked 3 = true ∧
      s.fetch (partCtx 0) 0x20000 192 = some b ∧ (Img.check b 5 192 s.boot.image.numeric = stOK ↔ b = anImage)) ∧
    ({ heddling [] with drafts := [] } : State).drafts = [] ∧
    (let s := heddling [nodeOf taskRec .running] [(3, { node := some (1, 0), images := [(2, anImage)], active := some 0 })]
     s.deferred = [] ∧ s.clocked 3 = true ∧ (s.loom 3).imageOf (Img.id anImage) = some anImage ∧
     (s.loom 3).node = some (1, 0) ∧ (s.loom 3).images.find? (fun z => z.1 == 2) = some (2, anImage) ∧ s.node 1 0 = some (nodeOf taskRec .running) ∧
     (nodeOf taskRec .running).image = Img.id anImage ∧ (s.loom 3).active ≠ some 2 ∧ Img.epilogue anImage = false) ∧
    (∀ n ∈ [63, 64], let s := heddling [] [(3, { pendingSwap := some 64, fillBytes := n })]
      s.deferred = [] ∧ s.clocked 3 = true ∧ (s.loom 3).pendingSwap = some 64 ∧ (s.loom 3).node = none ∧ (s.loom 3).fillBytes = n) := by decide +kernel

/-- That image with an output path of two rows into scratch, and without a fusion. -/
def epilogueImage : List Byte :=
  patch (patch (patch anImage 14 [5]) 20 (leBytes 2 224)) 160 (genBytes 2 0x380000 2 512 ++ genBytes 7 0x340000 2 512 ++ [0, 0, 0, 3]) ++ zeros 64

theorem test_meets_LoomFaultsAreRecorded :
    (let s := withRegs (running { warped with pendingSwap := some 64, fillBytes := 63 } anImage [nodeOf (barrierRec 1) .running]) [(.knotSrc 0, 0)]
     let ns := [nodeOf taskRec .running, nodeOf (barrierRec 1) .running]
     (s.work 3).isSome = true ∧ s.draft 1 = some (draftOf ns) ∧ s.node 1 0 = some (nodeOf taskRec .running) ∧
     (nodeOf taskRec .running).acks = 0 ∧ ns[1]? = some (nodeOf (barrierRec 1) .running) ∧
     (nodeOf (barrierRec 1) .running).running = true ∧ s.react (3 / 8) = 0 ∧ s.retired = [] ∧ (s.part 0).job.step = some 1 ∧ (s.swapWaits 3).map (·.2) = some 64) ∧
    (let s := running { warped with notReady := [accBase] } epilogueImage [nodeOf (barrierRec 1) .running]
     (s.work 3).map (·.img) = some epilogueImage ∧ (s.loom 3).run.out < Img.outRows epilogueImage ∧
     Img.outAddr epilogueImage (s.loom 3).run.out = some ((accBase + 0 * Img.tileRow epilogueImage : Nat) : Int) ∧
     (s.loom 3).notReady.contains (accBase + 0 * Img.tileRow epilogueImage) = true) ∧
    (let s := withRegs work [(.knotSrc 31, 0)]
     255 < Config.looms ∧ loomBytes - 1 < loomBytes ∧ s.react (255 / 8) = 0 ∧ s.meetsBad 255 ((loomBytes - 1) / 8 * 8) 8 = false) ∧
    (let s : State := { (withRegs work [(.lmCfg, 1)]).setIsland 31 { on := true } with looms := [(255, { scrubAt := 2 ^ 19 - 1 })] }
     s.bit .lmCfg 0 = true ∧ (s.loom 255).node = none ∧ s.clocked 255 = true ∧
     s.meetsBad 255 (localPhys (s.loom 255) (8 * (s.loom 255).scrubAt) / 8 * 8) 8 = false ∧ (s.loom 255).scrubAt = 2 ^ 19 - 1) := by decide +kernel

theorem test_meets_LinesWordsAndTransfers :
    (∀ a ∈ [Config.hbmBytes - 1, spaceKey 1 (Config.tier2Bytes - 64)], let s := withRegs work [(.knotSrc (unitSource (unitClass (gSpace a)) (unitOf (gSpace a) (gOffset a))).1, 0)]
      s.isLocal a = true ∧ gSpace a ≤ 1 ∧ offsetValid (gSpace a) (gOffset a) = true ∧ s.serves (gSpace a) (gOffset a) = true ∧ s.memCtl.poison = [] ∧
      s.memCtl.corrupt = [] ∧ 0 < tableSize (gSpace a) ∧ s.react (unitSource (unitClass (gSpace a)) (unitOf (gSpace a) (gOffset a))).1 = 0 ∧ s.memCtl.armed = [] ∧ s.cached (s.dataKey (gSpace a) (gOffset a / 64 * 64)) = false) ∧
    (let s : State := { work with memCtl := { work.memCtl with poison := [spaceKey 0 0x1000] } }
     s.serves 0 0x103F = true ∧ s.dataKey 0 (0x103F / 64 * 64) ∈ s.memCtl.poison ∧ s.cached (s.dataKey 0 (0x103F / 64 * 64)) = false ∧ 0x103F % 64 + 1 ≤ 64) ∧
    (let s := withRegs work [(.scrub true, 1), (.scrub false, 1)]
     s.bit (.scrub true) 0 = true ∧ s.bit (.scrub false) 0 = true ∧ s.serves 1 (channelLine 1 63 0) = true ∧ s.serves 0 (channelLine 0 255 0) = true ∧
     s.memCtl.corrupt = []) ∧
    (let s : State := { withRegs work [(.scrub false, 1)] with memCtl := { work.memCtl with relocating := [groupOf 0 (channelLine 0 255 0)] } }
     s.bit (.scrub false) 0 = true ∧ s.serves 0 (channelLine 0 255 0) = false) ∧
    (let s := work.setIsland 0 { on := true, relocking := true }
     (s.loomIsland 7).relocking = true ∧ s.allowed { part := s.loomPart (spaceKey 2 (7 * loomBytes)) } (spaceKey 2 (7 * loomBytes)) 4 true = true) ∧
    (∀ o ∈ [0x280000, 0x2E0000 - 4, 0x100], let a := spaceKey 2 (7 * loomBytes + o)
      let s := withRegs work [(.lmCfg, 0)]
      s.isLocal a = true ∧ (s.loomIsland 7).relocking = false ∧ gSpace a = 2 ∧ gOffset a / loomBytes = 7 ∧ gOffset a % loomBytes + 4 ≤ loomBytes ∧ s.loomPart a = some 0 ∧
      s.allowed { part := s.loomPart a } a 4 true = true ∧ s.extWriteOk 7 (gOffset a % loomBytes) 4 = decide (o ≠ 0x100)) ∧
    (let c : Ctx := { part := work.loomPart (spaceKey 2 0) }
     let d : Ctx := { part := work.loomPart (spaceKey 2 (8 * loomBytes)) }
     work.deferred = [] ∧ (work.fetch c (spaceKey 2 0) 64).isSome = true ∧ work.allowed d (spaceKey 2 (8 * loomBytes)) 8 false = false) ∧
    (let s : State := (withRegs work [(.knotSrc 59, 0)]).setIsland 0 { on := true }
     let t : State := { s with channels := [(256 * 0x20, [.pick 0 9])] }
     tget [] t.channels (256 * 0x20 + 0) = .pick 0 9 :: [] ∧ (t.island 0).on = true ∧ (t.island 0).relocking = false ∧ t.treadle.state ≠ 1 ∧
     t.react 59 = 0 ∧ (t.island 5).on = false ∧ ((t.setIsland 0 { on := true, relocking := true }).island 0).relocking = true) :=
  ⟨by decide +kernel, by decide +kernel, by decide +kernel, by decide +kernel, by decide +kernel, by decide +kernel, by decide +kernel, by decide +kernel⟩

-- ## Reduction

/-- A REDUCE block of stream 1, collective 9, 3 elements, X_INIT 120, one slot, its bolt area, exponent history and low-rank state in HBM. -/
def reduceBlock (mode : Nat := 0) : List Byte :=
  leBytes 4 1 ++ leBytes 2 9 ++ leBytes 1 mode ++ leBytes 1 1 ++ zeros 2 ++ leBytes 1 120 ++ leBytes 1 1 ++ leBytes 4 3 ++ leBytes 8 0x1000000 ++ zeros 16 ++
  leBytes 8 0x2000000 ++ zeros 12 ++ leBytes 2 7 ++ leBytes 2 3 ++ zeros 8 ++ leBytes 8 0x20000 ++ leBytes 8 0x90000 ++ zeros 40
/-- A payload entry and a control entry, both LOCAL and waiting for module 1. -/
def planOf : List (List Byte) :=
  [leBytes 4 0 ++ leBytes 4 3 ++ [1, 1, 0, 0] ++ leBytes 2 1 ++ zeros 26, zeros 8 ++ [9, 1, 0, 0] ++ leBytes 2 1 ++ zeros 26]
/-- The bolt size of that stream in its draft slot: one pick of tail 1,024. -/
def boltTail : BoltSize := { size := 0, lo := 0, hi := 6, sum := 1024, count := 1, picks := 1 }
def reducing (bs : List Bolt) (mode : Nat := 0) (x : Loom := {}) : State × Stream :=
  let z : Stream := { draft := 1, node := 0, block := reduceBlock mode, plan := planOf, pick := 5, attempt := 0, bolts := bs }
  let s := heddling [nodeOf (nodeRec 4 [] []) .running] [(3, x)]
  ({ s with parts := [(0, { s.part 0 with streams := [z], slots := [(0, { bolts := [(1, boltTail)] })] })] }, z)

theorem test_meets_BoltsFillLaunchAndResize_emit :
    ∀ bs ∈ [[], [{ index := 0, slot := 0, st := 2 }], [{ index := 0, slot := 0, emitted := [2] }], [({ index := 0, slot := 0 } : Bolt)]],
      let r := reducing bs
      let s := r.1
      let x := r.2
      (s.clusters 0).contains (3 / 8) = true ∧ (s.part 0).streams.find? (fun x => !x.gather && x.id == 1) = some x ∧ s.stream 0 x.draft x.node = some x ∧
      2 < x.elements ∧ x.status = none ∧ x.bolt (x.boltOf 2) = bs.head? ∧ s.flips = [] ∧ s.memCtl.poison = [] ∧
      s.memCtl.corrupt = [] ∧ s.memCtl.armed = [] ∧ s.deferred = [] ∧ (∀ b ∈ bs, s.rangeOpen (x.word b 2) 4 = true) ∧
      (∀ b ∈ bs, ({ s with memCtl := { s.memCtl with relocating := [groupOf 0 (gOffset (x.word b 2))] } } : State).rangeOpen (x.word b 2) 4 = false) ∧
      (∀ b ∈ bs, let w := x.word b 2
        let h := x.boltArea + 128 * b.slot
        s.isLocal w = true ∧ s.isLocal h = true ∧ gSpace w = 0 ∧ gSpace h = 0 ∧ gOffset h + 128 ≤ gOffset w ∧ gOffset w + 4 ≤ 2 ^ 48 ∧
        s.writeErr (partCtx 0) w 4 = none ∧ s.writeErr (partCtx 0) h 128 = none) := by decide +kernel

theorem test_meets_BoltsFillLaunchAndResize_launch :
    (let r := reducing [{ index := 0, slot := 0, emitted := [2, 0, 1] }]
     let s := r.1
     let x := r.2
     x.bolts = [{ index := 0, slot := 0, emitted := [2, 0, 1] }] ∧ x.ready 0 = true ∧ x.slotNext = none ∧ x.cells = [] ∧ x.made = [] ∧
     (∀ f ∈ x.entries, ∃ m ∈ f.srcs, m ≠ ownSource) ∧ (∀ f ∈ x.entries, f.ctrl = false → 0 < f.elems) ∧
     (∀ e ∈ [2, 0, 1], s.readErr (partCtx 0) (x.word { index := 0, slot := 0 } e) 4 = none) ∧ s.fabric.owed = [] ∧ s.flips = [] ∧ s.memCtl.poison = [] ∧
     s.memCtl.corrupt = [] ∧ s.memCtl.armed = [] ∧ s.deferred = [] ∧ s.hasTurn 1 0 s.launchWaits = true ∧
     (∀ g ∈ x.granulesOf 0, s.readErr (partCtx 0) (x.xhist + g) 1 = none) ∧ x.status = none ∧
     s.isLocal x.boltArea = true ∧ gSpace x.boltArea = 0 ∧ gOffset x.boltArea + 128 ≤ 2 ^ 48 ∧ s.writeErr (partCtx 0) x.boltArea 128 = none ∧
     (let t : State := { s with parts := s.parts ++ [(1, s.part 0)], served := [(1, 1)] }
      t.launchWaits = [0, 1] ∧ t.hasTurn 1 0 t.launchWaits = false)) ∧
    ((reducing [{ index := 0, slot := 0, emitted := [2] }]).2.ready 0 = false) := by decide +kernel

theorem test_meets_BoltsFillLaunchAndResize_ortho :
    ((reducing []).2.mode ≠ 1) ∧ (((reducing [] 1 { node := some (1, 0) }).1.loom 3).node = some (1, 0)) ∧
    ((nodeOf (nodeRec 4 [] []) .running).bubble = false ∧ ({ (reducing [] 1).1 with parts := [] } : State).dispatches 0 = false) ∧
    (let r := reducing [{ index := 0, slot := 0, st := 4 }] 1
     let x := r.2
     let lr := leBytes 4 2 ++ leBytes 4 2 ++ leBytes 1 1 ++ zeros 7 ++ leBytes 8 0x30000 ++ leBytes 8 0x38000 ++ zeros 32
     let s := r.1.setHbm 0x20000 lr
     let c := nodeCtx (draftOf [nodeOf (nodeRec 4 [] []) .running]) (nodeOf (nodeRec 4 [] []) .running)
     let o := orthoRounds 2 1 x.pick (le x.block 60 2) (matOf 2 1 (fun i j => le (zeros 8) (4 * (1 * i + j)) 4)) 0 2 0
     let t := s.put c (.node x.draft x.node) (le lr 24 8) (o.1.flatMap (fun row => row.flatMap (leBytes 4)))
     (s.part 0).streams.find? (fun x => !x.gather && x.id == 1) = some x ∧ 3 = s.physLoom 0 x.orthoLoom ∧ s.deferred = [] ∧ s.dispatches 0 = true ∧ t.1.deferred = [] ∧
     (∀ e ∈ s.drafts, (loomsOf e.nodes).contains x.orthoLoom = true → e.loop = none) ∧
     (∀ e ∈ s.drafts, ∀ m ∈ e.nodes.zipIdx, m.1.loomSet.contains x.orthoLoom = false) ∧ x.mode = 1 ∧ (s.loom 3).node = none ∧
     x.orthoDone = false ∧ x.status = none ∧ (∀ b, b < x.bolts' → ∃ y ∈ x.bolts, y.index = b ∧ y.st = 4) ∧ (s.draft 1).isSome = true ∧
     s.fetch c x.lrState 64 = some lr ∧ s.fetch c (le lr 16 8) (4 * 2 * 1) = some (zeros 8) ∧ t.2 = none ∧ t.1.stream 0 x.draft x.node = some x) := by
  decide +kernel

theorem test_meets_BoltsFillLaunchAndResize_temple :
    let s := withRegs (reducing []).1 [(.tmpBolt 0, 0x100)]
    (tget {} (s.part 0).slots 0).bolts.find? (fun b => b.1 == 1) = some (1, boltTail) ∧ ((s.part 0).streams.find? (fun x => !x.gather && x.id == 1)).isSome = true ∧
    max 1 (s.fld (.tmpBolt 0) 8 8) ≤ 1 ∧ 1 < max 1 ((reducing []).1.fld (.tmpBolt 0) 8 8) ∧ s.bit (.tmpBolt 0) 0 = false ∧
    (withRegs s [(.tmpBolt 0, 0x101)]).bit (.tmpBolt 0) 0 = true ∧ 1024 * (withRegs s [(.tmpBoltTail 0, 0)]).fld (.tmpBoltTail 0) 0 16 * 1 < 1024 ∧
    (let t := withRegs s [(.tmpBoltTail 0, 2 + 2 * 65536)]
     1024 < 1024 * min (t.fld (.tmpBoltTail 0) 0 16) (t.fld (.tmpBoltTail 0) 16 16) * 1) ∧
    (let t := withRegs s [(.tmpBoltTail 0, 1 + 65536)]
     1024 ≤ 1024 * t.fld (.tmpBoltTail 0) 0 16 * 1 ∧ 1024 * min (t.fld (.tmpBoltTail 0) 0 16) (t.fld (.tmpBoltTail 0) 16 16) * 1 ≤ 1024) := by decide +kernel

-- ## Power

/-- The module with another state of the treadle. -/
def treadled (f : Treadle → Treadle) (l : List (Reg × Nat) := []) : State := { withRegs up l with treadle := f up.treadle }

theorem test_meets_RailsAndStates :
    (up.treadle.vmainGood = true ∧ up.treadle.vsideGood = true ∧ up.treadle.awaiting = false ∧ decide (30500 ≤ 30500 ∧ 30500 ≤ 41000) = true ∧ 1620 ≤ 1620 ∧ 2900 ≤ 2900) ∧
    (let s := treadled (fun x => { x with state := 4, awaiting := true, vmainGood := false })
     s.treadle.awaiting = true ∧ decide (31500 < 31501 ∧ 31501 ≤ 41000) = true ∧ s.boot.state = .ready ∧ s.treadle.state = 4 ∧ s.treadle.moving = none) ∧
    (∀ d ∈ [1, 0x33], let s := treadled id [(.knotSrc 57, 0)]
      s.react 57 = 0 ∧ s.treadle.moving = none ∧ s.treadle.vmainGood = true ∧ s.treadle.state = 0 ∧ s.treadle.domains.contains d = true ∧ (d < 0x10 ∨ 0x30 ≤ d)) ∧
    (2899 < 2900 ∧ 30499 < 30500 ∧ 41000 < 41001) ∧
    (let s := treadled id [(.knotSrc 57, 0)]
     s.shuttles = [] ∧ s.treadle.domains.contains (0x10 + 31) = true ∧ (s.unit 0 (8 * 31)).fails = 0 ∧ (∀ j, j < 8 → (s.loom (8 * 31 + j)).node = none)) ∧
    (∀ st ∈ [1, 2, 3], let s := treadled (fun x => { x with state := st }) [(.trdWakeEn, 0x20)]
      s.arrives (.port 0 0) = true ∧ s.fromAdmin (.port 0 0) = true ∧ s.boot.state = .ready ∧ s.treadle.moving = none ∧ s.boot.phase = .idle ∧ s.treadle.hold = 0 ∧
      s.bit .trdWakeEn 5 = true ∧ 8 % 8 = 0) ∧
    (work.mayEnter 4 = false ∧ work.mayEnter 2 = false ∧ 5 ≤ 7 % 8 ∧ work.treadle.state < 2 ∧ work.fromAdmin (.port 0 0) = true) ∧
    (∀ n ∈ [1, 2, 3], let s := treadled (fun x => { x with moving := some (.entry n) })
      s.treadle.moving = some (.entry n) ∧ s.treadle.pending = none ∧ s.treadle.domains = allDomains ∧ s.arrives (.port 0 0) = true ∧ 4 % 8 ≠ n ∧
      s.channels = [] ∧ (∃ x ∈ ({ s with channels := [(256 * 0x20 + 31, [.pick 0 9])] } : State).channels, x.2 ≠ [] ∧ x.1 % 256 < 32)) ∧
    (let s := treadled (fun x => { x with moving := some (.exit 0), state := 1 })
     s.treadle.moving = some (.exit 0) ∧ s.treadle.pending = none ∧ s.treadle.domains = allDomains) ∧
    (let s := treadled (fun x => { x with moving := some (.exit 0), vmainGood := false }) [(.knotSrc 57, 0)]
     s.treadle.vmainGood = false ∧ s.react 57 = 0) := by decide +kernel

theorem test_meets_WakesHeatAndTheCap :
    (∀ st ∈ [1, 4], let s := treadled (fun x => { x with state := st }) [(.trdWakeEn, 6)]
      s.treadle.driving = false ∧ s.treadle.ignoring = false ∧ s.treadle.moving = none ∧ s.bit .trdWakeEn 1 = true ∧ s.bit .trdWakeEn 2 = true ∧ s.treadle.state ≠ 0 ∧
      s.treadle.vmainGood = true ∧ s.boot.state = .ready ∧ s.boot.phase = .idle ∧ s.treadle.hold = 0) ∧
    (up.treadle.state = 0 ∧ (treadled id [(.trdWakeEn, 0)]).bit .trdWakeEn 1 = false) ∧ (treadled (fun x => { x with driving := true })).treadle.driving = true ∧
    (treadled (fun x => { x with domains := [0] })).sensors = [] ∧
    (∀ t ∈ [400, 919], let s := treadled (fun x => { x with level := (up.thresholds.filter (fun k => decide (k ≤ t))).length, hotRun := 1 }) [(.knotSrc 58, 0)]
      let hot := (s.sensors.map (fun i => (i, (List.replicate 16 t).getD i 0))).foldl (fun m p => max m p.2) 0
      s.sensors ≠ [] ∧ hot = t ∧ (hot < 8 * s.tHot ∨ 8 * s.tHot ≤ hot) ∧ s.treadle.hold = 0 ∧ s.treadle.critRun = 0 ∧ s.treadle.hotRun = 1 ∧ s.treadle.state = 0 ∧
      s.treadle.moving = none ∧ s.react 58 = 0) ∧
    (let s := treadled (fun x => { x with level := 3 }) [(.knotSrc 58, 0)]
     (s.thresholds.filter (fun k => decide (k ≤ 8 * s.tHot - 1))).length ≠ s.treadle.level ∧ 8 * s.tHot - 1 < 8 * s.tHot ∧ 8 * up.tHot ≤ 919 ∧ 400 < 8 * up.tHot) ∧
    (let s := (treadled id).setIsland 31 { on := true, freq := 30 }
     s.bit .tmpCapCtl 0 = false ∧ (List.range 32).filter (fun c => (s.island c).on) ≠ [] ∧ s.cap < 4095 ∧ s.fNow 31 = 30 ∧ s.fMin 31 < 30) ∧
    ((treadled id [(.tmpCapCtl, 1)]).bit .tmpCapCtl 0 = true) := by decide +kernel

-- ## Boot and images

/-- The bytes of a well-formed image header that are not zero, in both slots: 7 empty components of ids 1 to 7 (R482 to R484). -/
def imageCells : List Host.Cell :=
  [(4503599627370496, 81), (4503599627370497, 83), (4503599627370498, 57), (4503599627370499, 54), (4503599627370500, 1), (4503599627370511, 7), (4503599627370517, 150), (4503599627372544, 1), (4503599627372624, 2), (4503599627372704, 3), (4503599627372784, 4), (4503599627372864, 5), (4503599627372944, 6), (4503599627373024, 7)] ++
  [(4503599744811008, 81), (4503599744811009, 83), (4503599744811010, 57), (4503599744811011, 54), (4503599744811012, 1), (4503599744811023, 7), (4503599744811029, 150), (4503599744813056, 1), (4503599744813136, 2), (4503599744813216, 3), (4503599744813296, 4), (4503599744813376, 5), (4503599744813456, 6), (4503599744813536, 7)]

/-- A module with an image in both flash slots, in a boot state, with its partitions. -/
def booting (b : Boot → Boot) (parts : List (Nat × Part) := []) : State :=
  { up with mem := imageCells, boot := b up.boot, parts := parts, fuses := 0 }

theorem rdBytes_append (s : State) (k a b : Nat) : s.rdBytes k (a + b) = s.rdBytes k a ++ s.rdBytes (k + a) b := by
  simp [State.rdBytes, List.range_add, Nat.add_assoc]

theorem rdBytes_absent (s : State) (k n : Nat) (h : s.mem.all (fun c => decide (c.1 < k ∨ k + n ≤ c.1)) = true) : s.rdBytes k n = zeros n := by
  simp only [List.all_eq_true, decide_eq_true_eq] at h
  have : s.rdBytes k n = (List.range n).map (fun _ => 0) := by
    refine List.map_congr_left (fun i hi => ?_)
    have hi := List.mem_range.1 hi
    exact tget_of_absent _ _ _ (fun c hc => by have := h c hc; omega)
  simpa [zeros] using this

/-- The image header of both slots, written out. -/
def imageHeader : List Byte :=
  [0x51, 0x53, 0x39, 0x36, 1, 0, 0, 0, 0, 0, 0, 0, 0, 0, 0, 7, 0, 0, 0, 0, 0, 0x96] ++ (zeros 10 ++ (zeros 1952 ++ (zeros 64 ++ ([1] ++ (zeros 79 ++ ([2] ++ (zeros 79 ++ ([3] ++ (zeros 79 ++ ([4] ++ (zeros 79 ++ ([5] ++ (zeros 79 ++ ([6] ++ (zeros 79 ++ ([7] ++ (zeros 799 ++ (zeros 3309 ++ (zeros 1555)))))))))))))))))))

/-- What the free constants of log 7 would have to say for that image to verify: the SHAKE256 digest of the all-zero vendor key is the (zero) fuse
digest, the signature verifies, and the digest of an empty component is zero. -/
def imageGenuine : Prop :=
  Config.shake256 32 (zeros 1952) = leBytes 32 0 ∧ Config.shake256 64 [] = zeros 64 ∧
  Config.mldsaVerify (zeros 1952) (imageHeader.take 3328) (zeros 3309) = true

theorem test_append_congr {a b c d : List Byte} (h : a = c) (k : b = d) : a ++ b = c ++ d := by rw [h, k]

theorem test_header_image (slot : Nat) (h : slot < 2) : (booting id).header slot = imageHeader := by
  have e : (8192 : Nat) = 22 + (10 + (1952 + (64 + (1 + (79 + (1 + (79 + (1 + (79 + (1 + (79 + (1 + (79 + (1 + (79 + (1 + (799 + (3309 + (1555))))))))))))))))))) := rfl
  rw [State.header, e, imageHeader]
  rw [rdBytes_append _ _ 22, rdBytes_append _ _ 10, rdBytes_append _ _ 1952, rdBytes_append _ _ 64, rdBytes_append _ _ 1, rdBytes_append _ _ 79, rdBytes_append _ _ 1, rdBytes_append _ _ 79, rdBytes_append _ _ 1, rdBytes_append _ _ 79, rdBytes_append _ _ 1, rdBytes_append _ _ 79, rdBytes_append _ _ 1, rdBytes_append _ _ 79, rdBytes_append _ _ 1, rdBytes_append _ _ 79, rdBytes_append _ _ 1, rdBytes_append _ _ 799, rdBytes_append _ _ 3309]
  match slot, h with
  | 0, _ => exact (test_append_congr (by decide +kernel)
      (test_append_congr (rdBytes_absent _ _ _ (by decide +kernel))
      (test_append_congr (rdBytes_absent _ _ _ (by decide +kernel))
      (test_append_congr (rdBytes_absent _ _ _ (by decide +kernel))
      (test_append_congr (by decide +kernel)
      (test_append_congr (rdBytes_absent _ _ _ (by decide +kernel))
      (test_append_congr (by decide +kernel)
      (test_append_congr (rdBytes_absent _ _ _ (by decide +kernel))
      (test_append_congr (by decide +kernel)
      (test_append_congr (rdBytes_absent _ _ _ (by decide +kernel))
      (test_append_congr (by decide +kernel)
      (test_append_congr (rdBytes_absent _ _ _ (by decide +kernel))
      (test_append_congr (by decide +kernel)
      (test_append_congr (rdBytes_absent _ _ _ (by decide +kernel))
      (test_append_congr (by decide +kernel)
      (test_append_congr (rdBytes_absent _ _ _ (by decide +kernel))
      (test_append_congr (by decide +kernel)
      (test_append_congr (rdBytes_absent _ _ _ (by decide +kernel))
      (test_append_congr (rdBytes_absent _ _ _ (by decide +kernel))
      (rdBytes_absent _ _ _ (by decide +kernel)))))))))))))))))))))
  | 1, _ => exact (test_append_congr (by decide +kernel)
      (test_append_congr (rdBytes_absent _ _ _ (by decide +kernel))
      (test_append_congr (rdBytes_absent _ _ _ (by decide +kernel))
      (test_append_congr (rdBytes_absent _ _ _ (by decide +kernel))
      (test_append_congr (by decide +kernel)
      (test_append_congr (rdBytes_absent _ _ _ (by decide +kernel))
      (test_append_congr (by decide +kernel)
      (test_append_congr (rdBytes_absent _ _ _ (by decide +kernel))
      (test_append_congr (by decide +kernel)
      (test_append_congr (rdBytes_absent _ _ _ (by decide +kernel))
      (test_append_congr (by decide +kernel)
      (test_append_congr (rdBytes_absent _ _ _ (by decide +kernel))
      (test_append_congr (by decide +kernel)
      (test_append_congr (rdBytes_absent _ _ _ (by decide +kernel))
      (test_append_congr (by decide +kernel)
      (test_append_congr (rdBytes_absent _ _ _ (by decide +kernel))
      (test_append_congr (by decide +kernel)
      (test_append_congr (rdBytes_absent _ _ _ (by decide +kernel))
      (test_append_congr (rdBytes_absent _ _ _ (by decide +kernel))
      (rdBytes_absent _ _ _ (by decide +kernel)))))))))))))))))))))

theorem test_header_read (slot : Nat) (b : Boot → Boot) (ps : List (Nat × Part)) (h : slot < 2) : (booting b ps).header slot = imageHeader := by
  rw [← test_header_image slot h]
  simp only [State.header, State.rdBytes, State.rd, booting]

theorem test_header_ok : headerOk imageHeader = true := by decide +kernel
theorem test_slice_append (a b c : List Byte) (i n : Nat) (ha : a.length = i) (hb : b.length = n) : slice (a ++ (b ++ c)) i n = b := by
  rw [slice, ← ha, ← hb, List.drop_left, List.take_left]
theorem test_header_key : slice imageHeader 32 1952 = zeros 1952 := by
  rw [imageHeader, ← List.append_assoc]
  exact test_slice_append _ _ _ _ _ (by simp only [List.length_append, zeros, List.length_replicate, List.length_cons, List.length_nil]) List.length_replicate
theorem test_header_signature : slice imageHeader 3328 3309 = zeros 3309 := by
  rw [imageHeader]
  simp only [← List.append_assoc]
  rw [List.append_assoc]
  exact test_slice_append _ _ _ _ _ (by simp only [List.length_append, zeros, List.length_replicate, List.length_cons, List.length_nil]) List.length_replicate
theorem test_header_components : (compEntries imageHeader).all (fun e => le e 8 4 == 0 && slice e 16 64 == zeros 64) = true := by decide +kernel

theorem test_vendor_key (g : imageGenuine) (b : Boot → Boot) (ps : List (Nat × Part)) : (booting b ps).vendorKeyIs imageHeader 0 = true := by
  rw [State.vendorKeyIs, test_header_key, g.1]
  simp only [State.fuseBit, booting, field, bitAt, Nat.zero_div, Nat.zero_mod]
  decide +kernel

theorem test_image_verifies (g : imageGenuine) (slot : Nat) (b : Boot → Boot) (h : slot < 2) (ps : List (Nat × Part) := []) : (booting b ps).verifySlot slot = .ok 0 := by
  have a4 : (booting b ps).keySlot imageHeader = some 0 := by
    rw [State.keySlot, firstIdx, List.range_eq_range', List.range'_succ, List.find?_cons_of_pos]
    exact test_vendor_key g b ps
  rw [State.verifySlot, test_header_read slot b ps h]
  simp only [test_header_ok, a4, test_header_key, test_header_signature, g.2.2]
  rfl

theorem test_image_measures (g : imageGenuine) (slot : Nat) (b : Boot → Boot) (h : slot < 2) (ps : List (Nat × Part) := []) : (booting b ps).measureSlot slot = 0 := by
  have hc := test_header_components
  have hm : (compEntries imageHeader).any (fun e => (booting b ps).measure slot e != slice e 16 64) = false := by
    rw [List.any_eq_false]
    intro e he
    have h2 := (List.all_eq_true.1 hc) e he
    simp only [Bool.and_eq_true, beq_iff_eq] at h2
    have h3 : (booting b ps).measure slot e = zeros 64 := by rw [State.measure, h2.1]; exact g.2.1
    simp [h3, h2.2]
  have hr : (booting b ps).rollback = 0 := by
    have : (booting b ps).rollback = (booting id).rollback := rfl
    rw [this]; decide +kernel
  rw [State.measureSlot, test_header_read slot b ps h]
  simp only [hm, hr]
  simp

theorem test_checkSlot_ok (s : State) (slot : Nat) (hv : s.verifySlot slot = .ok 0) (hm : s.measureSlot slot = 0) : s.checkSlot slot = .ok 0 := by
  unfold State.checkSlot
  generalize s.verifySlot slot = a at *
  generalize s.measureSlot slot = b at *
  subst hv hm
  rfl

theorem test_image_checks (g : imageGenuine) (slot : Nat) (b : Boot → Boot) (h : slot < 2) (ps : List (Nat × Part) := []) : (booting b ps).checkSlot slot = .ok 0 :=
  test_checkSlot_ok (booting b ps) slot (test_image_verifies g slot b h ps) (test_image_measures g slot b h ps)

theorem test_image_under_key (g : imageGenuine) : (booting id).verifiesUnder 0 = true := by
  have hv := test_image_verifies g 0 id (by omega)
  rw [State.verifiesUnder, List.any_eq_true]
  exact ⟨0, List.mem_range.2 (by omega), by rw [hv, test_header_read 0 id [] (by omega), test_vendor_key g]; rfl⟩

/-- A module with empty flash, in a boot state, with a fuse array. -/
def bare (b : Boot → Boot) (fuses : Nat := 0) : State := { withRegs up [(.knotSrc 60, 0)] with boot := b up.boot, fuses := fuses }

theorem test_meets_BootRunsItsCourse :
    ((bare (fun b => { b with state := .reset })).boot.state = .reset ∧ (bare id).treadle.vstbyGood = true ∧ (bare id).boot.state ≠ .reset) ∧
    (let s := bare (fun b => { b with state := .fuses })
     s.boot.state = .fuses ∧ crc32 (mfgBytes s.fuses) ≠ field s.fuses 992 32 ∧ s.react 60 = 0) ∧
    (let s := bare (fun b => { b with state := .fuses }) (crc32 (mfgBytes 0) * 2 ^ 992)
     s.boot.state = .fuses ∧ crc32 (mfgBytes s.fuses) = field s.fuses 992 32 ∧ 5 % 2 ^ 14 / 4096 = 0) ∧
    (∀ n ∈ [0, 1], let s := bare (fun b => { b with state := .verify, tried := n })
      s.boot.state = .verify ∧ s.verifySlot s.boot.trying = .error 2 ∧ s.boot.tried = n) ∧
    (∀ n ∈ [0, 1], let s := bare (fun b => { b with state := .measure, tried := n }) (2 ^ 770)
      s.boot.state = .measure ∧ s.measureSlot s.boot.trying = 6 ∧ s.boot.tried = n) ∧
    (∀ n ∈ [0, 1], let s := bare (fun b => { b with state := .identity, trying := n })
      s.boot.state = .identity ∧ (if n = 0 then s.boot.trying = s.boot.recordSlot else s.boot.trying ≠ s.boot.recordSlot ∧ s.boot.trying ≤ 1 ∧ s.governing.2.1 < 2 ^ 64 - 1) ∧
      s.treadle.vmainGood = true ∧ s.treadle.vsideGood = true ∧ s.treadle.moving = none) ∧
    ({ bare (fun b => { b with state := .identity }) with treadle := { up.treadle with vmainGood := false } } : State).treadle.vmainGood = false ∧
    (∀ n ∈ [0, 3], let s := bare (fun b => { b with image := { b.image with svn := n } }) (2 ^ 770)
      s.arrives (.port 0 0) = true ∧ s.adminPf (.port 0 0) = true ∧ field 0x96000100 16 16 = 0x9600 ∧ s.trust.blowBusy = false ∧
      (if n = 3 then s.rollback < s.boot.image.svn else s.boot.image.svn ≤ s.rollback) ∧ s.verifiesUnder (1 - field 0x96000100 8 1) = false) ∧
    (let s : State := { bare id with trust := { up.trust with blowing := [770, 771], blowBusy := true } }
     s.trust.blowBusy = true ∧ 771 ∈ s.trust.blowing ∧ s.react 60 = 0) := by decide +kernel

theorem test_meets_BootRunsItsCourse_genuine (g : imageGenuine) :
    (let s := booting (fun b => { b with state := .verify })
     s.boot.state = .verify ∧ s.verifySlot s.boot.trying = .ok 0) ∧
    (let s := booting (fun b => { b with state := .measure })
     s.boot.state = .measure ∧ s.measureSlot s.boot.trying = 0) ∧
    (let s := booting id
     s.arrives (.port 0 0) = true ∧ s.adminPf (.port 0 0) = true ∧ field 0x96000100 16 16 = 0x9600 ∧ s.trust.blowBusy = false ∧ s.verifiesUnder (1 - field 0x96000100 8 1) = true) :=
  ⟨⟨rfl, test_image_verifies g 0 _ (by omega)⟩, ⟨rfl, test_image_measures g 0 _ (by omega)⟩, by decide +kernel, by decide +kernel, by decide +kernel, by decide +kernel,
    by rw [show 1 - field 0x96000100 8 1 = 0 by decide +kernel]; exact test_image_under_key g⟩

theorem test_meets_ImagesAreStagedAndActivated :
    (∀ src ∈ [Src.smbus, .port 0 0],
      (let s := bare (fun b => { b with stage := .commit })
       s.arrives src = true ∧ s.bootWriter src = true ∧ s.stageBlocked = true) ∧
      (let s := bare id
       s.arrives src = true ∧ s.bootWriter src = true ∧ s.stageBlocked = false ∧ 65533 + ([1, 2, 3] : List Byte).length ≤ 65536 ∧ 1791 < 1792)) ∧
    ((bare (fun b => { b with phase := .holding })).boot.phase ≠ .idle ∧ bitAt 1 0 = true ∧ (bare id).boot.phase = .idle ∧
      ((bare id).slotInfo (bare id).standby).verified = false) ∧
    (∀ n ∈ [0, 1], let s : State := { bare (fun b => { b with slots := [(1, ⟨2, 0, 0, true⟩)], image := { b.image with numeric := n } }) with parts := work.parts }
      (s.slotInfo s.standby).verified = true ∧ s.rollback ≤ le (s.header s.standby) 14 1 ∧
      (if n = 0 then le (s.header s.standby) 8 2 = s.boot.image.numeric else le (s.header s.standby) 8 2 ≠ s.boot.image.numeric ∧ (s.part 0).st.idle = false)) ∧
    (let s := bare (fun b => { b with stage := .write 1791, buffer := [(0, 1), (65535, 2)] })
     s.boot.stage = .write 1791 ∧ Machine.twf 0 s.boot.buffer = true ∧ (∀ c ∈ s.boot.buffer, c.1 < 65536)) ∧
    (let s := bare (fun b => { b with stage := .commit })
     s.boot.stage = .commit ∧ s.checkSlot s.standby = .error 2) ∧
    (let s := bare (fun b => { b with phase := .verifying })
     s.treadle.pending = none ∧ s.boot.phase = .verifying ∧ s.checkSlot s.standby = .error 2) ∧
    (let s := bare (fun b => { b with phase := .holding })
     s.boot.phase = .holding ∧ s.treadle.pending = none) := by decide +kernel

theorem test_no_job (p : Nat) (b : Boot → Boot) : (booting b).hasJob p = false := by
  have h : (booting b).regs = [] := rfl
  have h0 : (Reg.jobCtl p).reset = 0 := rfl
  rw [State.hasJob, State.bit, State.reg, h, List.find?_nil]
  simp only [h0, bitAt, Nat.zero_div, Nat.zero_mod]
  decide

theorem test_standby_of_mem (s t : State) (h : s.mem = t.mem) : s.standby = t.standby := by
  have hb : s.rdBytes = t.rdBytes := by funext k n; simp only [State.rdBytes, State.rd, h]
  have hc (c : Nat) : s.recordCopy c = t.recordCopy c := by rw [State.recordCopy, State.recordCopy, hb]
  have hg : s.governing = t.governing := by rw [State.governing, State.governing, hc, hc]
  rw [State.standby, State.standby, State.recordSlot, State.recordSlot, hg]

theorem test_meets_ImagesAreStagedAndActivated_genuine (g : imageGenuine) :
    (let s := booting (fun b => { b with stage := .commit })
     s.boot.stage = .commit ∧ s.checkSlot s.standby = .ok 0 ∧ s.boot.state ≠ .recovery) ∧
    (let s := booting (fun b => { b with stage := .commit, state := .recovery })
     s.boot.stage = .commit ∧ s.checkSlot s.standby = .ok 0 ∧ s.boot.state = .recovery ∧ s.governing.2.1 < 2 ^ 64 - 1) ∧
    (let s := booting (fun b => { b with phase := .verifying })
     s.boot.phase = .verifying ∧ s.treadle.pending = none ∧ s.checkSlot s.standby = .ok 0 ∧ (∀ p, p < 16 → s.holdable p = true)) ∧
    (let s := booting (fun b => { b with phase := .verifying }) [(15, { st := .enabling })]
     s.boot.phase = .verifying ∧ s.treadle.pending = none ∧ s.checkSlot s.standby = .ok 0 ∧ 15 < 16 ∧ s.holdable 15 = false) ∧
    (let s := booting (fun b => { b with phase := .switching })
     s.boot.phase = .switching ∧ s.treadle.pending = none ∧ s.verifySlot s.standby = .ok 0 ∧ (∀ p, s.hasJob p = false) ∧ s.governing.2.1 < 2 ^ 64 - 1 ∧
     s.boot.image.protoMin = (s.imageOf s.standby 0).protoMin ∧ s.boot.image.protoMax = (s.imageOf s.standby 0).protoMax) := by
  have h (b : Boot → Boot) (ps : List (Nat × Part)) : (booting b ps).standby = 1 := by
    rw [test_standby_of_mem (booting b ps) (booting id) rfl]; decide +kernel
  refine ⟨⟨rfl, ?_, by decide +kernel⟩, ⟨rfl, ?_, rfl, by decide +kernel⟩, ⟨rfl, rfl, ?_, by decide +kernel⟩, ⟨rfl, rfl, ?_, by decide +kernel⟩, rfl, rfl, ?_, fun p => test_no_job p _, by decide +kernel, by decide +kernel, by decide +kernel⟩
  · rw [h]; exact test_image_checks g 1 _ (by omega)
  · rw [h]; exact test_image_checks g 1 _ (by omega)
  · rw [h]; exact test_image_checks g 1 _ (by omega)
  · rw [h]; exact test_image_checks g 1 _ (by omega) _
  · rw [h]; exact test_image_verifies g 1 _ (by omega)

-- ## Attestation and the sideband

/-- The module with another state of the trust engine. -/
def trusted (f : Trust → Trust) : State := { up with trust := f up.trust }

theorem test_meets_ReportsAndTheSideband :
    (([0] : List Byte) ≠ [] ∧ ¬((zeros 33).length = 34 ∧ zeroAt (zeros 33) 32 2 = true) ∧ ¬((zeros 33 ++ [1]).length = 34 ∧ zeroAt (zeros 33 ++ [1]) 32 2 = true)) ∧
    ((zeros 34).length = 34 ∧ zeroAt (zeros 34) 32 2 = true ∧ (trusted (fun t => { t with ready := false })).trust.ready = false) ∧
    (∀ tr ∈ [Transport.pcie 1, .smbus], let s := trusted (fun t => { t with ready := true, queue := List.replicate 4 (tr, .identity) })
      s.trust.ready = true ∧ 4 ≤ (s.trust.queue.filter (fun x => x.1 == tr)).length) ∧
    ((trusted (fun t => { t with ready := true })).trust.ready = true ∧ (trusted (fun t => { t with ready := true })).trust.queue = []) ∧
    (∀ tr ∈ [Transport.pcie 1, .smbus], (trusted (fun t => { t with queue := [(tr, .report (zeros 32) (some []))] })).trust.queue = [(tr, .report (zeros 32) (some []))]) ∧
    (1 ≤ 1 ∧ 254 ≤ 254 ∧ 255 ≤ 255) ∧
    (({ up with treadle := { up.treadle with vsideGood := false } } : State).treadle.vsideGood = false ∧ up.treadle.vsideGood = true) ∧
    (0x7FFFFC / 0x80000 ≠ 16 ∧ 0x800030 / 0x80000 = 16 ∧ 0x880000 / 0x80000 = 17 ∧ 0x900000 / 0x80000 ≠ 17 ∧ up.boot.state ≠ .fail) ∧
    (∀ op ∈ [1, 2, 3], let m : List Byte := [0x7E, 0x1F, 0xD7, op, 0]
      le m 0 1 % 128 = 0x7E ∧ slice m 1 2 = [0x1F, 0xD7] ∧ le m 4 1 = 0 ∧ (op = 3 → le m 3 1 ≠ 1 ∧ le m 3 1 ≠ 2)) := by decide +kernel

-- ## PCIe

/-- The module with function 0 of port 0 placed at a BAR4 window: space and 2 MiB page. -/
def windowed (space page : Nat) : State := withRegs up [(.fnBar4 0 0, space + 256 * page)]

theorem test_meets_PortsFunctionsAndWindows :
    (∀ q ∈ [0, 1], let s := withRegs up [(.knotSrc 50, 0)]
      (∀ h ∈ s.hostReads, h.1 ≠ q) ∧ (∀ h ∈ s.fabric.hostWaits, h.1 ≠ q) ∧ (∀ k, k < 256 → (s.ring q k).en = false) ∧
      (if q = 1 then (s.port q).linkUp = false else (s.port q).linkUp = true ∧ s.react (50 + q) = 0)) ∧
    (up.pcieOn = true ∧ (up.port 1).linkUp = false ∧ ({ up with ports := [(1, { maxWidth := 16, perst := true })] } : State).pcieOn = true ∧
      (({ up with ports := [(1, { maxWidth := 16, perst := true })] } : State).port 1).perst = true ∧ (({ up with ports := [(1, { maxWidth := 16, perst := true })] } : State).port 1).maxWidth ≠ 0) ∧
    (∀ f ∈ [0, 63], ∀ b ∈ [false, true], let s : State := { up with
        ports := [(0, { linkUp := true, width := 16, speed := 5, numVfs := 63 })], treadle := { up.treadle with served := b } }
      (s.port 0).linkUp = true ∧ s.exists_ 0 f = true ∧ s.treadle.served = b ∧ s.boot.state ≠ .recovery ∧ s.treadle.state = 0 ∧ s.treadle.moving = none ∧
      (∀ w ∈ (s.port 0).waiting, w.1 ≠ f) ∧ (s.func 0 f).pendingBits = 0 ∧ 2 ≤ 2 ∧ 5 ≤ 5) ∧
    (let s : State := { work with parts := [(0, { st := .active })] }
     (s.port 0).linkUp = true ∧ s.exists_ 0 0 = true ∧ s.owns 0 0 0 = true ∧ (s.part 0).st = .active ∧ (s.part 0).en = true) ∧
    ((∀ k, k < 256 → (up.ring 0 k).en = false) ∧ (∀ p, p < 16 → up.owns 0 0 p = false)) ∧
    (let s := windowed 0 1
     let c : Ctx := { part := none, admin := true }
     let a := s.moduleNum * 2 ^ 52 + spaceKey 0 0x200040
     s.arrives (.port 0 0) = true ∧ s.serving (.port 0 0) = true ∧ s.isAdmin 0 0 = true ∧ s.treadle.state = 0 ∧ s.treadle.moving = none ∧
     0x40 + 4 ≤ 2 ^ (30 + (s.func 0 0).bar4) ∧ s.fld (.fnBar4 0 0) 0 4 = 0 ∧ s.fld (.fnBar4 0 0) 8 24 * 0x200000 + 0x40 = 0x200040 ∧ 0x200040 + 4 ≤ 2 ^ 48 ∧
     s.allowed c a 4 false = true ∧ s.readErr c a 4 = none ∧ s.flips = [] ∧ s.memCtl.poison = [] ∧ s.memCtl.corrupt = [] ∧ s.deferred = [] ∧
     s.allowed c a 4 true = true ∧ s.writeErr c a 4 = none) ∧
    ((windowed 4 0).fld (.fnBar4 0 0) 0 4 = 4 ∧
      (let s := windowed 0 0xFFFFFF
       let a := s.moduleNum * 2 ^ 52 + spaceKey 0 (0xFFFFFF * 0x200000)
       s.fld (.fnBar4 0 0) 8 24 = 0xFFFFFF ∧ s.allowed { part := none, admin := true } a 4 false = false ∧ s.allowed { part := none, admin := true } a 4 true = false)) ∧
    (∀ b ∈ [0, 2 ^ 31], let s : State := { up with funcs := [(0, { msixOn := true, pendingBits := b })] }
      s.arrives (.port 0 0) = true ∧ (s.func 0 0).pendingBits = b ∧ (s.func 0 0).msixOn = true) := by
  refine ⟨?_, ?_, ?_, ?_, ?_, ?_, ?_, ?_⟩ <;> decide +kernel

theorem test_meets_RegistersAndHostAnswers :
    (∀ r ∈ [Reg.lmCfg, .lmSwapWdog, .accReadyWdog, .knotIrq, .tmpClassCtl, .hifAdoptDelay, .tmpCapCtl, .knotMergeCount, .knotLogStat, .trdPower, .trdLastWake, .bootStat,
        .bootActStat, .fusProgStat, .truStat, .mgrStat], regAt r.offset = some r) ∧
    (up.arrives (.port 0 0) = true ∧ up.fromAdmin (.port 0 0) = true ∧ up.arrives .smbus = true ∧ up.fromAdmin .smbus = false) ∧
    (regAt 0xFFFFFC = none ∧ inStaging 0xFFFFFC = false ∧ ¬(0xF00000 ≤ 0xFFFFFC ∧ 0xFFFFFC < 0xF00200)) ∧
    ((up.func 0 0).pendingBits = 0 ∧ up.bit .hifModule 27 = false ∧ (withRegs up [(.hifModule, 2 ^ 27)]).bit .hifModule 27 = true ∧
      (withRegs up [(.tmpCapCtl, 1)]).bit .tmpCapCtl 0 = true ∧ up.bit .tmpCapCtl 0 = false) ∧
    (∀ b ∈ [false, true], let s : State := { up with ports := [(0, { linkUp := b }), (1, { linkUp := true, width := 8 })], fuses := 3 * 2 ^ 899 }
      s.arrives (.port 1 0) = true ∧ s.serving (.port 1 0) = true ∧ bitAt 0x96000001 0 = true ∧ field 0x96000001 16 16 = 0x9600 ∧ field s.fuses 899 2 = 3 ∧
      (s.port 0).linkUp = b ∧ field 1 16 16 ≠ 0x9600 ∧ bitAt 2 0 = false) ∧
    (∀ n ∈ [1, 2], let y := { nodeOf (patch (nodeRec 0xA [] []) 104 (leBytes 8 (spaceKey 5 0x1000))) .running with acks := n }
      let s : State := { heddling [y] with hostReads := [(1, .node 1 0)] }
      s.deferred = [] ∧ s.mates = [] ∧ s.draft 1 = some (draftOf [y]) ∧ gSpace (spaceKey 5 0x1000) = 5 ∧ s.hostReads.contains (1, .node 1 0) = true ∧
      s.node 1 0 = some y ∧ y.kind = 0xA ∧ y.st = .running ∧ y.failing = none ∧ y.arg 104 8 = spaceKey 5 0x1000 ∧ y.acks = n ∧
      s.isLocal (spaceKey 5 0x1000) = true ∧ gOffset (spaceKey 5 0x1000) + 8 ≤ 2 ^ 48 ∧ (zeros 8).length = 8) ∧
    (∀ n ∈ [1, 2], let x : Entry := { entryOf 1 (entryBytes 0x40 7 0 0 0 0) with acks := n }
      let s : State := { work with entries := [x], hostReads := [(0, .entry 1)] }
      s.deferred = [] ∧ s.entry 1 = some x ∧ x.acks = n ∧ x.failing = none ∧ x.parked = none ∧ s.runs x.part = true ∧ s.hostReads = [(0, .entry 1)] ∧
      gSpace (spaceKey 4 0) = 4) := by
  refine ⟨?_, ?_, ?_, ?_, ?_, ?_, ?_⟩ <;> decide +kernel

-- ## Well-formedness

def goodPacket : Packet := { ty := 0, len := 0, vc := 0, detoured := false, dst := 0, space := 0, src := 0, srcPart := 0, domain := 0, tag := 0, offset := 0, data := [] }
def badPacket : Packet := { goodPacket with vc := 8 }
def goodEvent : FaultEv := { source := 61, cls := 0x29, unit := 0, unit2 := 0, address := 0, detail := 0, island := 0, part := some 15 }
def badEvent : FaultEv := { goodEvent with source := 62 }

theorem test_wf_packet : ([{ goodPacket with ty := 256 }, { goodPacket with len := 16 }, badPacket, { goodPacket with dst := 4096 }, { goodPacket with space := 16 },
    { goodPacket with src := 4096 }, { goodPacket with srcPart := 16 }, { goodPacket with domain := 65536 }, { goodPacket with tag := 65536 },
    { goodPacket with offset := 2 ^ 48 }, { goodPacket with data := [0] }] : List Packet).all (fun p => !p.wf) = true ∧ goodPacket.wf = true := by decide

theorem test_wf_event : ([badEvent, { goodEvent with cls := 256 }, { goodEvent with part := some 16 }] : List FaultEv).all (fun e => !e.wf) = true ∧ goodEvent.wf = true := by
  decide

theorem test_wf_source : ([.port 2 0, .port 0 64] : List Src).all (fun s => !s.wf) = true ∧ (Src.port 1 63).wf = true := by decide

theorem test_wf_parts : Transport.wf (.pcie 2) = false ∧ Issuer.wf (.shed 16 0) = false ∧ CfgOp.wf (.numVfs 64) = false ∧ CfgOp.wf (.bar4Size 64) = false ∧
    CfgOp.wf (.deviceControl 8 0) = false ∧ CfgOp.wf (.deviceControl 0 8) = false ∧ CfgOp.wf (.deviceControl 7 7) = true := by decide

theorem test_ill_formed_1 : ([
    .sqTail 2 0 0 0, .sqTail 0 64 0 0, .sqTail 0 0 256 0, .sqTail 0 0 0 (2 ^ 32), .cqHead 2 0 0 0, .cqHead 0 64 0 0, .cqHead 0 0 256 0,
    .cqHead 0 0 0 (2 ^ 32), .waitKick 2 0 0 0, .waitKick 0 64 0 0, .waitKick 0 0 256 0, .waitKick 0 0 0 (2 ^ 32), .inlineEntry 2 0 0 0 [0],
    .inlineEntry 0 64 0 0 [0], .inlineEntry 0 0 256 0 [0], .inlineEntry 0 0 0 64 [0], .submissionEntryAccept 2 0, .submissionEntryAccept 0 256,
    .completionWrite 2 0, .completionWrite 0 256, .pickAdvance 16, .preemptSaveComplete 16, .resumeRestoreComplete 16 true,
    .partitionConfigure (.port 2 0) 0 0, .partitionConfigure (.port 0 64) 0 0, .partitionConfigure .smbus 16 0,
    .partitionConfigure .smbus 0 (2 ^ 32), .partitionEnable (.port 2 0) 0, .partitionEnable .smbus 16, .partitionEnablingEnd 16,
    .partitionDisable (.port 2 0) 0, .partitionDisable .smbus 16, .partitionDisablingEnd 16, .partitionOwnerChange (.port 2 0) 0 0,
    .partitionOwnerChange .smbus 16 0, .partitionOwnerChange .smbus 0 (2 ^ 32), .arrayRowComplete Config.looms .matches,
    .rowCheckRetryComplete Config.looms true 0, .rowCheckRetryComplete 0 true 128, .loomSramUncorrectable Config.looms 0 .clean .outside] : List Instr).all (fun c => !c.wf) = true := by decide +kernel

theorem test_ill_formed_2 : ([
    .loomSramUncorrectable 0 0x400000 .clean .outside, .loomSramUncorrectable 0 0 .clean (.shed 16 0), .loomScrubRead ⟨Config.looms, .clean, .clean⟩,
    .warpShadowLoadComplete Config.looms, .imageLoadComplete Config.looms 0, .imageLoadComplete 0 4, .imageSwitch Config.looms 0, .imageSwitch 0 4,
    .weftSwap Config.looms, .swapTimeout Config.looms, .readyTimeout Config.looms 0, .readyTimeout 0 (2 ^ 22), .externalWrite (2 ^ 64) [0] .outside,
    .externalWrite 0 [] .outside, .externalWrite 0 [0] (.shed 16 0), .externalRead (2 ^ 64) ⟨0, .outside⟩, .externalRead 0 ⟨0, (.shed 16 0)⟩, .crossingDeliver Config.islands 0,
    .crossingDeliver 0 Config.islands, .handshakeTimeout Config.islands 0, .handshakeTimeout 0 Config.islands,
    .memoryRead (2 ^ 64) .clean .clean .outside, .memoryRead 0 .clean .clean (.shed 16 0), .memoryWrite (2 ^ 64) [0] .clean .clean .outside,
    .memoryWrite 0 [] .clean .clean .outside, .memoryWrite 0 [0] .clean .clean (.shed 16 0), .scrubReadDue true 64 .clean .clean,
    .scrubReadDue false 256 .clean .clean, .cacheWayChange (.port 2 0) 0 0, .cacheWayChange .smbus (2 ^ 24) 0, .cacheWayChange .smbus 0 (2 ^ 32),
    .poolAllocate 16 0 0 0, .poolAgeTempleUpdate 16, .shuttleRequest 16 0 .outside, .shuttleRequest 0 0 (.shed 16 0),
    .prefetchLeadTempleUpdate 16 0 0, .prefetchLeadTempleUpdate 0 8 0, .linkEnable (.port 2 0) 0 0, .linkEnable .smbus 6 0, .linkEnable .smbus 0 16,
    .linkDisable (.port 2 0) 0 0] : List Instr).all (fun c => !c.wf) = true := by decide +kernel

theorem test_ill_formed_3 : ([
    .linkDisable .smbus 6 0, .linkDisable .smbus 0 16, .linkDetect Config.links true true, .cableMemoryTimeout 6, .linkEqualiseDone Config.links 0,
    .linkEqualiseDone 0 65536, .linkEqualiseTimeout Config.links, .identBlock Config.links (zeros 32), .identBlock 0 [],
    .linkIdentifyTimeout Config.links, .linkLossOfLock Config.links, .linkDrainComplete Config.links, .flitReceive Config.links (zeros 512),
    .flitReceive 0 [], .nak Config.links 0, .nak 0 4096, .modeReq Config.links 0, .modeReq 0 2, .modeAck Config.links 0, .modeAck 0 2,
    .idleEnter Config.links, .linkModeTempleWindow ⟨Config.links, 0, 0⟩, .linkModeTempleWindow ⟨0, (2 ^ 32), 0⟩, .linkModeTempleWindow ⟨0, 0, (2 ^ 32)⟩, .rdReq badPacket, .rdRsp badPacket, .wr badPacket, .wrAck badPacket,
    .atomic badPacket, .atomicRsp badPacket, .nack badPacket, .redAdd badPacket, .redMax8 badPacket, .redOr badPacket, .requestTimeout 4096 0,
    .requestTimeout 0 65536, .requestRetryTimer 4096 0, .requestRetryTimer 0 65536, .heartbeat badPacket, .heartbeatMiss 64 0,
    .heartbeatMiss 0 65536, .join badPacket] : List Instr).all (fun c => !c.wf) = true := by decide +kernel

theorem test_ill_formed_4 : ([
    .joinAck badPacket, .stepReport badPacket, .stepDecide badPacket, .shedReport badPacket, .shedDecide badPacket, .shedEntryComplete 16 0 true,
    .shedClear badPacket, .lost badPacket, .takeover badPacket, .barrierReport badPacket, .barrierGo badPacket, .memberDeclareLost (.port 2 0) 0,
    .memberDeclareLost .smbus (2 ^ 32), .jobSlotEnable (.port 2 0) 0 0, .jobSlotEnable .smbus 64 0, .jobSlotEnable .smbus 0 (2 ^ 32),
    .jobJoinEnable (.port 2 0) 0 0, .jobJoinEnable .smbus 16 0, .jobJoinEnable .smbus 0 (2 ^ 32), .boltEmit 16 0 0 0 0, .boltEmit 0 0 0 (2 ^ 64) 0,
    .boltEmit 0 0 0 0 Config.looms, .boltLaunch 16 0 0, .orthoComplete 16 0, .boltSizeTempleUpdate 16 0 0, .boltSizeTempleUpdate 0 8 0,
    .serveStepBoundary 16 0, .serveStepBoundary 0 4, .serveStepComplete 16 0 0, .serveStepComplete 0 4 0, .promptChunkTempleUpdate 16 0,
    .promptChunkTempleUpdate 0 4, .swapOutComplete 16 0 0, .swapOutComplete 0 4 0, .swapOutComplete 0 0 1024, .adapterCopyComplete 16 0,
    .adapterCopyComplete 0 1024, .ringBlockArrive 16 0 0 0 true, .ringBlockArrive 0 4 0 0 true, .knotEvent badEvent] : List Instr).all (fun c => !c.wf) = true := by decide +kernel

theorem test_ill_formed_5 : ([
    .blockResetReturn 62, .handlingWindowClose (.port 2 0) 0 true, .handlingWindowClose .smbus (2 ^ 32) true, .knotWordClear (.port 2 0) true 0 0,
    .knotWordClear .smbus true (2 ^ 32) 0, .knotWordClear .smbus true 0 (2 ^ 32), .force (.port 2 0) 0, .force .smbus 62, .knotLogHead (.port 2 0) 0,
    .knotLogHead .smbus (2 ^ 32), .retirementClear (.port 2 0) 0, .retirementClear .smbus (2 ^ 32), .classifierWindowEnd 16 0, .trdReq (.port 2 0) 0,
    .trdReq .smbus (2 ^ 32), .portWakeAssert 6, .thermalReading [], .dvfsRelockComplete Config.clusters, .bootFusesDone (2 ^ 14),
    .stagingBufferWrite (.port 2 0) 0 [0], .stagingBufferWrite .smbus 65536 [0], .stageWrite (.port 2 0) 0, .stageWrite .smbus (2 ^ 32),
    .stageCommit (.port 2 0), .activationGo (.port 2 0) 0, .activationGo .smbus (2 ^ 32), .rollbackCommit (.port 2 0) 0,
    .rollbackCommit .smbus (2 ^ 32), .keyRevoke (.port 2 0) 0, .keyRevoke .smbus (2 ^ 32), .debugLock (.port 2 0) 0, .debugLock .smbus (2 ^ 32),
    .fuseProgramComplete (some 1024), .getIdentity (.pcie 2) [0], .getReport (.pcie 2) [0], .setEndpointId (.pcie 2) 0, .setEndpointId .smbus 256,
    .getEndpointId (.pcie 2), .getMctpVersionSupport (.pcie 2), .getMessageTypeSupport (.pcie 2)] : List Instr).all (fun c => !c.wf) = true := by decide +kernel

theorem test_ill_formed_6 : ([
    .regRead (2 ^ 24) true, .regWrite (2 ^ 24) 0 true, .regWrite 0 (2 ^ 32) true, .perstAssert 2 true, .perstRelease 2, .configRequest 2 0 .readIds,
    .configRequest 0 64 .readIds, .configRequest 0 0 (.numVfs 64), .configRequest 0 0 (.bar4Size 64), .functionLevelReset 2 0,
    .functionLevelReset 0 64, .bar4Access 2 0 0 1 none, .bar4Access 0 64 0 1 none, .bar4Access 0 0 0 0 none, .bar4Access 0 0 0 1 (some []),
    .msixUnmask 2 0 0, .msixUnmask 0 64 0, .msixUnmask 0 0 32, .ringPairEnable (.port 2 0) 0 0 0, .ringPairEnable .smbus 2 0 0,
    .ringPairEnable .smbus 0 256 0, .ringPairEnable .smbus 0 0 (2 ^ 32), .ringPairDisable (.port 2 0) 0 0, .ringPairDisable .smbus 2 0,
    .ringPairDisable .smbus 0 256, .adopt (.port 2 0) 0 true, .adopt .smbus (2 ^ 32) true, .selfAliasLock (.port 2 0) 0,
    .selfAliasLock .smbus (2 ^ 32), .sharedRegionSeal (.port 2 0) 0 0, .sharedRegionSeal .smbus 4 0, .sharedRegionSeal .smbus 0 (2 ^ 32),
    .registerWrite (.port 2 0) 0 0, .registerWrite .smbus (2 ^ 24) 0, .registerWrite .smbus 0 (2 ^ 32), .hostReadCompletion (.shed 16 0) 0 [0] true,
    .hostReadCompletion .outside (2 ^ 64) [0] true, .completionTimeout (.shed 16 0), .correctableAerError 2, .relocationComplete true 16 []] : List Instr).all (fun c => !c.wf) = true := by decide +kernel

theorem test_ill_formed_7 : ([
    .relocationComplete false 32 [], .cableMemoryReadComplete 6 0 0, .wakeFromIdle Config.links] : List Instr).all (fun c => !c.wf) = true := by decide +kernel

theorem test_well_formed_1 : ([
    .draftRun 0, .copy 0, .fence 0, .signal 0, .serveLoopConfig 0, .seqAdmit 0, .seqCancel 0, .prefixRegister 0, .prefixRelease 0, .adapterLoad 0,
    .adapterReplace 0, .weightVersionPublish 0, .weightVersionSwitch 0, .shedChange 0, .stepSizeWrite 0, .freezeSet 0, .swapAreaRegister 0,
    .preempt 0, .resume 0, .query 0, .faultInject 0, .sqTail 0 0 0 0, .cqHead 0 0 0 0, .waitKick 0 0 0 0, .inlineEntry 0 0 0 0 [0],
    .submissionEntryAccept 0 0, .waitSatisfied 0, .completionWrite 0 0, .nodeDispatch 0 0, .nodeComplete 0 0, .pickAdvance 0, .hostWaitPoll 0 0,
    .preemptSaveComplete 0, .resumeRestoreComplete 0 true, .partitionConfigure .smbus 0 0, .partitionEnable .smbus 0, .partitionEnablingEnd 0,
    .partitionDisable .smbus 0, .partitionDisablingEnd 0, .partitionOwnerChange .smbus 0 0, .arrayRowComplete 0 .matches,
    .rowCheckRetryComplete 0 true 0, .loomSramUncorrectable 0 0 .clean .outside, .loomScrubRead ⟨0, .clean, .clean⟩, .warpShadowLoadComplete 0, .imageLoadComplete 0 0,
    .imageSwitch 0 0, .weftSwap 0, .swapTimeout 0, .readyTimeout 0 0] : List Instr).all Instr.wf = true := by decide +kernel

theorem test_well_formed_2 : ([
    .externalWrite 0 [0] .outside, .externalRead 0 ⟨0, .outside⟩, .crossingDeliver 0 0, .handshakeTimeout 0 0, .memoryRead 0 .clean .clean .outside,
    .memoryWrite 0 [0] .clean .clean .outside, .scrubReadDue true 0 .clean .clean, .cacheWayChange .smbus 0 0, .poolAllocate 0 0 0 0,
    .poolAgeTempleUpdate 0, .shuttleRequest 0 0 .outside, .prefetchIssue 0, .prefetchLeadTempleUpdate 0 0 0, .linkEnable .smbus 0 0,
    .linkDisable .smbus 0 0, .linkDetect 0 true true, .cableMemoryTimeout 0, .linkEqualiseDone 0 0, .linkEqualiseTimeout 0, .identBlock 0 (zeros 32),
    .linkIdentifyTimeout 0, .linkLossOfLock 0, .linkDrainComplete 0, .flitReceive 0 (zeros 512), .nak 0 0, .modeReq 0 0, .modeAck 0 0, .idleEnter 0,
    .linkModeTempleWindow ⟨0, 0, 0⟩, .rdReq goodPacket, .rdRsp goodPacket, .wr goodPacket, .wrAck goodPacket, .atomic goodPacket, .atomicRsp goodPacket,
    .nack goodPacket, .redAdd goodPacket, .redMax8 goodPacket, .redOr goodPacket, .requestTimeout 0 0, .requestRetryTimer 0 0, .redRetryTimer,
    .fabricPageTimer, .heartbeat goodPacket, .heartbeatPeriod, .heartbeatMiss 0 0, .join goodPacket, .joinAck goodPacket, .stepReport goodPacket,
    .stepDecide goodPacket] : List Instr).all Instr.wf = true := by decide +kernel

theorem test_well_formed_3 : ([
    .shedReport goodPacket, .shedDecide goodPacket, .shedEntryComplete 0 0 true, .shedClear goodPacket, .lost goodPacket, .takeover goodPacket,
    .standbyTakeover, .barrierReport goodPacket, .barrierGo goodPacket, .memberDeclareLost .smbus 0, .jobSlotEnable .smbus 0 0,
    .jobJoinEnable .smbus 0 0, .boltEmit 0 0 0 0 0, .boltLaunch 0 0 0, .orthoComplete 0 0, .boltSizeTempleUpdate 0 0 0, .serveStepBoundary 0 0,
    .serveStepComplete 0 0 0, .promptChunkTempleUpdate 0 0, .swapOutComplete 0 0 0, .adapterCopyComplete 0 0, .ringBlockArrive 0 0 0 0 true,
    .knotEvent goodEvent, .blockResetReturn 0, .handlingWindowClose .smbus 0 true, .knotWordClear .smbus true 0 0, .force .smbus 0,
    .knotLogHead .smbus 0, .retirementClear .smbus 0, .classifierWindowEnd 0 0, .railSample 0 0 0, .vstbyLoss, .domainPowerGoodLost 0 0,
    .trdReq .smbus 0, .powerStateEntryComplete, .powerStateExitComplete, .exitStepTimeout 0 0, .wakeNAssert, .portWakeAssert 0,
    .portWakeDriveEnd true, .thermalReading (List.replicate 16 0), .pwrBrakeAssert, .pwrBrakeRelease, .powerCapInterval 0, .dvfsRelockComplete 0,
    .bootStart, .bootFusesDone 0, .bootVerifyDone, .bootMeasureDone, .bootIdentityDone] : List Instr).all Instr.wf = true := by decide +kernel

theorem test_well_formed_4 : ([
    .stagingBufferWrite .smbus 0 [0], .stageWrite .smbus 0, .stageCommit .smbus, .stageOperationComplete, .activationGo .smbus 0,
    .activationVerifyComplete, .activationSwitchComplete, .activationHoldTimeout, .rollbackCommit .smbus 0, .keyRevoke .smbus 0, .debugLock .smbus 0,
    .fuseProgramComplete none, .getIdentity .smbus [0], .getReport .smbus [0], .reportSignComplete, .setEndpointId .smbus 0, .getEndpointId .smbus,
    .getMctpVersionSupport .smbus, .getMessageTypeSupport .smbus, .regRead 0 true, .regWrite 0 0 true, .status true, .mctp [0] true,
    .perstAssert 0 true, .perstRelease 0, .configRequest 0 0 .readIds, .functionLevelReset 0 0, .bar4Access 0 0 0 1 none, .msixUnmask 0 0 0,
    .ringPairEnable .smbus 0 0 0, .ringPairDisable .smbus 0 0, .adopt .smbus 0 true, .selfAliasLock .smbus 0, .sharedRegionSeal .smbus 0 0,
    .registerWrite .smbus 0 0, .hostReadCompletion .outside 0 [0] true, .completionTimeout .outside, .correctableAerError 0, .cacheWritebackComplete,
    .relocationComplete true 0 [], .cableMemoryReadComplete 0 0 0, .wakeFromIdle 0, .jtagSession] : List Instr).all Instr.wf = true := by decide +kernel

-- ## Arithmetic and steps on small states; what is expected comes from the rules named, or from the standards they name

/-- The check values of CRC-32 of IEEE 802.3 and of the CRC-16 of R183 over the nine ASCII digits. -/
theorem test_crcs : crc32 [0x31, 0x32, 0x33, 0x34, 0x35, 0x36, 0x37, 0x38, 0x39] = 0xCBF43926 ∧
    crc16 [0x31, 0x32, 0x33, 0x34, 0x35, 0x36, 0x37, 0x38, 0x39] = 0x29B1 := by decide +kernel

/-- 1 + 2^-24 rounds to 1 (ties to even); the largest finite number doubled is infinity; 1.5 × 1.5 = 2.25 (R86, IEEE 754). -/
theorem test_fp32 : (fp32F.add strictRne 0x3F800000 0x33800000).bits = 0x3F800000 ∧ (fp32F.add strictRne 0x7F7FFFFF 0x7F7FFFFF).bits = 0x7F800000 ∧
    (fp32F.mul strictRne 0x3FC00000 0x3FC00000).bits = 0x40100000 := by decide +kernel

/-- A power-good VSTBY starts the boot machine; before that it rests (R486). -/
theorem test_boot_start : ((bootStart { State.reset with treadle := { State.reset.treadle with vstbyGood := true } }).boot.state = .fuses) ∧
    (bootStart { State.reset with treadle := { State.reset.treadle with vstbyGood := false } }).boot.state = .reset := by decide +kernel

/-- A command leaves the queue's rest alone, and an empty queue steps on (log 12). -/
theorem test_step_queue : (∃ t, step { up with pending := [.jtagSession, .pwrBrakeAssert] } = .next t ∧ t.pending = [.pwrBrakeAssert]) ∧ (∃ t, step up = .next t ∧ t.pending = []) :=
  ⟨⟨_, rfl, rfl⟩, ⟨_, rfl, rfl⟩⟩

/-- An unlisted byte reads 0, and writing 0 removes the entry (log 2). -/
theorem test_memory_form : (((up.wr 5 7).wr 9 1).wr 5 0).mem = [(9, 1)] ∧ ((up.wr 5 7).rd 5, (up.wr 5 7).rd 6) = (7, 0) := by decide +kernel

end Sys2Proof.Tests
end

section
/-!
PROOFS. What a command answers, what one updated part of the state keeps, and the bits of a number after a field is set.
-/

namespace Sys2Proof.Machine

-- ## What a command answers

/-- A command whose meaning ends in `u` answers the settled `u`. -/
theorem State.gives_of_finish {s u : State} {c : Instr} {P : State → Prop} (h : exec c s = finish u) (hp : P (settle u)) : s.gives c P :=
  ⟨settle u, h, hp⟩

/-- An access that arrives does what it does. -/
theorem State.via_of_arrives {s : State} {src : Src} (g : State → State) (h : s.arrives src = true) : s.via src g = g s := if_pos h

theorem State.keeps_knot (s : State) (k : Knot) : s.keeps { s with knot := k } [.knot] := by
  intro f hf
  cases f <;> simp_all [Field.same, State.rd]

-- ## Bits

theorem bitAt_eq_testBit (w i : Nat) : bitAt w i = w.testBit i := by
  rw [bitAt, Nat.testBit_eq_decide_div_mod_eq]; rfl

/-- A field that is set reads as it was set, and every other bit as before. -/
theorem bitAt_setField (w lo n v i : Nat) :
    bitAt (setField w lo n v) i = if lo ≤ i ∧ i < lo + n then bitAt v (i - lo) else bitAt w i := by
  have hset : setField w lo n v = 2 ^ lo * (2 ^ n * (w / 2 ^ (lo + n)) + v % 2 ^ n) + w % 2 ^ lo := by
    rw [setField, Nat.pow_add]; ring
  have hlo : w % 2 ^ lo < 2 ^ lo := Nat.mod_lt _ (by positivity)
  have hv : v % 2 ^ n < 2 ^ n := Nat.mod_lt _ (by positivity)
  rw [hset, bitAt_eq_testBit, bitAt_eq_testBit, bitAt_eq_testBit, Nat.testBit_two_pow_mul_add _ hlo, Nat.testBit_two_pow_mul_add _ hv,
    Nat.testBit_mod_two_pow, Nat.testBit_mod_two_pow, Nat.testBit_div_two_pow]
  by_cases h1 : i < lo
  · simp [h1, Nat.not_le.2 h1]
  · by_cases h2 : i - lo < n
    · simp [h1, h2, Nat.not_lt.1 h1, show i < lo + n by omega]
    · simp [h1, h2, show ¬ i < lo + n by omega, show i - lo - n + (lo + n) = i by omega]

@[simp] theorem bitAt_zero (i : Nat) : bitAt 0 i = false := by simp [bitAt]

theorem mem_bitList (n w i : Nat) : i ∈ bitList n w ↔ i < n ∧ bitAt w i = true := by simp [bitList]

end Sys2Proof.Machine
end

section
/-!
PROOFS. The host's side of the knot (O18): KNOT_WORD, the handling window, the log's head.
-/

namespace Sys2Proof.Machine

-- ## KNOT_WORD (R15, R434)

/-- Clearing the bits of a list, but those that are set in the same cycle, leaves every other bit of the word. -/
theorem bitAt_foldl_clear (setNow lo j : Nat) (l : List Nat) (w : Nat) :
    bitAt (l.foldl (fun w i => if bitAt setNow i then w else setField w (lo + i) 1 0) w) j =
      if lo ≤ j ∧ j - lo ∈ l ∧ bitAt setNow (j - lo) = false then false else bitAt w j := by
  induction l generalizing w with
  | nil => simp
  | cons i l ih =>
    rw [List.foldl_cons, ih]
    by_cases hset : bitAt setNow i = true
    · have hmem : j - lo = i → bitAt setNow (j - lo) ≠ false := fun h => by simp [h, hset]
      simp only [hset, if_true, List.mem_cons]
      congr 1
      apply propext
      tauto
    · simp only [hset, if_false, List.mem_cons, bitAt_setField, Bool.false_eq_true]
      by_cases hj : j = lo + i
      · subst hj
        simp [hset]
      · have : ¬ (lo + i ≤ j ∧ j < lo + i + 1) := by omega
        simp only [this, if_false]
        congr 1
        apply propext
        constructor
        · rintro ⟨h1, h2, h3⟩; exact ⟨h1, .inr h2, h3⟩
        · rintro ⟨h1, h2 | h2, h3⟩
          · omega
          · exact ⟨h1, h2, h3⟩

/-- KNOT_WORD_CLEAR of the administrative PF clears the bits it names that no event sets in the same cycle. -/
theorem wordClear_word (s : State) (src : Src) (hi : Bool) (v setNow i : Nat) (h : s.fromAdmin src = true) :
    bitAt (wordClear s src hi v setNow).knot.word i =
      if (if hi then 32 else 0) ≤ i ∧ i < (if hi then 62 else 32) ∧ bitAt v (i - if hi then 32 else 0) = true ∧
        bitAt setNow (i - if hi then 32 else 0) = false then false else bitAt s.knot.word i := by
  simp only [wordClear, h, Bool.not_true, Bool.false_eq_true, if_false, bitAt_foldl_clear, mem_bitList]
  congr 1
  apply propext
  cases hi
  · simp [and_assoc]
  · simp only [if_true]
    constructor
    · rintro ⟨h1, ⟨h2, h3⟩, h4⟩; exact ⟨h1, by omega, h3, h4⟩
    · rintro ⟨h1, h2, h3, h4⟩; exact ⟨h1, ⟨by omega, h3⟩, h4⟩

theorem wordClear_eq (s : State) (src : Src) (hi : Bool) (v setNow : Nat) (h : s.fromAdmin src = true) :
    wordClear s src hi v setNow = { s with knot := { s.knot with word := (wordClear s src hi v setNow).knot.word } } := by
  simp [wordClear, h]

-- ## The window and the log (R438, R439)

theorem windowClose_closes (s : State) (src : Src) (v : Nat) (h : s.fromAdmin src = true) (hv : bitAt v 16 = true) :
    windowClose s src v false = { s with knot := { s.knot with windowOpen := false, mergedBit := false, merged := 0 } } := by
  simp [windowClose, h, hv]

/-- An event merged in the same cycle keeps the window as it is. -/
theorem windowClose_merged (s : State) (src : Src) (v : Nat) : windowClose s src v true = s := by simp [windowClose]

theorem logHead_eq (s : State) (src : Src) (v : Nat) (h : s.fromAdmin src = true) :
    logHead s src v = { s with knot := { s.knot with head := v % 65536 } } := by
  simp [logHead, h]

/-- Settles O18: each of the four commands changes the knot record only, and KNOT_WORD bit by bit. -/
theorem hostClearsTheKnot : Obligations.HostClearsTheKnot := by
  intro s src harr hadm
  have hvia (g : State → State) := State.via_of_arrives (s := s) (src := src) g harr
  refine ⟨fun hi v setNow => ?_, fun v hv => ?_, fun v => ?_, fun v => ?_⟩
  · have hexec : exec (.knotWordClear src hi v setNow) s = finish (wordClear s src hi v setNow) := congrArg finish (hvia _)
    have heq := wordClear_eq s src hi v setNow hadm
    refine State.gives_of_finish hexec ⟨fun i => wordClear_word s src hi v setNow i hadm, congrArg State.knot heq, ?_⟩
    rw [heq]
    exact State.keeps_settled (s.keeps_knot _)
  · have hexec : exec (.handlingWindowClose src v false) s = finish (windowClose s src v false) := congrArg finish (hvia _)
    rw [windowClose_closes s src v hadm hv] at hexec
    exact State.gives_of_finish hexec ⟨rfl, State.keeps_settled (s.keeps_knot _)⟩
  · have hexec : exec (.handlingWindowClose src v true) s = finish (windowClose s src v true) := congrArg finish (hvia _)
    rw [hexec, windowClose_merged, finish_next]
  · have hexec : exec (.knotLogHead src v) s = finish (logHead s src v) := congrArg finish (hvia _)
    rw [logHead_eq s src v hadm] at hexec
    exact State.gives_of_finish hexec ⟨rfl, State.keeps_settled (s.keeps_knot _)⟩

end Sys2Proof.Machine
end

section
/-!
PROOFS. DRAFT_RUN (O38): a fetched draft that passes its checks enters the Heddle, a faulty one or one of a secure part that is not attested completes
INVALID, one whose member waits is held.
-/

namespace Sys2Proof.Machine

-- ## What a command leaves to its own end

/-- With nothing left to its end, a command that reads what a submission names ends as any other. -/
theorem finishDeferred_of_none {s : State} (h : s.deferred = []) : finishDeferred s = finish s := by
  have hs : ({ s with deferred := [] } : State) = s := by rw [← h]
  rw [finishDeferred, State.drainDeferred, h, List.foldl_nil, hs]

/-- A command that leaves nothing to its own end answers the settled `u`. -/
theorem State.gives_of_finishDeferred {s u : State} {c : Instr} {P : State → Prop} (h : exec c s = finishDeferred u) (hd : u.deferred = [])
    (hp : P (settle u)) : s.gives c P :=
  State.gives_of_finish (h.trans (finishDeferred_of_none hd)) hp

theorem State.deferred_of_keeps {s t : State} {fs : List Field} (h : s.keeps t fs) (hf : Field.deferred ∉ fs) (hs : s.deferred = []) : t.deferred = [] :=
  (h .deferred hf).trans hs

-- ## Entries that start

theorem State.startable_some {s : State} {e op : Nat} {x : Entry} (h : s.startable e op = some x) : s.entry e = some x ∧ x.parked = none := by
  unfold State.startable at h
  split at h
  · next y hy =>
    split at h
    · next hc => cases h; exact ⟨hy, by simpa using hc.2.2.1⟩
    · cases h
  · cases h

/-- A standard part asks for no attestation (R6). -/
theorem State.attestedFor_of_standard {s : State} (p : Nat) (h : s.secure = false) : s.attestedFor p = true := by simp [State.attestedFor, h]

/-- On a secure part the owner's port must have obtained a report (R6). -/
theorem State.attestedFor_of_unattested {s : State} {p : Nat} (h : s.secure = true)
    (ho : ∀ q f, s.owner p = some (q, f) → bitAt s.trust.attested q = false) : s.attestedFor p = false := by
  unfold State.attestedFor
  rw [h]
  split
  · next q f hq => simp [ho q f hq]
  · rfl

-- ## Reads

/-- A block that can be fetched is there when it is needed. -/
theorem State.need_of_fetch {s : State} {c : Ctx} {a n : Nat} {r : List Byte} (h : s.fetch c a n = some r) : s.need c a n = .ok r := by
  unfold State.fetch at h
  unfold State.need
  split at h
  · cases h; rfl
  · cases h

-- ## The draft store and the Heddle

theorem State.setHbm_mem_only (s : State) (o : Nat) (bs : List Byte) : ∃ m, s.setHbm o bs = { s with mem := m } := by
  unfold State.setHbm
  generalize (List.range bs.length).zip bs = l
  induction l generalizing s with
  | nil => exact ⟨s.mem, rfl⟩
  | cons b l ih =>
    obtain ⟨m, hm⟩ := ih (s.wr (s.dataKey 0 (o + b.1)) b.2)
    exact ⟨m, hm⟩

theorem State.keeps_mem (s : State) (m : List Host.Cell) : s.keeps { s with mem := m } [.mem] := by
  intro f hf
  cases f <;> simp_all [Field.same]

theorem State.addDraft_keeps (s : State) (x : Entry) (ns : List Node) (slot : Option Nat) (area : Nat) :
    s.keeps (s.addDraft x ns slot area) [.entries, .drafts, .draftIds] := by
  intro f hf
  cases f <;> simp_all [Field.same, State.addDraft, State.setEntry, State.rd]

/-- The entry of a draft that enters is running. -/
theorem State.addDraft_entry {s : State} {e : Nat} {x : Entry} (ns : List Node) (slot : Option Nat) (area : Nat) (h : s.entry e = some x) :
    (s.addDraft x ns slot area).entry e = some { x with st := .running } := by
  have hacc := State.entry_acc h
  subst hacc
  exact State.setEntry_entry s x.acc (fun y => { y with st := .running }) (fun _ => rfl) x h

-- ## DRAFT_RUN

/-- What a fetched draft finds where its arrays can be read: the outcome turns on its checks alone (R203). -/
theorem State.runFetched_faulty {s : State} {x : Entry} {r q : List Byte} {f : Nat} (h1 : 1 ≤ field x.arg1 0 17) (h2 : field x.arg1 0 17 ≤ 65536)
    (hr : s.fetch (s.entryCtx x) x.arg0 (128 * field x.arg1 0 17) = some r) (hq : s.fetch (s.entryCtx x) x.arg2 (2 * succLength r) = some q)
    (hf : draftFault (s.clusterCount x.part) (nodesOf r q) = some f) : s.runFetched x = s.rejectDraft x stInvalid f := by
  have hn : ¬ (field x.arg1 0 17 = 0 ∨ 65536 < field x.arg1 0 17) := by omega
  simp only [State.runFetched, hn, if_false, State.need_of_fetch hr, State.need_of_fetch hq, hf]

/-- A valid draft that is not to be resident is stored in memory and enters with the lowest free area (R203, R515). -/
theorem State.runFetched_valid {s : State} {x : Entry} {r q : List Byte} (h1 : 1 ≤ field x.arg1 0 17) (h2 : field x.arg1 0 17 ≤ 65536)
    (hr : s.fetch (s.entryCtx x) x.arg0 (128 * field x.arg1 0 17) = some r) (hq : s.fetch (s.entryCtx x) x.arg2 (2 * succLength r) = some q)
    (hf : draftFault (s.clusterCount x.part) (nodesOf r q) = none) (hm : x.makeResident = false) :
    ∃ m, s.runFetched x = State.addDraft { s with mem := m } x (nodesOf r q) none (s.freeArea x.part) := by
  have hn : ¬ (field x.arg1 0 17 = 0 ∨ 65536 < field x.arg1 0 17) := by omega
  obtain ⟨m1, hm1⟩ := s.setHbm_mem_only (s.areaOff x.part (s.freeArea x.part)) r
  obtain ⟨m2, hm2⟩ := State.setHbm_mem_only { s with mem := m1 } (s.areaOff x.part (s.freeArea x.part) + 0x800000) q
  refine ⟨m2, ?_⟩
  simp only [State.runFetched, hn, if_false, State.need_of_fetch hr, State.need_of_fetch hq, hf, hm, Bool.false_eq_true, hm1, hm2]

/-- A command that lets a draft enter answers a state with that draft as the newest and its entry running. -/
theorem State.gives_of_addDraft {s : State} {c : Instr} {e : Nat} {x : Entry} {m : List Host.Cell} {ns : List Node} {area : Nat}
    (h : exec c s = finishDeferred (State.addDraft { s with mem := m } x ns none area)) (hd : s.deferred = []) (hx : s.entry e = some x)
    (hns : x.noStep = false) :
    s.gives c (fun t =>
      t.drafts = s.drafts ++ [{ id := s.draftIds + 1, part := x.part, acc := some x.acc, area := area, port := x.port, admin := s.isAdmin x.port x.func,
                                nodes := ns }] ∧
      t.draftIds = s.draftIds + 1 ∧ t.entry e = some { x with st := .running } ∧ s.keeps t [.mem, .entries, .drafts, .draftIds]) := by
  have hmem : s.keeps { s with mem := m } [.mem, .entries, .drafts, .draftIds] := State.keeps_mono (s.keeps_mem m) (by decide)
  have hadd := State.addDraft_keeps { s with mem := m } x ns none area
  have hk := State.keeps_trans hmem (State.keeps_mono hadd (gs := [.mem, .entries, .drafts, .draftIds]) (by decide))
  refine State.gives_of_finishDeferred h (State.deferred_of_keeps hk (by decide) hd) ⟨?_, rfl, ?_, State.keeps_settled hk⟩
  · rw [settle_drafts, State.addDraft, hns]
    rfl
  · exact State.addDraft_entry (s := { s with mem := m }) ns none area hx

/-- A draft that is rejected completes, and nothing but its entry and its ring pair changes. -/
theorem State.gives_of_rejectDraft {s : State} {c : Instr} {e st f : Nat} {x : Entry} (h : exec c s = finishDeferred (s.rejectDraft x st f))
    (hd : s.deferred = []) (hx : s.entry e = some x) (hp : x.parked = none) :
    s.gives c (fun t => State.completed x st f t ∧ s.keeps t [.entries, .rings]) := by
  have hacc := State.entry_acc hx
  subst hacc
  have hk : s.keeps (s.rejectDraft x st f) [.entries, .rings] := State.complete_keeps s x.acc st f
  exact State.gives_of_finishDeferred h (State.deferred_of_keeps hk (by decide) hd)
    ⟨State.completed_settle (State.complete_completed s x.acc st f x hx hp), State.keeps_settled hk⟩

/-- On a part that asks for attestation and has none, DRAFT_RUN is rejected before anything else of it is looked at (R6, log 159). -/
theorem draftRun_unattested {s : State} {e : Nat} {x : Entry} (hx : s.startable e 1 = some x) (ha : s.attestedFor x.part = false) :
    draftRun s e = s.rejectDraft x stInvalid 0xFFFFFFFF := by
  simp [draftRun, hx, ha]

/-- Held until the member has its answer (R341). -/
theorem draftRun_waiting {s : State} {e : Nat} {x : Entry} (hx : s.startable e 1 = some x) (hi : (s.part x.part).st.idle = false)
    (ha : s.attestedFor x.part = true) (hj : (s.part x.part).job.joined = false) (hr : (s.part x.part).job.refusal = none) :
    draftRun s e = s.setEntry x.acc (fun y => { y with st := .held }) := by
  simp [draftRun, hx, hi, ha, State.asMember, hj, hr]

/-- Below the limit of R214 a draft of a joined member that neither fills a slot nor runs one, nor is NO_STEP, is fetched. -/
theorem draftRun_fetches {s : State} {e : Nat} {x : Entry} (hx : s.startable e 1 = some x) (hi : (s.part x.part).st.idle = false)
    (ha : s.attestedFor x.part = true) (hj : (s.part x.part).job.joined = true) (ho : s.overLimit x = false) (hres : x.resident = false)
    (hmk : x.makeResident = false) (hns : x.noStep = false) : draftRun s e = s.runFetched x := by
  simp [draftRun, hx, hi, ha, State.asMember, hj, ho, hres, hmk, hns]

/-- Settles O38, clause by clause: a fetched draft that passes its checks, one that fails them, an unattested secure part, a member that waits. -/
theorem draftRunEntersTheHeddle : Obligations.DraftRunEntersTheHeddle := by
  rintro s e n x _ hx hi rfl rfl hd hres hmk hns ho
  obtain ⟨hent, hpark⟩ := State.startable_some hx
  have hexec : exec (.draftRun e) s = finishDeferred (draftRun s e) := rfl
  refine ⟨fun hj hsec h1 h2 r q hr hq => ?_, fun hsec hown => ?_, fun hj href ha => ?_⟩
  · rw [draftRun_fetches hx hi (State.attestedFor_of_standard _ hsec) hj ho hres hmk hns] at hexec
    constructor
    · intro hf
      obtain ⟨m, hm⟩ := State.runFetched_valid h1 h2 hr hq hf hmk
      exact State.gives_of_addDraft (hexec.trans (congrArg finishDeferred hm)) hd hent hns
    · intro f hf
      rw [State.runFetched_faulty h1 h2 hr hq hf] at hexec
      exact State.gives_of_rejectDraft hexec hd hent hpark
  · rw [draftRun_unattested hx (State.attestedFor_of_unattested hsec hown)] at hexec
    exact State.gives_of_rejectDraft hexec hd hent hpark
  · rw [draftRun_waiting hx hi ha hj href] at hexec
    have hk := s.setEntry_keeps x.acc (fun y => { y with st := .held })
    have hacc := State.entry_acc hent
    subst hacc
    exact State.gives_of_finishDeferred hexec (State.deferred_of_keeps hk (by decide) hd)
      ⟨State.setEntry_entry s x.acc (fun y => { y with st := .held }) (fun _ => rfl) x hent, State.keeps_settled hk⟩

end Sys2Proof.Machine
end

section
/-!
PROOFS. Three statements that say of EVERY other name of a register that it reads as before (O57, O58, O60). They fail, for a register is read by its
offset and the index of a name has no bound: `.id i` stands at offset 8 * i, so a name far beyond the ID block stands at the offset of any other
register, and reads what is written there. (The register map, `regAt`, answers no such name.)
-/

namespace Sys2Proof.Machine

/-- Every name of an offset reads what is written there, if that is not the reset value. -/
theorem State.setReg_reg_of_offset (s : State) {r q : Reg} (v : Nat) (h : q.offset = r.offset) (hv : v % 2 ^ 32 ≠ r.reset) :
    (s.setReg r v).reg q = v % 2 ^ 32 := by
  have he : ∀ p ∈ terase s.regs r.offset, p.1 ≠ r.offset := fun p hp => ((mem_terase _ _ p).1 hp).2
  simp only [State.setReg, State.reg, hv, if_false, h, find_tinsert _ _ _ _ he, if_true, BitVec.toNat_ofNat, Nat.mod_mod]

/-- The name beyond the ID block that has a register's offset. -/
def Reg.idTwin (r : Reg) : Reg := .id (r.offset / 8)

/-- A write of a register shows under its twin in the ID block, where nothing was written before. -/
theorem State.setReg_idTwin_ne {s : State} {r : Reg} {v : Nat} (h8 : r.offset % 8 = 0) (hs : s.regs = []) (hv : v % 2 ^ 32 ≠ r.reset)
    (h0 : v % 2 ^ 32 ≠ 0) : (s.setReg r v).reg r.idTwin ≠ s.reg r.idTwin := by
  have hoff : r.idTwin.offset = r.offset := Nat.mul_div_cancel' (Nat.dvd_of_mod_eq_zero h8)
  have hold : s.reg r.idTwin = 0 := by simp [State.reg, hs, Reg.idTwin, Reg.reset]
  rw [State.setReg_reg_of_offset s v hoff hv, hold]
  exact h0

/-- A write of LM_CFG by an administrative PF takes its RW fields (R15). -/
theorem exec_registerWrite_lmCfg {s : State} {q f : Nat} (v : Nat) (harr : s.arrives (.port q f) = true) (hadm : s.fromAdmin (.port q f) = true) :
    exec (.registerWrite (.port q f) 0x280000 v) s = finish (s.setReg .lmCfg (v % 2 ^ 32 &&& Reg.rw .lmCfg)) := by
  obtain ⟨-, hserv⟩ := Bool.and_eq_true_iff.1 hadm
  have hput : registerWrite s (.port q f) 0x280000 v = s.setReg .lmCfg (v % 2 ^ 32 &&& Reg.rw .lmCfg) := by
    simp [registerWrite, regWrite, hserv, inStaging, regAt, regPut, State.plain, hadm]
  exact congrArg finish ((State.via_of_arrives _ harr).trans hput)

/-- The module after reset with VSIDE good: the SMBus reaches it. -/
def sideUp : State := { State.reset with treadle := { State.reset.treadle with vsideGood := true } }

/-- The module after reset with no fuse blown and port 0's link up: the administrative PF reaches it. -/
def portUp : State := { State.reset with fuses := 0, ports := [(0, { linkUp := true })] }

/-- Refutes O57: with 3 written over SMBus to BOOT_ACT of the idle module, whose ACT_WAIT becomes 1, the name `.id` of BOOT_ACT's offset reads 2, which
read 0 before. -/
theorem not_imagesAreStagedAndActivated : ¬ Obligations.ImagesAreStagedAndActivated := by
  intro h
  obtain ⟨hstaging, -⟩ := h
  obtain ⟨-, -, hgo⟩ := hstaging sideUp .smbus rfl rfl
  obtain ⟨-, hidle⟩ := hgo 3 sideUp.standby rfl
  obtain ⟨t, ht, -, -, hregs, -⟩ := hidle rfl rfl
  have hexec : exec (.activationGo .smbus 3) sideUp = finish { sideUp.setReg .bootAct 2 with boot := { sideUp.boot with result := 2 } } := rfl
  cases ht.symm.trans hexec
  have hsame : (sideUp.setReg .bootAct 2).reg (Reg.idTwin .bootAct) = sideUp.reg (Reg.idTwin .bootAct) := hregs (Reg.idTwin .bootAct) (by decide)
  exact State.setReg_idTwin_ne rfl rfl (by decide) (by decide) hsame

/-- Refutes O58: with 1 written over SMBus to TRD_CAP, the name `.id` of TRD_CAP's offset reads 1, which read 0 before. -/
theorem not_reportsAndTheSideband : ¬ Obligations.ReportsAndTheSideband := by
  intro h
  obtain ⟨-, -, -, -, hsmbus⟩ := h
  obtain ⟨-, -, hwrite, -⟩ := hsmbus sideUp rfl
  obtain ⟨-, -, hcap⟩ := hwrite 0 1
  obtain ⟨t, ht, -, hregs, -⟩ := hcap (by decide)
  have hexec : exec (.regWrite 0x800030 1 true) sideUp = finish (sideUp.setReg .trdCap 1) := rfl
  cases ht.symm.trans hexec
  have hsame : (sideUp.setReg .trdCap 1).reg (Reg.idTwin .trdCap) = sideUp.reg (Reg.idTwin .trdCap) := hregs (Reg.idTwin .trdCap) (by decide)
  exact State.setReg_idTwin_ne rfl rfl (by decide) (by decide) hsame

/-- Refutes O60: with 1 written by the administrative PF to LM_CFG, the name `.id` of LM_CFG's offset reads 1, which read 0 before. -/
theorem not_registersAndHostAnswers : ¬ Obligations.RegistersAndHostAnswers := by
  intro h
  have hadm : portUp.fromAdmin (.port 0 0) = true := by decide +kernel
  obtain ⟨hplain, -⟩ := h
  obtain ⟨hsetup, -⟩ := hplain portUp (.port 0 0) 0x280000 1 .lmCfg rfl rfl
  obtain ⟨hwrite, -⟩ := hsetup (by decide)
  obtain ⟨t, ht, -, hregs, -⟩ := hwrite hadm
  have hexec : exec (.registerWrite (.port 0 0) 0x280000 1) portUp = finish (portUp.setReg .lmCfg 1) := exec_registerWrite_lmCfg 1 rfl hadm
  cases ht.symm.trans hexec
  have hsame : (portUp.setReg .lmCfg 1).reg (Reg.idTwin .lmCfg) = portUp.reg (Reg.idTwin .lmCfg) := hregs (Reg.idTwin .lmCfg) (by decide)
  exact State.setReg_idTwin_ne rfl rfl (by decide) (by decide) hsame

end Sys2Proof.Machine
end

section
/-!
PROOFS. Weight versions (O39): a publication registers a version, a switch moves the current pointer, and what may not be changes no version.
-/

namespace Sys2Proof.Machine

-- ## What a frame says of one component

theorem State.part_of_keeps {s t : State} {fs : List Field} (h : s.keeps t fs) (hf : Field.parts ∉ fs) (k : Nat) : t.part k = s.part k :=
  congrArg (tget ({} : Part) · k) (h .parts hf)

/-- What starts is an outstanding entry that is not parked, and its own number. -/
theorem State.startable_acc {s : State} {e op : Nat} {x : Entry} (h : s.startable e op = some x) : x.acc = e :=
  State.entry_acc (State.startable_some h).1

theorem State.asMember_joined {s : State} {x : Entry} (k : State → State) (h : (s.part x.part).job.joined = true) : s.asMember x k = k s := by
  simp [State.asMember, h]

-- ## Commands with an effective pick (R189)

/-- An entry as its boundary marks it. -/
def State.marked (s : State) (x : Entry) : Entry :=
  { x with st := .running, pick := if (s.part x.part).job.st = .none then 0 else (s.part x.part).job.pick + 1 }

theorem State.mark_entry {s : State} {x : Entry} (h : s.entry x.acc = some x) : (s.mark x).entry x.acc = some (s.marked x) :=
  State.setEntry_entry s x.acc
    (fun y => { y with st := .running, pick := if (s.part x.part).job.st = .none then 0 else (s.part x.part).job.pick + 1 }) (fun _ => rfl) x h

theorem State.mark_keeps (s : State) (x : Entry) : s.keeps (s.mark x) [.entries] := s.setEntry_keeps _ _

@[simp] theorem State.mark_part (s : State) (x : Entry) (p : Nat) : (s.mark x).part p = s.part p := rfl

theorem State.takeEffect_due {s : State} {e op : Nat} {x : Entry} (f : State → Entry → State) (h : s.startable e op = some x) (hd : s.due x = true)
    (hb : s.behind x = false) : s.takeEffect e op f = f (s.mark x) x := by
  simp [State.takeEffect, h, hd, hb]

/-- Before its boundary a command waits (R189). -/
theorem State.takeEffect_waits {s : State} {e op : Nat} {x : Entry} (f : State → Entry → State) (h : s.startable e op = some x) (hd : s.due x = false) :
    s.takeEffect e op f = s.setEntry e (fun y => { y with st := .boundary }) := by
  simp [State.takeEffect, h, hd]

/-- An entry that its boundary has marked completes as itself. -/
theorem State.complete_marked {s t : State} {x : Entry} (st res : Nat) (hm : t.entry x.acc = (s.mark x).entry x.acc) (h : s.entry x.acc = some x)
    (hp : x.parked = none) : State.completed x st res (t.complete x.acc st res) := by
  rw [State.mark_entry h] at hm
  exact State.completed_congr (y := s.marked x) rfl rfl rfl rfl rfl (State.complete_completed t x.acc st res _ hm hp)

/-- A command that only makes its entry wait for the boundary. -/
theorem State.gives_of_waits {s : State} {c : Instr} {x : Entry} (h : exec c s = finish (s.setEntry x.acc (fun y => { y with st := .boundary })))
    (hx : s.entry x.acc = some x) : s.gives c (fun t => t.entry x.acc = some { x with st := .boundary } ∧ s.keeps t [.entries]) :=
  State.gives_of_finish h ⟨State.setEntry_entry s x.acc (fun y => { y with st := .boundary }) (fun _ => rfl) x hx, State.keeps_settled (s.setEntry_keeps _ _)⟩

-- ## A job record replaced

theorem State.setJob_keeps (s : State) (p : Nat) (f : Job → Job) : s.keeps (s.setJob p f) [.parts] := s.setPart_keeps _ _

theorem State.setJob_part (s : State) (p k : Nat) (f : Job → Job) :
    (s.setJob p f).part k = if k = p then { s.part p with job := f (s.part p).job } else s.part k := s.setPart_part _ _ _

@[simp] theorem State.setJob_job (s : State) (p : Nat) (f : Job → Job) : ((s.setJob p f).part p).job = f (s.part p).job := by
  simp [State.setJob_part]

theorem State.setJob_part_ne (s : State) {p k : Nat} (f : Job → Job) (h : k ≠ p) : (s.setJob p f).part k = s.part k := by
  simp [State.setJob_part, h]

-- ## Publication (R27, R28, R29)

/-- The job with a version registered (R27, R28). -/
def Job.registered (w : Nat) (j : Job) : Job :=
  { j with versions := j.versions ++ [{ number := w, st := .published, gen := j.weightGen }], maxVersion := w }

theorem State.publish_new {s : State} {p w : Nat} (h0 : w ≠ 0) (hm : (s.part p).job.maxVersion < w) (hl : (s.part p).job.versions.length < 4) :
    s.publish p w = (s.setJob p (Job.registered w), stOK) := by
  simp [State.publish, h0, Nat.not_le.2 hm, Nat.not_le.2 hl]
  rfl

theorem State.publish_old {s : State} {p w : Nat} (h : w = 0 ∨ w ≤ (s.part p).job.maxVersion) : s.publish p w = (s, stInvalid) := by
  simp [State.publish, h]

theorem State.publish_full {s : State} {p w : Nat} (h0 : w ≠ 0) (hm : (s.part p).job.maxVersion < w) (hl : 4 ≤ (s.part p).job.versions.length) :
    s.publish p w = (s, stPoolExhausted) := by
  simp [State.publish, h0, Nat.not_le.2 hm, hl]

section
variable {s : State} {e : Nat} {x : Entry} (hx : s.startable e 0x20 = some x) (hi : (s.part x.part).st.idle = false) (hj : s.hasJob x.part = true)
  (hm : (s.part x.part).job.joined = true)
include hx hi hj hm

/-- At the boundary that ended its pick a publication is made or refused at once. -/
theorem versionPublish_due (hb : s.atBoundary x.part = true) (hst : (s.part x.part).job.st = .boundary) (hp : x.effPick ≤ s.pickOf x.part) :
    versionPublish s e = (s.publish x.part (field x.arg0 0 32)).1.completeWith e (s.publish x.part (field x.arg0 0 32)).2 (s.pickOf x.part)
      (if (s.publish x.part (field x.arg0 0 32)).2 = 0 then field x.arg0 0 32 else 0) := by
  simp [versionPublish, hx, hi, hj, State.asMember_joined _ hm, hb, hst, hp]

/-- A publication for a later pick waits for it. -/
theorem versionPublish_waits (hp : s.pickOf x.part < x.effPick) : versionPublish s e = s.setEntry e (fun y => { y with st := .boundary }) := by
  simp [versionPublish, hx, hi, hj, State.asMember_joined _ hm, Nat.not_le.2 hp]

/-- A publication that is refused completes with its status and changes no version. -/
theorem versionPublish_refused {st : Nat} (hb : s.atBoundary x.part = true) (hst : (s.part x.part).job.st = .boundary)
    (hp : x.effPick ≤ s.pickOf x.part) (hr : s.publish x.part (field x.arg0 0 32) = (s, st)) (h0 : st ≠ 0) :
    s.gives (.weightVersionPublish e) (fun t => State.completed x st 0 t ∧ s.keeps t [.entries, .rings]) := by
  obtain ⟨hent, hpark⟩ := State.startable_some hx
  have hexec : exec (.weightVersionPublish e) s = finish (versionPublish s e) := rfl
  rw [versionPublish_due hx hi hj hm hb hst hp, hr] at hexec
  simp only [h0, if_false] at hexec
  exact State.gives_of_finish hexec ⟨State.completed_settle (State.completeWith_completed _ _ _ _ _ x hent hpark),
    State.keeps_settled (State.completeWith_keeps _ _ _ _ _)⟩

end

-- ## Switch (R32, R33, R34, R40, R41)

/-- Without a switch already made at this boundary there is nothing to take back. -/
theorem Job.unswitch_of_none {j : Job} (h : j.unswitched = []) : j.unswitch = j := by
  obtain ⟨⟩ := j
  simp_all [Job.unswitch]

theorem State.setJob_unswitch {s : State} {p : Nat} (h : (s.part p).job.unswitched = []) :
    ∀ k, (s.setJob p Job.unswitch).part k = s.part k := by
  intro k
  rw [State.setJob_part, Job.unswitch_of_none h]
  split
  · next hk => rw [hk]
  · rfl

/-- Whether a switch may be depends on the partition alone. -/
theorem State.maySwitch_congr {s t : State} {p : Nat} (h : t.part p = s.part p) (w : Nat) : t.maySwitch p w = s.maySwitch p w := by
  simp [State.maySwitch, State.version, State.hasForm, State.neededForm, h]

/-- The versions after a switch to `w` (R32, R40, R41). -/
def switched (w : Nat) (v : Version) : Version :=
  if v.number = w then { v with st := .current, hold := false }
  else { v with st := if v.st = .current then .held else v.st, hold := v.hold && decide (w < v.number) }

theorem State.switchTo_job (s : State) (p w : Nat) :
    ((s.switchTo p w).part p).job = { (s.part p).job with versions := (s.part p).job.versions.map (switched w) } := by
  rw [State.switchTo, State.setJob_job]
  congr 2
  funext v
  rw [switched]
  split
  · rfl
  · next hne =>
    by_cases hlt : v.number < w
    · simp only [hlt, if_true]
      split <;> simp_all <;> omega
    · have hgt : w < v.number := by omega
      simp only [hlt, if_false]
      split <;> simp_all

theorem versionSwitch_due {s : State} {e : Nat} {x : Entry} (hx : s.startable e 0x21 = some x) (hi : (s.part x.part).st.idle = false)
    (hj : s.hasJob x.part = true) (hm : (s.part x.part).job.joined = true) (hd : s.due x = true) (hb : s.behind x = false) :
    versionSwitch s e = versionSwitchNow (s.mark x) x := by
  simp [versionSwitch, hx, hi, hj, State.asMember_joined _ hm, State.takeEffect_due _ hx hd hb]

theorem versionSwitch_waits {s : State} {e : Nat} {x : Entry} (hx : s.startable e 0x21 = some x) (hi : (s.part x.part).st.idle = false)
    (hj : s.hasJob x.part = true) (hm : (s.part x.part).job.joined = true) (hd : s.due x = false) :
    versionSwitch s e = s.setEntry e (fun y => { y with st := .boundary }) := by
  simp [versionSwitch, hx, hi, hj, State.asMember_joined _ hm, State.takeEffect_waits _ hx hd]

/-- The first switch of a boundary that may be: the pointer moves, and what stood before is kept for a later one (R34). -/
theorem versionSwitchNow_may {s : State} {x : Entry} (hu : (s.part x.part).job.unswitched = []) (hw : s.maySwitch x.part (field x.arg0 0 32) = true) :
    ∃ u, versionSwitchNow s x = u.complete x.acc stOK (s.part x.part).job.currentVersion ∧ s.keeps u [.parts] ∧ (∀ k, k ≠ x.part → u.part k = s.part k) ∧
      (u.part x.part).job = { (s.part x.part).job with
        versions := (s.part x.part).job.versions.map (switched (field x.arg0 0 32))
        unswitched := (s.part x.part).job.versions.map (fun v => (v.number, v.st, v.hold)) } := by
  have hsame := State.setJob_unswitch hu
  refine ⟨((s.setJob x.part Job.unswitch).switchTo x.part (field x.arg0 0 32)).setJob x.part
    (fun j => { j with unswitched := (s.part x.part).job.versions.map (fun v => (v.number, v.st, v.hold)) }), ?_, ?_, ?_, ?_⟩
  · simp only [versionSwitchNow, State.maySwitch_congr (hsame x.part), hw, if_true, hsame]
  · exact State.keeps_trans (s.setJob_keeps x.part Job.unswitch) (State.keeps_trans (State.setJob_keeps _ x.part _) (State.setJob_keeps _ _ _))
  · intro k hk
    rw [State.setJob_part_ne _ _ hk, State.switchTo, State.setJob_part_ne _ _ hk, hsame]
  · rw [State.setJob_job, State.switchTo_job, hsame]

/-- A switch that may not be changes nothing. -/
theorem versionSwitchNow_not {s : State} {x : Entry} (hu : (s.part x.part).job.unswitched = []) (hw : s.maySwitch x.part (field x.arg0 0 32) = false) :
    versionSwitchNow s x = s.complete x.acc stVersionMismatch (s.part x.part).job.currentVersion := by
  simp [versionSwitchNow, State.maySwitch_congr (State.setJob_unswitch hu x.part), hw]

/-- Settles O39: a publication made, a switch made, the refusals and the waits of each. -/
theorem versionsArePublishedAndSwitched : Obligations.VersionsArePublishedAndSwitched := by
  have hpub (s : State) (e : Nat) : exec (.weightVersionPublish e) s = finish (versionPublish s e) := rfl
  have hswi (s : State) (e : Nat) : exec (.weightVersionSwitch e) s = finish (versionSwitch s e) := rfl
  refine ⟨?_, ?_, ?_, ?_⟩
  · rintro s e w x hx hi hj hm rfl hb hst hp h0 hmax hlen
    obtain ⟨hent, hpark⟩ := State.startable_some hx
    have hexec := hpub s e
    rw [versionPublish_due hx hi hj hm hb hst hp, State.publish_new h0 hmax hlen] at hexec
    have hk := State.completeWith_keeps (s.setJob x.part (Job.registered (field x.arg0 0 32))) e stOK (s.pickOf x.part) (field x.arg0 0 32)
    refine State.gives_of_finish hexec ⟨?_, ?_, ?_, ?_⟩
    · exact (congrArg Part.job (State.part_of_keeps hk (by decide) x.part)).trans (State.setJob_job s x.part _)
    · exact fun k hne => (State.part_of_keeps hk (by decide) k).trans (State.setJob_part_ne s _ hne)
    · exact State.completed_settle (State.completeWith_completed _ e stOK _ _ x hent hpark)
    · exact State.keeps_settled (State.keeps_trans (State.keeps_mono (s.setJob_keeps _ _) (by decide)) (State.keeps_mono hk (by decide)))
  · rintro s e w x hx hi hj hm rfl hd hb hu hw
    obtain ⟨hent, hpark⟩ := State.startable_some hx
    obtain rfl := State.startable_acc hx
    obtain ⟨u, hnow, hku, hother, hjob⟩ := versionSwitchNow_may (s := s.mark x) hu hw
    have hexec := hswi s x.acc
    rw [versionSwitch_due hx hi hj hm hd hb, hnow] at hexec
    have hk := u.complete_keeps x.acc stOK (s.part x.part).job.currentVersion
    have hue : u.entry x.acc = (s.mark x).entry x.acc := congrArg (List.find? _) (hku .entries (by decide))
    refine State.gives_of_finish hexec ⟨?_, ?_, ?_, ?_⟩
    · exact (congrArg Part.job (State.part_of_keeps hk (by decide) x.part)).trans hjob
    · intro k hne
      exact (State.part_of_keeps hk (by decide) k).trans (hother k hne)
    · exact State.completed_settle (State.complete_marked _ _ hue hent hpark)
    · exact State.keeps_settled (State.keeps_trans (State.keeps_mono (s.mark_keeps x) (by decide))
        (State.keeps_trans (State.keeps_mono hku (by decide)) (State.keeps_mono hk (by decide))))
  · rintro s e w x hx hi hj hm rfl
    refine ⟨fun hb hst hp => ⟨fun hw => ?_, fun h0 hmax hlen => ?_⟩, fun hp => ?_⟩
    · exact versionPublish_refused hx hi hj hm hb hst hp (State.publish_old hw) (by decide)
    · exact versionPublish_refused hx hi hj hm hb hst hp (State.publish_full h0 hmax hlen) (by decide)
    · obtain rfl := State.startable_acc hx
      exact State.gives_of_waits ((hpub s x.acc).trans (congrArg finish (versionPublish_waits hx hi hj hm hp))) (State.startable_some hx).1
  · rintro s e w x hx hi hj hm rfl
    obtain ⟨hent, hpark⟩ := State.startable_some hx
    obtain rfl := State.startable_acc hx
    refine ⟨fun hd hb hu hw => ?_, fun hd => ?_⟩
    · have hexec := hswi s x.acc
      rw [versionSwitch_due hx hi hj hm hd hb, versionSwitchNow_not (s := s.mark x) hu hw] at hexec
      exact State.gives_of_finish hexec ⟨State.completed_settle (State.complete_marked (s := s) _ _ rfl hent hpark),
        State.keeps_settled (State.keeps_trans (State.keeps_mono (s.mark_keeps x) (by decide)) (State.complete_keeps _ _ _ _))⟩
    · exact State.gives_of_waits ((hswi s x.acc).trans (congrArg finish (versionSwitch_waits hx hi hj hm hd))) hent

end Sys2Proof.Machine
end

section
/-!
PROOFS. Frames of the shared operations: which components the pool, the controllers of memory, the pages, the fabric's sending side and the ends of
nodes, drafts and steps change.
-/

namespace Sys2Proof.Machine

/-- A further step whose components are among those of the frame. -/
theorem State.keeps_step {s t u : State} {fs gs : List Field} (h1 : s.keeps t fs) (h2 : t.keeps u gs) (hs : ∀ f ∈ gs, f ∈ fs := by decide) : s.keeps u fs :=
  State.keeps_trans h1 (State.keeps_mono h2 hs)

/-- A fold keeps what each of its steps keeps of the components `fs`. -/
theorem State.keeps_fold {β : Type} {fs : List Field} {f : State → β → State} (hf : ∀ (s : State) (b : β), s.keeps (f s b) fs) (s : State) (bs : List β) :
    s.keeps (bs.foldl f s) fs := State.keeps_foldl fs f hf bs s

-- ## The pool's directory (R245, R246, R249)

theorem State.setHbm_keeps (s : State) (o : Nat) (bs : List Byte) : s.keeps (s.setHbm o bs) [.mem] := by
  obtain ⟨m, hm⟩ := s.setHbm_mem_only o bs
  rw [hm]
  exact s.keeps_mem m

theorem State.setPent_keeps (s : State) (p e : Nat) (x : PEnt) : s.keeps (s.setPent p e x) [.mem] := s.setHbm_keeps _ _

theorem State.clearPent_keeps (s : State) (p e : Nat) : s.keeps (s.clearPent p e) [.mem] := s.setHbm_keeps _ _

theorem State.pin_keeps (s : State) (p e : Nat) (up : Bool) : s.keeps (s.pin p e up) [.mem] := s.setPent_keeps _ _ _

theorem State.release_keeps (s : State) (p e : Nat) : s.keeps (s.release p e) [.mem] := by
  unfold State.release
  dsimp only
  split
  · exact s.keeps_refl _
  · split
    · exact s.clearPent_keeps _ _
    · exact s.setPent_keeps _ _ _

theorem State.noteRefault_keeps (s : State) (p cls key pick : Nat) : s.keeps (s.noteRefault p cls key pick) [.parts] := by
  unfold State.noteRefault
  dsimp only
  split
  · exact s.keeps_refl _
  · exact s.setPart_keeps _ _

theorem State.evictHandle_keeps (s : State) (p e : Nat) : s.keeps (s.evictHandle p e) [.mem, .parts] := by
  refine State.keeps_step (State.keeps_mono (s.setPart_keeps p _) (by decide)) (State.keeps_fold (fs := [.mem]) (fun s e' => ?_) _ _)
  dsimp only
  split
  · exact s.keeps_refl _
  · split
    · exact s.clearPent_keeps _ _
    · exact s.setPent_keeps _ _ _

theorem State.evict_keeps (s : State) (p e cls : Nat) : s.keeps (s.evict p e cls) [.mem, .parts] := by
  refine State.keeps_step (State.keeps_step (gs := [.parts]) ?_ (State.setPart_keeps _ _ _)) (State.clearPent_keeps _ _ _)
  split
  · exact s.evictHandle_keeps p e
  · exact s.keeps_refl _

theorem State.makeRoom_keeps (p cls n fuel : Nat) : ∀ s : State, s.keeps (s.makeRoom p cls n fuel).1 [.mem, .parts] := by
  induction fuel with
  | zero => exact fun s => s.keeps_refl _
  | succ fuel ih =>
    intro s
    unfold State.makeRoom
    split
    · exact s.keeps_refl _
    · split
      · exact s.keeps_refl _
      · exact State.keeps_trans (s.evict_keeps _ _ _) (ih _)

theorem State.alloc_keeps (s : State) (p cls key n counter : Nat) : s.keeps (s.alloc p cls key n counter).1 [.mem, .parts] := by
  have hroom : s.keeps ((if cls = 1 ∨ cls = 2 then s.noteRefault p cls key (s.counterPick p counter) else s).makeRoom p cls n 65536).1 [.mem, .parts] := by
    refine State.keeps_trans ?_ (State.makeRoom_keeps p cls n 65536 _)
    split
    · exact State.keeps_mono (s.noteRefault_keeps _ _ _ _) (by decide)
    · exact s.keeps_refl _
  unfold State.alloc
  dsimp only
  split
  · exact State.keeps_step (State.keeps_step hroom (State.setPent_keeps _ _ _ _)) (State.setPart_keeps _ _ _)
  · exact State.keeps_step hroom (State.setPart_keeps _ _ _)

-- ## Bytes written through a controller (R231, R236, R237, R371)

theorem State.keeps_memCtl (s : State) (m : MemCtl) : s.keeps { s with memCtl := m } [.memCtl] := by
  intro f hf
  cases f <;> simp_all [Field.same, State.rd]

theorem State.storeLine_keeps (s : State) (k : Nat) (whole : Bool) : s.keeps (s.storeLine k whole) [.memCtl] := by
  unfold State.storeLine
  dsimp only
  split
  · exact s.keeps_memCtl _
  · split
    · exact s.keeps_memCtl _
    · exact s.keeps_refl _

theorem State.lineAccess_keeps (s : State) (k : Nat) (write whole : Bool) : s.keeps (s.lineAccess k write whole) [.memCtl] := by
  unfold State.lineAccess
  split
  · exact s.keeps_memCtl _
  · exact s.keeps_refl _

theorem State.dropLine_keeps (s : State) (l : CacheLine) : s.keeps (s.dropLine l) [.memCtl] := by
  unfold State.dropLine
  dsimp only
  split
  · exact State.keeps_trans (State.keeps_trans (State.keeps_trans (s.keeps_memCtl _) (State.storeLine_keeps _ _ _)) (State.keeps_memCtl _ _))
      (State.lineAccess_keeps _ _ _ _)
  · exact s.keeps_memCtl _

theorem State.allocLine_keeps (s : State) (k ways : Nat) (dirty : Bool) : s.keeps (s.allocLine k ways dirty) [.memCtl] := by
  unfold State.allocLine
  dsimp only
  split
  · exact s.keeps_memCtl _
  · exact State.keeps_trans (s.dropLine_keeps _) (State.keeps_memCtl _ _)
  · exact s.keeps_refl _

theorem State.passLine_keeps (s : State) (k : Nat) (write whole : Bool) : s.keeps (s.passLine k write whole) [.memCtl] := by
  unfold State.passLine
  dsimp only
  split
  · exact s.lineAccess_keeps _ _ _
  · split
    · exact s.keeps_memCtl _
    · split
      · exact s.lineAccess_keeps _ _ _
      · refine State.keeps_trans ?_ (State.allocLine_keeps _ _ _ _)
        split
        · exact s.keeps_refl _
        · exact s.lineAccess_keeps _ _ _

theorem State.pass_keeps (s : State) (c : Ctx) (a n : Nat) (write : Bool) : s.keeps (s.pass c a n write) [.memCtl] := by
  unfold State.pass
  split
  · exact s.keeps_refl _
  · exact State.keeps_fold (fun s i => s.passLine_keeps _ _ _) _ _

theorem State.storeLines_keeps (s : State) (c : Ctx) (a n : Nat) : s.keeps (s.storeLines c a n) [.memCtl] := by
  unfold State.storeLines
  split
  · exact s.keeps_refl _
  · exact State.keeps_fold (fun s i => s.storeLine_keeps _ _) _ _

theorem State.cure_keeps (s : State) (c : Ctx) (a n : Nat) : s.keeps (s.cure c a n) [.memCtl] := by
  unfold State.cure
  split
  · exact s.keeps_refl _
  · exact s.keeps_memCtl _

theorem State.putCells_keeps (s : State) (sp o : Nat) (cs : List Host.Cell) : s.keeps (s.putCells sp o cs) [.mem] :=
  State.keeps_fold (fun s _ => s.wr_keeps _ _) _ _

theorem State.copyData_keeps (s : State) (sp src dst n : Nat) : s.keeps (s.copyData sp src dst n) [.mem] :=
  State.keeps_trans (State.keeps_trans (s.zero_keeps _ _) (State.zero_keeps _ _ _)) (State.putCells_keeps _ _ _ _)

theorem State.dirtyUnit_keeps (s : State) (f : Flip) (u : Nat) (whole : Bool) : s.keeps (s.dirtyUnit f u whole) [.mem] := by
  unfold State.dirtyUnit
  dsimp only
  split
  · exact s.keeps_refl _
  · refine State.keeps_trans ?_ (State.wr_keeps _ _ _)
    split
    · exact s.keeps_refl _
    · split
      · exact s.copyData_keeps _ _ _ _
      · exact s.copyData_keeps _ _ _ _

theorem State.writeAt_keeps (s : State) (c : Ctx) (a : Nat) (bs : List Byte) : s.keeps (s.writeAt c a bs) [.mem, .memCtl] := by
  unfold State.writeAt
  dsimp only
  refine State.keeps_step (State.keeps_step (State.keeps_step ?_ (State.storeLines_keeps _ _ _ _)) (State.pass_keeps _ _ _ _ _))
    (State.keeps_fold (fun s _ => s.wr_keeps _ _) _ _)
  split
  · exact State.keeps_mono (State.keeps_fold (fun s fu => s.dirtyUnit_keeps _ _ _) _ _) (by decide)
  · exact s.keeps_refl _

-- ## Pages (R198, R199, R200, R250, R540)

theorem State.putPage_keeps (s : State) (q f a : Nat) (bs : List Byte) : s.keeps (s.putPage q f a bs) [.mem, .ports] := by
  unfold State.putPage
  split
  · exact s.keeps_refl _
  · split
    · exact s.hostPut_keeps _ _ _ _
    · exact State.keeps_step (State.keeps_mono (s.zero_keeps _ _) (by decide)) (State.wrBytes_keeps _ _ _)

theorem State.putAdminPage_keeps (s : State) (a : Nat) (bs : List Byte) : s.keeps (s.putAdminPage a bs) [.mem, .ports] := by
  unfold State.putAdminPage
  split
  · exact s.putPage_keeps _ _ _ _
  · exact s.keeps_refl _

-- ## The sending side of the fabric (R270, R271, R340)

theorem State.keeps_fabric (s : State) (x : Fabric) : s.keeps { s with fabric := x } [.fabric] := by
  intro f hf
  cases f <;> simp_all [Field.same, State.rd]

theorem State.idleFlit_keeps (s : State) (l vc n : Nat) : s.keeps (s.idleFlit l vc n) [.links, .out] :=
  State.keeps_step (State.keeps_mono (s.setLink_keeps _ _) (by decide)) (State.emit_keeps _ _)

theorem State.sendFlit_keeps (s : State) (l : Nat) (bs : List Byte) : s.keeps (s.sendFlit l bs) [.links, .out] := by
  unfold State.sendFlit
  dsimp only
  have h : s.keeps ((s.setLink l { s.link l with sinceIdle := (s.link l).sinceIdle + 1 }).emit (.flit l bs)) [.links, .out] :=
    State.keeps_step (State.keeps_mono (s.setLink_keeps _ _) (by decide)) (State.emit_keeps _ _)
  split
  · exact State.keeps_trans h (State.idleFlit_keeps _ _ _ _)
  · exact h

theorem State.dataFlit_keeps (s : State) (l : Nat) (f : Sent) : s.keeps (s.dataFlit l f) [.links, .out] :=
  State.keeps_trans (State.keeps_mono (s.setLink_keeps _ _) (by decide)) (State.sendFlit_keeps _ _ _)

theorem State.transmit_keeps (s : State) (l origin : Nat) (came p : Packet) : s.keeps (s.transmit l origin came p) [.links, .out] :=
  State.keeps_trans (State.keeps_mono (s.setLink_keeps _ _) (by decide)) (State.keeps_fold (fun s f => s.dataFlit_keeps _ _) _ _)

theorem State.dispatchOut_keeps (s : State) (origin : Nat) (p : Packet) : s.keeps (s.dispatchOut origin p).1 [.fabric, .links, .out] := by
  unfold State.dispatchOut
  split
  · exact State.keeps_mono (s.emit_keeps _) (by decide)
  · exact s.keeps_refl _
  · split
    · exact s.keeps_refl _
    · split
      · exact State.keeps_mono (s.transmit_keeps _ _ _ _) (by decide)
      · exact State.keeps_mono (s.keeps_fabric _) (by decide)

theorem State.post_keeps (s : State) (p : Packet) : s.keeps (s.post p) [.fabric, .links, .out] := s.dispatchOut_keeps 0 p

theorem State.sendMgr_keeps (s : State) (part dst msg job : Nat) (line : List Byte) : s.keeps (s.sendMgr part dst msg job line) [.fabric, .links, .out] :=
  s.post_keeps _

theorem State.report_keeps (s : State) (p msg : Nat) (line : List Byte) : s.keeps (s.report p msg line) [.fabric, .links, .out] := by
  unfold State.report
  dsimp only
  split
  · exact State.keeps_trans (s.sendMgr_keeps _ _ _ _ _) (State.sendMgr_keeps _ _ _ _ _ _)
  · exact s.sendMgr_keeps _ _ _ _ _

end Sys2Proof.Machine
end

section
/-!
PROOFS. The manager's side of a shed change (O35): a SHED_REPORT of phase 0 is noted, and the last of the members decides.
-/

namespace Sys2Proof.Machine

-- ## A slot's record

theorem State.keeps_manager (s : State) (m : Manager) : s.keeps { s with manager := m } [.manager] := by
  intro f hf
  cases f <;> simp_all [Field.same, State.rd]

theorem State.setMjob_keeps (s : State) (i : Nat) (f : MgrJob → MgrJob) : s.keeps (s.setMjob i f) [.manager] := s.keeps_manager _

@[simp] theorem State.setMjob_mjob (s : State) (i : Nat) (f : MgrJob → MgrJob) : (s.setMjob i f).mjob i = f (s.mjob i) := tget_tset_same _ _ _ _

theorem State.mjob_of_keeps {s t : State} {fs : List Field} (h : s.keeps t fs) (hf : Field.manager ∉ fs) (i : Nat) : t.mjob i = s.mjob i :=
  congrArg (fun m : Manager => tget ({} : MgrJob) m.jobs i) (h .manager hf)

-- ## What the manager sends and writes

theorem State.mgrSend_keeps (s : State) (i msg : Nat) (line : List Byte) (mods : List Nat) : s.keeps (s.mgrSend i msg line mods) [.fabric, .links, .out] := by
  unfold State.mgrSend
  split
  · exact State.keeps_fold (fun s m => s.sendMgr_keeps _ _ _ _ _) _ _
  · exact s.keeps_refl _

theorem State.sendShed_keeps (s : State) (i st ph : Nat) (rs : List ShedRep) : s.keeps (s.sendShed i st ph rs) [.fabric, .links, .out] := by
  have h : s.keeps (rs.foldl (fun s r => s.mgrSend i 7 (shedLine r.plan st ph) [r.member % 4096]) s) [.fabric, .links, .out] :=
    State.keeps_fold (fun s r => s.mgrSend_keeps _ _ _ _) _ _
  unfold State.sendShed
  dsimp only
  split
  · split
    · exact h
    · exact State.keeps_trans h (State.mgrSend_keeps _ _ _ _ _)
  · exact h

/-- The page's number rises, and nothing else of the slot's record (R198). -/
def MgrJob.paged (j : MgrJob) : MgrJob := { j with page := (j.page + 2) % 2 ^ 64 }

theorem State.writeMgrPage_keeps (s : State) (i : Nat) : s.keeps (s.writeMgrPage i) [.manager, .mem, .ports] :=
  State.keeps_step (State.keeps_mono (s.setMjob_keeps i MgrJob.paged) (by decide)) (State.putAdminPage_keeps _ _ _)

theorem State.writeMgrPage_mjob (s : State) (i : Nat) : (s.writeMgrPage i).mjob i = (s.mjob i).paged :=
  (State.mjob_of_keeps (State.putAdminPage_keeps (s.setMjob i MgrJob.paged) _ _) (by decide) i).trans (s.setMjob_mjob i MgrJob.paged)

-- ## The decision of phase 0 (R353)

/-- A slot's record once phase 0 is decided. -/
def MgrJob.decided0 (st : Nat) (j : MgrJob) : MgrJob :=
  { j with
    sheds := [], upward := j.upward.filter (fun u => u.1 != 6)
    going := if st = stOK then j.sheds.head?.map (·.plan) else none
    st := if st = stOK then 2 else if j.recovering then 3 else j.st }

theorem State.decidePhase0_keeps (s : State) (i st : Nat) : s.keeps (s.decidePhase0 i st) [.manager, .fabric, .links, .out, .mem, .ports] :=
  State.keeps_step (State.keeps_step (State.keeps_mono (s.setMjob_keeps i (MgrJob.decided0 st)) (by decide)) (State.sendShed_keeps _ _ _ _ _))
    (State.writeMgrPage_keeps _ _)

theorem State.decidePhase0_mjob (s : State) (i st : Nat) : (s.decidePhase0 i st).mjob i = (MgrJob.decided0 st (s.mjob i)).paged := by
  have h : s.decidePhase0 i st = ((s.setMjob i (MgrJob.decided0 st)).sendShed i st 0 (s.mjob i).sheds).writeMgrPage i := rfl
  rw [h, State.writeMgrPage_mjob, State.mjob_of_keeps (State.sendShed_keeps _ _ _ _ _) (by decide), State.setMjob_mjob]

/-- Members whose reports agree and of which none but the last may fail are decided by the last. -/
theorem shedVerdict_of_last {rs : List ShedRep} {r : ShedRep} (h : ∀ x ∈ rs, x.status = 0 ∧ x.plan = r.plan) (hne : rs ≠ []) :
    shedVerdict (rs ++ [r]) = r.status := by
  have hfil : rs.filter (fun x => x.status != 0) = [] := List.filter_eq_nil_iff.2 fun x hx => by simp [(h x hx).1]
  obtain ⟨x, xs, rfl⟩ := List.exists_cons_of_ne_nil hne
  have hplan : x.plan = r.plan := (h x (List.mem_cons_self ..)).2
  unfold shedVerdict
  by_cases hr : r.status = 0
  · have hbad : ((x :: xs) ++ [r]).filter (fun y => y.status != 0) = [] := by rw [List.filter_append, hfil]; simp [hr]
    have hall : ((x :: xs) ++ [r]).all (fun y => some y.plan == (((x :: xs) ++ [r]).head?).map (·.plan)) = true := by
      rw [List.all_eq_true]
      intro y hy
      rcases List.mem_append.1 hy with hy | hy
      · simp [(h y hy).2, hplan]
      · simp [List.mem_singleton.1 hy, hplan]
    rw [hbad]
    simp only [sortBy, List.foldr_nil, List.head?_nil, hall, if_true, hr, stOK]
  · have hbad : ((x :: xs) ++ [r]).filter (fun y => y.status != 0) = [r] := by rw [List.filter_append, hfil]; simp [hr]
    rw [hbad]
    rfl

-- ## A report comes (R353)

/-- What the manager knows of a list turns on the versions it was told, not on heartbeats. -/
theorem State.listStatus_heard (s : State) (i src plan : Nat) : (s.heard i src).listStatus i plan = s.listStatus i plan := by
  have hv : ((s.heard i src).mjob i).versions = (s.mjob i).versions := by rw [State.heard, State.setMjob_mjob]
  unfold State.listStatus
  rw [hv]
  rfl

/-- A slot's record with one report more. -/
def MgrJob.noted (r : ShedRep) (j : MgrJob) : MgrJob := { j with sheds := j.sheds ++ [r] }

section
variable {s : State} {i m : Nat} {line : List Byte} {r : ShedRep} (hr : r = { member := m, plan := le line 0 4, status := le line 4 2, phase := 0 })
  (hph : le line 6 1 = 0) (hmem : m ∈ (s.mjob i).members) (hgo : (s.mjob i).going = none) (hnew : ∀ x ∈ (s.mjob i).sheds, ¬(x.member = m ∧ x.phase = 0))
include hr hph hmem hgo hnew

/-- A report is noted while another member's is missing. -/
theorem State.shedReportIn_noted (hmiss : ∃ k ∈ (s.mjob i).members, k ≠ m ∧ ∀ x ∈ (s.mjob i).sheds, x.member ≠ k) :
    s.shedReportIn i m line = s.setMjob i (MgrJob.noted r) := by
  obtain ⟨k, hk, hkm, hkx⟩ := hmiss
  have hin : (s.mjob i).members.contains m = true := List.contains_iff_mem.2 hmem
  have hdup : (s.mjob i).sheds.any (fun x => x.member == m && x.phase == 0) = false := by simpa using hnew
  have hall : (s.mjob i).members.all (fun k => ((s.mjob i).sheds ++ [r]).any (fun x => x.member == k)) = false := by
    refine List.all_eq_false.2 ⟨k, hk, ?_⟩
    simpa [hr, Ne.symm hkm] using hkx
  subst hr
  simp only [State.shedReportIn, hph, hin, hdup, hgo, hall, Bool.not_true, Bool.not_false, Bool.false_eq_true, or_false, if_false, if_true,
    Option.isSome_none]
  rfl

/-- The last report decides where the slot is not a pod's. -/
theorem State.shedReportIn_decides (hlast : ∀ k ∈ (s.mjob i).members, k = m ∨ ∃ x ∈ (s.mjob i).sheds, x.member = k) (hup : s.slotUp i = false)
    (hne : (s.mjob i).sheds ≠ []) (hok : ∀ x ∈ (s.mjob i).sheds, x.status = 0 ∧ x.plan = r.plan) :
    s.shedReportIn i m line = (s.setMjob i (MgrJob.noted r)).decidePhase0 i (if r.status = 0 then s.listStatus i r.plan else r.status) := by
  have hin : (s.mjob i).members.contains m = true := List.contains_iff_mem.2 hmem
  have hdup : (s.mjob i).sheds.any (fun x => x.member == m && x.phase == 0) = false := by simpa using hnew
  have hall : (s.mjob i).members.all (fun k => ((s.mjob i).sheds ++ [r]).any (fun x => x.member == k)) = true := by
    refine List.all_eq_true.2 fun k hk => ?_
    rcases hlast k hk with rfl | ⟨x, hx, rfl⟩
    · simp [hr]
    · simp only [List.any_append, Bool.or_eq_true, List.any_eq_true, beq_iff_eq]
      exact .inl ⟨x, hx, rfl⟩
  have hv := shedVerdict_of_last hok hne
  subst hr
  simp only [State.shedReportIn, hph, hin, hdup, hgo, hall, hup, hv, stOK, Bool.not_true, Bool.false_eq_true, or_false, if_false, if_true,
    Option.isSome_none]
  rfl

end

/-- A report for this module's manager logic reaches its slot. -/
theorem exec_shedReport {s : State} {q : Packet} {i : Nat} (hq : s.isMgr q 6 = true) (hs : s.slotOf (mgrJobId q) = some i) :
    exec (.shedReport q) s = finish ((s.heard i q.src).shedReportIn i (q.src + 4096 * q.srcPart) q.data) := by
  have hexec : exec (.shedReport q) s = finish (mgrRow s 6 q shedReportMsg) := rfl
  have hparts := hq
  simp only [State.isMgr, Bool.and_eq_true, beq_iff_eq] at hparts
  obtain ⟨⟨⟨⟨⟨hty, hmsg⟩, -⟩, hdst⟩, hdom⟩, -⟩ := hparts
  rw [hexec, mgrRow]
  simp only [hty, hmsg, hdst, hdom, ne_eq, not_true, or_self, if_false, shedReportMsg, State.mgrIn, hq, Bool.not_true, Bool.false_eq_true, hs]

end Sys2Proof.Machine
end

section
/-!
PROOFS. Changes that leave every shed change as it is, and leave nothing to the command's end: what a node, an entry, a draft or a step ends with (O35).
-/

namespace Sys2Proof.Machine

/-- Every partition's shed change stays as it is, and nothing more is left to the command's end. -/
def State.keepsSheds (s t : State) : Prop := t.deferred = s.deferred ∧ ∀ k, (t.part k).shed = (s.part k).shed

theorem State.keepsSheds_refl (s : State) : s.keepsSheds s := ⟨rfl, fun _ => rfl⟩

theorem State.keepsSheds_trans {s t u : State} (h1 : s.keepsSheds t) (h2 : t.keepsSheds u) : s.keepsSheds u :=
  ⟨h2.1.trans h1.1, fun k => (h2.2 k).trans (h1.2 k)⟩

theorem State.keepsSheds_of_keeps {s t : State} {fs : List Field} (h : s.keeps t fs) (hp : Field.parts ∉ fs := by decide)
    (hd : Field.deferred ∉ fs := by decide) : s.keepsSheds t :=
  ⟨h .deferred hd, fun k => congrArg Part.shed (State.part_of_keeps h hp k)⟩

theorem State.setPart_keepsSheds (s : State) (p : Nat) (x : Part) (h : x.shed = (s.part p).shed) : s.keepsSheds (s.setPart p x) := by
  refine ⟨rfl, fun k => ?_⟩
  rw [State.setPart_part]
  split
  · next hk => rw [h, hk]
  · rfl

theorem State.setJob_keepsSheds (s : State) (p : Nat) (f : Job → Job) : s.keepsSheds (s.setJob p f) := s.setPart_keepsSheds p _ rfl

theorem State.keepsSheds_fold {β : Type} {f : State → β → State} (hf : ∀ (s : State) (b : β), s.keepsSheds (f s b)) (bs : List β) :
    ∀ s : State, s.keepsSheds (bs.foldl f s) := by
  induction bs with
  | nil => exact State.keepsSheds_refl
  | cons b bs ih => exact fun s => State.keepsSheds_trans (hf s b) (ih _)

-- ## Pages

theorem State.writePartPage_keepsSheds (s : State) (p : Nat) : s.keepsSheds (s.writePartPage p) := by
  unfold State.writePartPage
  split
  · exact s.keepsSheds_refl
  · refine State.keepsSheds_trans ?_ (State.keepsSheds_of_keeps (State.putPage_keeps _ _ _ _ _))
    exact s.setPart_keepsSheds p _ rfl

theorem State.writeJobPage_keepsSheds (s : State) (p : Nat) : s.keepsSheds (s.writeJobPage p) := by
  unfold State.writeJobPage
  split
  · exact s.keepsSheds_refl
  · refine State.keepsSheds_trans ?_ (State.keepsSheds_of_keeps (State.putPage_keeps _ _ _ _ _))
    exact s.setPart_keepsSheds p _ rfl

theorem State.writePages_keepsSheds (s : State) (p : Nat) : s.keepsSheds (s.writePages p) :=
  State.keepsSheds_trans (s.writePartPage_keepsSheds p) (State.writeJobPage_keepsSheds _ p)

-- ## Guests (R447, R448)

theorem State.keeps_guests (s : State) (gs : List Guest) (vs : List Nat) : s.keeps { s with guests := gs, vacant := vs } [.guests, .vacant] := by
  intro f hf
  cases f <;> simp_all [Field.same, State.rd]

theorem State.parkControl_keeps (s : State) (p slot l : Nat) : s.keeps (s.parkControl p slot l) [.mem] :=
  State.keeps_trans (s.zero_keeps _ _) (State.wrBytes_keeps _ _ _)

theorem State.exchange_keeps (s : State) (g : Guest) : s.keeps (s.exchange g) [.mem, .guests, .vacant] :=
  State.keeps_step (State.keeps_mono (State.keeps_trans (s.keeps_mem _) (State.parkControl_keeps _ _ _ _)) (by decide)) (State.keeps_guests _ _ _)

theorem State.writeRetirePage_keeps (s : State) : s.keeps s.writeRetirePage [.mem, .ports, .genRetire] := by
  refine State.keeps_step (t := { s with genRetire := (s.genRetire + 2) % 2 ^ 64 }) ?_ (State.putAdminPage_keeps _ _ _)
  intro f hf
  cases f <;> simp_all [Field.same]

theorem State.placeGuest_keeps (s : State) (p l : Nat) (copy : Bool) : s.keeps (s.placeGuest p l copy) [.mem, .ports, .genRetire, .guests, .vacant] := by
  unfold State.placeGuest
  dsimp only
  split
  · exact s.keeps_refl _
  · refine State.keeps_step ?_ (State.writeRetirePage_keeps _)
    split
    · split
      · exact State.keeps_mono (s.keeps_guests _ _) (by decide)
      · refine State.keeps_step ?_ (State.keeps_guests _ _ _)
        split
        · exact State.keeps_mono (State.keeps_trans (s.keeps_mem _) (State.parkControl_keeps _ _ _ _)) (by decide)
        · exact State.keeps_mono (s.zero_keeps _ _) (by decide)
    · exact State.keeps_mono (s.keeps_guests _ _) (by decide)

theorem State.rehost_keeps (s : State) (l : Nat) : s.keeps (s.rehost l) [.mem, .ports, .genRetire, .guests, .vacant] := by
  unfold State.rehost
  dsimp only
  split
  · exact s.keeps_refl _
  · refine State.keeps_step (State.keeps_mono (State.keeps_fold (fs := [.mem, .guests, .vacant]) (fun s g => ?_) _ _) (by decide))
      (State.writeRetirePage_keeps _)
    have hx : s.keeps (if g.resident then s.exchange g else s) [.mem, .guests, .vacant] := by
      split
      · exact s.exchange_keeps g
      · exact s.keeps_refl _
    split
    · exact State.keeps_step hx (State.keeps_guests _ _ _)
    · exact State.keeps_step hx (State.keeps_guests _ _ _)

theorem State.settleGuests_keeps (s : State) : s.keeps s.settleGuests [.mem, .ports, .genRetire, .guests, .vacant] := by
  refine State.keeps_fold (fun s l => ?_) _ _
  split
  · exact s.keeps_refl _
  · dsimp only
    split
    · split
      · exact s.rehost_keeps l
      · exact State.keeps_trans (s.rehost_keeps l) (State.placeGuest_keeps _ _ _ _)
    · exact s.rehost_keeps l

-- ## Drafts (R192, R246, R249)

theorem State.keeps_drafts (s : State) (ds : List Draft) : s.keeps { s with drafts := ds } [.drafts] := by
  intro f hf
  cases f <;> simp_all [Field.same, State.rd]

theorem State.keeps_looms (s : State) (ls : List (Nat × Loom)) : s.keeps { s with looms := ls } [.looms] := by
  intro f hf
  cases f <;> simp_all [Field.same, State.rd]

theorem State.freeDraft_keeps (s : State) (d : Draft) : s.keeps (s.freeDraft d) [.mem] :=
  State.keeps_trans (State.keeps_fold (fun s _ => s.pin_keeps _ _ _) _ _) (State.keeps_fold (fun s _ => s.release_keeps _ _) _ _)

theorem State.freeStaged_keeps (s : State) (x : Draft) (n : Nat) : s.keeps (s.freeStaged x n) [.mem, .drafts] := by
  unfold State.freeStaged
  dsimp only
  split
  · exact s.keeps_refl _
  · exact State.keeps_step (State.keeps_mono (s.setDraft_keeps _ _) (by decide)) (State.keeps_fold (fun s _ => s.release_keeps _ _) _ _)

theorem State.completeDraft_keepsSheds (s : State) (d : Draft) (st fn : Nat) : s.keepsSheds (s.completeDraft d st fn) := by
  have h1 : s.keepsSheds (s.freeDraft d) := State.keepsSheds_of_keeps (s.freeDraft_keeps d)
  have h2 := State.keepsSheds_trans (State.keepsSheds_trans h1 (State.setPart_keepsSheds _ d.part
    { (s.freeDraft d).part d.part with streams := ((s.freeDraft d).part d.part).streams.filter (fun x => x.draft != d.id) } rfl))
    (State.keepsSheds_of_keeps (State.keeps_drafts _ ((s.freeDraft d).drafts.filter (fun x => x.id != d.id))))
  unfold State.completeDraft
  dsimp only
  split
  · exact h2
  · exact State.keepsSheds_trans h2 (State.keepsSheds_of_keeps (State.complete_keeps _ _ _ _))

theorem State.finishDraft_keepsSheds (s : State) (d : Draft) : s.keepsSheds (s.finishDraft d) := by
  unfold State.finishDraft
  split
  · exact s.completeDraft_keepsSheds _ _ _
  · exact s.completeDraft_keepsSheds _ _ _

theorem State.cutDraft_keepsSheds (s : State) (d : Draft) (st : Nat) : s.keepsSheds (s.cutDraft d st) :=
  State.keepsSheds_trans (State.keepsSheds_of_keeps (s.keeps_looms _)) (State.completeDraft_keepsSheds _ _ _ _)

-- ## Steps (R324, R325, R343, R372)

theorem State.settleFlips_keeps (s : State) (p : Nat) (clear : Bool) : s.keeps (s.settleFlips p clear) [.mem] := by
  refine State.keeps_fold (fun _ _ => State.keeps_fold (fun s _ => ?_) _ _) _ _
  dsimp only
  split
  · exact s.keeps_refl _
  · exact s.wr_keeps _ _

theorem State.abortBolts_keeps (s : State) (p d : Nat) : s.keeps (s.abortBolts p d) [.mem, .memCtl] :=
  State.keeps_fold (fun _ _ => State.keeps_fold (fun s _ => s.writeAt_keeps _ _ _) _ _) _ _

theorem State.commitHistory_keeps (s : State) (p : Nat) (x : Stream) : s.keeps (s.commitHistory p x) [.mem, .memCtl] := by
  refine State.keeps_fold (fun s vg => ?_) _ _
  split
  · exact s.writeAt_keeps _ _ _
  · exact s.keeps_refl _

theorem State.commitLowRank_keeps (s : State) (p lr : Nat) : s.keeps (s.commitLowRank p lr) [.mem, .memCtl] :=
  State.keeps_trans (s.writeAt_keeps _ _ _) (State.writeAt_keeps _ _ _ _)

theorem State.noteTails_keepsSheds (s : State) (p : Nat) (xs : List Stream) (took : Bool) : s.keepsSheds (s.noteTails p xs took) := by
  refine State.keepsSheds_fold (fun s y => ?_) _ _
  split
  · split
    · exact s.setPart_keepsSheds p _ rfl
    · exact s.keepsSheds_refl
  · exact s.keepsSheds_refl

theorem State.commitPick_keepsSheds (s : State) (p v : Nat) : s.keepsSheds (s.commitPick p v) := by
  unfold State.commitPick
  dsimp only
  refine State.keepsSheds_trans ?_ (State.setPart_keepsSheds _ p _ rfl)
  have habort : s.keepsSheds (if v ≤ 1 then s else match (s.part p).job.step with | some d => s.abortBolts p d | none => s) := by
    split
    · exact s.keepsSheds_refl
    · split
      · exact State.keepsSheds_of_keeps (s.abortBolts_keeps p _)
      · exact s.keepsSheds_refl
  have htails := fun xs took => State.keepsSheds_trans (State.keepsSheds_trans habort
    (State.keepsSheds_of_keeps (State.settleFlips_keeps _ p (decide (v = 0))))) (State.noteTails_keepsSheds _ p xs took)
  split
  · exact State.keepsSheds_trans (htails _ _) (State.keepsSheds_of_keeps (State.keeps_trans (State.keeps_fold (fun s y => s.commitHistory_keeps p y) _ _)
      (State.keeps_fold (fun s lr => s.commitLowRank_keeps p lr) _ _)))
  · exact htails _ _

theorem State.publish_keepsSheds (s : State) (p w : Nat) : s.keepsSheds (s.publish p w).1 := by
  unfold State.publish
  dsimp only
  split
  · exact s.keepsSheds_refl
  · split
    · exact s.keepsSheds_refl
    · exact s.setJob_keepsSheds p _

theorem State.publishDue_keepsSheds (s : State) (p v : Nat) : s.keepsSheds (s.publishDue p v) :=
  State.keepsSheds_fold (fun s (e : Entry) => State.keepsSheds_trans (s.publish_keepsSheds p (field e.arg0 0 32))
    (State.keepsSheds_of_keeps (State.completeWith_keeps _ _ _ _ _))) _ _

theorem State.applyVerdict_keepsSheds (s : State) (p v : Nat) : s.keepsSheds (s.applyVerdict p v) := by
  unfold State.applyVerdict
  dsimp only
  refine State.keepsSheds_trans (State.keepsSheds_trans ?_ (State.publishDue_keepsSheds _ p v)) (State.writePages_keepsSheds _ p)
  have hjob := fun f => State.keepsSheds_trans (s.commitPick_keepsSheds p v) (State.setJob_keepsSheds _ p f)
  split
  · exact hjob _
  · split
    · exact State.keepsSheds_trans (hjob _) (State.completeDraft_keepsSheds _ _ _ _)
    · exact State.keepsSheds_trans (hjob _) (State.finishDraft_keepsSheds _ _)
    · split
      · exact State.keepsSheds_trans (hjob _) (State.completeDraft_keepsSheds _ _ _ _)
      · exact State.keepsSheds_trans (hjob _) (State.completeDraft_keepsSheds _ _ _ _)

theorem State.reportStep_keepsSheds (s : State) (p v : Nat) : s.keepsSheds (s.reportStep p v) := by
  unfold State.reportStep
  split
  · exact s.applyVerdict_keepsSheds p v
  · exact State.keepsSheds_trans (s.setJob_keepsSheds p _) (State.keepsSheds_of_keeps (State.report_keeps _ _ _ _))

theorem State.settleStep_keepsSheds (s : State) (p : Nat) : s.keepsSheds (s.settleStep p) := by
  unfold State.settleStep
  dsimp only
  split
  · split
    · exact s.reportStep_keepsSheds _ _
    · exact s.keepsSheds_refl
  · split
    · split
      · exact s.reportStep_keepsSheds _ _
      · exact s.keepsSheds_refl
    · exact s.keepsSheds_refl

theorem State.checkDraft_keepsSheds (s : State) (d : Nat) : s.keepsSheds (s.checkDraft d) := by
  unfold State.checkDraft
  split
  · exact s.keepsSheds_refl
  · refine State.keepsSheds_trans ?_ (State.settleStep_keepsSheds _ _)
    split
    · exact s.finishDraft_keepsSheds _
    · exact s.keepsSheds_refl

-- ## Nodes (R210)

theorem State.closeNode_keepsSheds (s : State) (d n st : Nat) : s.keepsSheds (s.closeNode d n st) := by
  unfold State.closeNode
  split
  · next x y _ _ =>
    split
    · exact s.keepsSheds_refl
    · have hpins : s.keepsSheds (y.pins.foldl (fun s e => s.pin x.part e false) (s.freeLooms d n)) :=
        State.keepsSheds_trans (State.keepsSheds_of_keeps (s.keeps_looms _)) (State.keepsSheds_of_keeps (State.keeps_fold (fun s e => s.pin_keeps _ _ _) _ _))
      dsimp only
      refine State.keepsSheds_trans ?_ (State.checkDraft_keepsSheds _ _)
      refine State.keepsSheds_trans ?_ (State.keepsSheds_of_keeps (State.settleGuests_keeps _))
      refine State.keepsSheds_trans ?_ (State.setPart_keepsSheds _ _ _ rfl)
      refine State.keepsSheds_trans ?_ (State.keepsSheds_of_keeps (State.freeStaged_keeps _ _ _))
      exact State.keepsSheds_trans hpins (State.keepsSheds_of_keeps (State.setDraft_keeps _ _ _))
  · exact s.keepsSheds_refl

theorem State.endNode_keepsSheds (s : State) (d n st : Nat) : s.keepsSheds (s.endNode d n st) := by
  unfold State.endNode
  split
  · split
    · exact State.keepsSheds_of_keeps (s.setDraft_keeps _ _)
    · exact s.closeNode_keepsSheds _ _ _
  · exact s.keepsSheds_refl

-- ## A job that halts (R326, R348)

theorem State.endStep_keepsSheds (s : State) (p st : Nat) : s.keepsSheds (s.endStep p st) := by
  unfold State.endStep
  split
  · exact s.keepsSheds_refl
  · exact State.keepsSheds_trans (s.cutDraft_keepsSheds _ _) (State.setJob_keepsSheds _ _ _)

theorem State.haltJob_keepsSheds (s : State) (p : Nat) : s.keepsSheds (s.haltJob p) :=
  State.keepsSheds_trans (State.keepsSheds_trans (State.keepsSheds_of_keeps (s.keeps_drafts _)) (State.setJob_keepsSheds _ _ _))
    (State.writePages_keepsSheds _ _)

theorem State.haltLost_keepsSheds (s : State) (p st : Nat) : s.keepsSheds (s.haltLost p st) :=
  State.keepsSheds_trans (State.keepsSheds_trans (State.keepsSheds_of_keeps (s.settleFlips_keeps p false)) (State.endStep_keepsSheds _ _ _))
    (State.haltJob_keepsSheds _ _)

theorem State.answerShed_keepsSheds (s : State) (iss : Issuer) (st b : Nat) : s.keepsSheds (s.answerShed iss st b) := by
  unfold State.answerShed
  split
  · exact State.keepsSheds_of_keeps (s.complete_keeps _ _ _)
  · exact s.endNode_keepsSheds _ _ _
  · exact s.keepsSheds_refl

end Sys2Proof.Machine
end

section
/-!
PROOFS. The member's side of a shed change (O35): its beginning, the decision of phase 0, SHED_CLEAR, and a RECV entry that is done.
-/

namespace Sys2Proof.Machine

-- ## The record of a shed change

theorem State.setShed_keeps (s : State) (p : Nat) (f : Shed → Shed) : s.keeps (s.setShed p f) [.parts] := s.setPart_keeps _ _

theorem State.setShed_shed {s : State} {p : Nat} {x : Shed} (f : Shed → Shed) (h : (s.part p).shed = some x) :
    ((s.setShed p f).part p).shed = some (f x) := by
  rw [State.setShed, State.setPart_part_same, h]
  rfl

theorem State.setShed_part_ne (s : State) {p k : Nat} (f : Shed → Shed) (h : k ≠ p) : (s.setShed p f).part k = s.part k := by
  rw [State.setShed, State.setPart_part, if_neg h]

theorem Shed.allDone_of_missing {x : Shed} {k : Nat} (hk : k < planEntryCount x.plan) (hd : k ∉ x.done) : x.allDone = false := by
  refine List.all_eq_false.2 ⟨k, List.mem_range.2 hk, ?_⟩
  simpa using hd

/-- While an entry is missing and nothing has failed, there is nothing to settle (R354, R357). -/
theorem State.settleShed_of_missing {s : State} {p : Nat} {x : Shed} (h : (s.part p).shed = some x) (hf : x.failing = none) (hp : x.peerFailing = none)
    (hd : x.allDone = false) : s.settleShed p = s := by
  simp [State.settleShed, h, hf, hp, hd]

-- ## What a read meets (R84, R233)

/-- Where nothing is stored uncorrectable, a read has no line to report. -/
theorem State.meetLines_of_sound {s : State} (hc : s.memCtl.corrupt = []) (c : Ctx) (ks : List Nat) : s.meetLines c ks = s := by
  have hb : ks.dedup.filter (fun k => s.memCtl.corrupt.contains k && !s.memCtl.poison.contains k && !s.cached k) = [] := by simp [hc]
  rw [State.meetLines, hb]
  obtain ⟨⟩ := s
  simp

/-- Where nothing is stored uncorrectable in memory or a loom, a read that fails has met nothing. -/
theorem State.meet_of_sound {s : State} (hc : s.memCtl.corrupt = []) (hl : ∀ l, (s.loom l).bad = []) (c : Ctx) (a n : Nat) : s.meet c a n = s := by
  have hbad : ∀ l w m, s.badIn l w m = none := fun l w m => by simp [State.badIn, hl, sortBy]
  unfold State.meet
  split
  · rfl
  · split
    · simp [hc]
    · split
      · obtain ⟨⟩ := s
        simp [hbad]
      · rfl

-- ## The beginning (R353)

theorem State.tensorEntry_keeps (s : State) (p : Nat) (b t : List Byte) (taken : List (Nat × Nat)) :
    s.keeps (s.tensorEntry p b t taken).1 [.mem, .parts] := by
  unfold State.tensorEntry
  dsimp only
  split
  · exact s.keeps_refl _
  · exact s.alloc_keeps _ _ _ _ _

/-- A fold over a state and what is gathered keeps what each of its steps keeps. -/
theorem State.keeps_fold_fst {α β : Type} {fs : List Field} {f : State × α → β → State × α} (hf : ∀ (a : State × α) b, a.1.keeps (f a b).1 fs)
    (bs : List β) : ∀ a : State × α, a.1.keeps (bs.foldl f a).1 fs := by
  induction bs with
  | nil => exact fun a => a.1.keeps_refl _
  | cons b bs ih => exact fun a => State.keeps_trans (hf a b) (ih _)

theorem State.planAllocs_keeps (s : State) (p : Nat) (b : List Byte) : s.keeps (s.planAllocs p b).1 [.mem, .parts] := by
  unfold State.planAllocs
  dsimp only
  generalize hr : List.foldl _ (s, ([] : List (Nat × Nat)), true) _ = r
  have h : s.keeps r.1 [.mem, .parts] := by
    rw [← hr]
    refine State.keeps_fold_fst (fun a t => ?_) _ (s, ([] : List (Nat × Nat)), true)
    have ht := a.1.tensorEntry_keeps p b t.1 a.2.1
    split
    · exact a.1.keeps_refl _
    · split
      · next heq => rwa [heq] at ht
      · next heq => rwa [heq] at ht
  have ha := State.keeps_trans h (r.1.alloc_keeps p 6 0 (planLanding b / 65536) 0)
  split
  · exact h
  · split
    · next heq => rwa [heq] at ha
    · next heq => rwa [heq] at ha

/-- What a shed change allocates, or finds it cannot read. -/
theorem State.keeps_planAllocs_or_meet {s : State} (hc : s.memCtl.corrupt = []) (hl : ∀ l, (s.loom l).bad = []) (p : Nat) (c : Ctx) (a len st : Nat)
    (missing : Bool) (b : List Byte) :
    s.keeps (if st = stOK then s.planAllocs p b else (if missing then s.meet c a len else s, [], none, true)).1 [.mem, .parts] := by
  split
  · exact s.planAllocs_keeps p b
  · rw [State.meet_of_sound hc hl, ite_self]
    exact s.keeps_refl _

/-- A shed change of a member that is not SOLO begins with a record without `go` and nothing done, and its report. -/
theorem State.startShed_begins {s : State} (hc : s.memCtl.corrupt = []) (hl : ∀ l, (s.loom l).bad = []) {p : Nat} (hs : s.solo p = false) (iss : Issuer)
    (a len version : Nat) (recovery : Bool) (c : Ctx) :
    (∃ y, ((s.startShed p iss a len version recovery c).part p).shed = some y ∧ y.issuer = iss ∧ y.go = false ∧ y.done = []) ∧
    s.keeps (s.startShed p iss a len version recovery c) [.mem, .parts, .fabric, .links, .out] := by
  simp only [State.startShed, hs, Bool.false_eq_true, if_false]
  refine ⟨⟨_, (congrArg Part.shed (State.part_of_keeps (State.report_keeps _ p 6 _) (by decide) p)).trans
    (congrArg Part.shed (State.setPart_part_same _ _ _)), rfl, rfl, rfl⟩, ?_⟩
  refine State.keeps_step (State.keeps_step (State.keeps_mono (State.keeps_planAllocs_or_meet hc hl p c a len _ _ _) ?_) (State.setPart_keeps _ _ _))
    (State.report_keeps _ p 6 _)
  decide

/-- At its boundary a SHED_CHANGE of a joined member begins, none being under way (R17, R189). -/
theorem shedChange_begins {s : State} {e : Nat} {x : Entry} (hx : s.startable e 0x22 = some x) (hi : (s.part x.part).st.idle = false)
    (hj : s.hasJob x.part = true) (hm : (s.part x.part).job.joined = true) (hd : s.due x = true) :
    shedChange s e = (s.mark x).startShed x.part (.entry e) x.arg0 x.arg1 x.arg2 false (s.entryCtx x) := by
  have hnone : (s.part x.part).shed = none := by
    simp only [State.due, Bool.and_eq_true, Option.isNone_iff_eq_none] at hd
    exact hd.1.2
  simp [shedChange, hx, hi, hj, State.asMember_joined _ hm, hnone, hd]

-- ## The decision of phase 0 (R353, R354)

theorem State.heardManager_keeps (s : State) (src : Nat) : s.keeps (s.heardManager src) [.manager] := by
  unfold State.heardManager
  split
  · exact s.keeps_manager _
  · exact s.keeps_refl _

theorem State.heardManager_relayed (s : State) (src : Nat) (q : Packet) : (s.heardManager src).relayed q = s.relayed q := by
  unfold State.heardManager
  split <;> rfl

/-- A decision that is not a pod's to relay reaches the one member here. -/
theorem exec_shedDecide {s : State} {q : Packet} {p : Nat} (hq : s.isMgr q 7 = true) (hm : s.membersOf q = [p]) (hr : s.relayed q = none) :
    exec (.shedDecide q) s = finishDeferred ((s.heardManager q.src).decideShed p (le q.data 0 4) (le q.data 4 2) (le q.data 6 1)) := by
  have hexec : exec (.shedDecide q) s = finishDeferred (mgrRow s 7 q shedDecideMsg) := rfl
  have hparts := hq
  simp only [State.isMgr, Bool.and_eq_true, beq_iff_eq] at hparts
  obtain ⟨⟨⟨⟨⟨hty, hmsg⟩, -⟩, hdst⟩, hdom⟩, -⟩ := hparts
  rw [hexec, mgrRow]
  simp only [hty, hmsg, hdst, hdom, ne_eq, not_true, or_self, if_false, shedDecideMsg, hq, Bool.not_true, Bool.false_eq_true,
    State.heardManager_relayed, hr, hm, List.foldl_cons, List.foldl_nil]

/-- `go` without RESUME starts the moves with none done. -/
theorem State.goShed_starts {s : State} {p : Nat} {x : Shed} (h : (s.part p).shed = some x) (hres : planResume x.plan = false) (hf : x.failing = none)
    (hp : x.peerFailing = none) (hn : 0 < planEntryCount x.plan) :
    s.goShed p x = s.setShed p (fun x => { x with go := true, done := [], issued := [] }) := by
  simp only [State.goShed, hres, Bool.false_eq_true, if_false, List.foldl_nil]
  exact State.settleShed_of_missing (x := { x with go := true, done := [], issued := [] })
    (State.setShed_shed (fun x => { x with go := true, done := [], issued := [] }) h) hf hp (Shed.allDone_of_missing hn (by simp))

theorem State.freeAllocs_keeps (s : State) (p : Nat) (x : Shed) : s.keeps (s.freeAllocs p x) [.mem] :=
  State.keeps_fold (fun s _ => s.release_keeps _ _) _ _

/-- A shed change that is refused is over. -/
theorem State.refuseShed_ends (s : State) (p : Nat) (x : Shed) (st : Nat) :
    ((s.refuseShed p x st).part p).shed = none ∧ (s.refuseShed p x st).deferred = s.deferred := by
  have hdrop : (((s.freeAllocs p x).dropShed p).part p).shed = none := by rw [State.dropShed, State.setPart_part_same]
  have hdef : ((s.freeAllocs p x).dropShed p).deferred = s.deferred := (s.freeAllocs_keeps p x) .deferred (by decide)
  have hans := ((s.freeAllocs p x).dropShed p).answerShed_keepsSheds x.issuer st 0
  have hall : ((s.freeAllocs p x).dropShed p).keepsSheds (s.refuseShed p x st) := by
    unfold State.refuseShed
    dsimp only
    split
    · exact State.keepsSheds_trans hans (State.haltLost_keepsSheds _ _ _)
    · exact hans
  exact ⟨(hall.2 p).trans hdrop, hall.1.trans hdef⟩

-- ## SHED_CLEAR (R356)

/-- SHED_CLEAR reaches the one partition here that is of its job. -/
theorem exec_shedClear {s : State} {q : Packet} {p : Nat} (hq : s.isMgr q 0xC = true)
    (hm : (List.range 16).filter (fun p => s.hasJob p && s.jobId p == mgrJobId q) = [p]) :
    exec (.shedClear q) s = finish (s.clearShed p q.src (le q.data 0 4) (le q.data 4 4)) := by
  have hexec : exec (.shedClear q) s = finish (mgrRow s 0xC q shedClearMsg) := rfl
  have hparts := hq
  simp only [State.isMgr, Bool.and_eq_true, beq_iff_eq] at hparts
  obtain ⟨⟨⟨⟨⟨hty, hmsg⟩, -⟩, hdst⟩, hdom⟩, -⟩ := hparts
  rw [hexec, mgrRow]
  simp only [hty, hmsg, hdst, hdom, ne_eq, not_true, or_self, if_false, shedClearMsg, hq, if_true, hm, List.foldl_cons, List.foldl_nil]

-- ## A RECV entry is done (R354, R356)

/-- A request that nobody awaits leaves only on the fabric. -/
theorem State.request1_outside_keeps (s : State) (part ty len a : Nat) (data : List Byte) :
    s.keeps (s.request1 .outside part ty len a data).1 [.fabric, .links, .out] := by
  unfold State.request1
  dsimp only
  split
  · exact s.keeps_refl _
  · split
    · exact State.keeps_mono (s.keeps_fabric _) (by decide)
    · split
      · exact State.keeps_trans (State.keeps_mono (s.keeps_fabric _) (by decide)) (State.dispatchOut_keeps _ 0 _)
      · exact s.keeps_refl _

theorem State.remoteWrite_outside_keeps (part : Nat) (bs : List (List Byte)) :
    ∀ (s : State) (a : Nat), s.keeps (s.remoteWrite .outside part a bs).1 [.fabric, .links, .out] := by
  induction bs with
  | nil => exact fun s _ => s.keeps_refl _
  | cons b bs ih =>
    intro s a
    have h := s.request1_outside_keeps part 3 (ceilDiv b.length 64) a b
    unfold State.remoteWrite
    split
    · next heq => rw [heq] at h; exact State.keeps_trans h (ih _ _)
    · next heq => rw [heq] at h; exact h

theorem State.keeps_channels (s : State) (x : List (Nat × List Transfer)) : s.keeps { s with channels := x } [.channels] := by
  intro f hf
  cases f <;> simp_all [Field.same, State.rd]

theorem State.loomStore_keeps (s : State) (l a : Nat) (bs : List Byte) : s.keeps (s.loomStore l a bs) [.mem, .looms] := by
  unfold State.loomStore
  dsimp only
  exact State.keeps_step (State.keeps_mono (s.setLoom_keeps _ _) (by decide)) (State.keeps_fold (fun s _ => s.wr_keeps _ _) _ _)

theorem State.storeExt_outside_keeps (s : State) (l a : Nat) (bs : List Byte) : s.keeps (s.storeExt .outside l a bs) [.mem, .looms, .channels] := by
  unfold State.storeExt
  split
  · exact State.keeps_mono (s.keeps_channels _) (by decide)
  · exact State.keeps_step (fs := [.mem, .looms, .channels]) (State.keeps_mono (s.loomStore_keeps _ _ _) (by decide)) (State.setLoom_keeps _ _ _)

/-- The administrative host alone reaches the set-up registers (R64). -/
theorem State.not_allowed_registers {s : State} {c : Ctx} (hc : c.admin = false) {a n : Nat} (hn : n ≠ 0) (hsp : gSpace a = 8) (write : Bool) :
    s.allowed c a n write = false := by
  have hb : s.byteAllowed c a write = false := by simp [State.byteAllowed, hsp, hc]
  refine List.all_eq_false.2 ⟨a, by simp [checkPoints, hn], by simp [hb]⟩

/-- A partition's own write that nobody awaits changes no shed change and leaves nothing to the command's end, where no line is uncorrectable. -/
theorem State.put_keepsSheds {s : State} (hcor : s.memCtl.corrupt = []) {c : Ctx} (hc : c.admin = false) (a : Nat) (bs : List Byte) :
    s.keepsSheds (s.put c .outside a bs).1 := by
  unfold State.put
  split
  · split
    · unfold State.countRefused
      split
      · exact s.setPart_keepsSheds _ _ rfl
      · exact s.keepsSheds_refl
    · split
      · rw [State.meetLines_of_sound hcor]
        exact s.keepsSheds_refl
      · exact s.keepsSheds_refl
  · next hw =>
    split
    · exact s.keepsSheds_refl
    · next hbs =>
      have hn : bs.length ≠ 0 := by simpa using hbs
      split
      · exact State.keepsSheds_of_keeps (State.remoteWrite_outside_keeps _ _ _ _)
      · next hloc =>
        split
        · exact State.keepsSheds_of_keeps (State.keeps_fold (fun s _ => s.storeExt_outside_keeps _ _ _) _ _)
        · split
          · next hsp => simp [State.writeErr, hn, hloc, State.not_allowed_registers hc hn hsp] at hw
          · split
            · exact State.keepsSheds_of_keeps (s.hostPut_keeps _ _ _ _)
            · exact State.keepsSheds_trans (State.keepsSheds_of_keeps (s.cure_keeps c a bs.length)) (State.keepsSheds_of_keeps (State.writeAt_keeps _ c a bs))

theorem State.sendClear_keeps (s : State) (p : Nat) (x : Shed) (i : Nat) : s.keeps (s.sendClear p x i) [.fabric, .links, .out] := by
  unfold State.sendClear
  dsimp only
  split
  · exact s.keeps_refl _
  · exact State.keeps_fold (fun s _ => s.sendMgr_keeps _ _ _ _ _) _ _

/-- A move entry that is done is listed, and its PROGRESS word is left behind (R356, R357). -/
def Shed.moved (i : Nat) (x : Shed) : Shed := { x with done := x.done ++ [i], issued := if x.issued.contains i then x.issued else x.issued ++ [i] }

theorem State.moveDone_shed {s : State} (hcor : s.memCtl.corrupt = []) {p i : Nat} {x : Shed} (h : (s.part p).shed = some x) :
    ((s.moveDone p i).part p).shed = some (x.moved i) ∧ (s.moveDone p i).deferred = s.deferred := by
  have hput := State.put_keepsSheds hcor (c := partCtx p) rfl (planProgress x.plan + 4 * i) (leBytes 4 1)
  have hset := State.setShed_shed (Shed.moved i) ((hput.2 p).trans h)
  have hclr := ((s.put (partCtx p) .outside (planProgress x.plan + 4 * i) (leBytes 4 1)).1.setShed p (Shed.moved i)).sendClear_keeps p x i
  have heq : s.moveDone p i = ((s.put (partCtx p) .outside (planProgress x.plan + 4 * i) (leBytes 4 1)).1.setShed p (Shed.moved i)).sendClear p x i := by
    simp only [State.moveDone, h]
    rfl
  rw [heq]
  exact ⟨(congrArg Part.shed (State.part_of_keeps hclr (by decide) p)).trans hset, (hclr .deferred (by decide)).trans hput.1⟩

/-- Settles O35, clause by clause: a change begins, its reports come and the last decides, `go` and the refusal on the member, SHED_CLEAR, a RECV entry. -/
theorem shedChangesAdvance : Obligations.ShedChangesAdvance := by
  refine ⟨?_, ?_, ?_, ?_, ?_⟩
  · intro s e x hd hcor hbad hx hi hj hm hsolo hdue
    obtain ⟨hent, -⟩ := State.startable_some hx
    obtain rfl := State.startable_acc hx
    have hexec : exec (.shedChange x.acc) s = finishDeferred (shedChange s x.acc) := rfl
    rw [shedChange_begins hx hi hj hm hdue] at hexec
    obtain ⟨⟨y, hy, hyi, hyg, hyd⟩, hk⟩ := State.startShed_begins (s := s.mark x) hcor hbad hsolo (.entry x.acc) x.arg0 x.arg1 x.arg2 false (s.entryCtx x)
    refine State.gives_of_finishDeferred hexec (State.deferred_of_keeps hk (by decide) hd) ⟨y, hy, hyi, hyg, hyd, s.marked x, ?_, rfl⟩
    exact (congrArg (List.find? _) (hk .entries (by decide))).trans (State.mark_entry hent)
  · rintro s q i m r hq hs rfl hr hph hmem hgo hnew
    have hmembers : ((s.heard i q.src).mjob i).members = (s.mjob i).members := by rw [State.heard, State.setMjob_mjob]
    have hsheds : ((s.heard i q.src).mjob i).sheds = (s.mjob i).sheds := by rw [State.heard, State.setMjob_mjob]
    have hgoing : ((s.heard i q.src).mjob i).going = (s.mjob i).going := by rw [State.heard, State.setMjob_mjob]
    have hhk : s.keeps (s.heard i q.src) [.manager] := s.setMjob_keeps _ _
    have hexec := exec_shedReport hq hs
    rw [← hmembers] at hmem
    rw [← hgoing] at hgo
    rw [← hsheds] at hnew
    refine ⟨fun hmiss => ?_, fun hlast hup hne hok => ?_⟩
    · rw [← hmembers, ← hsheds] at hmiss
      rw [State.shedReportIn_noted hr hph hmem hgo hnew hmiss] at hexec
      refine State.gives_of_finish hexec ⟨?_, ?_, State.keeps_settled (State.keeps_trans hhk (State.setMjob_keeps _ _ _))⟩
      · exact (congrArg MgrJob.sheds (State.setMjob_mjob _ i _)).trans (congrArg (· ++ [r]) hsheds)
      · exact (congrArg MgrJob.going (State.setMjob_mjob _ i _)).trans hgo
    · rw [← hmembers, ← hsheds] at hlast
      rw [← hsheds] at hne hok
      rw [State.shedReportIn_decides hr hph hmem hgo hnew hlast hup hne hok, State.listStatus_heard] at hexec
      have hk := fun st => State.keeps_step (State.keeps_mono (State.keeps_trans hhk (State.setMjob_keeps _ i (MgrJob.noted r)))
        (gs := [.manager, .fabric, .links, .out, .mem, .ports]) (by decide)) (State.decidePhase0_keeps _ i st)
      have hjob := fun st => State.decidePhase0_mjob ((s.heard i q.src).setMjob i (MgrJob.noted r)) i st
      obtain ⟨x, xs, hcons⟩ := List.exists_cons_of_ne_nil hne
      have hplan : x.plan = r.plan := (hok x (hcons ▸ List.mem_cons_self ..)).2
      refine ⟨fun h0 hl => ?_, fun h0 => ?_⟩
      · rw [if_pos h0, hl] at hexec
        refine State.gives_of_finish hexec ⟨?_, ?_, ?_, State.keeps_settled (hk 0)⟩
        · refine (congrArg MgrJob.going (hjob 0)).trans ?_
          rw [State.setMjob_mjob]
          simp [MgrJob.paged, MgrJob.decided0, MgrJob.noted, hcons, hplan, stOK]
        · exact congrArg MgrJob.st (hjob 0)
        · exact congrArg MgrJob.sheds (hjob 0)
      · rw [if_neg h0] at hexec
        refine State.gives_of_finish hexec ⟨?_, ?_, State.keeps_settled (hk _)⟩
        · refine (congrArg MgrJob.going (hjob r.status)).trans ?_
          simp [MgrJob.paged, MgrJob.decided0, h0, stOK]
        · exact congrArg MgrJob.sheds (hjob r.status)
  · intro s q p x hd hq hm hr hx hplan hph hgo
    have hexec := exec_shedDecide hq hm hr
    have hkm := s.heardManager_keeps q.src
    have hx' : ((s.heardManager q.src).part p).shed = some x := (congrArg Part.shed (State.part_of_keeps hkm (by decide) p)).trans hx
    have hd' : (s.heardManager q.src).deferred = [] := State.deferred_of_keeps hkm (by decide) hd
    refine ⟨fun hok hst hres hf hpf hn => ?_, fun hbad => ?_⟩
    · have hgoes : (s.heardManager q.src).decideShed p (le q.data 0 4) (le q.data 4 2) (le q.data 6 1) = (s.heardManager q.src).goShed p x := by
        simp [State.decideShed, hx', hplan, hph, hgo, hok, hst, stOK]
      rw [hgoes, State.goShed_starts hx' hres hf hpf hn] at hexec
      have hk := State.setShed_keeps (s.heardManager q.src) p (fun x => { x with go := true, done := [], issued := [] })
      refine State.gives_of_finishDeferred hexec (State.deferred_of_keeps hk (by decide) hd') ⟨?_, ?_⟩
      · exact State.setShed_shed (fun x => { x with go := true, done := [], issued := [] }) hx'
      · exact State.keeps_settled (State.keeps_step (State.keeps_mono hkm (by decide)) hk)
    · have hends : (s.heardManager q.src).decideShed p (le q.data 0 4) (le q.data 4 2) (le q.data 6 1) =
          (s.heardManager q.src).refuseShed p x (le q.data 4 2) := by
        simp [State.decideShed, hx', hplan, hph, hgo, hbad, stOK]
      rw [hends] at hexec
      obtain ⟨hnone, hdef⟩ := State.refuseShed_ends (s.heardManager q.src) p x (le q.data 4 2)
      exact State.gives_of_finishDeferred hexec (hdef.trans hd') hnone
  · rintro s q p k x hq hm hx hplan rfl hk
    have hexec := exec_shedClear hq hm
    have hclr : s.clearShed p q.src (le q.data 0 4) (le q.data 4 4) =
        s.setShed p (fun x => { x with cleared := x.cleared ++ [q.src + 4096 * le q.data 4 4] }) := by
      simp [State.clearShed, hx, hplan, hk]
    rw [hclr] at hexec
    exact State.gives_of_finish hexec ⟨State.setShed_shed (fun x => { x with cleared := x.cleared ++ [q.src + 4096 * le q.data 4 4] }) hx,
      fun j hj => s.setShed_part_ne _ hj, State.keeps_settled (s.setShed_keeps _ _)⟩
  · rintro s p i x hd hcor hx hgo hf hpf hruns hi hdone hop hbytes ⟨k, hk, hki, hkd⟩
    obtain ⟨hshed, hdef⟩ := State.moveDone_shed (i := i) hcor hx
    have hmissing : (x.moved i).allDone = false := Shed.allDone_of_missing hk (by simp [Shed.moved, hkd, hki])
    have hwhole : s.recvWhole p x i = true := by simp [State.recvWhole, hop, hdone, hbytes, hf]
    have hexec : exec (.shedEntryComplete p i false) s = finishDeferred (shedEntry s p i false) := rfl
    have hentry : shedEntry s p i false = (s.moveDone p i).settleShed p := by
      simp [shedEntry, hx, hgo, Nat.not_le.2 hi, hdone, hruns, hop, hwhole]
    rw [hentry, State.settleShed_of_missing hshed hf hpf hmissing] at hexec
    exact State.gives_of_finishDeferred hexec (hdef.trans hd) ⟨x.moved i, hshed, rfl, hgo, rfl, hf⟩

end Sys2Proof.Machine
end

section
/-!
PROOFS. Bytes of HBM and tier 2 written where their units lie (R235), and the plain copy of one row by a shuttle (R252, R254): which bytes change.
-/

namespace Sys2Proof.Machine

-- ## Bytes by key

/-- A key that no write of a list names reads as before. -/
theorem State.foldl_wr_rd_other (K : Nat → Nat) (k : Nat) (l : List (Nat × Byte)) (h : ∀ p ∈ l, K p.1 ≠ k) :
    ∀ s : State, (l.foldl (fun s p => s.wr (K p.1) p.2) s).rd k = s.rd k := by
  induction l with
  | nil => exact fun _ => rfl
  | cons p l ih =>
    intro s
    rw [List.foldl_cons, ih (fun q hq => h q (List.mem_cons_of_mem _ hq)), State.wr_rd, if_neg (h p (List.mem_cons_self ..)).symm]

/-- Writes at keys that differ each read back. -/
theorem State.foldl_wr_rd_mem (K : Nat → Nat) (l : List (Nat × Byte)) (hd : l.Pairwise (fun p q => K p.1 ≠ K q.1)) {p : Nat × Byte} (hp : p ∈ l) :
    ∀ s : State, (l.foldl (fun s p => s.wr (K p.1) p.2) s).rd (K p.1) = p.2 := by
  induction l with
  | nil => exact absurd hp (List.not_mem_nil)
  | cons q l ih =>
    intro s
    obtain ⟨hq, hl⟩ := List.pairwise_cons.1 hd
    rw [List.foldl_cons]
    rcases List.mem_cons.1 hp with rfl | hp
    · rw [State.foldl_wr_rd_other K _ l (fun r hr => (hq r hr).symm), State.wr_rd, if_pos rfl]
    · exact ih hl hp _

/-- An offset below the end of the space has a key of its own (R64, R235). -/
theorem State.dataKey_inj {s : State} {sp o o' : Nat} (ho : o < 2 ^ 48) (ho' : o' < 2 ^ 48) (h : s.dataKey sp o = s.dataKey sp o') : o = o' := by
  simp only [State.dataKey, spaceKey] at h
  split at h <;> split at h <;> omega

/-- `bs` stands from an offset of HBM or tier 2, each byte where its unit lies, and every other byte is as before. -/
def State.holdsData (s t : State) (sp o : Nat) (bs : List Byte) : Prop :=
  (∀ i (h : i < bs.length), t.rd (s.dataKey sp (o + i)) = bs[i]) ∧ ∀ k, (∀ i, i < bs.length → k ≠ s.dataKey sp (o + i)) → t.rd k = s.rd k

/-- Bytes written one after another at the keys of their offsets. -/
theorem State.foldl_wr_holdsData {s : State} {sp o : Nat} {bs : List Byte} (hend : o + bs.length ≤ 2 ^ 48) :
    s.holdsData (((List.range bs.length).zip bs).foldl (fun u p => u.wr (s.dataKey sp (o + p.1)) p.2) s) sp o bs := by
  have hfst : (((List.range bs.length).zip bs).map Prod.fst) = List.range bs.length := List.map_fst_zip (by simp)
  have hlt : ∀ p ∈ (List.range bs.length).zip bs, p.1 < bs.length := fun p hp => List.mem_range.1 (List.of_mem_zip hp).1
  refine ⟨fun i hi => ?_, fun k hk => ?_⟩
  · have hmem : (i, bs[i]) ∈ (List.range bs.length).zip bs := List.mem_iff_getElem.2 ⟨i, by simpa using hi, by simp⟩
    refine State.foldl_wr_rd_mem (fun i => s.dataKey sp (o + i)) _ ?_ hmem s
    have hnodup : (((List.range bs.length).zip bs).map Prod.fst).Pairwise (· ≠ ·) := by rw [hfst]; exact List.nodup_range
    refine (List.Pairwise.and_mem.1 (List.pairwise_map.1 hnodup)).imp ?_
    rintro p q ⟨hp, hq, hne⟩ hkey
    have hp := hlt p hp
    have hq := hlt q hq
    have := State.dataKey_inj (by omega) (by omega) hkey
    omega
  · exact State.foldl_wr_rd_other (fun i => s.dataKey sp (o + i)) k _ (fun p hp => (hk p.1 (hlt p hp)).symm) s

-- ## Addresses

theorem gSpace_add {a i : Nat} (h : gOffset a + i < 2 ^ 48) : gSpace (a + i) = gSpace a := by
  simp only [gSpace, gOffset] at *
  omega

theorem gOffset_add {a i : Nat} (h : gOffset a + i < 2 ^ 48) : gOffset (a + i) = gOffset a + i := by
  simp only [gOffset] at *
  omega

/-- Where no flip region stands, an address of HBM or tier 2 reaches the byte where its unit lies (R235, R370). -/
theorem State.keyOf_of_noFlips {s : State} (hf : s.flips = []) (c : Ctx) {a : Nat} (hsp : gSpace a ≤ 1) (write : Bool) :
    s.keyOf c a write = s.dataKey (gSpace a) (gOffset a) := by
  have hflip : ∀ sp, s.flipOffset c sp (gOffset a) write = gOffset a := fun sp => by simp [State.flipOffset, State.flipAt, hf]
  unfold State.keyOf
  rcases (by omega : gSpace a = 0 ∨ gSpace a = 1) with h | h <;> simp only [h, hflip]

theorem State.readAt_of_noFlips {s : State} (hf : s.flips = []) (c : Ctx) {a n : Nat} (hsp : gSpace a ≤ 1) (hend : gOffset a + n ≤ 2 ^ 48) :
    s.readAt c a n = (List.range n).map (fun i => s.rd (s.dataKey (gSpace a) (gOffset a + i))) := by
  refine List.map_congr_left fun i hi => ?_
  have hi : gOffset a + i < 2 ^ 48 := by have := List.mem_range.1 hi; omega
  rw [State.keyOf_of_noFlips hf c (by rw [gSpace_add hi]; exact hsp), gSpace_add hi, gOffset_add hi]

-- ## The controllers (R231, R236, R237)

/-- No line is poisoned, stored uncorrectable, or to be. -/
def MemCtl.clean (m : MemCtl) : Prop := m.poison = [] ∧ m.corrupt = [] ∧ m.armed = []

/-- Where units lie, and what closes their controllers. -/
def MemCtl.gates (m : MemCtl) : List Nat × List Nat × List CacheChange × List Nat := (m.relocated, m.relocating, m.changes, m.resetting)

/-- Only the controllers' record differs; units lie where they lay, the same controllers serve, and clean lines are clean. -/
def State.passes (s t : State) : Prop := t = { s with memCtl := t.memCtl } ∧ t.memCtl.gates = s.memCtl.gates ∧ (s.memCtl.clean → t.memCtl.clean)

theorem State.passes_refl (s : State) : s.passes s := ⟨rfl, rfl, id⟩

theorem State.passes_trans {s t u : State} (h1 : s.passes t) (h2 : t.passes u) : s.passes u :=
  ⟨h2.1.trans (by rw [h1.1]), h2.2.1.trans h1.2.1, h2.2.2 ∘ h1.2.2⟩

theorem State.passes_fold {β : Type} {f : State → β → State} (hf : ∀ (s : State) (b : β), s.passes (f s b)) (bs : List β) :
    ∀ s : State, s.passes (bs.foldl f s) := by
  induction bs with
  | nil => exact State.passes_refl
  | cons b bs ih => exact fun s => State.passes_trans (hf s b) (ih _)

theorem State.storeLine_passes (s : State) (k : Nat) (whole : Bool) : s.passes (s.storeLine k whole) := by
  unfold State.storeLine
  dsimp only
  split
  · next hn => exact ⟨rfl, rfl, fun ⟨_, _, ha⟩ => absurd (by rw [ha]; rfl) hn⟩
  · split
    · exact ⟨rfl, rfl, fun ⟨hp, hc, ha⟩ => ⟨hp, by simp [hc], ha⟩⟩
    · exact s.passes_refl

theorem State.lineAccess_passes (s : State) (k : Nat) (write whole : Bool) : s.passes (s.lineAccess k write whole) := by
  unfold State.lineAccess
  split
  · exact ⟨rfl, rfl, id⟩
  · exact s.passes_refl

theorem State.dropLine_passes (s : State) (l : CacheLine) : s.passes (s.dropLine l) := by
  have hcache : s.passes { s with memCtl := { s.memCtl with cache := s.memCtl.cache.filter (fun x => x.key != l.key) } } := ⟨rfl, rfl, id⟩
  unfold State.dropLine
  dsimp only
  split
  · have hstore := State.passes_trans hcache (State.storeLine_passes _ l.key true)
    refine State.passes_trans ?_ (State.lineAccess_passes _ _ _ _)
    refine State.passes_trans hstore ?_
    exact ⟨rfl, rfl, fun ⟨hp, hc, ha⟩ => ⟨by simp [hp], hc, ha⟩⟩
  · exact hcache

theorem State.allocLine_passes (s : State) (k ways : Nat) (dirty : Bool) : s.passes (s.allocLine k ways dirty) := by
  unfold State.allocLine
  dsimp only
  split
  · exact ⟨rfl, rfl, id⟩
  · exact State.passes_trans (s.dropLine_passes _) ⟨rfl, rfl, id⟩
  · exact s.passes_refl

theorem State.passLine_passes (s : State) (k : Nat) (write whole : Bool) : s.passes (s.passLine k write whole) := by
  unfold State.passLine
  dsimp only
  split
  · exact s.lineAccess_passes _ _ _
  · split
    · exact ⟨rfl, rfl, id⟩
    · split
      · exact s.lineAccess_passes _ _ _
      · refine State.passes_trans ?_ (State.allocLine_passes _ _ _ _)
        split
        · exact s.passes_refl
        · exact s.lineAccess_passes _ _ _

theorem State.pass_passes (s : State) (c : Ctx) (a n : Nat) (write : Bool) : s.passes (s.pass c a n write) := by
  unfold State.pass
  split
  · exact s.passes_refl
  · exact State.passes_fold (fun s i => s.passLine_passes _ _ _) _ _

theorem State.storeLines_passes (s : State) (c : Ctx) (a n : Nat) : s.passes (s.storeLines c a n) := by
  unfold State.storeLines
  split
  · exact s.passes_refl
  · exact State.passes_fold (fun s i => s.storeLine_passes _ _) _ _

theorem State.passes_keeps {s t : State} (h : s.passes t) : s.keeps t [.memCtl] := by
  rw [h.1]
  exact s.keeps_memCtl _

theorem State.passes_flips {s t : State} (h : s.passes t) : t.flips = s.flips := by rw [h.1]; rfl

theorem State.passes_rd {s t : State} (h : s.passes t) (k : Nat) : t.rd k = s.rd k := by rw [h.1]; rfl

theorem State.passes_dataKey {s t : State} (h : s.passes t) (sp o : Nat) : t.dataKey sp o = s.dataKey sp o := by
  have hrel : t.memCtl.relocated = s.memCtl.relocated := congrArg Prod.fst h.2.1
  simp only [State.dataKey, hrel]

/-- The same controllers serve after lines pass the cache. -/
theorem State.passes_tdOpen {s t : State} (h : s.passes t) (d : List Byte) : t.tdOpen d = s.tdOpen d := by
  have hgates := h.2.1
  simp only [MemCtl.gates, Prod.mk.injEq] at hgates
  obtain ⟨hrelocated, hrelocating, hchanges, hresetting⟩ := hgates
  have hserves : ∀ sp o, t.serves sp o = s.serves sp o := fun sp o => by
    have hregs : t.regs = s.regs := by rw [h.1]
    have hpolicy : ∀ g, t.cachePolicy sp g = s.cachePolicy sp g := fun g => by simp only [State.cachePolicy, State.fld, State.reg, hregs]
    have hgroups : ∀ p, t.groups p = s.groups p := fun p => by simp only [State.groups, State.reg, hregs]
    have ht2 : ∀ p, t.t2Groups p = s.t2Groups p := fun p => by simp only [State.t2Groups, State.fld, State.reg, hregs]
    simp only [State.serves, State.groupChanging, hrelocating, hchanges, hresetting, hpolicy, hgroups, ht2]
  have hlocal : ∀ a, t.isLocal a = s.isLocal a := fun a => by rw [h.1]; rfl
  simp only [State.tdOpen, State.rangeOpen, hrelocating, hchanges, hresetting, hserves, hlocal]

/-- No register reads the controllers' record. -/
theorem State.passes_regValue {s t : State} (h : s.passes t) (r : Reg) : t.regValue r = s.regValue r := by
  have heq := h.1
  have hro : t.roValue r = s.roValue r := by
    cases r with
    | flipStat p i =>
      have hflip : t.flip p i = s.flip p i := by rw [heq]; rfl
      have hdirty : ∀ f, t.dirtyUnits f = s.dirtyUnits f := fun f => by
        simp only [State.dirtyUnits, State.flipByteKey, State.passes_dataKey h, State.passes_rd h]
      have hfailed : (t.part p).flipFailed = (s.part p).flipFailed := by rw [heq]; rfl
      simp only [State.roValue, hflip, hdirty, hfailed]
    | knotWord hi => cases hi <;> (rw [heq]; rfl)
    | _ => rw [heq]; rfl
  simp only [State.regValue, hro, State.reg, congrArg State.regs heq]

/-- Whether a read may be made does not turn on the controllers' record, where every line is clean. -/
theorem State.readErr_of_passes {s t : State} (h : s.passes t) (hs : s.memCtl.clean) (c : Ctx) (a n : Nat) : t.readErr c a n = s.readErr c a n := by
  have hpoison : ∀ u : State, u.memCtl.clean → u.anyPoison c a n false = false := fun u hu => by simp [State.anyPoison, hu.1, hu.2.1]
  have heq := h.1
  unfold State.readErr
  rw [hpoison s hs, hpoison t (h.2.2 hs), heq]
  rfl

/-- What an address holds does not turn on the controllers' record but for where units lie. -/
theorem State.passes_fetch {s t : State} (h : s.passes t) (hs : s.memCtl.clean) (hf : s.flips = []) (c : Ctx) (a n : Nat) : t.fetch c a n = s.fetch c a n := by
  have heq := h.1
  have hkey : ∀ b, t.keyOf c b false = s.keyOf c b false := fun b => by
    have hflip : ∀ sp o, t.flipOffset c sp o false = s.flipOffset c sp o false := fun sp o => by
      simp [State.flipOffset, State.flipAt, hf, State.passes_flips h]
    have hlocal : ∀ l o, t.localKey l o = s.localKey l o := fun l o => by rw [heq]; rfl
    simp only [State.keyOf, hflip, hlocal, State.passes_dataKey h]
  have hvalue : t.valueAt c a n = s.valueAt c a n := by
    have hlocal : t.isLocal a = s.isLocal a := by rw [heq]; rfl
    have hreg : ∀ o, t.regByte o = s.regByte o := fun o => by
      simp only [State.regByte, State.regRead, State.passes_regValue h]
    have hrd : ∀ k, t.rd k = s.rd k := State.passes_rd h
    have hrb : t.rdBytes (remoteKey a) n = s.rdBytes (remoteKey a) n := by rw [heq]; rfl
    simp only [State.valueAt, State.readAt, hlocal, hreg, hkey, hrd, hrb]
  simp only [State.fetch, State.readErr_of_passes h hs, hvalue]

-- ## Bytes written at an address

/-- A write that is not held leaves its bytes where their units lie, where no flip region stands. -/
theorem State.writeAt_holdsData {s : State} (hf : s.flips = []) {c : Ctx} (hh : c.held = false) {a : Nat} {bs : List Byte} (hsp : gSpace a ≤ 1)
    (hend : gOffset a + bs.length ≤ 2 ^ 48) : s.holdsData (s.writeAt c a bs) (gSpace a) (gOffset a) bs := by
  have hpass : s.passes ((s.storeLines c a bs.length).pass c a bs.length true) := State.passes_trans (s.storeLines_passes _ _ _) (State.pass_passes _ _ _ _ _)
  have hwrite : s.writeAt c a bs = ((List.range bs.length).zip bs).foldl (fun u p => u.wr (s.dataKey (gSpace a) (gOffset a + p.1)) p.2)
      ((s.storeLines c a bs.length).pass c a bs.length true) := by
    simp only [State.writeAt, hh, Bool.false_eq_true, if_false]
    have hlt : ∀ p ∈ (List.range bs.length).zip bs, p.1 < bs.length := fun p hp => List.mem_range.1 (List.of_mem_zip hp).1
    have hkeys : ∀ l : List (Nat × Byte), (∀ p ∈ l, p.1 < bs.length) → ∀ u : State, u.flips = [] →
        (∀ j, u.dataKey (gSpace a) j = s.dataKey (gSpace a) j) →
        l.foldl (fun u ib => u.wr (u.keyOf c (a + ib.1) true) ib.2) u =
          l.foldl (fun u p => u.wr (s.dataKey (gSpace a) (gOffset a + p.1)) p.2) u := by
      intro l
      induction l with
      | nil => exact fun _ _ _ _ => rfl
      | cons p l ih =>
        intro hl u hu hk
        have hp : gOffset a + p.1 < 2 ^ 48 := by have := hl p (List.mem_cons_self ..); omega
        have hkey : u.keyOf c (a + p.1) true = s.dataKey (gSpace a) (gOffset a + p.1) := by
          rw [State.keyOf_of_noFlips hu c (by rw [gSpace_add hp]; exact hsp), gSpace_add hp, gOffset_add hp, hk]
        rw [List.foldl_cons, List.foldl_cons, hkey]
        exact ih (fun q hq => hl q (List.mem_cons_of_mem _ hq)) _ hu hk
    exact hkeys _ hlt _ ((State.passes_flips hpass).trans hf) (fun j => State.passes_dataKey hpass _ j)
  have hdata := State.foldl_wr_holdsData (s := (s.storeLines c a bs.length).pass c a bs.length true) (sp := gSpace a) hend
  simp only [State.holdsData, State.passes_dataKey hpass, State.passes_rd hpass] at hdata
  rw [hwrite]
  exact hdata

theorem State.writeAt_nil (s : State) {c : Ctx} (hh : c.held = false) (a : Nat) : s.writeAt c a [] = s := by
  simp [State.writeAt, hh, State.storeLines, State.pass]

-- ## Accesses that pass their checks

theorem State.partialPoison_of_clean {s : State} (h : s.memCtl.clean) (c : Ctx) (a n : Nat) : s.partialPoison c a n = false := by
  obtain ⟨hp, hc, -⟩ := h
  simp [State.partialPoison, State.lineBad, hp, hc]

/-- Whether a write may be made does not turn on the controllers' record, where every line is clean. -/
theorem State.writeErr_of_passes {s t : State} (h : s.passes t) (hs : s.memCtl.clean) (c : Ctx) (a n : Nat) : t.writeErr c a n = s.writeErr c a n := by
  have ht := h.2.2 hs
  have heq := h.1
  unfold State.writeErr
  rw [State.partialPoison_of_clean hs, State.partialPoison_of_clean ht, heq]
  rfl

theorem State.put_nil (s : State) (c : Ctx) (iss : Issuer) (a : Nat) : s.put c iss a [] = (s, none) := by simp [State.put, State.writeErr]

/-- A local write of clean lines is made at once. -/
theorem State.put_of_clean {s : State} (hs : s.memCtl.clean) {c : Ctx} (hh : c.held = false) (iss : Issuer) {a : Nat} {bs : List Byte}
    (hl : s.isLocal a = true) (hsp : gSpace a ≤ 1) (hw : s.writeErr c a bs.length = none) : s.put c iss a bs = (s.writeAt c a bs, none) := by
  rcases bs.eq_nil_or_concat with rfl | ⟨_, _, rfl⟩
  · rw [State.put_nil, State.writeAt_nil s hh]
  · have hcure : ∀ n, s.cure c a n = s := fun n => by simp [State.cure, hs.1]
    have h2 : gSpace a ≠ 2 := by omega
    have h8 : gSpace a ≠ 8 := by omega
    have h4 : ¬ 4 ≤ gSpace a := by omega
    unfold State.put
    rw [hw]
    simp [hl, h2, h8, h4, hcure]

/-- A read that passes its checks lets its lines pass the cache (R236). -/
theorem State.mayRead_of_ok {s : State} {c : Ctx} {a n : Nat} (hl : s.isLocal a = true) (hr : s.readErr c a n = none) :
    s.mayRead c a n = (s.pass c a n false, none) := by
  simp [State.mayRead, hr, hl]

theorem State.mayRead_zero (s : State) (c : Ctx) (a : Nat) : s.mayRead c a 0 = (s, none) := by
  simp [State.mayRead, State.readErr, State.pass]

-- ## The plain copy of one row (R254)

/-- The row's bytes stand at the destination as they stood at the source, and every other byte is as before. -/
def State.copied (s t : State) (src dst n : Nat) : Prop :=
  (∀ i, i < n → t.rd (s.dataKey (gSpace dst) (gOffset dst + i)) = s.rd (s.dataKey (gSpace src) (gOffset src + i))) ∧
  ∀ k, (∀ i, i < n → k ≠ s.dataKey (gSpace dst) (gOffset dst + i)) → t.rd k = s.rd k

/-- A descriptor that copies one row between two local ranges that may be read and written, where no flip region stands and every line is clean. -/
structure State.PlainRow (s : State) (c : Ctx) (desc : List Byte) : Prop where
  held : c.held = false
  ok : descOk desc = true
  op : descOp desc = 1
  rows : tdRows (descDst desc) = 1
  noScales : fmtMx (tdFmt (descSrc desc)) = false
  noFlips : s.flips = []
  clean : s.memCtl.clean
  srcLocal : s.isLocal (tdBase (descSrc desc)) = true
  dstLocal : s.isLocal (tdBase (descDst desc)) = true
  srcSpace : gSpace (tdBase (descSrc desc)) ≤ 1
  dstSpace : gSpace (tdBase (descDst desc)) ≤ 1
  srcEnd : gOffset (tdBase (descSrc desc)) + tdRowBytes (descSrc desc) ≤ 2 ^ 48
  dstEnd : gOffset (tdBase (descDst desc)) + tdRowBytes (descSrc desc) ≤ 2 ^ 48
  readable : s.readErr c (tdBase (descSrc desc)) (tdRowBytes (descSrc desc)) = none
  writable : s.writeErr c (tdBase (descDst desc)) (tdRowBytes (descSrc desc)) = none

theorem State.PlainRow.of_passes {s t : State} {c : Ctx} {desc : List Byte} (h : s.PlainRow c desc) (hp : s.passes t) : t.PlainRow c desc where
  held := h.held
  ok := h.ok
  op := h.op
  rows := h.rows
  noScales := h.noScales
  noFlips := (State.passes_flips hp).trans h.noFlips
  clean := hp.2.2 h.clean
  srcLocal := by rw [hp.1]; exact h.srcLocal
  dstLocal := by rw [hp.1]; exact h.dstLocal
  srcSpace := h.srcSpace
  dstSpace := h.dstSpace
  srcEnd := h.srcEnd
  dstEnd := h.dstEnd
  readable := (State.readErr_of_passes hp h.clean _ _ _).trans h.readable
  writable := (State.writeErr_of_passes hp h.clean _ _ _).trans h.writable

theorem tdRowOff_zero (t : List Byte) : tdRowOff t 0 = 0 := by simp [tdRowOff]

/-- Where both states hold the same bytes in a range, what a request reads of it is those bytes (R257). -/
theorem mixRead_of_same {s t : State} {c : Ctx} {a n : Nat} (h : t.valueAt c a n = s.valueAt c a n) : mixRead s t c a n = (s.valueAt c a n).take n := by
  have hzip : ∀ (l : List Nat) (bs : List Byte),
      l.zipWith (fun i (b : Byte × Byte) => if Config.freeOverlap s.draws (a + i) then b.1 else b.2) (bs.zip bs) = bs.take l.length := by
    intro l
    induction l with
    | nil => simp
    | cons i l ih =>
      intro bs
      cases bs with
      | nil => simp
      | cons b bs => simp [ih]
  rw [mixRead, h, hzip, List.length_range]

/-- The source row of a plain copy, as bytes. -/
theorem State.PlainRow.valueAt_eq {s : State} {c : Ctx} {desc : List Byte} (h : s.PlainRow c desc) {t : State} (hp : s.passes t) :
    t.valueAt c (tdBase (descSrc desc)) (tdRowBytes (descSrc desc)) =
      (List.range (tdRowBytes (descSrc desc))).map
        (fun i => s.rd (s.dataKey (gSpace (tdBase (descSrc desc))) (gOffset (tdBase (descSrc desc)) + i))) := by
  have hl : t.isLocal (tdBase (descSrc desc)) = true := by rw [hp.1]; exact h.srcLocal
  have h8 : gSpace (tdBase (descSrc desc)) ≠ 8 := by have := h.srcSpace; omega
  simp only [State.valueAt, hl, if_true, h8, if_false, State.readAt_of_noFlips ((State.passes_flips hp).trans h.noFlips) c h.srcSpace h.srcEnd,
    State.passes_rd hp, State.passes_dataKey hp]

/-- The one row of a plain copy: its source passes the cache, and its bytes are written. -/
theorem State.PlainRow.shuttleRow_eq {s : State} {c : Ctx} {desc : List Byte} (h : s.PlainRow c desc) (iss : Issuer) (p : Nat) :
    ∃ u bs, shuttleRow s c iss p desc { s with draws := s.draws + 1 } 0 = (u.writeAt c (tdBase (descDst desc)) bs, none) ∧
      State.passes { s with draws := s.draws + 1 } u ∧
      bs = (List.range (tdRowBytes (descSrc desc))).map
        (fun i => s.rd (s.dataKey (gSpace (tdBase (descSrc desc))) (gOffset (tdBase (descSrc desc)) + i))) := by
  have h1 : State.PlainRow { s with draws := s.draws + 1 } c desc :=
    ⟨h.held, h.ok, h.op, h.rows, h.noScales, h.noFlips, h.clean, h.srcLocal, h.dstLocal, h.srcSpace, h.dstSpace, h.srcEnd, h.dstEnd, h.readable, h.writable⟩
  have hread := State.mayRead_of_ok h1.srcLocal h1.readable
  have hpass := State.pass_passes { s with draws := s.draws + 1 } c (tdBase (descSrc desc)) (tdRowBytes (descSrc desc)) false
  generalize State.pass { s with draws := s.draws + 1 } c (tdBase (descSrc desc)) (tdRowBytes (descSrc desc)) false = u at hread hpass
  have hbytes : mixRead s u c (tdBase (descSrc desc)) (tdRowBytes (descSrc desc)) = (List.range (tdRowBytes (descSrc desc))).map
      (fun i => s.rd (s.dataKey (gSpace (tdBase (descSrc desc))) (gOffset (tdBase (descSrc desc)) + i))) := by
    rw [mixRead_of_same ((h1.valueAt_eq hpass).trans (h.valueAt_eq s.passes_refl).symm), h.valueAt_eq s.passes_refl]
    simp
  have hzero : mixRead s u c (tdScaleAddr (descSrc desc) 0) 0 = [] := by simp [mixRead]
  have hclean : u.memCtl.clean := hpass.2.2 h.clean
  have hlocal : u.isLocal (tdBase (descDst desc)) = true := by rw [hpass.1]; exact h.dstLocal
  have hwrite : u.writeErr c (tdBase (descDst desc)) (tdRowBytes (descSrc desc)) = none :=
    (State.writeErr_of_passes hpass h.clean _ _ _).trans h1.writable
  have hlen : (mixRead s u c (tdBase (descSrc desc)) (tdRowBytes (descSrc desc))).length = tdRowBytes (descSrc desc) := by rw [hbytes]; simp
  refine ⟨u, mixRead s u c (tdBase (descSrc desc)) (tdRowBytes (descSrc desc)), ?_, hpass, hbytes⟩
  have hput := State.put_of_clean hclean h.held iss hlocal h.dstSpace (hlen.symm ▸ hwrite)
  simp [shuttleRow, h.op, h.noScales, tdRowOff_zero, hread, Try.andThen, State.mayRead_zero, State.putRow, hput, hzero, State.put_nil]

/-- A shuttle that runs a plain copy of one row leaves the source's bytes in the destination and no other byte changed. -/
theorem State.PlainRow.shuttleRun_copies {s : State} {c : Ctx} {desc : List Byte} (h : s.PlainRow c desc) (iss : Issuer) (p : Nat) :
    ∃ t, s.shuttleRun c iss p desc = (t, none) ∧ s.keeps t [.mem, .memCtl, .draws] ∧
      s.copied t (tdBase (descSrc desc)) (tdBase (descDst desc)) (tdRowBytes (descSrc desc)) := by
  obtain ⟨u, bs, hrow, hpass, hbs⟩ := h.shuttleRow_eq iss p
  have hdraw : s.keeps { s with draws := s.draws + 1 } [.draws] := by
    intro f hf
    cases f <;> simp_all [Field.same, State.rd]
  have hlen : bs.length = tdRowBytes (descSrc desc) := by simp [hbs]
  obtain ⟨hin, hout⟩ := State.writeAt_holdsData (s := u) ((State.passes_flips hpass).trans h.noFlips) h.held (bs := bs) h.dstSpace (by rw [hlen]; exact h.dstEnd)
  refine ⟨u.writeAt c (tdBase (descDst desc)) bs, ?_, ?_, fun i hi => ?_, fun k hk => ?_⟩
  · have hrange : List.range (tdRows (descDst desc)) = [0] := by rw [h.rows]; rfl
    simp [State.shuttleRun, h.ok, hrange, Try.each, hrow, Try.andThen]
  · exact State.keeps_step (State.keeps_step (State.keeps_mono hdraw (by decide)) (State.passes_keeps hpass)) (State.writeAt_keeps _ _ _ _)
  · have hkey := State.passes_dataKey hpass (gSpace (tdBase (descDst desc))) (gOffset (tdBase (descDst desc)) + i)
    have := hin i (by omega)
    rw [hkey] at this
    exact this.trans (by simp [hbs])
  · refine (hout k fun i hi => ?_).trans (State.passes_rd hpass k)
    rw [State.passes_dataKey hpass]
    exact hk i (by omega)

end Sys2Proof.Machine
end

section
/-!
PROOFS. Drafts and nodes after an update, and the dispatch of a COPY, a BARRIER and a loom task (O46).
-/

namespace Sys2Proof.Machine

-- ## Drafts and nodes after an update

theorem State.draft_id {s : State} {d : Nat} {x : Draft} (h : s.draft d = some x) : x.id = d := by
  have := List.find?_some h
  simpa using this

theorem State.setDraft_draft (s : State) (d k : Nat) (f : Draft → Draft) (hf : ∀ x, (f x).id = x.id) :
    (s.setDraft d f).draft k = if k = d then (s.draft d).map f else s.draft k := by
  have hcomp : ((fun y : Draft => y.id == k) ∘ fun y => if y.id = d then f y else y) = fun y => y.id == k := by
    funext y
    simp only [Function.comp]
    split <;> simp [hf]
  simp only [State.draft, State.setDraft, List.find?_map, hcomp]
  split
  · next hk =>
    subst hk
    cases hx : s.drafts.find? (fun y => y.id == k) with
    | none => rfl
    | some x => simp [State.draft_id hx]
  · next hk =>
    cases hx : s.drafts.find? (fun y => y.id == k) with
    | none => rfl
    | some x => simp [State.draft_id (d := k) hx, hk]

theorem State.setNode_draft_ne (s : State) {d k : Nat} (n : Nat) (f : Node → Node) (h : k ≠ d) : (s.setNode d n f).draft k = s.draft k := by
  rw [State.setNode, State.setDraft_draft s d k (fun x => { x with nodes := x.nodes.modify n f }) (fun _ => rfl), if_neg h]

theorem State.setNode_node (s : State) (d n k : Nat) (f : Node → Node) :
    (s.setNode d n f).node d k = if k = n then (s.node d n).map f else s.node d k := by
  rw [State.node, State.setNode, State.setDraft_draft s d d (fun x => { x with nodes := x.nodes.modify n f }) (fun _ => rfl), if_pos rfl, State.node,
    State.node]
  cases s.draft d with
  | none => simp
  | some x =>
    simp only [Option.map_some, Option.bind_some, List.getElem?_modify]
    split
    · next hk => subst hk; simp
    · next hk => simp [Ne.symm hk]

theorem State.setNode_node_same {s : State} {d n : Nat} {y : Node} (f : Node → Node) (h : s.node d n = some y) : (s.setNode d n f).node d n = some (f y) := by
  rw [State.setNode_node, if_pos rfl, h]
  rfl

theorem State.draft_of_drafts {s t : State} (h : t.drafts = s.drafts) (d : Nat) : t.draft d = s.draft d := by simp only [State.draft, h]

theorem State.node_of_drafts {s t : State} (h : t.drafts = s.drafts) (d n : Nat) : t.node d n = s.node d n := by
  simp only [State.node, State.draft_of_drafts h]

/-- No draft but `d` and no node of it but `n` differs. -/
def State.onlyNode (s t : State) (d n : Nat) : Prop := (∀ k, k ≠ n → t.node d k = s.node d k) ∧ ∀ k, k ≠ d → t.draft k = s.draft k

theorem State.onlyNode_of_drafts {s t : State} (h : t.drafts = s.drafts) (d n : Nat) : s.onlyNode t d n :=
  ⟨fun k _ => State.node_of_drafts h d k, fun k _ => State.draft_of_drafts h k⟩

theorem State.onlyNode_trans {s t u : State} {d n : Nat} (h1 : s.onlyNode t d n) (h2 : t.onlyNode u d n) : s.onlyNode u d n :=
  ⟨fun k hk => (h2.1 k hk).trans (h1.1 k hk), fun k hk => (h2.2 k hk).trans (h1.2 k hk)⟩

theorem State.setNode_onlyNode (s : State) (d n : Nat) (f : Node → Node) : s.onlyNode (s.setNode d n f) d n :=
  ⟨fun k hk => by rw [State.setNode_node, if_neg hk], fun _ hk => s.setNode_draft_ne n f hk⟩

-- ## Pins (R246)

/-- Node `n` of draft `d` is as `y` with some pins, and nothing else of the drafts differs. -/
def State.dispatched (s t : State) (d n : Nat) (y : Node) : Prop := (∃ es, t.node d n = some { y with pins := es }) ∧ s.onlyNode t d n

theorem State.pinNode_keeps (s : State) (d n : Nat) : s.keeps (s.pinNode d n) [.mem, .drafts] := by
  unfold State.pinNode
  split
  · split
    · exact s.keeps_refl _
    · exact State.keeps_step (State.keeps_mono (State.keeps_fold (fun s e => s.pin_keeps _ e true) _ _) (by decide)) (State.setDraft_keeps _ _ _)
  · exact s.keeps_refl _

/-- A node that has been dispatched holds its pins. -/
theorem State.pinNode_dispatched {s u : State} {d n : Nat} {y : Node} (hy : u.node d n = some y) (honly : s.onlyNode u d n) :
    s.dispatched (u.pinNode d n) d n y := by
  obtain ⟨x, hx⟩ : ∃ x, u.draft d = some x := by
    cases h : u.draft d with
    | none => simp [State.node, h] at hy
    | some x => exact ⟨x, rfl⟩
  unfold State.pinNode
  rw [hx, hy]
  dsimp only
  split
  · exact ⟨⟨y.pins, hy⟩, honly⟩
  · have hpins : u.keeps ((u.entriesUsed x y).foldl (fun s e => s.pin x.part e true) u) [.mem] := State.keeps_fold (fun s e => s.pin_keeps _ _ _) _ _
    have hdrafts : ((u.entriesUsed x y).foldl (fun s e => s.pin x.part e true) u).drafts = u.drafts := hpins .drafts (by decide)
    refine ⟨⟨u.entriesUsed x y, ?_⟩, ?_⟩
    · exact State.setNode_node_same (fun z => { z with pins := u.entriesUsed x y }) ((State.node_of_drafts hdrafts d n).trans hy)
    · exact State.onlyNode_trans honly (State.onlyNode_trans (State.onlyNode_of_drafts hdrafts d n) (State.setNode_onlyNode _ _ _ _))

-- ## Dispatch (R210, R211, R212)

theorem nodeDispatch_not_ready {s : State} {d n : Nat} {x : Draft} {y : Node} (hx : s.draft d = some x) (hy : s.node d n = some y)
    (h : s.nodeReady x n y = false) : nodeDispatch s d n = s := by
  simp [nodeDispatch, hx, hy, h]

/-- A ready node that nothing precedes and no bubble-fill work delays goes to its looms or its engine, and is pinned. -/
theorem nodeDispatch_goes {s : State} {d n : Nat} {x : Draft} {y : Node} (hx : s.draft d = some x) (hy : s.node d n = some y)
    (hdis : s.dispatches x.part = true) (hr : s.nodeReady x n y = true) (ho : s.outranked x n y = false) (ha : s.awaitsPick x y = false)
    (hw : s.stepWaits x = false) (hres : s.reserved x y = false) (hb : s.bankTaken x n y = false) (hst : y.st ≠ .stopped) (hway : s.bubbleInWay x y = []) :
    nodeDispatch s d n = (s.dispatchKind x n y).pinNode d n := by
  simp [nodeDispatch, hx, hy, hdis, hr, ho, hw, ha, hres, hb, hst, hway, State.displaceOn]

/-- Work outside the looms finds no loom in its way. -/
theorem State.bubbleInWay_of_offLooms {s : State} (x : Draft) {y : Node} (h : y.onLooms = false) : s.bubbleInWay x y = [] := by
  simp [State.bubbleInWay, State.nodeLooms, Node.loomSet, h]

/-- No bubble-fill work runs on a free loom. -/
theorem State.bubbleInWay_of_free {s : State} {x : Draft} {y : Node} {l : Nat} (hl : s.nodeLooms x y = [l]) (hf : (s.loom l).node = none) :
    s.bubbleInWay x y = [] := by
  simp [State.bubbleInWay, hl, hf]

/-- A command that leaves a node dispatched and pinned answers that state, settled. -/
theorem State.gives_of_pinned {s u : State} {c : Instr} {d n : Nat} {y : Node} {fs : List Field} (h : exec c s = finishDeferred (u.pinNode d n))
    (hd : s.deferred = []) (hk : s.keeps u fs) (hy : u.node d n = some y) (honly : s.onlyNode u d n)
    (hfs : Field.deferred ∉ fs := by decide) (hpin : ∀ f ∈ [Field.mem, .drafts], f ∈ fs := by decide) :
    exec c s = .next (settle (u.pinNode d n)) ∧ s.dispatched (u.pinNode d n) d n y ∧ s.keeps (settle (u.pinNode d n)) fs := by
  have hall := State.keeps_step hk (u.pinNode_keeps d n) hpin
  exact ⟨h.trans (finishDeferred_of_none (State.deferred_of_keeps hall hfs hd)), State.pinNode_dispatched hy honly, State.keeps_settled hall⟩

-- ## COPY and BARRIER (R202, R252, R254)

theorem State.keeps_shuttles (s : State) (q : List (Nat × List ShPart)) (m : List (List Issuer)) :
    s.keeps { s with shuttles := q, mates := m } [.shuttles, .mates] := by
  intro f hf
  cases f <;> simp_all [Field.same, State.rd]

theorem State.joinQueue_keeps (s : State) (k : Nat) (x : ShPart) : s.keeps (s.joinQueue k x) [.shuttles, .mates] := by
  unfold State.joinQueue
  dsimp only
  split
  · split
    · exact s.keeps_shuttles _ _
    · exact s.keeps_shuttles _ _
  · exact s.keeps_shuttles _ _

theorem State.enqueue_keeps (s : State) (iss : Issuer) (p mask : Nat) (desc : List Byte) : s.keeps (s.enqueue iss p mask desc) [.shuttles, .mates] :=
  State.keeps_fold (fun s _ => s.joinQueue_keeps _ _) _ _

/-- One local row that can be read is brought by passing the cache. -/
theorem State.bringTd_local {s : State} {c : Ctx} (iss : Issuer) {t : List Byte} (hrows : tdRows t = 1) (hmx : fmtMx (tdFmt t) = false)
    (hl : s.isLocal (tdBase t) = true) (hsp : gSpace (tdBase t) ≤ 2) (hr : s.readErr c (tdBase t) (tdRowBytes t) = none) :
    ∃ u, s.bringTd c iss t = (u, none) ∧ s.passes u := by
  by_cases hv : tdValid t = true
  · have hpass := s.pass_passes c (tdBase t) (tdRowBytes t) false
    have hlu : (s.pass c (tdBase t) (tdRowBytes t) false).isLocal (tdBase t) = true := by rw [hpass.1]; exact hl
    have h4 : gSpace (tdBase t) ≠ 4 := by omega
    have h5 : gSpace (tdBase t) ≠ 5 := by omega
    refine ⟨_, ?_, hpass⟩
    have hrange : List.range (tdRows t) = [0] := by rw [hrows]; rfl
    simp [State.bringTd, hv, hrange, Try.each, Try.andThen, State.bring, tdRowOff_zero, State.mayRead_of_ok hl hr, hlu, h4, h5, hmx]
  · exact ⟨s, by simp [State.bringTd, hv], s.passes_refl⟩

/-- The descriptor of a plain copy has its two tensors where it accepts them (R253). -/
theorem descSrc_plainDesc {a b : List Byte} (ha : a.length ≤ 24) (hb : b.length ≤ 24) (h : descOk (plainDesc a b) = true) :
    descSrc (plainDesc a b) = a := by
  have hlen : (plainDesc a b).length = 64 := by
    simp only [descOk, Bool.and_eq_true, beq_iff_eq] at h
    tauto
  have ha' : a.length = 24 := by
    simp [plainDesc, leBytes, zeros] at hlen
    omega
  simp [descSrc, plainDesc, slice, leBytes, zeros, ha']

end Sys2Proof.Machine
end

section
/-!
PROOFS. The dispatch of a COPY, a BARRIER and a loom task (O46).
-/

namespace Sys2Proof.Machine

theorem Node.td_length_le (y : Node) (i : Nat) : (y.td i).length ≤ 24 := by
  simp only [Node.td, slice, List.length_take]
  omega

/-- A plain COPY of one readable local row runs, its source past the cache, and joins the queues of its shuttles. -/
theorem State.dispatchCopy_runs {s : State} {d n : Nat} {x : Draft} {y : Node} (hx : s.draft d = some x) (hy : s.node d n = some y)
    (harg : y.arg 104 8 = 0) (hok : descOk (plainDesc (y.td 0) (y.td 1)) = true) (hrows : tdRows (y.td 0) = 1) (hmx : fmtMx (tdFmt (y.td 0)) = false)
    (hl : s.isLocal (tdBase (y.td 0)) = true) (hsp : gSpace (tdBase (y.td 0)) ≤ 2)
    (hr : s.readErr (nodeCtx x y) (tdBase (y.td 0)) (tdRowBytes (y.td 0)) = none) :
    (s.dispatchCopy x n y).node d n = some { y with st := .running } ∧ s.onlyNode (s.dispatchCopy x n y) d n ∧
      s.keeps (s.dispatchCopy x n y) [.mem, .memCtl, .drafts, .shuttles, .mates] := by
  obtain rfl := State.draft_id hx
  have hset : s.keeps (s.setNode x.id n (fun y => { y with st := .running })) [.drafts] := s.setDraft_keeps _ _
  obtain ⟨u, hbring, hpass⟩ := State.bringTd_local (s := s.setNode x.id n (fun y => { y with st := .running })) (c := nodeCtx x y) (.node x.id n) hrows hmx
    hl hsp hr
  have hdesc : s.dispatchCopy x n y = u.enqueue (.node x.id n) x.part y.clusterMask (plainDesc (y.td 0) (y.td 1)) := by
    simp [State.dispatchCopy, State.copyDesc, harg, hok, descSrc_plainDesc (y.td_length_le 0) (y.td_length_le 1) hok, hbring]
  have hqueue := u.enqueue_keeps (.node x.id n) x.part y.clusterMask (plainDesc (y.td 0) (y.td 1))
  have hdrafts : (u.enqueue (.node x.id n) x.part y.clusterMask (plainDesc (y.td 0) (y.td 1))).drafts =
      (s.setNode x.id n (fun y => { y with st := .running })).drafts := (hqueue .drafts (by decide)).trans (by rw [hpass.1])
  rw [hdesc]
  refine ⟨?_, ?_, ?_⟩
  · exact (State.node_of_drafts hdrafts x.id n).trans (State.setNode_node_same (fun y => { y with st := .running }) hy)
  · exact State.onlyNode_trans (s.setNode_onlyNode x.id n _) (State.onlyNode_of_drafts hdrafts x.id n)
  · exact State.keeps_step (State.keeps_step (State.keeps_mono hset (by decide)) (State.passes_keeps hpass)) hqueue

/-- A BARRIER of scope 0 runs, with nothing left to do. -/
theorem State.dispatchBarrier_runs {s : State} {d n : Nat} {x : Draft} {y : Node} (hx : s.draft d = some x) (hy : s.node d n = some y)
    (harg : y.arg 104 1 = 0) :
    (s.dispatchBarrier x n y).node d n = some { y with st := .running, worked := true } ∧ s.onlyNode (s.dispatchBarrier x n y) d n ∧
      s.keeps (s.dispatchBarrier x n y) [.mem, .drafts] := by
  obtain rfl := State.draft_id hx
  have heq : s.dispatchBarrier x n y =
      (s.setNode x.id n (fun y => { y with st := .running })).setNode x.id n (fun y => { y with worked := true }) := by
    simp [State.dispatchBarrier, harg]
  rw [heq]
  refine ⟨?_, ?_, ?_⟩
  · exact State.setNode_node_same (fun y => { y with worked := true }) (State.setNode_node_same (fun y => { y with st := .running }) hy)
  · exact State.onlyNode_trans (s.setNode_onlyNode x.id n _) (State.setNode_onlyNode _ _ _ _)
  · exact State.keeps_mono (State.keeps_trans (s.setDraft_keeps _ _) (State.setDraft_keeps _ _ _)) (by decide)

-- ## Loom tasks (R95, R98, R208, R211)

/-- A loom that takes a node of an image that is not an alternation's starts its walks. -/
theorem State.takeNode_takes {s : State} {l d n k : Nat} {i : Img} (himg : (s.loom l).images = [(k, i)]) (halt : (s.loom l).alternates d i = false)
    (rank looms : Nat) :
    ∃ z, s.takeNode l d n rank looms none (Img.id i) = s.setLoom l z ∧ z.node = some (d, n) ∧ z.run = { rank := rank, looms := looms, draft := d } ∧
      z.images = [(k, i)] := by
  have hholds : (s.loom l).holds (Img.id i) = some k := by simp [Loom.holds, himg]
  have hget : (((s.loom l).images.find? (fun y => y.1 == k)).map (·.2)).getD [] = i := by simp [himg]
  simp only [State.takeNode, hholds, hget, halt, Bool.false_eq_true, if_false]
  exact ⟨_, rfl, rfl, rfl, himg⟩

section
variable {s : State} {l d n k : Nat} {i : Img} {x : Draft} {y : Node} (hx : s.draft d = some x) (hy : s.node d n = some y) (hkind : y.kind = 1)
  (hrun : y.st = .running) (hnode : (s.loom l).node = some (d, n)) (himg : (s.loom l).images = [(k, i)]) (hid : Img.id i = y.image)
include hx hy hkind hnode himg hid

/-- The work of a loom that runs a loom task is that task under its image. -/
theorem State.holding_of_task : s.holding l = some ⟨d, n, x, y, i⟩ := by
  have h2 : y.kind ≤ 2 := by omega
  simp [State.holding, hnode, hx, hy, h2, Loom.imageOf, himg, hid]

/-- Outside the output-stationary mode there are no tiles to skip (R174). -/
theorem State.skipTiles_of_task (hmode : Img.mode i ≠ 2) : s.skipTiles l = s := by
  have hskip : ∀ w : Work, w.img = i → ∀ fuel, s.skipPairs l w fuel = s := by
    intro w hw fuel
    cases fuel with
    | zero => rfl
    | succ fuel => simp [State.skipPairs, hw, hmode]
  simp only [State.skipTiles, State.holding_of_task hx hy hkind hnode himg hid]
  exact hskip _ rfl _

/-- A loom task has no FETCH stages (R101). -/
theorem State.fetchAll_of_task : s.fetchAll l = s := by
  have hf : y.fetches = [] := by simp [Node.fetches, hkind]
  simp [State.fetchAll, State.holding_of_task hx hy hkind hnode himg hid, Run.fetchList, hf, State.fetchRows]

/-- Without an epilogue no row leaves the output path (R151). -/
theorem State.drainAll_of_task (hepi : Img.epilogue i = false) : s.drainAll l = s := by
  have hrows : Img.outRows i = 0 := by simp [Img.outRows, hepi]
  have hwork : s.work l = none ∨ s.work l = some ⟨d, n, x, y, i⟩ := by
    simp only [State.work, State.holding_of_task hx hy hkind hnode himg hid]
    split
    · exact .inr rfl
    · exact .inl rfl
  have hdrain : ∀ fuel, s.drain l fuel = s := by
    intro fuel
    cases fuel with
    | zero => rfl
    | succ fuel => rcases hwork with h | h <;> simp [State.drain, h, State.outRow, hrows]
  unfold State.drainAll
  split
  · exact hdrain _
  · rfl

end

/-- A loom task on one free loom that holds its image takes the loom. -/
theorem State.dispatchLooms_runs {s : State} {l d n k : Nat} {i : Img} {x : Draft} {y : Node} (hx : s.draft d = some x) (hy : s.node d n = some y)
    (hkind : y.kind = 1) (hl : s.nodeLooms x y = [l]) (hvac : ∀ lg ∈ y.loomSet, s.isVacant x.part lg = false) (hfree : (s.loom l).node = none)
    (htab : (s.imageEntry x.part y.image).isSome = true) (halt : (s.loom l).alternates d i = false) (himg : (s.loom l).images = [(k, i)])
    (hid : Img.id i = y.image) (hepi : Img.epilogue i = false) (hmode : Img.mode i ≠ 2) :
    ∃ z, s.dispatchLooms x n y = (s.setLoom l z).setNode d n (fun y => { y with st := .running }) ∧ z.node = some (d, n) ∧
      z.run = { rank := 0, looms := 1, draft := d } := by
  obtain rfl := State.draft_id hx
  obtain ⟨z, htake, hznode, hzrun, hzimg⟩ := State.takeNode_takes (n := n) himg halt 0 1
  have hv : y.loomSet.any (fun lg => s.isVacant x.part lg) = false := by simpa using hvac
  have ht : (s.imageEntry x.part y.image).isNone = false := by simpa [Option.isSome_iff_ne_none] using htab
  have hholds : (s.loom l).holds y.image = some k := by simp [Loom.holds, himg, hid]
  have himage : ((s.loom l).images.find? (fun z => Img.id z.2 == y.image)).map (·.2) = some i := by simp [himg, hid]
  have hmask : s.nodeMask x y i = .ok none := by simp [State.nodeMask, hmode]
  have hrefuse : s.loomRefusal x y i = none := by simp [State.loomRefusal, hepi, hkind, Img.emits]
  have hf : y.fetches = [] := by simp [Node.fetches, hkind]
  refine ⟨z, ?_, hznode, hzrun⟩
  rw [hid] at htake
  have hlooms : s.dispatchLooms x n y = (((((s.setLoom l z).setNode x.id n (fun y => { y with st := .running })).skipTiles l).fetchAll l).drainAll l) := by
    simp only [State.dispatchLooms, hl, hv, ht, Bool.false_eq_true, if_false, List.any_cons, List.any_nil, Bool.or_false, hholds, Option.isNone_some, hfree,
      Option.isSome_none, List.head?_cons, Option.bind_some, himage, Option.getD_some, hrefuse, hmask, List.zipIdx_cons, List.zipIdx_nil, List.foldl_cons,
      List.foldl_nil, List.length_singleton, htake, hf, Try.each]
  have hu := State.setNode_node_same (s := s.setLoom l z) (d := x.id) (n := n) (fun y => { y with st := .running }) hy
  obtain ⟨x', hx'⟩ : ∃ x', ((s.setLoom l z).setNode x.id n (fun y => { y with st := .running })).draft x.id = some x' := by
    cases h : ((s.setLoom l z).setNode x.id n (fun y => { y with st := .running })).draft x.id with
    | none => simp [State.node, h] at hu
    | some x' => exact ⟨x', rfl⟩
  have hloom : ((s.setLoom l z).setNode x.id n (fun y => { y with st := .running })).loom l = z := State.setLoom_loom_same _ _ _
  have hn := (congrArg Loom.node hloom).trans hznode
  have hi := (congrArg Loom.images hloom).trans hzimg
  rw [hlooms, State.skipTiles_of_task hx' hu hkind hn hi hid hmode, State.fetchAll_of_task hx' hu hkind hn hi hid,
    State.drainAll_of_task hx' hu hkind hn hi hid hepi]

end Sys2Proof.Machine
end

section
/-!
PROOFS. The end of a COPY, BARRIER, SIGNAL or HOST_WAIT node that has done its work, and a shuttle's copy (O46).
-/

namespace Sys2Proof.Machine

-- ## Looms that a node frees (R210)

theorem tget_map_default {α : Type} [DecidableEq α] (d : α) (g : α → α) (hg : g d = d) (l : List (Nat × α)) (k : Nat) :
    tget d (l.map (fun p => (p.1, g p.2))) k = g (tget d l k) := by
  induction l with
  | nil => exact hg.symm
  | cons p l ih =>
    simp only [List.map_cons, tget]
    split
    · rfl
    · exact ih

/-- A loom as the end of a node leaves it. -/
def Loom.freed (d n : Nat) (x : Loom) : Loom := if x.node = some (d, n) then x.release else x

theorem State.freeLooms_loom (s : State) (d n l : Nat) : (s.freeLooms d n).loom l = (s.loom l).freed d n := by
  have hmap : s.looms.map (fun l => if l.2.node = some (d, n) then (l.1, l.2.release) else l) = s.looms.map (fun p => (p.1, p.2.freed d n)) :=
    List.map_congr_left fun p _ => by
      simp only [Loom.freed]
      split <;> rfl
  simp only [State.loom, State.freeLooms, hmap, tget_tcanon]
  exact tget_map_default {} (Loom.freed d n) rfl s.looms l

theorem Loom.release_node (x : Loom) : x.release.node = none := by
  unfold Loom.release
  dsimp only
  split
  · split <;> rfl
  · rfl

-- ## The end of a node (R197, R210)

/-- A node that has completed OK. -/
def Node.ended (y : Node) : Node := { y with st := .done stOK, pins := [] }

/-- A node with the missing predecessors that the end of `y` leaves it. -/
def Node.released (y : Node) (k : Nat) (z : Node) : Node :=
  if y.succ.contains k then { z with deps := z.deps - (y.succ.filter (· == k)).length } else z

theorem Node.released_eq (y : Node) (k : Nat) (z : Node) : y.released k z = { z with deps := z.deps - y.succ.count k } := by
  unfold Node.released
  split
  · rw [List.count_eq_length_filter]
  · next h =>
    have h0 : y.succ.count k = 0 := List.count_eq_zero.2 (by simpa using h)
    rw [h0]
    rfl

/-- A draft whose node `n` has completed OK. -/
def Draft.nodeEnded (n : Nat) (y : Node) (x : Draft) : Draft :=
  { x with
    info := x.info ||| infoBit stOK, failed := x.failed || false,
    nodes := (x.nodes.modify n Node.ended).zipIdx.map (fun ni => y.released ni.2 ni.1) }

theorem Draft.nodeEnded_node (n k : Nat) (y : Node) (x : Draft) :
    (x.nodeEnded n y).nodes[k]? = (if k = n then x.nodes[k]?.map Node.ended else x.nodes[k]?).map (y.released k) := by
  simp only [Draft.nodeEnded, List.getElem?_map, List.getElem?_zipIdx, List.getElem?_modify]
  cases x.nodes[k]? with
  | none => simp
  | some z =>
    by_cases hk : n = k
    · subst hk; simp
    · simp [hk, Ne.symm hk]

/-- A node that is not done is not done when another ends. -/
theorem Node.released_isDone (y : Node) (k : Nat) (z : Node) : (y.released k z).isDone = z.isDone := by
  rw [Node.released_eq]
  rfl

/-- With a node open a draft has not ended. -/
theorem Draft.not_ended {x : Draft} {k : Nat} {z : Node} (hf : x.failed = false) (hk : x.nodes[k]? = some z) (hz : z.isDone = false) : x.ended = false := by
  simp only [Draft.ended, hf, Bool.false_eq_true, if_false]
  exact List.all_eq_false.2 ⟨z, List.mem_of_getElem? hk, by simp [hz]⟩

/-- A step that goes on is not reported. -/
theorem State.settleStep_of_open {s : State} {p d : Nat} {x : Draft} (hx : s.draft d = some x) (he : x.ended = false)
    (hjob : (s.part p).job.step = some d ∨ ((s.part p).job.step = none ∧ (s.part p).job.ended = none)) : s.settleStep p = s := by
  rcases hjob with h | ⟨h, h0⟩
  · simp [State.settleStep, h, hx, he]
  · simp [State.settleStep, h, h0]

/-- The end of a node leaves a draft that goes on where it stands (R206). -/
theorem State.checkDraft_of_open {s : State} {d : Nat} {x : Draft} (hx : s.draft d = some x) (he : x.ended = false)
    (hjob : (s.part x.part).job.step = some d ∨ ((s.part x.part).job.step = none ∧ (s.part x.part).job.ended = none)) : s.checkDraft d = s := by
  simp [State.checkDraft, hx, he, State.settleStep_of_open hx he hjob]

theorem State.settleGuests_of_live {s : State} (h : s.retired = []) : s.settleGuests = s := by simp [State.settleGuests, h]

/-- Entries that a consumer frees leave the drafts as they are but for what is staged. -/
theorem State.freeStaged_drafts (s : State) (x : Draft) (n : Nat) :
    (∀ d k, (s.freeStaged x n).node d k = s.node d k) ∧ (∀ k, k ≠ x.id → (s.freeStaged x n).draft k = s.draft k) ∧
      ∀ y, s.draft x.id = some y → ∃ st, (s.freeStaged x n).draft x.id = some { y with staged := st } := by
  unfold State.freeStaged
  dsimp only
  split
  · exact ⟨fun _ _ => rfl, fun _ _ => rfl, fun y hy => ⟨y.staged, hy⟩⟩
  · generalize List.filter _ x.staged = done
    have hk := State.keeps_fold (fs := [.mem]) (fun s st => State.release_keeps s x.part (Prod.snd st))
      (s.setDraft x.id (fun x => { x with staged := x.staged.filter (fun st => !done.contains st) })) done
    have hd := hk .drafts (by decide)
    have hset := fun k => State.setDraft_draft s x.id k (fun x => { x with staged := x.staged.filter (fun st => !done.contains st) }) (fun _ => rfl)
    refine ⟨fun d k => ?_, fun k hne => ?_, fun y hy => ⟨y.staged.filter (fun st => !done.contains st), ?_⟩⟩
    · rw [State.node_of_drafts hd, State.node, State.node, hset]
      split
      · next h => rw [h]; cases s.draft x.id <;> rfl
      · rfl
    · rw [State.draft_of_drafts hd, hset, if_neg hne]
    · rw [State.draft_of_drafts hd, hset, if_pos rfl, hy]
      rfl

/-- The state as the end of a node with OK leaves it, but for what waits for the node. -/
def State.nodeFreed (s : State) (x : Draft) (n : Nat) (y : Node) : State :=
  ((y.pins.foldl (fun s e => s.pin x.part e false) (s.freeLooms x.id n)).setDraft x.id (Draft.nodeEnded n y)).freeStaged x n

theorem State.nodeFreed_keeps (s : State) (x : Draft) (n : Nat) (y : Node) : (s.freeLooms x.id n).keeps (s.nodeFreed x n y) [.mem, .drafts] :=
  State.keeps_step (State.keeps_step (State.keeps_mono (State.keeps_fold (fs := [.mem]) (fun s e => s.pin_keeps _ _ _) _ _) (by decide))
    (State.setDraft_keeps _ _ _)) (State.freeStaged_keeps _ _ _)

theorem State.nodeFreed_keeps_of (s : State) (x : Draft) (n : Nat) (y : Node) : s.keeps (s.nodeFreed x n y) [.mem, .drafts, .looms] :=
  State.keeps_step (State.keeps_mono (s.keeps_looms _) (by decide)) (s.nodeFreed_keeps x n y)

theorem State.nodeFreed_draft {s : State} {x : Draft} (n : Nat) (y : Node) (hx : s.draft x.id = some x) :
    (∃ st, (s.nodeFreed x n y).draft x.id = some { x.nodeEnded n y with staged := st }) ∧
    (∀ k, (s.nodeFreed x n y).node x.id k = (if k = n then (s.node x.id k).map Node.ended else s.node x.id k).map (y.released k)) ∧
    ∀ k, k ≠ x.id → (s.nodeFreed x n y).draft k = s.draft k := by
  have hpins : s.keeps (y.pins.foldl (fun s e => s.pin x.part e false) (s.freeLooms x.id n)) [.mem, .looms] :=
    State.keeps_step (State.keeps_mono (s.keeps_looms _) (by decide)) (State.keeps_fold (fs := [.mem]) (fun s e => s.pin_keeps _ _ _) _ _)
  unfold State.nodeFreed
  generalize y.pins.foldl (fun s e => s.pin x.part e false) (s.freeLooms x.id n) = u at hpins
  have hud : ∀ k, (u.setDraft x.id (Draft.nodeEnded n y)).draft k = if k = x.id then some (x.nodeEnded n y) else s.draft k := by
    intro k
    rw [State.setDraft_draft u x.id k (Draft.nodeEnded n y) (fun _ => rfl), State.draft_of_drafts (hpins .drafts (by decide)),
      State.draft_of_drafts (hpins .drafts (by decide)), hx]
    rfl
  obtain ⟨hnode, hother, hstaged⟩ := State.freeStaged_drafts (u.setDraft x.id (Draft.nodeEnded n y)) x n
  refine ⟨hstaged _ ((hud x.id).trans (if_pos rfl)), fun k => ?_, fun k hk => (hother k hk).trans ((hud k).trans (if_neg hk))⟩
  refine (hnode x.id k).trans ?_
  rw [State.node, hud, if_pos rfl, Option.bind_some, Draft.nodeEnded_node, State.node, hx]
  rfl

/-- A running node ends with OK: what waits for it learns of it, and its draft may end. -/
theorem State.closeNode_ok {s : State} {x : Draft} {n : Nat} {y : Node} (hx : s.draft x.id = some x) (hy : s.node x.id n = some y)
    (hst : y.st = .running) :
    ∃ z : Part, z.job = ((s.nodeFreed x n y).part x.part).job ∧
      s.closeNode x.id n stOK = (((s.nodeFreed x n y).setPart x.part z).settleGuests).checkDraft x.id := by
  have hdone : y.isDone = false := by simp [Node.isDone, hst]
  have hbad : s.fails x.part y stOK = false := by simp [State.fails, failing, stOK]
  refine ⟨{ (s.nodeFreed x n y).part x.part with streams := ((s.nodeFreed x n y).part x.part).streams.map (fun st =>
    if st.draft = x.id ∧ !st.gather ∧ st.lastNode = n then { st with lastDone := true } else st) }, rfl, ?_⟩
  simp only [State.closeNode, hx, hy, hdone, hbad, Bool.false_eq_true, if_false]
  rfl

/-- What the end of a node with OK leaves: the node done without pins, its looms free, its successors with a predecessor less; other drafts, other looms
and the rest stay. -/
def State.nodeEnds (s t : State) (d n : Nat) (y : Node) : Prop :=
  (∀ k, t.node d k = (if k = n then (s.node d k).map Node.ended else s.node d k).map (y.released k)) ∧
  (∀ k, k ≠ d → t.draft k = s.draft k) ∧ (∀ l, t.loom l = (s.loom l).freed d n) ∧ s.keeps t [.mem, .drafts, .looms, .parts]

/-- A node ends with OK while its draft goes on, and the module has lost no loom. -/
theorem State.closeNode_ends {s : State} {x : Draft} {n : Nat} {y : Node} (hx : s.draft x.id = some x) (hy : s.node x.id n = some y) (hst : y.st = .running)
    (hret : s.retired = []) (hf : x.failed = false) (hopen : ∃ k z, k ≠ n ∧ x.nodes[k]? = some z ∧ z.isDone = false)
    (hjob : (s.part x.part).job.step = some x.id ∨ ((s.part x.part).job.step = none ∧ (s.part x.part).job.ended = none)) :
    s.nodeEnds (s.closeNode x.id n stOK) x.id n y := by
  obtain ⟨z, hzjob, hclose⟩ := State.closeNode_ok hx hy hst
  obtain ⟨⟨st, hdraft⟩, hnode, hother⟩ := State.nodeFreed_draft n y hx
  have hk := s.nodeFreed_keeps_of x n y
  have hguests : ((s.nodeFreed x n y).setPart x.part z).settleGuests = (s.nodeFreed x n y).setPart x.part z :=
    State.settleGuests_of_live ((hk .retired (by decide)).trans hret)
  have hgoes : ({ x.nodeEnded n y with staged := st } : Draft).ended = false := by
    obtain ⟨k, w, hkn, hw, hwd⟩ := hopen
    have hnodes : (x.nodeEnded n y).nodes[k]? = some (y.released k w) := by rw [Draft.nodeEnded_node, if_neg hkn, hw]; rfl
    exact Draft.not_ended (by simp [Draft.nodeEnded, hf]) hnodes ((Node.released_isDone y k w).trans hwd)
  have hpart : (((s.nodeFreed x n y).setPart x.part z).part x.part).job = (s.part x.part).job := by
    rw [State.setPart_part_same, hzjob, State.part_of_keeps hk (by decide)]
  rw [← hpart] at hjob
  rw [hclose, hguests, State.checkDraft_of_open (s := (s.nodeFreed x n y).setPart x.part z) (x := { x.nodeEnded n y with staged := st }) hdraft hgoes hjob]
  refine ⟨hnode, hother, fun l => ?_, State.keeps_step (State.keeps_mono hk (by decide)) (State.setPart_keeps _ _ _)⟩
  have hlooms : (s.nodeFreed x n y).looms = (s.freeLooms x.id n).looms := (s.nodeFreed_keeps x n y) .looms (by decide)
  exact (congrArg (tget ({} : Loom) · l) hlooms).trans (s.freeLooms_loom x.id n l)

/-- NODE_COMPLETE of a running COPY, BARRIER, SIGNAL or HOST_WAIT node with nothing left to do ends it with OK. -/
theorem nodeComplete_ends {s : State} {d n : Nat} {x : Draft} {y : Node} (hx : s.draft d = some x) (hy : s.node d n = some y) (hm : s.mates = [])
    (hkind : y.kind = 3 ∨ y.kind = 8 ∨ y.kind = 9 ∨ y.kind = 0xA) (hst : y.st = .running) (hruns : s.runs x.part = true) (hw : y.worked = true)
    (hacks : y.acks = 0) (hf : y.failing = none) : nodeComplete s d n = s.closeNode d n stOK := by
  have hmates : s.matesSettled (.node d n) = true := by simp [State.matesSettled, State.matesOf, hm, State.settled, hy, hw, hacks]
  have hend : s.endWorked d n y = s.closeNode d n stOK := by
    simp [State.endWorked, hw, hacks, hmates, State.endNode, hy, hf]
  rcases hkind with h | h | h | h <;> simp [nodeComplete, hx, hy, hst, hruns, hw, hf, h, hend]

-- ## A shuttle takes a descriptor (R252, R254)

theorem State.serve_keeps (s : State) (k p : Nat) : s.keeps (s.serve k p) [.served] := by
  intro f hf
  cases f <;> simp_all [Field.same, State.rd, State.serve]

theorem State.selvageWaits_of_idle {s : State} (h : s.shuttles = []) : s.selvageWaits = [] := by
  have hq : ∀ k, s.liveQueue k = [] := fun k => by simp [State.liveQueue, h, tget]
  simp [State.selvageWaits, State.nextAt, hq]

/-- With nothing queued at a shuttle, a descriptor that can be read and whose controllers serve is run. -/
theorem shuttleRequest_runs {s : State} {p a : Nat} {desc : List Byte} (hp : p < 16) (hdis : s.dispatches p = true) (ha : a % 64 = 0)
    (hfetch : s.fetch (partCtx p) a 64 = some desc) (hsh : s.shuttles = []) (hu : s.tdOpen (descSrc desc) = true) (hv : s.tdOpen (descDst desc) = true) :
    shuttleRequest s p a .outside = ((s.serve 0 p).shuttleRun (partCtx p) .outside p desc).1 := by
  simp [shuttleRequest, State.selvageWaits_of_idle hsh, Nat.not_le.2 hp, hdis, ha, State.hasTurn, roundRobin, State.block, hfetch, hu, hv]

/-- Settles O46: the dispatch of a node that is not ready, a COPY, a BARRIER and a loom task; the end of a node; a shuttle's copy. -/
theorem nodesAreDispatchedAndEnd : Obligations.NodesAreDispatchedAndEnd := by
  refine ⟨?_, ?_, ?_⟩
  · intro s d n x y hx hy hd
    have hexec : exec (.nodeDispatch d n) s = finishDeferred (nodeDispatch s d n) := rfl
    refine ⟨fun hr => ?_, fun hdis hr ho ha hw hres hb hst => ⟨?_, ?_, ?_⟩⟩
    · rw [hexec, nodeDispatch_not_ready hx hy hr, finishDeferred_of_none hd, finish_next]
    · intro hkind harg hok hrows hmx hl hsp hread
      have hway := s.bubbleInWay_of_offLooms x (y := y) (by simp [Node.onLooms, hkind])
      obtain ⟨hnode, honly, hk⟩ := State.dispatchCopy_runs hx hy harg hok hrows hmx hl hsp hread
      rw [nodeDispatch_goes hx hy hdis hr ho ha hw hres hb hst hway, State.dispatchKind, hkind] at hexec
      obtain ⟨hnext, ⟨hpins, hon⟩, hkeeps⟩ := State.gives_of_pinned hexec hd hk hnode honly
      exact ⟨_, hnext, hpins, hon.1, hon.2, hkeeps⟩
    · intro hkind harg
      have hway := s.bubbleInWay_of_offLooms x (y := y) (by simp [Node.onLooms, hkind])
      obtain ⟨hnode, honly, hk⟩ := State.dispatchBarrier_runs hx hy harg
      rw [nodeDispatch_goes hx hy hdis hr ho ha hw hres hb hst hway, State.dispatchKind, hkind] at hexec
      obtain ⟨hnext, ⟨hpins, hon⟩, hkeeps⟩ := State.gives_of_pinned hexec hd hk hnode honly
      exact ⟨_, hnext, hpins, hon.1, hon.2, hkeeps⟩
    · intro l k i hkind hl hvac hfree htab halt himg hid hepi hmode
      have hway := State.bubbleInWay_of_free hl hfree
      obtain ⟨z, hlooms, hznode, hzrun⟩ := State.dispatchLooms_runs hx hy hkind hl hvac hfree htab halt himg hid hepi hmode
      rw [nodeDispatch_goes hx hy hdis hr ho ha hw hres hb hst hway, State.dispatchKind, hkind] at hexec
      simp only [hlooms] at hexec
      have hk : s.keeps ((s.setLoom l z).setNode d n (fun y => { y with st := .running })) [.mem, .drafts, .looms] :=
        State.keeps_step (State.keeps_mono (s.setLoom_keeps _ _) (by decide)) (State.setDraft_keeps _ _ _)
      have hnode := State.setNode_node_same (s := s.setLoom l z) (fun y => { y with st := .running }) hy
      have honly : s.onlyNode ((s.setLoom l z).setNode d n (fun y => { y with st := .running })) d n := (s.setLoom l z).setNode_onlyNode d n _
      obtain ⟨hnext, ⟨hpins, hon⟩, hkeeps⟩ := State.gives_of_pinned hexec hd hk hnode honly
      have hloom : ∀ m, (((s.setLoom l z).setNode d n (fun y => { y with st := .running })).pinNode d n).loom m = if m = l then z else s.loom m := by
        intro m
        have hpk := (((s.setLoom l z).setNode d n (fun y => { y with st := .running })).pinNode_keeps d n) .looms (by decide)
        exact (congrArg (tget ({} : Loom) · m) hpk).trans (s.setLoom_loom l m z)
      refine ⟨_, hnext, hpins, ?_, ?_, fun m hm => ?_, hon.2, hkeeps⟩
      · exact (congrArg Loom.node ((hloom l).trans (if_pos rfl))).trans hznode
      · exact (congrArg Loom.run ((hloom l).trans (if_pos rfl))).trans hzrun
      · exact (hloom m).trans (if_neg hm)
  · intro s d n x y hx hy hd hret hm hkind hst hruns hw hacks hf hxf hopen hjob
    obtain rfl := State.draft_id hx
    have hexec : exec (.nodeComplete x.id n) s = finishDeferred (nodeComplete s x.id n) := rfl
    rw [nodeComplete_ends hx hy hm hkind hst hruns hw hacks hf] at hexec
    obtain ⟨hnode, hother, hloom, hk⟩ := State.closeNode_ends hx hy hst hret hxf hopen hjob
    refine State.gives_of_finishDeferred hexec (State.deferred_of_keeps hk (by decide) hd) ⟨?_, fun k z hkn hz => ?_, hother, fun l hl => ?_, fun l hl => ?_,
      State.keeps_settled hk⟩
    · refine ⟨y.released n y.ended, (hnode n).trans (by rw [if_pos rfl, hy]; rfl), ?_⟩
      rw [Node.released_eq]
      exact ⟨rfl, rfl, rfl⟩
    · refine (hnode k).trans ?_
      rw [if_neg hkn, hz, Option.map_some, Node.released_eq]
    · exact (hloom l).trans (if_neg hl)
    · refine (congrArg Loom.node (hloom l)).trans ?_
      rw [Loom.freed, if_pos hl, Loom.release_node]
  · rintro s p a n desc u v hp hdis hd ha hfetch hok hop rfl rfl hrows hmx rfl hflips hpoison hcorrupt harmed hsh hu hv hlu hlv hsu hsv heu hev hread hwrite -
    have hplain : (s.serve 0 p).PlainRow (partCtx p) desc :=
      ⟨rfl, hok, hop, hrows, hmx, hflips, ⟨hpoison, hcorrupt, harmed⟩, hlu, hlv, hsu, hsv, heu, hev, hread, hwrite⟩
    obtain ⟨t, hrun, hk, hin, hout⟩ := hplain.shuttleRun_copies .outside p
    have hexec : exec (.shuttleRequest p a .outside) s = finishDeferred (shuttleRequest s p a .outside) := rfl
    rw [shuttleRequest_runs hp hdis ha hfetch hsh hu hv, hrun] at hexec
    have hkeeps : s.keeps t [.mem, .memCtl, .draws, .served] := State.keeps_step (State.keeps_mono (s.serve_keeps 0 p) (by decide)) hk
    exact State.gives_of_finishDeferred hexec (State.deferred_of_keeps hkeeps (by decide) hd) 
      ⟨fun i hi => (settle_rd _ _).trans (hin i hi), fun k hk => (settle_rd _ _).trans (hout k hk), State.keeps_settled hkeeps⟩

end Sys2Proof.Machine
end

section
/-!
PROOFS. The lead of a prefetch schedule, and one prefetch entry taken by the selvage shuttles (O47).
-/

namespace Sys2Proof.Machine

-- ## The lead (R262)

/-- The lead's update at the end of an interval: lowered after a raise without gain, lowered after evictions, raised, or left. -/
def Slot.leadNext (x : Slot) (stall ev : Nat) : Slot :=
  if (match x.prevS with | some v => decide (7 * v ≤ 8 * stall) | none => false) then { x with lead := max x.leadMin (x.lead - 1), prevS := none, noRaise := 8 }
  else if 0 < ev ∧ x.leadMin < x.lead then { x with lead := x.lead - 1, prevS := none, noRaise := x.noRaise - 1 }
  else if x.stallHi < stall ∧ x.lead < x.leadMax ∧ x.noRaise = 0 then { x with lead := x.lead + 1, prevS := some stall, noRaise := x.noRaise - 1 }
  else { x with noRaise := x.noRaise - 1 }

/-- A slot whose interval begins again. -/
def Slot.intervalBegun (x : Slot) (evictions : Nat) : Slot := { x with picks := 0, evBase := evictions }

theorem leadUpdate_ends {s : State} {p k stall : Nat} {x : Slot} (hx : x = tget {} (s.part p).slots k) (hs : x.schedule ≠ []) (hi : x.interval ≤ x.picks) :
    leadUpdate s p k stall = s.setPart p { s.part p with
      slots := tset {} (s.part p).slots k
        ((x.leadNext stall ((s.part p).pool.stagingEvictions - x.evBase)).intervalBegun (s.part p).pool.stagingEvictions) } := by
  subst hx
  have hgo : ¬ ((tget {} (s.part p).slots k).schedule.isEmpty = true ∨ (tget {} (s.part p).slots k).picks < (tget {} (s.part p).slots k).interval) := by
    simp only [List.isEmpty_iff, not_or]
    exact ⟨hs, by omega⟩
  rw [leadUpdate, if_neg hgo]
  rfl

/-- A raise that brought no eighth less stall is undone (R262). -/
theorem Slot.leadNext_undone {x : Slot} {stall ev : Nat} (h : ∃ v, x.prevS = some v ∧ 7 * v ≤ 8 * stall) :
    x.leadNext stall ev = { x with lead := max x.leadMin (x.lead - 1), prevS := none, noRaise := 8 } := by
  obtain ⟨v, hv, hle⟩ := h
  simp [Slot.leadNext, hv, hle]

theorem Slot.leadNext_kept {x : Slot} {stall ev : Nat} (h : ∀ v, x.prevS = some v → 8 * stall < 7 * v) :
    x.leadNext stall ev =
      if 0 < ev ∧ x.leadMin < x.lead then { x with lead := x.lead - 1, prevS := none, noRaise := x.noRaise - 1 }
      else if x.stallHi < stall ∧ x.lead < x.leadMax ∧ x.noRaise = 0 then { x with lead := x.lead + 1, prevS := some stall, noRaise := x.noRaise - 1 }
      else { x with noRaise := x.noRaise - 1 } := by
  have hno : (match x.prevS with | some v => decide (7 * v ≤ 8 * stall) | none => false) = false := by
    split
    · next v hv => simpa using h v hv
    · rfl
  rw [Slot.leadNext, hno, if_neg Bool.false_ne_true]

/-- The four cases of an interval's end. -/
theorem Slot.leadNext_cases {x y : Slot} {stall ev : Nat}
    (hundo : (∃ v, x.prevS = some v ∧ 7 * v ≤ 8 * stall) → y = { x with lead := max x.leadMin (x.lead - 1), prevS := none, noRaise := 8 })
    (hlower : (∀ v, x.prevS = some v → 8 * stall < 7 * v) → 0 < ev → x.leadMin < x.lead →
      y = { x with lead := x.lead - 1, prevS := none, noRaise := x.noRaise - 1 })
    (hraise : (∀ v, x.prevS = some v → 8 * stall < 7 * v) → (ev = 0 ∨ x.lead ≤ x.leadMin) → x.stallHi < stall → x.lead < x.leadMax → x.noRaise = 0 →
      y = { x with lead := x.lead + 1, prevS := some stall, noRaise := x.noRaise - 1 })
    (hstay : (∀ v, x.prevS = some v → 8 * stall < 7 * v) → (ev = 0 ∨ x.lead ≤ x.leadMin) →
      (stall ≤ x.stallHi ∨ x.leadMax ≤ x.lead ∨ x.noRaise ≠ 0) → y = { x with noRaise := x.noRaise - 1 }) :
    x.leadNext stall ev = y := by
  by_cases hu : ∃ v, x.prevS = some v ∧ 7 * v ≤ 8 * stall
  · rw [Slot.leadNext_undone hu, hundo hu]
  · have hkept : ∀ v, x.prevS = some v → 8 * stall < 7 * v := fun v hv => by
      by_contra hle
      exact hu ⟨v, hv, by omega⟩
    rw [Slot.leadNext_kept hkept]
    split
    · next h => rw [hlower hkept h.1 h.2]
    · next h =>
      have hno : ev = 0 ∨ x.lead ≤ x.leadMin := by omega
      split
      · next h2 => rw [hraise hkept hno h2.1 h2.2.1 h2.2.2]
      · next h2 => rw [hstay hkept hno (by omega)]

-- ## Queues that hold one request (R252, R256)

theorem mem_of_mem_tset {α : Type} [DecidableEq α] {d v : α} {l : List (Nat × α)} {k : Nat} {z : Nat × α} (h : z ∈ tset d l k v) : z = (k, v) ∨ z ∈ l := by
  unfold tset at h
  split at h
  · exact .inr ((mem_terase l k z).1 h).1
  · rcases (mem_tinsert k v _ z).1 h with h | h
    · exact .inl h
    · exact .inr ((mem_terase l k z).1 h).1

/-- A key that stands in a table reads one of the table's values. -/
theorem tget_of_key {α : Type} (d : α) {l : List (Nat × α)} {k : Nat} (h : ∃ z ∈ l, z.1 = k) : ∃ z ∈ l, tget d l k = z.2 := by
  induction l with
  | nil => simp at h
  | cons y l ih =>
    by_cases hy : y.1 = k
    · exact ⟨y, List.mem_cons_self .., by simp [tget, hy]⟩
    · obtain ⟨z, hz, hzk⟩ := h
      rcases List.mem_cons.1 hz with rfl | hz
      · exact absurd hzk hy
      · obtain ⟨w, hw, hwk⟩ := ih ⟨z, hz, hzk⟩
        exact ⟨w, List.mem_cons_of_mem _ hw, by simp [tget, hy, hwk]⟩

/-- Every queue of a list of queues holds one part, of one request of partition `p`. -/
def oneRequest (iss : Issuer) (p : Nat) (q : List (Nat × List ShPart)) : Prop := ∀ z ∈ q, ∃ y : ShPart, z.2 = [y] ∧ y.issuers = [iss] ∧ y.part = p

theorem shuttlePart_of (iss : Issuer) (p : Nat) (d : List Byte) (lo n : Nat) :
    (shuttlePart iss p d lo n).issuers = [iss] ∧ (shuttlePart iss p d lo n).part = p := by
  unfold shuttlePart
  split <;> exact ⟨rfl, rfl⟩

/-- Parts that join empty queues of their own stand there alone. -/
theorem State.joinQueues_alone (iss : Issuer) (p : Nat) (d : List Byte) (l : List (Nat × Nat × Nat)) (hl : (l.map Prod.fst).Nodup) :
    ∀ s : State, oneRequest iss p s.shuttles → (∀ x ∈ l, tget [] s.shuttles x.1 = []) →
      ∃ q, l.foldl (fun s x => s.joinQueue x.1 (shuttlePart iss p d x.2.1 x.2.2)) s = { s with shuttles := q } ∧ oneRequest iss p q := by
  induction l with
  | nil => exact fun s h _ => ⟨s.shuttles, rfl, h⟩
  | cons x l ih =>
    intro s hs hx
    obtain ⟨hne, hnd⟩ := List.nodup_cons.1 hl
    have hjoin : s.joinQueue x.1 (shuttlePart iss p d x.2.1 x.2.2) =
        { s with shuttles := tset [] s.shuttles x.1 [shuttlePart iss p d x.2.1 x.2.2] } := by
      simp [State.joinQueue, State.liveQueue, hx x (List.mem_cons_self ..)]
    have hone : oneRequest iss p (tset [] s.shuttles x.1 [shuttlePart iss p d x.2.1 x.2.2]) := by
      intro z hz
      rcases mem_of_mem_tset hz with rfl | hz
      · exact ⟨_, rfl, shuttlePart_of iss p d x.2.1 x.2.2⟩
      · exact hs z hz
    rw [List.foldl_cons, hjoin]
    obtain ⟨q, hq, hqone⟩ := ih hnd { s with shuttles := tset [] s.shuttles x.1 [shuttlePart iss p d x.2.1 x.2.2] } hone (fun y hy => by
      have hyx : y.1 ≠ x.1 := fun h => hne (h ▸ List.mem_map_of_mem hy)
      exact (tget_tset_ne [] [shuttlePart iss p d x.2.1 x.2.2] s.shuttles hyx).trans (hx y (List.mem_cons_of_mem _ hy)))
    exact ⟨q, hq, hqone⟩

theorem shuttlesOf_selvage_nodup (p : Nat) : (shuttlesOf p 0).Nodup := by
  simpa [shuttlesOf] using List.nodup_range

/-- A request for the selvage shuttles, with nothing queued, stands alone in its queues. -/
theorem State.enqueue_alone {s : State} (hs : s.shuttles = []) (iss : Issuer) (p : Nat) (d : List Byte) :
    ∃ q, s.enqueue iss p 0 d = { s with shuttles := q } ∧ oneRequest iss p q := by
  refine State.joinQueues_alone iss p d _ ?_ s (by simp [oneRequest, hs]) (fun x _ => by simp [hs, tget])
  refine List.Nodup.sublist (List.filter_sublist.map _) ?_
  rw [List.map_fst_zip (by simp [splitParts])]
  exact shuttlesOf_selvage_nodup p

-- ## A prefetch entry (R260, R261)

section
variable {s : State} {d i : Nat} {x : Draft} {q : List (Nat × List ShPart)} (hx : s.draft d = some x) (hfetched : ∀ f ∈ x.fetched, f.1 ≠ i)
  (hworked : i ∉ x.fetchWorked)
include hx hfetched hworked

theorem State.asks_fetch : s.asks (.fetch d i) = true := by
  have hany : x.fetched.any (fun f => f.1 == i) = false := by simpa using hfetched
  have hno : x.fetchWorked.contains i = false := by simpa using hworked
  simp only [State.asks, hx, hany, hno]
  rfl

/-- Where only the entry's request is queued, it is what each queue that holds it takes next for its partition, and no other partition waits. -/
theorem State.nextAt_of_oneRequest {p : Nat} (hs : oneRequest (.fetch d i) p s.shuttles) (r k : Nat) :
    s.nextAt r k = if r = p ∧ ∃ z ∈ s.shuttles, z.1 = k then some (.fetch d i) else none := by
  by_cases hk : ∃ z ∈ s.shuttles, z.1 = k
  · obtain ⟨z, hz, hget⟩ := tget_of_key [] hk
    obtain ⟨y, hy, hiss, hpart⟩ := hs z hz
    have hlive : s.liveQueue k = [{ y with issuers := [.fetch d i], copy := y.copy && true }] := by
      simp [State.liveQueue, hget, hy, hiss, State.asks_fetch hx hfetched hworked]
    by_cases hr : r = p
    · rw [if_pos ⟨hr, hk⟩, State.nextAt, hlive]
      simp [hpart, hr]
    · rw [if_neg (fun h => hr h.1), State.nextAt, hlive]
      simp [hpart, Ne.symm hr]
  · rw [if_neg (fun h => hk h.2)]
    have hget : tget [] s.shuttles k = [] := by
      have : ∀ l : List (Nat × List ShPart), (¬ ∃ z ∈ l, z.1 = k) → tget [] l k = [] := by
        intro l
        induction l with
        | nil => exact fun _ => rfl
        | cons y l ih =>
          intro h
          have hy : y.1 ≠ k := fun hy => h ⟨y, List.mem_cons_self .., hy⟩
          simpa [tget, hy] using ih (fun ⟨z, hz, hzk⟩ => h ⟨z, List.mem_cons_of_mem _ hz, hzk⟩)
      exact this _ hk
    simp [State.nextAt, State.liveQueue, hget]

/-- The entry's request has its turn at the selvage shuttles. -/
theorem State.mayTake_of_oneRequest (hs : oneRequest (.fetch d i) x.part s.shuttles) (ht : s.takeable (.fetch d i) = true) :
    s.mayTake x.part (.fetch d i) = true := by
  have hnext := State.nextAt_of_oneRequest hx hfetched hworked hs
  have hall : (s.queuesOf (.fetch d i)).all (fun k => s.nextAt x.part k == some (.fetch d i)) = true := by
    rw [List.all_eq_true]
    intro k hk
    obtain ⟨z, hz, rfl⟩ := List.mem_map.1 hk
    rw [hnext, if_pos ⟨rfl, z, List.mem_of_mem_filter hz, rfl⟩]
    exact beq_self_eq_true _
  have hwaits : ∀ r ∈ s.selvageWaits, r = x.part := by
    intro r hr
    obtain ⟨-, hany⟩ := List.mem_filter.1 hr
    obtain ⟨k, -, hk⟩ := List.any_eq_true.1 hany
    rw [hnext] at hk
    by_contra hne
    simp [hne] at hk
  have hturn : s.hasTurn 0 x.part s.selvageWaits = true := by
    rw [State.hasTurn, roundRobin, List.all_eq_true]
    intro r hr
    rw [hwaits r hr]
    exact decide_eq_true (le_refl _)
  simp only [State.mayTake, State.nextRequest, hall, ht, hturn, Bool.or_true, Bool.and_self]

end

end Sys2Proof.Machine
end

section
/-!
PROOFS. A prefetch entry issued inside the window (O47).
-/

namespace Sys2Proof.Machine

/-- A draft that has issued an entry. -/
def Draft.issues (i : Nat) (x : Draft) : Draft := { x with issued := x.issued ++ [i] }

/-- A draft of which a shuttle has moved an entry's bytes. -/
def Draft.moves (i : Nat) (x : Draft) : Draft := { x with fetchWorked := x.fetchWorked ++ [i] }

/-- A draft of which an entry has ended OK. -/
def Draft.fetchedOk (i : Nat) (x : Draft) : Draft := { x with fetched := x.fetched ++ [(i, stOK)] }

theorem firstIdx_of_first {n i : Nat} {f : Nat → Bool} (hi : i < n) (hf : f i = true) (hlt : ∀ j, j < i → f j = false) : firstIdx n f = some i := by
  rw [firstIdx, List.find?_range_eq_some]
  exact ⟨hf, List.mem_range.2 hi, fun j hj => by simp [hlt j hj]⟩

section
variable {s : State} {d k i : Nat} {x : Draft} {es : List (List Byte)} {b : List Byte} (hx : s.draft d = some x) (hk : x.slot = some k)
  (hes : es = (tget {} (s.part x.part).slots k).schedule.drop 1) (hb : es[i]? = some b) (hi : i ∉ x.issued) (hlt : ∀ j, j < i → j ∈ x.issued)
include hx hk hes hb hi hlt

/-- The entry that PREFETCH_ISSUE takes is the first not issued. -/
theorem prefetchIssue_takes : prefetchIssue s d =
    if !s.dispatches x.part ∨ x.failed ∨
      (decide (openEntry x es + s.leadOf x.part k ≤ i) ∧ !(s.starved x && x.issued.all (fun j => x.fetched.any (fun f => f.1 == j)))) then s
    else s.runPfEntry x i b := by
  have hlen : i < es.length := (List.getElem?_eq_some_iff.1 hb).1
  have hfirst : firstIdx es.length (fun i => !x.issued.contains i) = some i :=
    firstIdx_of_first hlen (by simpa using hi) (fun j hj => by simpa using hlt j hj)
  simp only [prefetchIssue, hx, hk, ← hes, hfirst, Option.getD_some, hb]

/-- Past the window a draft that does not starve waits (R261). -/
theorem prefetchIssue_past (hp : openEntry x es + s.leadOf x.part k ≤ i) (hst : s.starved x = false) : prefetchIssue s d = s := by
  rw [prefetchIssue_takes hx hk hes hb hi hlt]
  simp [hp, hst]

theorem prefetchIssue_runs (hd : s.dispatches x.part = true) (hf : x.failed = false) (hp : i < openEntry x es + s.leadOf x.part k) :
    prefetchIssue s d = s.runPfEntry x i b := by
  rw [prefetchIssue_takes hx hk hes hb hi hlt]
  simp [hd, hf, Nat.not_le.2 hp]

end

theorem State.runs_of_dispatches {s : State} {p : Nat} (h : s.dispatches p = true) : s.runs p = true := by
  simp only [State.dispatches, Bool.and_eq_true, beq_iff_eq] at h
  simp [State.runs, h.1.1, h.1.2]

section
variable {s : State} {d k i : Nat} {x : Draft} {b desc : List Byte} (hx : s.draft d = some x) (hk : x.slot = some k)
  (hb : (tget {} (s.part x.part).slots k).schedule[i + 1]? = some b) (hfetch : s.fetch (fetchCtx x) (le b 8 8) 64 = some desc)
  (hstaged : ∀ z ∈ x.staged, z.1 ≠ i)
include hk hb hfetch hstaged

/-- The descriptor of an entry that is not staged, as it stands. -/
theorem State.pfDesc_of_unstaged : s.pfDesc x i = some desc := by
  have hno : x.staged.find? (fun z => z.1 == i) = none := by simpa using hstaged
  simp [State.pfDesc, State.pfEntry, hk, hb, State.block, hfetch, hno]

include hx in
/-- An entry that has been issued is taken where the controllers of its ranges serve. -/
theorem State.takeable_fetch (hasks : s.asks (.fetch d i) = true) (hi : i ∈ x.issued) (hacks : tget 0 x.fetchAcks i = 0)
    (hruns : s.runs x.part = true) (hu : s.tdOpen (descSrc desc) = true) (hv : s.tdOpen (descDst desc) = true) : s.takeable (.fetch d i) = true := by
  simp [State.takeable, hx, hasks, hi, hacks, hruns, State.pfDesc_of_unstaged hk hb hfetch hstaged, hu, hv]

end

/-- A plain copy reads as many rows as it writes. -/
theorem State.PlainRow.srcRows {s : State} {c : Ctx} {desc : List Byte} (h : s.PlainRow c desc) : tdRows (descSrc desc) = 1 := by
  have hok := h.ok
  simp only [descOk, h.op, Bool.and_eq_true, sameExtents, List.all_eq_true, List.mem_range, beq_iff_eq, show (1 : Nat) ≠ 3 by decide, if_false] at hok
  obtain ⟨⟨-, -, hsame⟩, -⟩ := hok
  rw [tdRows, hsame 1 (by decide), hsame 2 (by decide), hsame 3 (by decide)]
  exact h.rows

theorem State.PlainRow.of_queues {s : State} {c : Ctx} {desc : List Byte} (h : s.PlainRow c desc) (ds : List Draft) (q : List (Nat × List ShPart))
    (v : List (Nat × Nat)) : State.PlainRow { s with drafts := ds, shuttles := q, served := v } c desc :=
  ⟨h.held, h.ok, h.op, h.rows, h.noScales, h.noFlips, h.clean, h.srcLocal, h.dstLocal, h.srcSpace, h.dstSpace, h.srcEnd, h.dstEnd, h.readable, h.writable⟩

/-- With nothing merged, an entry whose bytes have moved without an acknowledgement missing ends OK. -/
theorem State.finishMates_fetch {s : State} {d i : Nat} {x : Draft} (hm : s.mates = []) (hx : s.draft d = some x) (hworked : i ∈ x.fetchWorked)
    (hacks : tget 0 x.fetchAcks i = 0) (hfetched : ∀ f ∈ x.fetched, f.1 ≠ i) :
    s.finishMates (.fetch d i) = s.setDraft d (Draft.fetchedOk i) := by
  have hany : x.fetched.any (fun f => f.1 == i) = false := by simpa using hfetched
  have hmates : s.matesOf (.fetch d i) = [.fetch d i] := by simp [State.matesOf, hm]
  have hsettled : s.settled (.fetch d i) = true := by simp [State.settled, hx, hworked, hacks]
  have hend : s.fetchEnd d i stOK = s.setDraft d (Draft.fetchedOk i) := by
    simp only [State.fetchEnd, hx, hany, Bool.false_eq_true, if_false]
    rfl
  simp only [State.finishMates, State.matesSettled, hmates, List.all_cons, List.all_nil, hsettled, Bool.and_self, List.foldl_cons, List.foldl_nil, if_true,
    State.finishIssuer, hx, List.contains_iff_mem.2 hworked, hacks, true_and, hend]

theorem State.keeps_queues (s : State) (ds : List Draft) (q : List (Nat × List ShPart)) (v : List (Nat × Nat)) :
    s.keeps { s with drafts := ds, shuttles := q, served := v } [.drafts, .shuttles, .served] := by
  intro f hf
  cases f <;> simp_all [Field.same, State.rd]

section
variable {s : State} {d k i : Nat} {x : Draft} {b desc : List Byte} (hx : s.draft d = some x) (hk : x.slot = some k)
  (hb : (tget {} (s.part x.part).slots k).schedule[i + 1]? = some b) (hfetch : s.fetch (fetchCtx x) (le b 8 8) 64 = some desc)
  (hstaged : ∀ z ∈ x.staged, z.1 ≠ i) (hplain : s.PlainRow (fetchCtx x) desc) (hfetched : ∀ f ∈ x.fetched, f.1 ≠ i) (hworked : i ∉ x.fetchWorked)
  (hacks : tget 0 x.fetchAcks i = 0) (hruns : s.runs x.part = true) (hu : s.tdOpen (descSrc desc) = true)
  (hv : s.tdOpen (descDst desc) = true)
include hx hk hb hfetch hstaged hplain hfetched hworked hacks hruns hu hv

/-- The shuttles take an entry that has just joined their empty queues. -/
theorem State.shuttleTake_fetch {u : State} {q : List (Nat × List ShPart)} (hpass : s.passes u) (hq : oneRequest (.fetch d i) x.part q) :
    ∃ v, State.shuttleTake { u with drafts := (s.setDraft d (Draft.issues i)).drafts, shuttles := q } (.fetch d i) =
      (State.copyFetch { u with drafts := (s.setDraft d (Draft.issues i)).drafts, shuttles := q, served := v } (x.issues i) i).finishMates (.fetch d i) := by
  have hparts : u.parts = s.parts := by rw [hpass.1]
  generalize hw : ({ u with drafts := (s.setDraft d (Draft.issues i)).drafts, shuttles := q } : State) = w
  have hwx : w.draft d = some (x.issues i) := by
    rw [← hw]
    refine (State.setDraft_draft s d d (Draft.issues i) (fun _ => rfl)).trans ?_
    rw [if_pos rfl, hx]
    rfl
  have hwpart : w.part x.part = s.part x.part := by rw [← hw]; exact congrArg (tget ({} : Part) · x.part) hparts
  have hwfetch : w.fetch (fetchCtx x) (le b 8 8) 64 = some desc := by
    rw [← hw]
    exact (State.passes_fetch hpass hplain.clean hplain.noFlips _ _ _).trans hfetch
  have hwopen : ∀ t, w.tdOpen t = s.tdOpen t := fun t => by
    rw [← hw]
    exact State.passes_tdOpen hpass t
  have hwruns : w.runs x.part = true := by
    have hq : w.treadle = s.treadle := by rw [← hw, hpass.1]
    rw [State.runs, hwpart, hq]
    exact hruns
  have htake : w.takeable (.fetch d i) = true :=
    State.takeable_fetch (x := x.issues i) hwx hk (by rw [show (x.issues i).part = x.part from rfl, hwpart]; exact hb) hwfetch hstaged
      (State.asks_fetch (x := x.issues i) hwx hfetched hworked) (by simp [Draft.issues]) hacks hwruns ((hwopen _).trans hu) ((hwopen _).trans hv)
  have hturn : w.mayTake x.part (.fetch d i) = true :=
    State.mayTake_of_oneRequest (x := x.issues i) hwx hfetched hworked (by rw [← hw]; exact hq) htake
  have hgo : w.shuttleTake (.fetch d i) = ((if (w.queuesOf (.fetch d i)).any (fun k => decide (k < 16)) then w.serve 0 x.part else w).copyFetch (x.issues i) i).finishMates (.fetch d i) := by
    simp [State.shuttleTake, hwx, show (x.issues i).part = x.part from rfl, hturn]
  rw [hgo]
  split
  · exact ⟨_, by rw [State.serve, ← hw]⟩
  · exact ⟨u.served, by rw [← hw]⟩

omit hworked hruns hu hv in
/-- The copy of an entry that the shuttles have taken: the source's bytes stand in the destination, and the entry has ended OK. -/
theorem State.copyFetch_copies {u : State} {q : List (Nat × List ShPart)} (hm : s.mates = []) (hpass : s.passes u) (v : List (Nat × Nat)) :
    ∃ t, (State.copyFetch { u with drafts := (s.setDraft d (Draft.issues i)).drafts, shuttles := q, served := v } (x.issues i) i).finishMates (.fetch d i) = t ∧
      t.draft d = some (((x.issues i).moves i).fetchedOk i) ∧ (∀ m, m ≠ d → t.draft m = s.draft m) ∧
      s.copied t (tdBase (descSrc desc)) (tdBase (descDst desc)) (tdRowBytes (descSrc desc)) ∧ s.keeps t [.mem, .memCtl, .drafts, .draws, .shuttles, .served] := by
  obtain rfl := State.draft_id hx
  have hparts : u.parts = s.parts := by rw [hpass.1]
  have hissued : ∀ m, (s.setDraft x.id (Draft.issues i)).draft m = if m = x.id then some (x.issues i) else s.draft m := fun m => by
    rw [State.setDraft_draft s x.id m (Draft.issues i) (fun _ => rfl), hx]
    rfl
  have hwk := u.keeps_queues (s.setDraft x.id (Draft.issues i)).drafts q v
  have hplainw := (hplain.of_passes hpass).of_queues (s.setDraft x.id (Draft.issues i)).drafts q v
  have hwrd : ∀ k, State.rd { u with drafts := (s.setDraft x.id (Draft.issues i)).drafts, shuttles := q, served := v } k = s.rd k :=
    State.passes_rd (t := u) hpass
  have hwkey : ∀ sp o, State.dataKey { u with drafts := (s.setDraft x.id (Draft.issues i)).drafts, shuttles := q, served := v } sp o = s.dataKey sp o :=
    State.passes_dataKey (t := u) hpass
  have hdesc : State.pfDesc { u with drafts := (s.setDraft x.id (Draft.issues i)).drafts, shuttles := q, served := v } (x.issues i) i = some desc := by
    refine State.pfDesc_of_unstaged (x := x.issues i) hk ?_ ((State.passes_fetch hpass hplain.clean hplain.noFlips _ _ _).trans hfetch) hstaged
    exact (congrArg (fun y => (tget ({} : Slot) (tget ({} : Part) y x.part).slots k).schedule[i + 1]?) hparts).trans hb
  have hmates : (State.mates { u with drafts := (s.setDraft x.id (Draft.issues i)).drafts, shuttles := q, served := v }) = [] := by
    rw [show u.mates = s.mates by rw [hpass.1]]
    exact hm
  have hwdrafts : (State.drafts { u with drafts := (s.setDraft x.id (Draft.issues i)).drafts, shuttles := q, served := v }) =
    (s.setDraft x.id (Draft.issues i)).drafts := rfl
  generalize ({ u with drafts := (s.setDraft x.id (Draft.issues i)).drafts, shuttles := q, served := v } : State) = w at *
  obtain ⟨t, hrun, htk, hin, hout⟩ := hplainw.shuttleRun_copies (.fetch x.id i) x.part
  have htdrafts : t.drafts = (s.setDraft x.id (Draft.issues i)).drafts := (htk .drafts (by decide)).trans hwdrafts
  have htd : ∀ m, t.draft m = if m = x.id then some (x.issues i) else s.draft m := fun m => (State.draft_of_drafts htdrafts m).trans (hissued m)
  have hmoved : ∀ m, (t.setDraft x.id (Draft.moves i)).draft m = if m = x.id then some ((x.issues i).moves i) else s.draft m := fun m => by
    rw [State.setDraft_draft t x.id m (Draft.moves i) (fun _ => rfl), htd x.id, if_pos rfl]
    split
    · rfl
    · next h => rw [htd, if_neg h]
  have hcopy : w.copyFetch (x.issues i) i = t.setDraft x.id (Draft.moves i) := by
    simp only [State.copyFetch, hdesc]
    rw [show fetchCtx (x.issues i) = fetchCtx x from rfl, show (x.issues i).id = x.id from rfl, show (x.issues i).part = x.part from rfl, hrun]
    rfl
  have hfinish := State.finishMates_fetch (s := t.setDraft x.id (Draft.moves i)) (x := (x.issues i).moves i) ((htk .mates (by decide)).trans hmates)
    ((hmoved x.id).trans (if_pos rfl)) (i := i) (by simp [Draft.moves]) hacks hfetched
  have hended : ∀ m, ((t.setDraft x.id (Draft.moves i)).setDraft x.id (Draft.fetchedOk i)).draft m =
      if m = x.id then some (((x.issues i).moves i).fetchedOk i) else s.draft m := fun m => by
    rw [State.setDraft_draft (t.setDraft x.id (Draft.moves i)) x.id m (Draft.fetchedOk i) (fun _ => rfl), hmoved x.id, if_pos rfl]
    split
    · rfl
    · next h => rw [hmoved, if_neg h]
  refine ⟨_, (congrArg (State.finishMates · (.fetch x.id i)) hcopy).trans hfinish, (hended x.id).trans (if_pos rfl),
    fun m hne => (hended m).trans (if_neg hne), ⟨fun j hj => ?_, fun m hk => ?_⟩, ?_⟩
  · have := hin j hj
    rw [hwkey, hwkey, hwrd] at this
    exact this
  · refine (hout m fun j hj => ?_).trans (hwrd m)
    rw [hwkey]
    exact hk j hj
  · have h1 : s.keeps w [.memCtl, .drafts, .shuttles, .served] := State.keeps_step (State.keeps_mono (State.passes_keeps hpass) (by decide)) hwk
    have h2 : s.keeps t [.mem, .memCtl, .drafts, .draws, .shuttles, .served] := State.keeps_step (State.keeps_mono h1 (by decide)) htk
    exact State.keeps_step (State.keeps_step h2 (State.setDraft_keeps _ _ _)) (State.setDraft_keeps _ _ _)

/-- An entry whose consumer takes no staged copy, with nothing queued at the selvage shuttles, is moved and ends OK as it is issued. -/
theorem State.runPfEntry_copies (hunstaged : entryStaged b = false) (hengine : le b 16 1 = 0xFF) (hm : s.mates = []) (hsh : s.shuttles = []) :
    ∃ t, s.runPfEntry x i b = t ∧
      t.draft d = some (((x.issues i).moves i).fetchedOk i) ∧ (∀ m, m ≠ d → t.draft m = s.draft m) ∧
      s.copied t (tdBase (descSrc desc)) (tdBase (descDst desc)) (tdRowBytes (descSrc desc)) ∧ s.keeps t [.mem, .memCtl, .drafts, .draws, .shuttles, .served] := by
  obtain rfl := State.draft_id hx
  obtain ⟨u0, hbring, hpass0⟩ := State.bringTd_local (s := s.setDraft x.id (Draft.issues i)) (c := fetchCtx x) (.fetch x.id i) hplain.srcRows hplain.noScales
    hplain.srcLocal (by have := hplain.srcSpace; omega) hplain.readable
  have hpass : s.passes { s with memCtl := u0.memCtl } := ⟨rfl, hpass0.2.1, hpass0.2.2⟩
  have hu0 : u0 = { ({ s with memCtl := u0.memCtl } : State) with drafts := (s.setDraft x.id (Draft.issues i)).drafts } := hpass0.1
  obtain ⟨q, hq, hone⟩ := State.enqueue_alone (s := u0) (by rw [hu0]; exact hsh) (.fetch x.id i) x.part desc
  obtain ⟨v, htake⟩ := State.shuttleTake_fetch hx hk hb hfetch hstaged hplain hfetched hworked hacks hruns hu hv hpass hone
  obtain ⟨t, ht, hrest⟩ := State.copyFetch_copies (q := q) hx hk hb hfetch hstaged hplain hfetched hacks hm hpass v
  refine ⟨t, ?_, hrest⟩
  have hstart : (s.setDraft x.id (Draft.issues i)).startFetch x i b desc =
      State.shuttleTake { ({ s with memCtl := u0.memCtl } : State) with drafts := (s.setDraft x.id (Draft.issues i)).drafts, shuttles := q } (.fetch x.id i) := by
    simp only [State.startFetch, hplain.ok, Bool.not_true, Bool.false_eq_true, if_false, hbring, hengine, if_true, hq]
    rw [hu0]
  have hrun : s.runPfEntry x i b = (s.setDraft x.id (Draft.issues i)).startFetch x i b desc := by
    simp only [State.runPfEntry, State.block, hfetch, hunstaged, Bool.not_false, if_true]
    rfl
  rw [hrun, hstart, htake, ht]

end

end Sys2Proof.Machine
end

section
/-!
PROOFS. The boundary that begins a pick with the DRAFT_RUN step that waits for it (O47).
-/

namespace Sys2Proof.Machine

-- ## What leaves the work of a partition as it is

/-- What a partition works at: its job, its shed change, its state and its serving loops. -/
def Part.work (x : Part) : Job × Option Shed × PartState × List (Nat × Loop) := (x.job, x.shed, x.st, x.loops)

/-- Other partitions are as before, this one works at the same, and only the named components differ. -/
def State.keepsWork (s t : State) (p : Nat) (fs : List Field) : Prop :=
  s.keeps t fs ∧ (t.part p).work = (s.part p).work ∧ ∀ k, k ≠ p → t.part k = s.part k

theorem State.keepsWork_refl (s : State) (p : Nat) (fs : List Field) : s.keepsWork s p fs := ⟨s.keeps_refl fs, rfl, fun _ _ => rfl⟩

theorem State.keepsWork_trans {s t u : State} {p : Nat} {fs gs : List Field} (h1 : s.keepsWork t p fs) (h2 : t.keepsWork u p gs)
    (hs : ∀ f ∈ gs, f ∈ fs := by decide) : s.keepsWork u p fs :=
  ⟨State.keeps_step h1.1 h2.1 hs, h2.2.1.trans h1.2.1, fun k hk => (h2.2.2 k hk).trans (h1.2.2 k hk)⟩

theorem State.keepsWork_of_keeps {s t : State} {fs : List Field} (h : s.keeps t fs) (p : Nat) (hp : Field.parts ∉ fs := by decide) : s.keepsWork t p fs :=
  ⟨h, congrArg Part.work (State.part_of_keeps h hp p), fun k _ => State.part_of_keeps h hp k⟩

theorem State.keepsWork_mono {s t : State} {p : Nat} {fs gs : List Field} (h : s.keepsWork t p fs) (hs : ∀ f ∈ fs, f ∈ gs := by decide) : s.keepsWork t p gs :=
  ⟨State.keeps_mono h.1 hs, h.2⟩

theorem State.setPart_keepsWork (s : State) (p : Nat) (x : Part) (h : x.work = (s.part p).work) : s.keepsWork (s.setPart p x) p [.parts] := by
  refine ⟨s.setPart_keeps p x, ?_, fun k hk => ?_⟩
  · rw [State.setPart_part_same]
    exact h
  · rw [State.setPart_part, if_neg hk]

section
variable {s t : State} {p : Nat} {fs : List Field} (h : s.keepsWork t p fs)
include h

theorem State.keepsWork_job : (t.part p).job = (s.part p).job := congrArg Prod.fst h.2.1

theorem State.keepsWork_shed : (t.part p).shed = (s.part p).shed := congrArg (·.2.1) h.2.1

theorem State.keepsWork_st : (t.part p).st = (s.part p).st := congrArg (·.2.2.1) h.2.1

theorem State.keepsWork_loop (l : Nat) : t.loop p l = s.loop p l := 
  congrArg (fun y : Job × Option Shed × PartState × List (Nat × Loop) => tget ({} : Loop) y.2.2.2 l) h.2.1

/-- Whether a boundary is open turns on the partition's work. -/
theorem State.keepsWork_boundaryOpen (hd : Field.drafts ∉ fs) (ht : Field.treadle ∉ fs) (hb : Field.boot ∉ fs) : t.boundaryOpen p = s.boundaryOpen p := by
  have hoff : ∀ d : Draft, d.part = p → t.offJob d = s.offJob d := fun d hp => by
    have hl : ∀ l, tget ({} : Loop) (t.part d.part).loops l = tget ({} : Loop) (s.part d.part).loops l := fun l => by
      rw [hp]
      exact State.keepsWork_loop h l
    simp only [State.offJob, hl]
  have hquiet : t.quiet p = s.quiet p := by
    have hdrafts : t.drafts = s.drafts := h.1 .drafts hd
    rw [State.quiet, State.quiet, hdrafts]
    refine List.all_congr rfl (fun d => ?_)
    by_cases hp : d.part = p
    · rw [hoff d hp]
    · simp [bne_iff_ne.2 hp]
  have htreadle : t.treadle = s.treadle := h.1 .treadle ht
  have hboot : t.boot = s.boot := h.1 .boot hb
  simp only [State.boundaryOpen, State.dispatches, hquiet, State.keepsWork_job h, State.keepsWork_st h, htreadle, hboot]

end

-- ## The boundary's own work (R41, R249, R398, R426)

theorem State.publishDue_of_none {s : State} {p v : Nat} (h : ∀ y ∈ s.entries, y.part = p → y.st ≠ .boundary) : s.publishDue p v = s := by
  have hnone : s.entries.filter (fun e => e.part == p && e.opcode == 0x20 && e.st == .boundary && decide (e.effPick ≤ s.pickOf p)) = [] := by
    rw [List.filter_eq_nil_iff]
    intro y hy
    simp only [Bool.and_eq_true, beq_iff_eq, not_and, and_imp]
    exact fun hp _ hst => absurd hst (h y hy hp)
  simp [State.publishDue, hnone]

theorem State.freeVersions_of_none {s : State} {p : Nat} (h : (s.part p).job.versions = []) : s.freeVersions p = s := by simp [State.freeVersions, h]

theorem State.reclaim_keeps (s : State) (p : Nat) (which : Nat → Bool) : s.keeps (s.reclaim p which) [.mem] := by
  refine State.keeps_fold (fun s x => ?_) _ _
  split
  · exact s.clearPent_keeps _ _
  · exact s.keeps_refl _

theorem State.releaseGathered_keeps (s : State) (p : Nat) : s.keeps (s.releaseGathered p) [.mem] := by
  refine State.keeps_fold (fun s x => ?_) _ _
  split
  · exact s.release_keeps _ _
  · exact s.keeps_refl _

theorem State.forgetAdapters_keepsWork (s : State) (p : Nat) : s.keepsWork (s.forgetAdapters p) p [.parts] := by
  unfold State.forgetAdapters
  split
  · exact s.keepsWork_refl p _
  · exact s.setPart_keepsWork p _ rfl

/-- Without versions and without publications that wait, a boundary frees entries of the pool and forgets adapters. -/
theorem State.boundaryFrees_keepsWork {s : State} {p : Nat} (he : ∀ y ∈ s.entries, y.part = p → y.st ≠ .boundary) (hv : (s.part p).job.versions = []) :
    s.keepsWork (s.boundaryFrees p) p [.mem, .parts] := by
  simp only [State.boundaryFrees, State.publishDue_of_none he, State.freeVersions_of_none hv, ite_self]
  have hfrees := State.keepsWork_of_keeps (State.keeps_trans (s.reclaim_keeps p (fun c => c == 0 || decide (4 < c))) (State.releaseGathered_keeps _ p)) p
  have hforget := State.keepsWork_trans (State.keepsWork_mono hfrees (by decide)) (State.forgetAdapters_keepsWork _ p) (fs := [.mem, .parts])
  exact State.keepsWork_trans hforget (State.setPart_keepsWork _ p _ rfl)

theorem State.applyDue_of_none {s : State} {p : Nat} (h : ∀ y ∈ s.entries, y.part = p → y.st ≠ .boundary) : s.applyDue p = s := by
  have hnone : s.entries.filter (fun e => e.part == p && e.st == .boundary) = [] := by
    rw [List.filter_eq_nil_iff]
    intro y hy
    simp only [Bool.and_eq_true, beq_iff_eq, not_and]
    exact fun hp hst => h y hy hp hst
  simp [State.applyDue, State.applyWaiting, hnone]

theorem State.actHold_of_idle {s : State} (h : s.boot.phase = .idle) : s.actHold = s := by simp [State.actHold, h]

-- ## The step that takes the boundary (R206, R212, R216)

theorem State.nextDraft_of_one {s : State} {p e : Nat} {d : Draft} {x : Entry} (hds : s.drafts = [d]) (hp : d.part = p) (hb : d.begun = false)
    (hn : d.noStep = false) (hf : d.failed = false) (ha : d.acc = some e) (hx : s.entry e = some x) (he : x.effPick ≤ s.pickOf p + 1)
    (hpre : ∀ y ∈ d.nodes, y.preStep = false) : s.nextDraft p = some d := by
  have hall : d.nodes.all (fun n => !n.preStep || n.isDone) = true := List.all_eq_true.2 (fun y hy => by simp [hpre y hy])
  have hwants : s.wantsStep p d = true := by simp [State.wantsStep, hp, hb, hn, hf, hall, ha, hx, he]
  simp [State.nextDraft, hds, hwants]

theorem State.boundLoop_of_none {s : State} {p : Nat} (h : ∀ l, l < 4 → (s.loop p l).bound = false) : s.boundLoop p = none := by
  rw [State.boundLoop, firstIdx, List.find?_eq_none]
  intro l hl
  simp [h l (List.mem_range.1 hl)]

-- ## A pick begins (R58, R59, R61)

theorem State.sendTransfer_keeps (s : State) (src dst : Nat) (t : Transfer) : s.keeps (s.sendTransfer src dst t) [.channels] := s.keeps_channels _

/-- What is on its way stays on its way, and what is sent is on its way. -/
theorem State.mem_sendTransfers (src : Nat) (t : Transfer) (l : List Nat) : ∀ s : State,
    (∀ k u, u ∈ tget [] s.channels k → u ∈ tget [] (l.foldl (fun s i => s.sendTransfer src i t) s).channels k) ∧
      ∀ i ∈ l, t ∈ tget [] (l.foldl (fun s i => s.sendTransfer src i t) s).channels (256 * src + i) := by
  have hone : ∀ (s : State) dst k u, u ∈ tget [] s.channels k ∨ (k = 256 * src + dst ∧ u = t) → u ∈ tget [] (s.sendTransfer src dst t).channels k := by
    intro s dst k u h
    simp only [State.sendTransfer, tget_tset]
    rcases h with h | ⟨rfl, rfl⟩
    · split
      · next hk => exact List.mem_append_left _ (hk ▸ h)
      · exact h
    · simp
  induction l with
  | nil => exact fun s => ⟨fun _ _ h => h, fun _ h => absurd h List.not_mem_nil⟩
  | cons j l ih =>
    intro s
    obtain ⟨hold, hnew⟩ := ih (s.sendTransfer src j t)
    refine ⟨fun k u h => hold k u (hone s j k u (.inl h)), fun i hi => ?_⟩
    rcases List.mem_cons.1 hi with rfl | hi
    · exact hold _ _ (hone s i _ t (.inr ⟨rfl, rfl⟩))
    · exact hnew i hi

/-- The Heddle holds a pick, and it is on its way to every island of the partition. -/
def State.pickDelivered (s t : State) (p n : Nat) : Prop :=
  tget 0 (t.island 0x20).picks p = n ∧ ∀ i ∈ s.partIslands p, Transfer.pick p n ∈ tget [] t.channels (256 * 0x20 + i)

theorem State.deliverPick_delivers (s : State) (p n : Nat) :
    s.pickDelivered (s.deliverPick p n) p n ∧ s.keeps (s.deliverPick p n) [.islands, .channels] := by
  have hsent := State.mem_sendTransfers 0x20 (.pick p n) (s.partIslands p) (s.setIsland 0x20 { s.island 0x20 with picks := tset 0 (s.island 0x20).picks p n })
  have hk := State.keeps_fold (fs := [.channels]) (fun s i => s.sendTransfer_keeps 0x20 i (.pick p n))
    (s.setIsland 0x20 { s.island 0x20 with picks := tset 0 (s.island 0x20).picks p n }) (s.partIslands p)
  refine ⟨⟨?_, hsent.2⟩, State.keeps_step (State.keeps_mono (s.setIsland_keeps _ _) (by decide)) hk⟩
  have hislands : (s.deliverPick p n).islands = (s.setIsland 0x20 { s.island 0x20 with picks := tset 0 (s.island 0x20).picks p n }).islands :=
    hk .islands (by decide)
  rw [State.island, hislands]
  refine (congrArg (fun y : Island => tget 0 y.picks p) (State.setIsland_island_same s 0x20 _)).trans ?_
  exact tget_tset_same _ _ _ _

theorem State.pickDelivered_of_keeps {s t u : State} {p n : Nat} {fs : List Field} (h : s.pickDelivered t p n) (hk : t.keeps u fs)
    (hi : Field.islands ∉ fs := by decide) (hc : Field.channels ∉ fs := by decide) : s.pickDelivered u p n := by
  have hislands : u.islands = t.islands := hk .islands hi
  have hchannels : u.channels = t.channels := hk .channels hc
  rw [State.pickDelivered, State.island, hislands, hchannels]
  exact h

theorem State.agePick_keepsWork (s : State) (p : Nat) : s.keepsWork (s.agePick p) p [.parts] := by
  have hpool := s.setPart_keepsWork p { s.part p with pool := { (s.part p).pool with picks := (s.part p).pool.picks + 1 } } rfl
  unfold State.agePick
  dsimp only
  split
  · exact State.keepsWork_trans hpool (State.setPart_keepsWork _ p _ rfl)
  · exact hpool

theorem State.writePoolPage_keepsWork (s : State) (p : Nat) : s.keepsWork (s.writePoolPage p) p [.mem, .ports, .parts] := by
  unfold State.writePoolPage
  split
  · exact s.keepsWork_refl p _
  · dsimp only
    split
    · exact s.keepsWork_refl p _
    · refine State.keepsWork_trans ?_ (State.keepsWork_of_keeps (State.putPage_keeps _ _ _ _ _) p)
      exact State.keepsWork_mono (s.setPart_keepsWork p _ rfl)

theorem State.writePages_keepsWork (s : State) (p : Nat) : s.keepsWork (s.writePages p) p [.mem, .ports, .parts] := by
  rw [State.writePages]
  refine State.keepsWork_trans (t := s.writePartPage p) (gs := [.mem, .ports, .parts]) ?_ ?_
  · unfold State.writePartPage
    split
    · exact s.keepsWork_refl p _
    · refine State.keepsWork_trans ?_ (State.keepsWork_of_keeps (State.putPage_keeps _ _ _ _ _) p)
      exact State.keepsWork_mono (s.setPart_keepsWork p _ rfl)
  · unfold State.writeJobPage
    split
    · exact State.keepsWork_refl _ p _
    · refine State.keepsWork_trans ?_ (State.keepsWork_of_keeps (State.putPage_keeps _ _ _ _ _) p)
      exact State.keepsWork_mono (State.setPart_keepsWork _ p _ rfl)

/-- A job as its next pick begins. -/
def Job.begins (n : Nat) (j : Job) : Job :=
  { j with st := .running, pick := n, verdict := 0, reported := false, decided := none, locator := [], updated := false, ended := none, unswitched := [] }

/-- A partition whose schedules count one pick more of their interval (R262). -/
def Part.slotsCounted (x : Part) : Part :=
  { x with slots := tcanon {} (x.slots.map (fun k => (k.1, if k.2.schedule.isEmpty then k.2 else { k.2 with picks := k.2.picks + 1 }))) }

/-- Without versions a pick that begins delivers itself and leaves but counts and pages besides. -/
theorem State.beginPick_begins {s : State} {p : Nat} (hv : (s.part p).job.versions = []) :
    s.pickDelivered (s.beginPick p) p (s.pickOf p + 1) ∧
      (s.setJob p (Job.begins (s.pickOf p + 1))).keepsWork (s.beginPick p) p [.mem, .islands, .channels, .ports, .parts] := by
  have hbegin : s.beginPick p = ((((((s.setJob p (Job.begins (s.pickOf p + 1))).setPart p
      ((s.setJob p (Job.begins (s.pickOf p + 1))).part p).slotsCounted).deliverPick p (s.pickOf p + 1)).agePick p).writePoolPage p).writePages p) := by
    simp only [State.beginPick, State.freeVersions_of_none hv]
    rfl
  have hslots := (s.setJob p (Job.begins (s.pickOf p + 1))).setPart_keepsWork p ((s.setJob p (Job.begins (s.pickOf p + 1))).part p).slotsCounted rfl
  rw [hbegin]
  generalize hu : (s.setJob p (Job.begins (s.pickOf p + 1))).setPart p _ = u at hslots ⊢
  obtain ⟨hdel, hdk⟩ := u.deliverPick_delivers p (s.pickOf p + 1)
  have hage := State.keepsWork_mono ((u.deliverPick p (s.pickOf p + 1)).agePick_keepsWork p) (gs := [.mem, .ports, .parts])
  have hafter := State.keepsWork_trans (State.keepsWork_trans hage (State.writePoolPage_keepsWork _ p)) (State.writePages_keepsWork _ p)
  refine ⟨?_, ?_⟩
  · have hpart : ∀ i, i ∈ u.partIslands p ↔ i ∈ s.partIslands p := fun i => by rw [← hu]; rfl
    obtain ⟨hheddle, hislands⟩ := State.pickDelivered_of_keeps hdel hafter.1
    exact ⟨hheddle, fun i hi => hislands i ((hpart i).2 hi)⟩
  · exact State.keepsWork_trans (State.keepsWork_trans (State.keepsWork_mono hslots) (State.keepsWork_of_keeps hdk p)) hafter

-- ## PICK_ADVANCE (R59, R206)

theorem State.stepTable_of_regs {s t : State} (h : t.regs = s.regs) (p : Nat) : t.stepTable p = s.stepTable p := by
  have haddr : t.addr (.updStep p 0) (.updStep p 1) = s.addr (.updStep p 0) (.updStep p 1) := by simp only [State.addr, State.reg, h]
  simp only [State.stepTable, haddr]

/-- A boundary that is not open changes nothing. -/
theorem pickAdvance_closed {s : State} {p : Nat} (hi : s.boot.phase = .idle) (h : s.boundaryOpen p = false) : pickAdvance s p = s := by
  simp [pickAdvance, h, State.actHold_of_idle hi]

section
variable {s : State} {p e : Nat} {d : Draft} {x : Entry} (hi : s.boot.phase = .idle) (ho : s.boundaryOpen p = true) (hds : s.drafts = [d])
  (hp : d.part = p) (hb : d.begun = false) (hn : d.noStep = false) (hf : d.failed = false) (ha : d.acc = some e) (hx : s.entry e = some x)
  (he : x.effPick ≤ s.pickOf p + 1) (hpre : ∀ y ∈ d.nodes, y.preStep = false) (hwait : ∀ y ∈ s.entries, y.part = p → y.st ≠ .boundary)
  (hshed : (s.part p).shed = none) (hloops : ∀ l, l < 4 → (s.loop p l).bound = false) (hv : (s.part p).job.versions = []) (htab : s.stepTable p = none)
  (hlast : s.pickOf p < 2 ^ 64 - 1)
include hi ho hds hp hb hn hf ha hx he hpre hwait hshed hloops hv htab hlast

/-- An open boundary begins the DRAFT_RUN step that waits for it. -/
theorem pickAdvance_begins : pickAdvance s p = (s.boundaryFrees p).beginDraft p d := by
  have hw := State.boundaryFrees_keepsWork hwait hv
  generalize hu : s.boundaryFrees p = u at hw
  have hentries : u.entries = s.entries := hw.1 .entries (by decide)
  have hboot : u.boot = s.boot := hw.1 .boot (by decide)
  have hjob := State.keepsWork_job hw
  have hlp : s.lastPick p = false := by
    rw [State.lastPick, beq_eq_false_iff_ne]
    exact Nat.ne_of_lt hlast
  have hnext : u.nextDraft p = some d := by
    refine State.nextDraft_of_one (x := x) ((hw.1 .drafts (by decide)).trans hds) hp hb hn hf ha ?_ ?_ hpre
    · exact (congrArg (fun l : List Entry => l.find? _) hentries).trans hx
    · rw [State.pickOf, hjob]
      exact he
  have hfirst : u.draftFirst p d = true := by
    simp [State.draftFirst, State.boundLoop_of_none (fun l hl => (congrArg Loop.bound (State.keepsWork_loop hw l)).trans (hloops l hl))]
  have htabu : u.stepTable p = none := (State.stepTable_of_regs (hw.1 .regs (by decide)) p).trans htab
  have happly : u.applyDue p = u := State.applyDue_of_none (by rw [hentries]; exact hwait)
  have hshedu : (u.part p).shed = none := (State.keepsWork_shed hw).trans hshed
  have hopenu : u.boundaryOpen p = true := (State.keepsWork_boundaryOpen hw (by decide) (by decide) (by decide)).trans ho
  have hheld : bitAt u.boot.held p = false := by
    simp only [State.boundaryOpen, State.dispatches, Bool.and_eq_true, Bool.not_eq_true'] at hopenu
    exact hopenu.2.2
  simp [pickAdvance, ho, hlp, hu, hnext, hfirst, State.applyPending, htabu, happly, hshedu, hopenu, State.actHold_of_idle (hboot ▸ hi), hheld]

end

/-- Without a table the step of a draft with a node open begins under the next pick. -/
theorem State.beginDraft_begins {s : State} {p e : Nat} {d : Draft} {x : Entry} (hds : s.drafts = [d]) (hf : d.failed = false) (ha : d.acc = some e)
    (hx : s.entry e = some x) (hopen : ∃ y ∈ d.nodes, y.isDone = false) (hv : (s.part p).job.versions = []) (htab : s.stepTable p = none)
    (hp : d.part = p) :
    (((s.beginDraft p d).part p).job = { (s.part p).job.begins (s.pickOf p + 1) with step := some d.id }) ∧
      (s.beginDraft p d).drafts = [{ d with begun := true }] ∧ (s.beginDraft p d).entry e = some { x with pick := s.pickOf p + 1 } ∧
      s.pickDelivered (s.beginDraft p d) p (s.pickOf p + 1) ∧ (∀ k, k ≠ p → (s.beginDraft p d).part k = s.part k) ∧
      s.keeps (s.beginDraft p d) [.mem, .islands, .channels, .ports, .parts, .entries, .drafts] := by
  obtain ⟨hdel, hw⟩ := State.beginPick_begins hv
  obtain rfl := State.entry_acc hx
  have hjob := (State.keepsWork_job hw).trans (s.setJob_job p _)
  have hdrafts : (s.beginPick p).drafts = [d] := (hw.1 .drafts (by decide)).trans hds
  have hentry : (s.beginPick p).entry x.acc = some x := (congrArg (fun l : List Entry => l.find? _) (hw.1 .entries (by decide))).trans hx
  have hother : ∀ k, k ≠ p → (s.beginPick p).part k = s.part k := fun k hk => (hw.2.2 k hk).trans (s.setJob_part_ne _ hk)
  have hset : ((s.beginPick p).setEntry x.acc (fun e => { e with pick := s.pickOf p + 1 })).entry x.acc = some { x with pick := s.pickOf p + 1 } :=
    State.setEntry_entry _ x.acc (fun e => { e with pick := s.pickOf p + 1 }) (fun _ => rfl) x hentry
  have hbegin : s.beginDraft p d =
      ((((s.beginPick p).setEntry x.acc (fun e => { e with pick := s.pickOf p + 1 })).setDraft d.id (fun x => { x with begun := true })).setJob p
        (fun j => { j with step := some d.id })).checkDraft d.id := by
    simp [State.beginDraft, State.schedulesBad, State.applySchedules, State.snapLr, htab, ha]
  generalize hu : (((s.beginPick p).setEntry x.acc (fun e => { e with pick := s.pickOf p + 1 })).setDraft d.id (fun x => { x with begun := true })).setJob p
    (fun j => { j with step := some d.id }) = u at hbegin
  have hud : u.drafts = [{ d with begun := true }] := by
    rw [← hu]
    refine (congrArg (List.map _) hdrafts).trans ?_
    simp
  have hujob : (u.part p).job = { (s.part p).job.begins (s.pickOf p + 1) with step := some d.id } := by
    rw [← hu, State.setJob_job]
    exact congrArg (fun j : Job => { j with step := some d.id }) hjob
  have hcheck : u.checkDraft d.id = u := by
    obtain ⟨y, hy, hyd⟩ := hopen
    obtain ⟨k, hk⟩ := List.mem_iff_getElem?.1 hy
    refine State.checkDraft_of_open (x := { d with begun := true }) (by simp [State.draft, hud]) (Draft.not_ended hf hk hyd) (.inl ?_)
    rw [show ({ d with begun := true } : Draft).part = p from hp, hujob]
  rw [hbegin, hcheck]
  have hk : (s.beginPick p).keeps u [.parts, .entries, .drafts] := by
    rw [← hu]
    exact State.keeps_step (State.keeps_step (State.keeps_mono (State.setEntry_keeps _ _ _) (by decide)) (State.setDraft_keeps _ _ _)) (State.setJob_keeps _ _ _)
  have hall : s.keeps u [.mem, .islands, .channels, .ports, .parts, .entries, .drafts] :=
    State.keeps_step (State.keeps_step (State.keeps_mono (s.setJob_keeps p _) (by decide)) hw.1) hk
  refine ⟨hujob, hud, by rw [← hu]; exact hset, State.pickDelivered_of_keeps hdel hk, fun k hkp => ?_, hall⟩
  rw [← hu, State.setJob_part_ne _ _ hkp]
  exact hother k hkp

/-- Settles O47: the boundary that begins a pick, a prefetch entry inside and past the window, the lead at the end of an interval. -/
theorem picksBeginAndPrefetchesRun : Obligations.PicksBeginAndPrefetchesRun := by
  refine ⟨?_, ?_, ?_⟩
  · intro s p e d x hp hd hi
    have hexec : exec (.pickAdvance p) s = finishDeferred (if p < 16 then pickAdvance s p else s) := rfl
    rw [if_pos hp] at hexec
    refine ⟨fun ho => ?_, fun ho hds hpart hb hn hf ha hx he hpre hopen hwait hshed hloops hv htab hlast => ?_⟩
    · rw [hexec, pickAdvance_closed hi ho, finishDeferred_of_none hd, finish_next]
    · rw [pickAdvance_begins hi ho hds hpart hb hn hf ha hx he hpre hwait hshed hloops hv htab hlast] at hexec
      have hw := State.boundaryFrees_keepsWork hwait hv
      generalize s.boundaryFrees p = u at hw hexec
      have hjob := State.keepsWork_job hw
      have hpick : u.pickOf p = s.pickOf p := congrArg Job.pick hjob
      have htabu : u.stepTable p = none := (State.stepTable_of_regs (hw.1 .regs (by decide)) p).trans htab
      have hislands : s.partIslands p = u.partIslands p := by
        have hregs : u.regs = s.regs := hw.1 .regs (by decide)
        simp only [State.partIslands, State.clusters, State.groups, State.t2Groups, State.fld, State.reg, hregs]
      obtain ⟨hjobt, hdraft, hentry, ⟨hheddle, hsent⟩, hother, hk⟩ := State.beginDraft_begins ((hw.1 .drafts (by decide)).trans hds) hf ha
        ((congrArg (fun l : List Entry => l.find? _) (hw.1 .entries (by decide))).trans hx) hopen ((congrArg Job.versions hjob).trans hv) htabu hpart
      rw [hpick] at hjobt hentry hheddle hsent
      rw [hjob] at hjobt
      have hall : s.keeps (u.beginDraft p d) [.mem, .islands, .channels, .ports, .parts, .entries, .drafts] :=
        State.keeps_step (State.keeps_mono hw.1 (by decide)) hk
      exact State.gives_of_finishDeferred hexec (State.deferred_of_keeps hall (by decide) hd)
        ⟨hjobt, hdraft, hentry, hheddle, fun i hi => hsent i (hislands ▸ hi), fun k hkp => (hother k hkp).trans (hw.2.2 k hkp), State.keeps_settled hall⟩
  · intro s d k i x es b hd hx hk hf hdis hes hb hi hlt
    have hexec : exec (.prefetchIssue d) s = finishDeferred (prefetchIssue s d) := rfl
    refine ⟨?_, fun hp hst => ?_⟩
    · rintro n c desc u v hp hst heng rfl hfetched hworked hacks hstaged hsh hm hfetch hok hop rfl rfl hrows hmx rfl hflips hpoison hcorrupt harmed hu hv hlu
        hlv hsu hsv heu hev hread hwrite -
      have hplain : s.PlainRow (fetchCtx x) desc :=
        ⟨rfl, hok, hop, hrows, hmx, hflips, ⟨hpoison, hcorrupt, harmed⟩, hlu, hlv, hsu, hsv, heu, hev, hread, hwrite⟩
      have hentry : (tget {} (s.part x.part).slots k).schedule[i + 1]? = some b := by
        rw [hes, List.getElem?_drop, Nat.add_comm] at hb
        exact hb
      obtain ⟨t, hrun, hdraft, hother, ⟨hin, hout⟩, hkeeps⟩ := State.runPfEntry_copies hx hk hentry hfetch hstaged hplain hfetched hworked hacks
        (State.runs_of_dispatches hdis) hu hv hst heng hm hsh
      rw [prefetchIssue_runs hx hk hes hb hi hlt hdis hf hp, hrun] at hexec
      exact State.gives_of_finishDeferred hexec (State.deferred_of_keeps hkeeps (by decide) hd)
        ⟨hdraft, hother, fun j hj => (settle_rd _ _).trans (hin j hj), fun m hm => (settle_rd _ _).trans (hout m hm), State.keeps_settled hkeeps⟩
    · rw [hexec, prefetchIssue_past hx hk hes hb hi hlt hp hst, finishDeferred_of_none hd, finish_next]
  · rintro s p k stall ev x y hx hs rfl hundo hlower hraise hstay hint
    have hexec : exec (.prefetchLeadTempleUpdate p k stall) s = finish (leadUpdate s p k stall) := rfl
    rw [leadUpdate_ends hx hs hint, Slot.leadNext_cases hundo hlower hraise hstay] at hexec
    refine State.gives_of_finish hexec ⟨?_, fun m hm => ?_, fun m hm => ?_, State.keeps_settled (s.setPart_keeps _ _)⟩
    · refine (congrArg (fun z : Part => tget ({} : Slot) z.slots k) (State.setPart_part_same s p _)).trans ?_
      exact tget_tset_same _ _ _ _
    · refine (congrArg (fun z : Part => tget ({} : Slot) z.slots m) (State.setPart_part_same s p _)).trans ?_
      exact tget_tset_ne _ _ _ hm
    · exact (s.setPart_part p m _).trans (if_neg hm)

end Sys2Proof.Machine
end

section
/-!
PROOFS. Numbers in bytes, and the tables of a serving loop in HBM: what a write leaves there (O42, O45).
-/

namespace Sys2Proof.Machine

-- ## Numbers in bytes

@[simp] theorem length_leBytes (n v : Nat) : (leBytes n v).length = n := by
  induction n generalizing v with
  | zero => rfl
  | succ n ih => simp [leBytes, ih]

@[simp] theorem length_zeros (n : Nat) : (zeros n).length = n := List.length_replicate

theorem ofLe_leBytes (n v : Nat) : ofLe (leBytes n v) = v % 256 ^ n := by
  induction n generalizing v with
  | zero => simp [leBytes, ofLe, Nat.mod_one]
  | succ n ih =>
    rw [leBytes, ofLe, ih, BitVec.toNat_ofNat]
    exact (Nat.mod_mul (a := 256) (b := 256 ^ n)).symm.trans (congrArg (v % ·) (pow_succ' 256 n).symm)

theorem ofLe_lt (bs : List Byte) : ofLe bs < 256 ^ bs.length := by
  induction bs with
  | nil => exact Nat.one_pos
  | cons b bs ih =>
    have hb : b.toNat < 256 := b.isLt
    rw [ofLe, List.length_cons, pow_succ]
    omega

theorem le_lt (bs : List Byte) (o n : Nat) : le bs o n < 256 ^ n := by
  refine lt_of_lt_of_le (ofLe_lt _) (Nat.pow_le_pow_right (by decide) ?_)
  simp only [slice, List.length_take]
  exact Nat.min_le_left _ _

theorem slice_append_of_le {a : List Byte} {o : Nat} (h : a.length ≤ o) (b : List Byte) (n : Nat) : slice (a ++ b) o n = slice b (o - a.length) n := by
  simp [slice, List.drop_append, List.drop_eq_nil_of_le h]

theorem slice_append_left {a : List Byte} {n : Nat} (h : a.length = n) (b : List Byte) : slice (a ++ b) 0 n = a := by
  subst h
  simp [slice]

theorem slice_append_within {a : List Byte} {o n : Nat} (h : o + n ≤ a.length) (b : List Byte) : slice (a ++ b) o n = slice a o n := by
  rw [slice, slice, List.drop_append_of_le_length (by omega), List.take_append_of_le_length (by simp; omega)]

theorem slice_zeros {o n m : Nat} (h : o + n ≤ m) : slice (zeros m) o n = zeros n := by
  simp only [slice, zeros, List.drop_replicate, List.take_replicate]
  congr 1
  omega

theorem ofLe_zeros (n : Nat) : ofLe (zeros n) = 0 := by
  induction n with
  | zero => rfl
  | succ n ih =>
    rw [zeros, List.replicate_succ, ofLe, ← zeros, ih]
    rfl

-- ## Writes in HBM

/-- Bytes of HBM from offset `lo` up to `hi` may differ, and the controllers' record but for where units lie and what serves. -/
def State.writesHbm (s t : State) (lo hi : Nat) : Prop :=
  s.keeps t [.mem, .memCtl] ∧ t.memCtl.gates = s.memCtl.gates ∧ ∀ k, (∀ o, lo ≤ o → o < hi → k ≠ s.dataKey 0 o) → t.rd k = s.rd k

theorem State.writesHbm_refl (s : State) (lo hi : Nat) : s.writesHbm s lo hi := ⟨s.keeps_refl _, rfl, fun _ _ => rfl⟩

theorem State.dataKey_of_gates {s t : State} (h : t.memCtl.gates = s.memCtl.gates) (sp o : Nat) : t.dataKey sp o = s.dataKey sp o := by
  have hrel : t.memCtl.relocated = s.memCtl.relocated := congrArg Prod.fst h
  simp only [State.dataKey, hrel]

theorem State.writesHbm_trans {s t u : State} {lo hi : Nat} (h1 : s.writesHbm t lo hi) (h2 : t.writesHbm u lo hi) : s.writesHbm u lo hi := by
  refine ⟨State.keeps_trans h1.1 h2.1, h2.2.1.trans h1.2.1, fun k hk => (h2.2.2 k fun o hlo hhi => ?_).trans (h1.2.2 k hk)⟩
  rw [State.dataKey_of_gates h1.2.1]
  exact hk o hlo hhi

/-- Flip regions turn on the registers and on the states of the partitions. -/
theorem State.flips_of_regs {s t : State} (hr : t.regs = s.regs) (hst : ∀ k, (t.part k).st = (s.part k).st) : t.flips = s.flips := by
  have hreg : ∀ r, t.reg r = s.reg r := fun r => by simp only [State.reg, hr]
  have hbit : ∀ r i, t.bit r i = s.bit r i := fun r i => by simp only [State.bit, hreg]
  have hfld : ∀ r i n, t.fld r i n = s.fld r i n := fun r i n => by simp only [State.fld, hreg]
  have haddr : ∀ a b, t.addr a b = s.addr a b := fun a b => by simp only [State.addr, hreg]
  have hflip : ∀ p i, t.flip p i = s.flip p i := fun p i => by simp only [State.flip, hbit, hfld, haddr]
  simp only [State.flips, hflip, hst]

theorem State.writesHbm_flips {s t : State} {lo hi : Nat} (h : s.writesHbm t lo hi) : t.flips = s.flips :=
  State.flips_of_regs (h.1 .regs (by decide)) (fun k => congrArg Part.st (State.part_of_keeps h.1 (by decide) k))

theorem State.writesHbm_loop {s t : State} {lo hi : Nat} (h : s.writesHbm t lo hi) (p l : Nat) : t.loop p l = s.loop p l :=
  congrArg (fun y : Part => tget ({} : Loop) y.loops l) (State.part_of_keeps h.1 (by decide) p)

/-- Where no flip region stands, a write leaves its bytes in HBM and differs nowhere else. -/
theorem State.writeAt_writesHbm {s : State} (hf : s.flips = []) {c : Ctx} (hh : c.held = false) {a lo hi : Nat} {bs : List Byte} (hsp : gSpace a = 0)
    (hlo : lo ≤ gOffset a) (hhi : gOffset a + bs.length ≤ hi) (hend : hi ≤ 2 ^ 48) : s.writesHbm (s.writeAt c a bs) lo hi := by
  have hpass : s.passes ((s.storeLines c a bs.length).pass c a bs.length true) := State.passes_trans (s.storeLines_passes _ _ _) (State.pass_passes _ _ _ _ _)
  have hmem : ∀ (l : List (Nat × Byte)) (u : State), (l.foldl (fun s ib => s.wr (s.keyOf c (a + ib.1) true) ib.2) u).memCtl = u.memCtl := by
    intro l
    induction l with
    | nil => exact fun _ => rfl
    | cons p l ih => exact fun u => (ih _).trans rfl
  have hdata := (State.writeAt_holdsData hf hh (a := a) (bs := bs) (by omega) (by omega)).2
  refine ⟨s.writeAt_keeps c a bs, ?_, fun k hk => hdata k fun i hi => ?_⟩
  · simp only [State.writeAt, hh, Bool.false_eq_true, if_false]
    rw [hmem]
    exact hpass.2.1
  · rw [hsp]
    exact hk _ (by omega) (by omega)

end Sys2Proof.Machine
end

section
/-!
PROOFS. A sequence taken in (O42): its row in the sequence table, its empty page table, its latch.
-/

namespace Sys2Proof.Machine

-- ## The sequence table and the page tables (R406, R415)

theorem le_slice (bs : List Byte) (o n : Nat) : le (slice bs o n) 0 n = le bs o n := by
  simp only [le, slice, List.drop_zero, List.take_take, Nat.min_self]

/-- Where a slot's entry stands in HBM as a row of bytes, its fields are the row's. -/
theorem State.seqGet_of_row {s : State} (hf : s.flips = []) {p l k : Nat} {row : List Byte} (hsp : gSpace (s.loop p l).seqTable = 0)
    (hend : gOffset (s.loop p l).seqTable + 128 * k + row.length ≤ 2 ^ 48)
    (hrow : ∀ i (h : i < row.length), s.rd (s.dataKey 0 (gOffset (s.loop p l).seqTable + 128 * k + i)) = row[i]) {o n : Nat} (hn : o + n ≤ row.length)
    (hn0 : 0 < n) : s.seqGet p l k o n = le row o n := by
  have hlt : gOffset (s.loop p l).seqTable + (128 * k + o) < 2 ^ 48 := by omega
  have hspace : gSpace ((s.loop p l).seqTable + 128 * k + o) = 0 := by rw [Nat.add_assoc, gSpace_add hlt, hsp]
  have hoff : gOffset ((s.loop p l).seqTable + 128 * k + o) = gOffset (s.loop p l).seqTable + 128 * k + o := by
    rw [Nat.add_assoc, gOffset_add hlt, Nat.add_assoc]
  have hread : s.readAt (partCtx p) ((s.loop p l).seqTable + 128 * k + o) n = slice row o n := by
    rw [State.readAt_of_noFlips hf (partCtx p) (by omega) (by omega), hspace, hoff]
    refine List.ext_getElem (by simp [slice]; omega) fun i h1 h2 => ?_
    have hi : i < n := by simpa using h1
    rw [List.getElem_map, List.getElem_range, Nat.add_assoc, hrow (o + i) (by omega)]
    simp [slice]
  rw [State.seqGet, hread, le_slice]

/-- Entries of a slot's page table cleared one after another. -/
theorem State.ptPuts_writesHbm {p l k : Nat} {x : Loop} (hk : k < x.maxSeqs) (hsp : gSpace x.ptArea = 0)
    (hend : gOffset x.ptArea + 4 * x.maxSeqs * x.ptEntries ≤ 2 ^ 48) (is : List Nat) : ∀ s : State, s.flips = [] → s.loop p l = x → (∀ i ∈ is, i < x.ptEntries) →
    s.writesHbm (is.foldl (fun s i => s.ptPut p l k i 0) s) (gOffset x.ptArea) (gOffset x.ptArea + 4 * x.maxSeqs * x.ptEntries) := by
  induction is with
  | nil => exact fun s _ _ _ => s.writesHbm_refl _ _
  | cons i is ih =>
    intro s hf hx hi
    have hlast : k * x.ptEntries + i + 1 ≤ x.maxSeqs * x.ptEntries := by
      have hrow : (k + 1) * x.ptEntries ≤ x.maxSeqs * x.ptEntries := Nat.mul_le_mul_right _ hk
      have := hi i (List.mem_cons_self ..)
      rw [Nat.add_mul] at hrow
      omega
    have hend' : gOffset x.ptArea + 4 * (x.maxSeqs * x.ptEntries) ≤ 2 ^ 48 := by rw [← Nat.mul_assoc]; exact hend
    have hlt : gOffset x.ptArea + 4 * (k * x.ptEntries + i) < 2 ^ 48 := by omega
    have hput : s.writesHbm (s.ptPut p l k i 0) (gOffset x.ptArea) (gOffset x.ptArea + 4 * x.maxSeqs * x.ptEntries) := by
      simp only [State.ptPut, hx]
      refine State.writeAt_writesHbm hf rfl ((gSpace_add hlt).trans hsp) ?_ ?_ hend
      · rw [gOffset_add hlt]
        exact Nat.le_add_right _ _
      · rw [gOffset_add hlt, length_leBytes, Nat.mul_assoc 4]
        omega
    exact State.writesHbm_trans hput (ih _ ((State.writesHbm_flips hput).trans hf) ((State.writesHbm_loop hput p l).trans hx)
      (fun j hj => hi j (List.mem_cons_of_mem _ hj)))

-- ## The row of a sequence that enters (R404, R406)

/-- A sequence's entry as it enters WAITING without a handle. -/
def seqRow (x : Entry) (b : List Byte) (w gen order : Nat) : List Byte :=
  leBytes 4 x.tag ++ leBytes 1 x.ring ++ leBytes 1 1 ++ leBytes 1 (field x.arg1 8 8) ++ leBytes 1 (b2n (bitAt x.arg1 16)) ++ leBytes 4 w ++
    leBytes 4 (le b 28 4) ++ leBytes 4 gen ++ leBytes 4 (le b 24 4) ++ leBytes 4 0 ++ leBytes 4 (0 + le b 0 4) ++ zeros 8 ++ leBytes 8 order ++ zeros 8 ++
    leBytes 4 (le b 4 4) ++ leBytes 4 (le b 32 4) ++ leBytes 8 (le b 8 8) ++ leBytes 8 (le b 16 8) ++ leBytes 8 (le b 48 8) ++ leBytes 8 (le b 40 8) ++
    zeros 32

theorem seqRow_eq (x : Entry) (b : List Byte) (w gen order : Nat) : seqRow x b w gen order =
    leBytes 4 x.tag ++ (leBytes 1 x.ring ++ (leBytes 1 1 ++ (leBytes 1 (field x.arg1 8 8) ++ (leBytes 1 (b2n (bitAt x.arg1 16)) ++ (leBytes 4 w ++
      (leBytes 4 (le b 28 4) ++ (leBytes 4 gen ++ (leBytes 4 (le b 24 4) ++ (leBytes 4 0 ++ (leBytes 4 (le b 0 4) ++ (zeros 8 ++ (leBytes 8 order ++
      (zeros 8 ++ (leBytes 4 (le b 4 4) ++ (leBytes 4 (le b 32 4) ++ (leBytes 8 (le b 8 8) ++ (leBytes 8 (le b 16 8) ++ (leBytes 8 (le b 48 8) ++
      (leBytes 8 (le b 40 8) ++ zeros 32))))))))))))))))))) := by
  unfold seqRow
  rw [Nat.zero_add]
  simp only [List.append_assoc]

theorem length_seqRow (x : Entry) (b : List Byte) (w gen order : Nat) : (seqRow x b w gen order).length = 128 := by
  rw [seqRow_eq]
  simp

/-- The fields of the row: TAG, WAITING, the version, position 0, the end at the prompt's length, nothing generated. -/
theorem seqRow_fields (x : Entry) (b : List Byte) (w gen order : Nat) :
    le (seqRow x b w gen order) 0 4 = x.tag ∧ le (seqRow x b w gen order) 5 1 = 1 ∧ le (seqRow x b w gen order) 8 4 = w % 2 ^ 32 ∧
      le (seqRow x b w gen order) 24 4 = 0 ∧ le (seqRow x b w gen order) 28 4 = le b 0 4 ∧ le (seqRow x b w gen order) 36 4 = 0 := by
  have htag : x.tag < 4294967296 := lt_of_lt_of_eq (le_lt _ _ _) (by norm_num)
  have hlen : ofLe (slice b 0 4) < 4294967296 := lt_of_lt_of_eq (le_lt b 0 4) (by norm_num)
  rw [seqRow_eq]
  refine ⟨?_, ?_, ?_, ?_, ?_, ?_⟩
  · simp [le, slice_append_left, ofLe_leBytes, htag]
  · simp [le, slice_append_of_le, slice_append_left, ofLe_leBytes]
  · simp [le, slice_append_of_le, slice_append_left, ofLe_leBytes]
  · simp [le, slice_append_of_le, slice_append_left, ofLe_leBytes]
  · simp [le, slice_append_of_le, slice_append_left, ofLe_leBytes, hlen]
  · simp [le, slice_append_of_le, slice_append_within, slice_zeros, ofLe_zeros]

-- ## A sequence enters (R35, R404)

/-- A job of whose version `w` one unit more is latched. -/
def Job.latches (w : Nat) (j : Job) : Job :=
  { j with versions := j.versions.map (fun u => if u.number = w then { u with latched := u.latched + 1 } else u) }

theorem State.latch_part_same (s : State) (p w : Nat) : (s.latch p w).part p = { s.part p with job := (s.part p).job.latches w } :=
  (State.setJob_part s p p (Job.latches w)).trans (if_pos rfl)

/-- The loop with a sequence in slot `k`. -/
def Loop.admits (k acc pick : Nat) (y : Loop) : Loop :=
  { y with admitOrder := y.admitOrder + 1, seqs := y.seqs ++ [{ slot := k, acc := acc, admitPick := pick, adapterAt := 0 }] }

/-- The bytes that a sequence's entry writes: its row, and its page table, which it leaves empty. -/
def State.enterTables (s : State) (x : Entry) (b : List Byte) (k w gen : Nat) : State :=
  (List.range (s.loop x.part x.loop).ptEntries).foldl (fun s i => s.ptPut x.part x.loop k i 0)
    (s.writeAt (partCtx x.part) ((s.loop x.part x.loop).seqTable + 128 * k) (seqRow x b w gen (s.loop x.part x.loop).admitOrder))

/-- Without handle and adapter a sequence takes its tables, its latch and its place in the loop. -/
theorem State.enterSeq_plain {s : State} {x y : Entry} {b : List Byte} {k w gen : Nat} (hy : s.entry x.acc = some y)
    (hh : s.handle x.part x.loop (le b 24 4) = none) (ha : le b 28 4 = 0) (had : ∀ a ∈ ((s.enterTables x b k w gen).part x.part).adapters, a.id ≠ 0) :
    s.enterSeq x b k w gen =
      (((s.enterTables x b k w gen).latch x.part w).setLoop x.part x.loop (Loop.admits k x.acc y.pick)).setEntry x.acc
        (fun e => { e with result := w + 2 ^ 32 * b2n (bitAt x.arg1 16) }) := by
  have hnow : (s.enterTables x b k w gen).adapterPlace x.part 0 = 0 := by
    have hnone : (s.enterTables x b k w gen).adapterNow x.part 0 = none := by
      rw [State.adapterNow, List.find?_eq_none]
      intro a hm
      simp [had a hm]
    rw [State.adapterPlace, hnone]
  have hgen : ∀ e, ((s.enterTables x b k w gen).latch x.part w).takeAdapterRef x.part 0 gen e = (s.enterTables x b k w gen).latch x.part w := by
    intro e
    have hsame : (((s.enterTables x b k w gen).latch x.part w).part x.part).adapters = ((s.enterTables x b k w gen).part x.part).adapters :=
      by rw [State.latch_part_same]
    have hnone : (((s.enterTables x b k w gen).latch x.part w).part x.part).adapters.filter (fun a => a.id == 0 && a.gen == gen) = [] := by
      rw [hsame, List.filter_eq_nil_iff]
      intro a hm
      simp [had a hm]
    simp [State.takeAdapterRef, State.adapterGen, hnone]
  have henter : s.enterSeq x b k w gen =
      ((((s.enterTables x b k w gen).latch x.part w).takeAdapterRef x.part (le b 28 4) gen ((s.enterTables x b k w gen).adapterPlace x.part (le b 28 4))).setLoop
        x.part x.loop (fun z => { z with
          admitOrder := z.admitOrder + 1
          seqs := z.seqs ++ [{ slot := k, acc := x.acc, admitPick := y.pick, adapterAt := (s.enterTables x b k w gen).adapterPlace x.part (le b 28 4) }] })).setEntry
        x.acc (fun e => { e with result := w + 2 ^ 32 * b2n (bitAt x.arg1 16) }) := by
    simp only [State.enterSeq, hh, hy]
    rfl
  rw [henter, ha, hnow, hgen]
  rfl

end Sys2Proof.Machine
end

section
/-!
PROOFS. SEQ_ADMIT at its boundary (O42).
-/

namespace Sys2Proof.Machine

-- ## Loops and their boundary (R21, R189)

theorem State.setLoop_part (s : State) (p l k : Nat) (f : Loop → Loop) :
    (s.setLoop p l f).part k = if k = p then { s.part p with loops := tset {} (s.part p).loops l (f (s.loop p l)) } else s.part k := s.setPart_part _ _ _

@[simp] theorem State.setLoop_loop_same (s : State) (p l : Nat) (f : Loop → Loop) : (s.setLoop p l f).loop p l = f (s.loop p l) := by
  rw [State.loop, State.setLoop_part, if_pos rfl]
  exact tget_tset_same _ _ _ _

theorem State.setLoop_keeps (s : State) (p l : Nat) (f : Loop → Loop) : s.keeps (s.setLoop p l f) [.parts] := s.setPart_keeps _ _

/-- An entry as the boundary of its loop marks it. -/
def Entry.begins (n : Nat) (z : Entry) : Entry := { z with st := .running, pick := n }

theorem State.loopMark_eq (s : State) (x : Entry) : ∃ n, s.loopMark x = s.setEntry x.acc (Entry.begins n) := by
  unfold State.loopMark
  split
  · exact ⟨_, rfl⟩
  · exact ⟨_, rfl⟩

theorem State.takeLoop_due {s : State} {e op : Nat} {x : Entry} (f : State → Entry → State) (hx : s.startable e op = some x)
    (hi : (s.part x.part).st.idle = false) (hj : (s.part x.part).job.joined = true) (hd : s.loopDue x = true) (hb : (s.followsJob x && s.behind x) = false) :
    s.takeLoop e op true f = f (s.loopMark x) x := by
  simp only [State.takeLoop, hx, hi, Bool.false_eq_true, if_false, if_true, State.asMember_joined _ hj, hd, hb, Bool.not_false, Bool.and_self]

-- ## The checks of SEQ_ADMIT in order (R404)

section
variable {s : State} {x : Entry} {b : List Byte} (hst : (s.loop x.part x.loop).st = .running) (ha : x.arg0 % 64 = 0)
  (hb : s.fetch (s.entryCtx x) x.arg0 64 = some b)
include hst ha hb

theorem seqAdmitNow_invalid (hok : s.admitOk (s.entryCtx x) x.part x.loop (field x.arg1 8 8) (bitAt x.arg1 16) b = false) :
    seqAdmitNow s x = s.invalid x.acc := by
  simp [seqAdmitNow, hst, ha, State.need_of_fetch hb, hok]

variable (hok : s.admitOk (s.entryCtx x) x.part x.loop (field x.arg1 8 8) (bitAt x.arg1 16) b = true)
include hok

theorem seqAdmitNow_mismatch (hf : s.formNow x.part x.loop = none) : seqAdmitNow s x = s.complete x.acc stVersionMismatch 0 := by
  simp [seqAdmitNow, hst, ha, State.need_of_fetch hb, hok, hf]

variable {v : Version} (hf : s.formNow x.part x.loop = some v) (hh : s.handle x.part x.loop (le b 24 4) = none)
include hf hh

theorem seqAdmitNow_full (hfull : ∀ k, k < (s.loop x.part x.loop).maxSeqs → ∃ q ∈ (s.loop x.part x.loop).seqs, q.slot = k) :
    seqAdmitNow s x = s.complete x.acc stPoolExhausted 0 := by
  have hnone : firstIdx (s.loop x.part x.loop).maxSeqs (fun k => (s.seqX x.part x.loop k).isNone) = none := by
    rw [firstIdx, List.find?_eq_none]
    intro k hk
    obtain ⟨q, hq, hslot⟩ := hfull k (List.mem_range.1 hk)
    simp only [State.seqX, Option.isNone_iff_eq_none, List.find?_eq_none, not_forall]
    exact ⟨q, hq, by simpa using hslot⟩
  simp [seqAdmitNow, hst, ha, State.need_of_fetch hb, hok, hf, hh, hnone]

theorem seqAdmitNow_enters {k : Nat} (hk : k < (s.loop x.part x.loop).maxSeqs) (hfree : ∀ q ∈ (s.loop x.part x.loop).seqs, q.slot ≠ k)
    (hlow : ∀ j, j < k → ∃ q ∈ (s.loop x.part x.loop).seqs, q.slot = j) :
    seqAdmitNow s x = s.enterSeq x b k v.number ((s.adapterOk x.part (le b 28 4)).getD 0) := by
  have hfirst : firstIdx (s.loop x.part x.loop).maxSeqs (fun k => (s.seqX x.part x.loop k).isNone) = some k := by
    refine firstIdx_of_first hk ?_ (fun j hj => ?_)
    · simp only [State.seqX, Option.isNone_iff_eq_none, List.find?_eq_none]
      intro q hq
      simpa using hfree q hq
    · obtain ⟨q, hq, hslot⟩ := hlow j hj
      simp only [State.seqX, Option.isNone_eq_false_iff, List.find?_isSome]
      exact ⟨q, hq, by simpa using hslot⟩
  simp [seqAdmitNow, hst, ha, State.need_of_fetch hb, hok, hf, hh, hfirst]

end

-- ## What a sequence that enters leaves (R35, R406)

/-- The tables after a sequence has entered: its row stands in its slot, and only the two tables' bytes differ. -/
theorem State.enterTables_row {s : State} {x : Entry} {b : List Byte} {k w gen : Nat} (hf : s.flips = []) (hk : k < (s.loop x.part x.loop).maxSeqs)
    (hsp : gSpace (s.loop x.part x.loop).seqTable = 0) (hpt : gSpace (s.loop x.part x.loop).ptArea = 0)
    (hend : gOffset (s.loop x.part x.loop).seqTable + 128 * (s.loop x.part x.loop).maxSeqs ≤ 2 ^ 48)
    (hptend : gOffset (s.loop x.part x.loop).ptArea + 4 * (s.loop x.part x.loop).maxSeqs * (s.loop x.part x.loop).ptEntries ≤ 2 ^ 48)
    (hapart : gOffset (s.loop x.part x.loop).seqTable + 128 * (s.loop x.part x.loop).maxSeqs ≤ gOffset (s.loop x.part x.loop).ptArea ∨
      gOffset (s.loop x.part x.loop).ptArea + 4 * (s.loop x.part x.loop).maxSeqs * (s.loop x.part x.loop).ptEntries ≤
        gOffset (s.loop x.part x.loop).seqTable) :
    s.keeps (s.enterTables x b k w gen) [.mem, .memCtl] ∧ (s.enterTables x b k w gen).memCtl.gates = s.memCtl.gates ∧
      ∀ i (h : i < (seqRow x b w gen (s.loop x.part x.loop).admitOrder).length),
        (s.enterTables x b k w gen).rd (s.dataKey 0 (gOffset (s.loop x.part x.loop).seqTable + 128 * k + i)) =
          (seqRow x b w gen (s.loop x.part x.loop).admitOrder)[i] := by
  have hlen := length_seqRow x b w gen (s.loop x.part x.loop).admitOrder
  have hlt : gOffset (s.loop x.part x.loop).seqTable + 128 * k < 2 ^ 48 := by omega
  have hoff : gOffset ((s.loop x.part x.loop).seqTable + 128 * k) = gOffset (s.loop x.part x.loop).seqTable + 128 * k := gOffset_add hlt
  have hspace : gSpace ((s.loop x.part x.loop).seqTable + 128 * k) = 0 := (gSpace_add hlt).trans hsp
  obtain ⟨hin, -⟩ := State.writeAt_holdsData hf (c := partCtx x.part) rfl (bs := seqRow x b w gen (s.loop x.part x.loop).admitOrder)
    (by rw [hspace]; decide) (by rw [hoff, hlen]; omega)
  rw [hspace, hoff] at hin
  have hrow := State.writeAt_writesHbm hf (c := partCtx x.part) rfl (bs := seqRow x b w gen (s.loop x.part x.loop).admitOrder) hspace
    (Nat.zero_le _) (hi := 2 ^ 48) (by rw [hoff, hlen]; omega) le_rfl
  have hputs := State.ptPuts_writesHbm (p := x.part) (l := x.loop) hk hpt hptend (List.range (s.loop x.part x.loop).ptEntries) _
    ((State.writesHbm_flips hrow).trans hf) (State.writesHbm_loop hrow _ _) (fun i hi => List.mem_range.1 hi)
  refine ⟨State.keeps_trans hrow.1 hputs.1, hputs.2.1.trans hrow.2.1, fun i h => (hputs.2.2 _ fun o hlo hhi hkey => ?_).trans (hin i h)⟩
  rw [State.dataKey_of_gates hrow.2.1] at hkey
  have := State.dataKey_inj (by omega) (by omega) hkey
  omega

end Sys2Proof.Machine
end

section
/-!
PROOFS. The cases of SEQ_ADMIT put together (O42).
-/

namespace Sys2Proof.Machine

/-- An entry marked at its boundary stands. -/
theorem State.begins_entry {s : State} {x : Entry} (n : Nat) (hx : s.entry x.acc = some x) :
    (s.setEntry x.acc (Entry.begins n)).entry x.acc = some (x.begins n) :=
  State.setEntry_entry s x.acc (Entry.begins n) (fun _ => rfl) x hx

/-- A marked entry that completes completes as itself. -/
theorem State.gives_of_marked {s : State} {c : Instr} {x : Entry} {n st res : Nat}
    (h : exec c s = finishDeferred ((s.setEntry x.acc (Entry.begins n)).complete x.acc st res)) (hd : s.deferred = []) (hx : s.entry x.acc = some x)
    (hp : x.parked = none) : s.gives c (fun t => State.completed x st res t ∧ s.keeps t [.entries, .rings]) := by
  have hk : s.keeps ((s.setEntry x.acc (Entry.begins n)).complete x.acc st res) [.entries, .rings] :=
    State.keeps_step (State.keeps_mono (s.setEntry_keeps _ _) (by decide)) (State.complete_keeps _ _ _ _)
  refine State.gives_of_finishDeferred h (State.deferred_of_keeps hk (by decide) hd) ⟨State.completed_settle ?_, State.keeps_settled hk⟩
  exact State.completed_congr (y := x.begins n) rfl rfl rfl rfl rfl (State.complete_completed _ x.acc st res _ (State.begins_entry n hx) hp)

theorem State.invalid_of_entry {s : State} {x y : Entry} (h : s.entry x.acc = some y) : s.invalid x.acc = s.complete x.acc stInvalid y.result0 := by
  simp [State.invalid, State.endEntry, h]

theorem State.settle_seqGet (s : State) (p l k o n : Nat) : (settle s).seqGet p l k o n = s.seqGet p l k o n := by
  simp only [State.seqGet, State.readAt, State.keyOf, State.flipOffset, settle_rd]
  rfl

section
variable {s : State} {x : Entry} {b : List Byte} {k w gen : Nat} (hf : s.flips = []) (hk : k < (s.loop x.part x.loop).maxSeqs)
  (hsp : gSpace (s.loop x.part x.loop).seqTable = 0) (hpt : gSpace (s.loop x.part x.loop).ptArea = 0)
  (hend : gOffset (s.loop x.part x.loop).seqTable + 128 * (s.loop x.part x.loop).maxSeqs ≤ 2 ^ 48)
  (hptend : gOffset (s.loop x.part x.loop).ptArea + 4 * (s.loop x.part x.loop).maxSeqs * (s.loop x.part x.loop).ptEntries ≤ 2 ^ 48)
  (hapart : gOffset (s.loop x.part x.loop).seqTable + 128 * (s.loop x.part x.loop).maxSeqs ≤ gOffset (s.loop x.part x.loop).ptArea ∨
    gOffset (s.loop x.part x.loop).ptArea + 4 * (s.loop x.part x.loop).maxSeqs * (s.loop x.part x.loop).ptEntries ≤
      gOffset (s.loop x.part x.loop).seqTable)
  (hh : s.handle x.part x.loop (le b 24 4) = none) (ha : le b 28 4 = 0) (had : ∀ a ∈ (s.part x.part).adapters, a.id ≠ 0)
include hf hk hsp hpt hend hptend hapart hh ha had

/-- A sequence without handle and adapter enters WAITING: its loop, its entry, the latch on its version and its row. -/
theorem State.enterSeq_enters {y : Entry} (hy : s.entry x.acc = some y) :
    ∃ t, s.enterSeq x b k w gen = t ∧ t.loop x.part x.loop = (s.loop x.part x.loop).admits k x.acc y.pick ∧
      t.entry x.acc = some { y with result := w + 2 ^ 32 * b2n (bitAt x.arg1 16) } ∧ (t.part x.part).job = (s.part x.part).job.latches w ∧
      (∀ j, j ≠ x.part → t.part j = s.part j) ∧ s.keeps t [.mem, .memCtl, .parts, .entries] ∧
      ∀ o n, o + n ≤ 128 → 0 < n →
        t.seqGet x.part x.loop k o n = le (seqRow x b w gen (s.loop x.part x.loop).admitOrder) o n := by
  obtain ⟨huk, hgates, hrow⟩ := State.enterTables_row (b := b) (w := w) (gen := gen) hf hk hsp hpt hend hptend hapart
  have hpart : ∀ j, (s.enterTables x b k w gen).part j = s.part j := State.part_of_keeps huk (by decide)
  have hplain := State.enterSeq_plain (w := w) (gen := gen) (k := k) hy hh ha (by rw [hpart]; exact had)
  have huentry : (s.enterTables x b k w gen).entry x.acc = some y := (congrArg (fun l : List Entry => l.find? _) (huk .entries (by decide))).trans hy
  generalize s.enterTables x b k w gen = u at *
  have hlatched : (u.latch x.part w).part x.part = { s.part x.part with job := (s.part x.part).job.latches w } := by rw [State.latch_part_same, hpart]
  have hloop : (u.latch x.part w).loop x.part x.loop = s.loop x.part x.loop := by
    rw [State.loop, hlatched]
    rfl
  have hother : ∀ j, j ≠ x.part → (u.latch x.part w).part j = s.part j := fun j hj =>
    ((u.setJob_part x.part j (Job.latches w)).trans (if_neg hj)).trans (hpart j)
  have hkeeps : s.keeps (((u.latch x.part w).setLoop x.part x.loop (Loop.admits k x.acc y.pick)).setEntry x.acc
      (fun e => { e with result := w + 2 ^ 32 * b2n (bitAt x.arg1 16) })) [.mem, .memCtl, .parts, .entries] :=
    State.keeps_step (State.keeps_step (State.keeps_step (State.keeps_mono huk (by decide)) (u.setJob_keeps _ _)) (State.setLoop_keeps _ _ _ _))
      (State.setEntry_keeps _ _ _)
  have hparts : ∀ j, ((u.latch x.part w).setLoop x.part x.loop (Loop.admits k x.acc y.pick)).part j =
      if j = x.part then { s.part x.part with
        job := (s.part x.part).job.latches w
        loops := tset {} (s.part x.part).loops x.loop ((s.loop x.part x.loop).admits k x.acc y.pick) } else s.part j := fun j => by
    rw [State.setLoop_part, hlatched, hloop]
    split
    · rfl
    · next h => exact hother j h
  have htloop := (State.setLoop_loop_same (u.latch x.part w) x.part x.loop (Loop.admits k x.acc y.pick)).trans (by rw [hloop])
  have htentry := State.setEntry_entry ((u.latch x.part w).setLoop x.part x.loop (Loop.admits k x.acc y.pick)) x.acc
    (fun e => { e with result := w + 2 ^ 32 * b2n (bitAt x.arg1 16) }) (fun _ => rfl) y huentry
  refine ⟨_, hplain, htloop, htentry, congrArg Part.job ((hparts x.part).trans (if_pos rfl)), fun j hj => (hparts j).trans (if_neg hj), hkeeps,
    fun o n hn hn0 => ?_⟩
  have hlen := length_seqRow x b w gen (s.loop x.part x.loop).admitOrder
  have htable := congrArg Loop.seqTable htloop
  have hsame : ((s.loop x.part x.loop).admits k x.acc y.pick).seqTable = (s.loop x.part x.loop).seqTable := rfl
  rw [hsame] at htable
  refine State.seqGet_of_row ?_ ((congrArg gSpace htable).trans hsp) ?_ (fun i h => ?_) (hlen.symm ▸ hn) hn0
  · refine (State.flips_of_regs (hkeeps .regs (by decide)) (fun j => ?_)).trans hf
    refine (congrArg Part.st (hparts j)).trans ?_
    split
    · next h => rw [h]
    · rfl
  · rw [hlen]
    refine le_trans (le_of_eq (congrArg (fun a => gOffset a + 128 * k + 128) htable)) ?_
    omega
  · refine Eq.trans ?_ (hrow i h)
    refine (congrArg (fun a => u.rd (u.dataKey 0 (gOffset a + 128 * k + i))) htable).trans ?_
    rw [State.dataKey_of_gates hgates]

end

/-- Settles O42: the checks of SEQ_ADMIT in order, and the sequence that enters WAITING. -/
theorem sequencesAreTakenIn : Obligations.SequencesAreTakenIn := by
  rintro s e p l x b hd hx rfl rfl hi hj hdue hbeh hst harg hb
  obtain ⟨hent, hpark⟩ := State.startable_some hx
  obtain rfl := State.startable_acc hx
  obtain ⟨n, hmark⟩ := s.loopMark_eq x
  have hexec : exec (.seqAdmit x.acc) s = finishDeferred (s.takeLoop x.acc 0x11 true seqAdmitNow) := rfl
  rw [State.takeLoop_due _ hx hi hj hdue hbeh, hmark] at hexec
  refine ⟨fun hok => ?_, fun hok hh => ⟨fun hf => ?_, fun v hf => ⟨fun hfull => ?_, fun k hk hfree hlow ha had hflips hsp hpt hend hptend hapart => ?_⟩⟩⟩
  · rw [seqAdmitNow_invalid (s := s.setEntry x.acc (Entry.begins n)) hst harg hb hok, State.invalid_of_entry (State.begins_entry n hent)] at hexec
    exact State.gives_of_marked hexec hd hent hpark
  · rw [seqAdmitNow_mismatch (s := s.setEntry x.acc (Entry.begins n)) hst harg hb hok hf] at hexec
    exact State.gives_of_marked hexec hd hent hpark
  · rw [seqAdmitNow_full (s := s.setEntry x.acc (Entry.begins n)) hst harg hb hok hf hh hfull] at hexec
    exact State.gives_of_marked hexec hd hent hpark
  · rw [seqAdmitNow_enters (s := s.setEntry x.acc (Entry.begins n)) hst harg hb hok hf hh hk hfree hlow] at hexec
    obtain ⟨t, ht, hloop, hentry, hjob, hother, hkeeps, hrow⟩ := State.enterSeq_enters (s := s.setEntry x.acc (Entry.begins n)) (w := v.number)
      (gen := ((s.setEntry x.acc (Entry.begins n)).adapterOk x.part (le b 28 4)).getD 0) hflips hk hsp hpt hend hptend hapart hh ha had
      (State.begins_entry n hent)
    rw [ht] at hexec
    have hall : s.keeps t [.mem, .memCtl, .parts, .entries] := State.keeps_step (State.keeps_mono (s.setEntry_keeps _ _) (by decide)) hkeeps
    obtain ⟨htag, hstate, hver, hpos, hlen, hgen⟩ := seqRow_fields x b v.number
      (((s.setEntry x.acc (Entry.begins n)).adapterOk x.part (le b 28 4)).getD 0) ((s.setEntry x.acc (Entry.begins n)).loop x.part x.loop).admitOrder
    refine State.gives_of_finishDeferred hexec (State.deferred_of_keeps hall (by decide) hd)
      ⟨⟨_, hloop, rfl, rfl, rfl, rfl⟩, ⟨_, hentry, rfl, rfl⟩, hjob, ?_, ?_, ?_, ?_, ?_, ?_, hother, State.keeps_settled hall⟩
    · exact (t.settle_seqGet _ _ _ 5 1).trans ((hrow 5 1 (by decide) (by decide)).trans hstate)
    · exact (t.settle_seqGet _ _ _ 0 4).trans ((hrow 0 4 (by decide) (by decide)).trans htag)
    · exact (t.settle_seqGet _ _ _ 8 4).trans ((hrow 8 4 (by decide) (by decide)).trans hver)
    · exact (t.settle_seqGet _ _ _ 24 4).trans ((hrow 24 4 (by decide) (by decide)).trans hpos)
    · exact (t.settle_seqGet _ _ _ 28 4).trans ((hrow 28 4 (by decide) (by decide)).trans hlen)
    · exact (t.settle_seqGet _ _ _ 36 4).trans ((hrow 36 4 (by decide) (by decide)).trans hgen)

end Sys2Proof.Machine
end

section
/-!
PROOFS. SWAP_OUT_COMPLETE under an armed fault (O45): the sequence's own bookkeeping spoils the line in which its status record lies, and the reaction to
that is a chip reset (R436, R442), after which no entry is outstanding.
-/

namespace Sys2Proof.Machine

-- ## A fault event whose reaction is the chip reset (R436)

/-- After a chip reset nothing is outstanding. -/
theorem State.raiseWith_entries_of_chipReset {s : State} {ev : FaultEv} (injected : Bool) (h : s.react ev.source = 4) :
    (s.raiseWith ev injected).entries = [] := by
  simp only [State.raiseWith, h, show (4 : Nat) ≠ 2 by decide, show (4 : Nat) ≠ 3 by decide, if_false, if_true]
  rfl

/-- A line that reads uncorrectable, where REACT of its source is the chip reset and its table has room. -/
theorem State.poisonLine_entries_of_chipReset {s : State} {sp o : Nat} (part : Option Nat) (hfull : s.tableFull sp (unitOf sp o) = false)
    (hreact : s.react (unitSource (unitClass sp) (unitOf sp o)).1 = 4) : (s.poisonLine sp o true part).entries = [] := by
  simp only [State.poisonLine, hfull, Bool.false_eq_true, if_false]
  split
  · exact State.raiseWith_entries_of_chipReset true hreact
  · exact State.raiseWith_entries_of_chipReset true hreact

theorem State.drainDeferred_of_line {s : State} {k : Nat} {part : Option Nat} (h : s.deferred = [.line k part]) :
    s.drainDeferred = State.poisonLine { s with deferred := [] } (k / 2 ^ 48 % 0x20) (k % 2 ^ 48) true part := by
  simp only [State.drainDeferred, h, List.foldl_cons, List.foldl_nil]

-- ## The state that refutes the swap's clause

/-- A sequence on its way out, and the SEQ_ADMIT that took it in, of a host that is not administrative. -/
def swapSeq : SeqX := { slot := 0, acc := 1, admitPick := 0, moving := 1 }

def swapEntry : Entry := { acc := 1, port := 0, ring := 0, func := 1, admin := false, bytes := [], st := .running, home := (0, 0) }

/-- Its sequence table starts HBM, its STATUS is byte 8 of its own entry; the unit of that line is armed for one write, and REACT of the stack is the chip
reset. -/
def spoiledSwap : State :=
  { mem := [(80, 8)], regs := [((Reg.partGroups 0).offset, 1), ((Reg.knotSrc 32).offset, 4)], entries := [swapEntry]
    parts := [(0, { loops := [(0, { seqs := [swapSeq] })] })], memCtl := { armed := [(unitOfKey 0, 1)] } }

/-- The swap writes the state into the entry, which spoils the line, and then meets the line with the record. -/
theorem swapOutDone_spoiledSwap : (swapOutDone spoiledSwap 0 0 0).deferred = [.line 0 (some 0)] := rfl

theorem swapOutDone_spoiledSwap_room :
    State.tableFull { swapOutDone spoiledSwap 0 0 0 with deferred := [] } (0 / 2 ^ 48 % 0x20) (unitOf (0 / 2 ^ 48 % 0x20) (0 % 2 ^ 48)) = false := rfl

theorem swapOutDone_spoiledSwap_react :
    State.react { swapOutDone spoiledSwap 0 0 0 with deferred := [] }
      (unitSource (unitClass (0 / 2 ^ 48 % 0x20)) (unitOf (0 / 2 ^ 48 % 0x20) (0 % 2 ^ 48))).1 = 4 := rfl

/-- Refutes O45: SWAP_OUT_COMPLETE of a sequence whose STATUS lies in the first line of its own table entry, while a fault is armed for that line's
unit (R442) and the stack's REACT is 4: the record meets the spoiled line, the chip resets, and the SEQ_ADMIT does not stay outstanding. -/
theorem not_batchStepsBeginAndEnd : ¬ Obligations.BatchStepsBeginAndEnd := by
  unfold Obligations.BatchStepsBeginAndEnd
  rintro ⟨-, -, hswap, -⟩
  obtain ⟨t, hexec, -, -, -, hstays, -⟩ := hswap spoiledSwap 0 0 0 swapSeq swapEntry rfl rfl rfl rfl rfl rfl
  have hgone : (swapOutDone spoiledSwap 0 0 0).drainDeferred.entries = [] := by
    rw [State.drainDeferred_of_line swapOutDone_spoiledSwap]
    exact State.poisonLine_entries_of_chipReset _ swapOutDone_spoiledSwap_room swapOutDone_spoiledSwap_react
  have hrun : exec (.swapOutComplete 0 0 0) spoiledSwap = .next (settle (swapOutDone spoiledSwap 0 0 0).drainDeferred) := rfl
  rw [hrun] at hexec
  obtain rfl := Host.Outcome.next.inj hexec
  rw [State.entry, settle_entries, hgone] at hstays
  exact absurd hstays (by decide)

end Sys2Proof.Machine
end

section
/-!
PROOFS. The idle step (O6): which islands count, and what the looms' stall counts do.
-/

-- Proofs are elaborated one after another: side by side, the threads of the whole text outgrow the memory that the check allows.
set_option Elab.async false

namespace Sys2Proof.Machine

-- ## Tables mapped entry by entry

/-- An entry of a table whose entries change each by their key reads as the change of what it read, where the default stays. -/
theorem tget_map_keyed {α : Type} (d : α) (g : Nat → α → α) (hg : ∀ k, g k d = d) (l : List (Nat × α)) (k : Nat) :
    tget d (l.map (fun x => (x.1, g x.1 x.2))) k = g k (tget d l k) := by
  induction l with
  | nil => exact (hg k).symm
  | cons x l ih =>
    obtain ⟨a, v⟩ := x
    by_cases ha : a = k
    · subst ha
      simp [tget]
    · simp [tget, ha, ih]

-- ## Stall counts (R362)

/-- A count of 64 bits rises, and stays one of 64 bits. -/
theorem le_satInc {c : Nat} (h : c < 2 ^ 64) (n : Nat) : c ≤ satInc 64 c n := by
  unfold satInc
  omega

/-- No stall count of 64 bits falls. -/
def stallsRise (a b : List (Nat × Nat)) : Prop := ∀ c, tget 0 a c < 2 ^ 64 → tget 0 a c ≤ tget 0 b c ∧ tget 0 b c < 2 ^ 64

theorem stallsRise_refl (a : List (Nat × Nat)) : stallsRise a a := fun _ h => ⟨Nat.le_refl _, h⟩

theorem stallsRise_trans {a b c : List (Nat × Nat)} (h1 : stallsRise a b) (h2 : stallsRise b c) : stallsRise a c := fun k h =>
  ⟨Nat.le_trans (h1 k h).1 (h2 k (h1 k h).2).1, (h2 k (h1 k h).2).2⟩

theorem stallsRise_add (a : List (Nat × Nat)) (k n : Nat) : stallsRise a (tset 0 a k (satInc 64 (tget 0 a k) n)) := by
  intro c hc
  rw [tget_tset]
  split
  · next heq =>
    subst heq
    exact ⟨le_satInc hc n, by unfold satInc; omega⟩
  · exact ⟨Nat.le_refl _, hc⟩

/-- Between two states only the stall counts of partitions that are enabled differ, and none of them falls. -/
def State.onlyStalls (s t : State) : Prop :=
  s.keeps t [.parts] ∧ ∀ p, (∃ st, t.part p = { s.part p with stall := st } ∧ stallsRise (s.part p).stall st) ∧
    ((s.part p).st.idle = true → t.part p = s.part p)

theorem State.onlyStalls_refl (s : State) : s.onlyStalls s := ⟨s.keeps_refl _, fun _ => ⟨⟨_, rfl, stallsRise_refl _⟩, fun _ => rfl⟩⟩

theorem State.onlyStalls_trans {s t u : State} (h1 : s.onlyStalls t) (h2 : t.onlyStalls u) : s.onlyStalls u := by
  refine ⟨State.keeps_trans h1.1 h2.1, fun p => ?_⟩
  obtain ⟨⟨st, ht, hrise⟩, hidle⟩ := h1.2 p
  obtain ⟨⟨st', hu, hrise'⟩, hidle'⟩ := h2.2 p
  rw [ht] at hu hrise' hidle'
  exact ⟨⟨st', hu, stallsRise_trans hrise hrise'⟩, fun hi => (hidle' hi).trans (ht.symm.trans (hidle hi))⟩

theorem State.onlyStalls_st {s t : State} (h : s.onlyStalls t) (p : Nat) : (t.part p).st = (s.part p).st := by
  obtain ⟨⟨st, ht, -⟩, -⟩ := h.2 p
  rw [ht]

theorem State.countStall_onlyStalls {s : State} {p : Nat} (h : (s.part p).st.idle = false) (l n : Nat) : s.onlyStalls (s.countStall p l n) := by
  refine ⟨s.setPart_keeps p _, fun k => ?_⟩
  unfold State.countStall
  dsimp only
  rw [State.setPart_part]
  split
  · next heq =>
    subst heq
    exact ⟨⟨_, rfl, stallsRise_trans (stallsRise_add _ _ _) (stallsRise_add _ _ _)⟩, fun hi => absurd (h.symm.trans hi) (by decide)⟩
  · exact ⟨⟨_, rfl, stallsRise_refl _⟩, fun _ => rfl⟩

/-- The looms of one enabled partition count. -/
theorem State.countLooms_onlyStalls (p : Nat) (ls : List Nat) : ∀ s : State, (s.part p).st.idle = false →
    s.onlyStalls (ls.foldl (fun s l =>
      if (s.loomIsland l).on && !s.isRetired 0 l then s.countStall p l (Config.freeCycles s.draws (l / 8)) else s) s) := by
  induction ls with
  | nil => exact fun s _ => s.onlyStalls_refl
  | cons l ls ih =>
    intro s hs
    rw [List.foldl_cons]
    split
    · have h1 := State.countStall_onlyStalls hs l (Config.freeCycles s.draws (l / 8))
      exact State.onlyStalls_trans h1 (ih _ ((State.onlyStalls_st h1 p).symm ▸ hs))
    · exact ih s hs

theorem State.countStalls_onlyStalls (s : State) : s.onlyStalls s.countStalls := by
  unfold State.countStalls
  generalize List.range 16 = ps
  induction ps generalizing s with
  | nil => exact s.onlyStalls_refl
  | cons p ps ih =>
    rw [List.foldl_cons]
    split
    · exact ih s
    · next hi => exact State.onlyStalls_trans (State.countLooms_onlyStalls p _ s (by simpa using hi)) (ih _)

-- ## Islands (R54)

/-- An island's record after an idle step. -/
def Island.ticked (n i : Nat) (x : Island) : Island := if x.counts then { x with cycle := (x.cycle + Config.freeCycles n i) % 2 ^ 48 } else x

/-- The state once every island has ticked. -/
def State.ticked (u : State) (n : Nat) : State :=
  { u with islands := tcanon {} (u.islands.map (fun x => (x.1, Island.ticked n x.1 x.2))), draws := n + 1 }

theorem idle_eq (s : State) : idle s = settle (s.countStalls.ticked s.draws) := rfl

theorem State.ticked_island (u : State) (n i : Nat) : (u.ticked n).island i = (u.island i).ticked n i :=
  (tget_tcanon _ _ _).trans (tget_map_keyed {} (Island.ticked n) (fun _ => rfl) u.islands i)

theorem State.ticked_keeps (u : State) (n : Nat) : u.keeps (u.ticked n) [.islands, .draws] := by
  intro f hf
  cases f <;> simp_all [Field.same, State.rd, State.ticked]

theorem idle_keeps (s : State) : s.keeps (idle s) [.islands, .parts, .draws] := by
  rw [idle_eq]
  exact State.keeps_settled (State.keeps_step (State.keeps_mono s.countStalls_onlyStalls.1 (by decide)) (State.ticked_keeps _ _))

theorem idle_island (s : State) (i : Nat) : (idle s).island i = (s.island i).ticked s.draws i := by
  have hislands : s.countStalls.islands = s.islands := s.countStalls_onlyStalls.1 .islands (by decide)
  have hsettle : ∀ u : State, (settle u).island i = u.island i := fun _ => rfl
  rw [idle_eq, hsettle, State.ticked_island, State.island, hislands]
  rfl

theorem idle_part (s : State) (p : Nat) : (idle s).part p = s.countStalls.part p := by
  have hsettle : ∀ (u : State) n, (settle (u.ticked n)).part p = u.part p := fun _ _ => rfl
  rw [idle_eq, hsettle]

/-- Settles O6: the counters by the record of each island, the stall counts by what one loom's count changes. -/
theorem idleCountsIslands : Obligations.IdleCountsIslands := by
  intro s t hpending hstep
  have ht : idle s = t := by
    rw [step, hpending] at hstep
    exact Host.Outcome.next.inj hstep
  subst ht
  have hpart := s.countStalls_onlyStalls.2
  refine ⟨fun i hc => ?_, fun i hc => ?_, fun i => ?_, fun p => ?_, fun p hi => (idle_part s p).trans ((hpart p).2 hi), fun p c hc => ?_, idle_keeps s⟩
  · simp only [idle_island, Island.ticked, hc, Bool.false_eq_true, if_false]
  · simp only [idle_island, Island.ticked, hc, if_true]
  · rw [idle_island, Island.ticked]
    split <;> exact ⟨rfl, rfl, rfl⟩
  · obtain ⟨⟨st, hst, -⟩, -⟩ := hpart p
    exact ⟨st, (idle_part s p).trans hst⟩
  · obtain ⟨⟨st, hst, hrise⟩, -⟩ := hpart p
    rw [idle_part, hst]
    exact (hrise c hc).1

end Sys2Proof.Machine
end

section
/-!
PROOFS. Ident blocks of two ends that face each other (O22): the fields of a block, its CRC, and the neighbour of a neighbour.
-/

-- Proofs are elaborated one after another: side by side, the threads of the whole text outgrow the memory that the check allows.
set_option Elab.async false

namespace Sys2Proof.Machine

-- ## CRC-32 (R268)

theorem crc32Shift_lt {c : Nat} (h : c < 2 ^ 32) (k : Nat) : crc32Shift k c < 2 ^ 32 := by
  induction k generalizing c with
  | zero => exact h
  | succ k ih =>
    rw [crc32Shift]
    refine ih ?_
    split
    · exact Nat.xor_lt_two_pow (by omega) (by decide)
    · omega

/-- A CRC-32 has 32 bits. -/
theorem crc32_lt (bs : List Byte) : crc32 bs < 2 ^ 32 := by
  have hfold : ∀ (l : List Byte) (c : Nat), c < 2 ^ 32 → l.foldl (fun c b => crc32Shift 8 (c ^^^ b.toNat)) c < 2 ^ 32 := by
    intro l
    induction l with
    | nil => exact fun _ h => h
    | cons b l ih =>
      intro c hc
      have hb : b.toNat < 2 ^ 32 := lt_of_lt_of_le b.isLt (by decide)
      exact ih _ (crc32Shift_lt (Nat.xor_lt_two_pow hc hb) 8)
  exact Nat.xor_lt_two_pow (hfold bs _ (by decide)) (by decide)

/-- A byte string followed by its CRC passes the check. -/
theorem crc32_appended {b : List Byte} {n : Nat} (h : b.length = n) :
    crc32 ((b ++ leBytes 4 (crc32 b)).take n) = le (b ++ leBytes 4 (crc32 b)) n 4 := by
  have hcrc : crc32 b < 256 ^ 4 := crc32_lt b
  rw [List.take_left' h, le, slice_append_of_le h.le, h, Nat.sub_self, slice, List.drop_zero, List.take_of_length_le (by simp), ofLe_leBytes,
    Nat.mod_eq_of_lt hcrc]

-- ## The fields of an ident block (R268)

/-- A number written as the next field of a byte string is read there. -/
theorem le_leBytes_append (n v : Nat) (b : List Byte) : le (leBytes n v ++ b) 0 n = v % 256 ^ n := by
  rw [le, slice_append_left (length_leBytes n v), ofLe_leBytes]

/-- A field behind the first one is read in the rest. -/
theorem le_leBytes_append_of_le {n o : Nat} (h : n ≤ o) (v : Nat) (b : List Byte) (k : Nat) : le (leBytes n v ++ b) o k = le b (o - n) k := by
  rw [le, slice_append_of_le (by simpa using h), length_leBytes, le]

/-- What a block says of its sender: the module, the port and lane, the domain, the versions. -/
theorem State.identBlock_fields (s : State) (l : Nat) :
    le (s.identBlock l) 0 2 = s.moduleNum % 65536 ∧ le (s.identBlock l) 2 1 = (l / 16 + 8 * (l % 16)) % 256 ∧
      le (s.identBlock l) 4 2 = s.domain % 65536 ∧ le (s.identBlock l) 6 2 = s.boot.image.protoMin % 65536 ∧
      le (s.identBlock l) 8 2 = s.boot.image.protoMax % 65536 := by
  unfold State.identBlock
  simp only [List.append_assoc]
  refine ⟨?_, ?_, ?_, ?_, ?_⟩ <;> simp [le_leBytes_append, le_leBytes_append_of_le]

theorem State.identBlock_length (s : State) (l : Nat) : (s.identBlock l).length = 32 := by simp [State.identBlock]

theorem State.identBlock_crc (s : State) (l : Nat) : crc32 ((s.identBlock l).take 28) = le (s.identBlock l) 28 4 := by
  unfold State.identBlock
  exact crc32_appended (by simp)

-- ## Neighbours (R47, R264)

/-- A step forward in a ring of `n` and a step back, in either order. -/
theorem ring_there_and_back {c n : Nat} (h : c < n) : ((c + 1) % n + n - 1) % n = c ∧ ((c + n - 1) % n + 1) % n = c := by
  constructor
  · rcases (by omega : c + 1 < n ∨ c + 1 = n) with h1 | h1
    · rw [Nat.mod_eq_of_lt h1, show c + 1 + n - 1 = c + n by omega, Nat.add_mod_right, Nat.mod_eq_of_lt h]
    · rw [h1, Nat.mod_self, Nat.zero_add, Nat.mod_eq_of_lt (by omega)]
      omega
  · rcases Nat.eq_zero_or_pos c with rfl | hc
    · rw [Nat.zero_add, Nat.mod_eq_of_lt (by omega : n - 1 < n), Nat.sub_add_cancel h, Nat.mod_self]
    · rw [show c + n - 1 = c - 1 + n by omega, Nat.add_mod_right, Nat.mod_eq_of_lt (by omega : c - 1 < n), Nat.sub_add_cancel hc, Nat.mod_eq_of_lt h]

/-- A module number with its coordinate in a dimension replaced. -/
def withCoord (m d c : Nat) : Nat := m - coord m d * 16 ^ d + c * 16 ^ d

theorem coord_mul_le (m d : Nat) : coord m d * 16 ^ d ≤ m :=
  (Nat.mul_le_mul_right _ (Nat.mod_le _ _)).trans (Nat.div_mul_le_self m _)

theorem coord_withCoord {m d c : Nat} (h : c < 16) : coord (withCoord m d c) d = c := by
  have hpos : 0 < 16 ^ d := by positivity
  have hm : m = 16 ^ d * (16 * (m / 16 ^ d / 16) + coord m d) + m % 16 ^ d := by
    rw [coord, Nat.div_add_mod, Nat.div_add_mod]
  have hw : withCoord m d c = m % 16 ^ d + 16 ^ d * (16 * (m / 16 ^ d / 16) + c) := by
    rw [withCoord]
    conv_lhs => rw [Nat.sub_eq_of_eq_add (b := coord m d * 16 ^ d) (c := 16 ^ d * (16 * (m / 16 ^ d / 16)) + m % 16 ^ d) (by linarith [hm])]
    ring
  rw [coord, hw, Nat.add_mul_div_left _ _ hpos, Nat.div_eq_of_lt (Nat.mod_lt _ hpos)]
  omega

/-- The old coordinate put back gives the old number. -/
theorem withCoord_withCoord {m d c : Nat} (h : c < 16) : withCoord (withCoord m d c) d (coord m d) = m := by
  have hle := coord_mul_le m d
  have hc := coord_withCoord (m := m) (d := d) h
  rw [withCoord, hc, withCoord, Nat.add_sub_cancel, Nat.sub_add_cancel hle]

/-- The coordinate a port faces from coordinate `c` in a ring of `n`. -/
def facedCoord (port c n : Nat) : Nat := if port % 2 = 0 then (c + 1) % n else (c + n - 1) % n

theorem State.neighbour_eq (s : State) (port : Nat) :
    s.neighbour port = withCoord s.moduleNum (port / 2) (facedCoord port (coord s.moduleNum (port / 2)) (s.extent (port / 2))) := rfl

theorem State.extent_le (s : State) (d : Nat) : s.extent d ≤ 16 := by
  have : field (s.reg .wflTorus) (4 * d) 4 < 2 ^ 4 := Nat.mod_lt _ (by decide)
  unfold State.extent State.fld
  omega

/-- The module that a port faces faces it back by its opposite port, where both know the same extents. -/
theorem State.neighbour_neighbour {s u : State} {port back : Nat} (hd : back / 2 = port / 2) (hp : back % 2 = 1 - port % 2)
    (hu : u.moduleNum = s.neighbour port) (hc : coord s.moduleNum (port / 2) < s.extent (port / 2)) (hext : ∀ d, u.extent d = s.extent d) :
    u.neighbour back = s.moduleNum := by
  have hn := s.extent_le (port / 2)
  obtain ⟨hforth, hback⟩ := ring_there_and_back hc
  have hfaced : facedCoord port (coord s.moduleNum (port / 2)) (s.extent (port / 2)) < 16 := by
    have hlt : ∀ k, k % s.extent (port / 2) < 16 := fun k => lt_of_lt_of_le (Nat.mod_lt k (by omega)) hn
    unfold facedCoord
    split <;> exact hlt _
  have hreturn : facedCoord back (facedCoord port (coord s.moduleNum (port / 2)) (s.extent (port / 2))) (s.extent (port / 2)) =
      coord s.moduleNum (port / 2) := by
    rcases Nat.mod_two_eq_zero_or_one port with h | h <;> simp [facedCoord, hp, h, hforth, hback]
  rw [State.neighbour_eq, hd, hext, hu, State.neighbour_eq, coord_withCoord hfaced, hreturn, withCoord_withCoord hfaced]

-- ## The checks of the other end (R268, R269)

/-- Two ends whose version ranges overlap both choose the smaller of the greatest. -/
theorem State.commonVersion_identBlock {s u : State} {l : Nat} (hmin : s.boot.image.protoMin < 65536) (hmax : s.boot.image.protoMax < 65536)
    (h : max u.boot.image.protoMin s.boot.image.protoMin ≤ min u.boot.image.protoMax s.boot.image.protoMax) :
    u.commonVersion (s.identBlock l) = some (min u.boot.image.protoMax s.boot.image.protoMax) := by
  obtain ⟨-, -, -, hlo, hhi⟩ := s.identBlock_fields l
  simp [State.commonVersion, hlo, hhi, Nat.mod_eq_of_lt hmin, Nat.mod_eq_of_lt hmax, h]

/-- A block that comes from the neighbour's facing port and the same lane, of the same domain and with a common version, passes every check. -/
theorem State.identCause_identBlock {s u : State} {l m : Nat} (hl : l < 96) (hport : l / 16 = m / 16 / 2 * 2 + (1 - m / 16 % 2)) (hlane : l % 16 = m % 16)
    (hnum : s.moduleNum = u.neighbour (m / 16)) (hdom : s.domain = u.domain) (hver : (u.commonVersion (s.identBlock l)).isSome = true) :
    u.identCause m (s.identBlock l) = 0 := by
  obtain ⟨hmod, hpl, hd, -, -⟩ := s.identBlock_fields l
  have hsmallModule : s.moduleNum < 65536 := lt_trans (Nat.mod_lt _ (by decide)) (by decide : 4096 < 65536)
  rw [Nat.mod_eq_of_lt hsmallModule, hnum] at hmod
  have hsmallDomain : s.domain < 65536 := Nat.mod_lt _ (by decide)
  rw [Nat.mod_eq_of_lt hsmallDomain, hdom] at hd
  have hsmall : l / 16 + 8 * (l % 16) < 256 := by omega
  have hfieldPort : (l / 16 + 8 * (l % 16)) % 8 = m / 16 / 2 * 2 + (1 - m / 16 % 2) := by omega
  have hfieldLane : field (l / 16 + 8 * (l % 16)) 3 4 = m % 16 := by unfold field; omega
  have hnone : (u.commonVersion (s.identBlock l)).isNone = false := by rw [← Option.not_isSome, hver]; rfl
  simp only [State.identCause, hmod, hpl, hd, Nat.mod_eq_of_lt hsmall, hfieldPort, hfieldLane, hnone, ne_eq, not_true, or_self, if_false,
    Bool.false_eq_true]

/-- Settles O22: either block is the block of a facing end for the other. -/
theorem facingEndsIdentify : Obligations.FacingEndsIdentify := by
  intro s u l m hl hm hnum htorus hext hdom hsmin hsmax humin humax hover
  have hc : coord s.moduleNum (l / 16 / 2) < s.extent (l / 16 / 2) :=
    of_decide_eq_true (List.all_eq_true.1 htorus (l / 16 / 2) (List.mem_range.2 (by omega)))
  have hback : u.neighbour (m / 16) = s.moduleNum := State.neighbour_neighbour (by omega) (by omega) hnum hc hext
  have hsver := State.commonVersion_identBlock (u := s) (l := m) humin humax hover
  have huver := State.commonVersion_identBlock (u := u) (l := l) hsmin hsmax (by rwa [max_comm, min_comm])
  refine ⟨u.identBlock_length m, u.identBlock_crc m, ?_, hsver, s.identBlock_crc l, ?_, by rw [huver, min_comm]⟩
  · exact State.identCause_identBlock (by omega) (by omega) (by omega) hnum hdom (by rw [hsver]; rfl)
  · exact State.identCause_identBlock hl (by omega) (by omega) hback.symm hdom.symm (by rw [huver]; rfl)

end Sys2Proof.Machine
end

section
/-!
PROOFS. An exit to T0 that a fabric link's fault interrupts (O54): after T4 enabled links train (R464), one that cannot fails (R265), and where REACT of its
port is the chip reset (R436) the module is back in T4.
-/

-- Proofs are elaborated one after another: side by side, the threads of the whole text outgrow the memory that the check allows.
set_option Elab.async false

namespace Sys2Proof.Machine

-- ## Links after a chip reset (R436, R464)

/-- A chip reset leaves no link enabled. -/
theorem State.chipReset_linkEn (s : State) {l : Nat} (h : l < 96) : s.chipReset.linkEn l = false := by
  have hoff : alwaysOnBlock (Reg.wflPortCfg (l / 16)).offset = false := by
    have hblock : (0x500100 + 8 * (l / 16)) / 0x80000 = 10 := by omega
    simp [alwaysOnBlock, Reg.offset, hblock]
  have hnone : s.chipReset.regs.find? (fun e => e.1 == (Reg.wflPortCfg (l / 16)).offset) = none := by
    refine List.find?_eq_none.2 fun e he hkey => ?_
    have hon : alwaysOnBlock e.1 = true := (List.mem_filter.1 he).2
    rw [eq_of_beq hkey, hoff] at hon
    cases hon
  rw [State.linkEn, State.bit, State.reg, hnone]
  exact bitAt_zero _

/-- No link trains on a module whose links are not enabled. -/
theorem State.startLinks_of_disabled {s : State} (ls : List Nat) (h : ∀ l ∈ ls, s.linkEn l = false) : ls.foldl State.startLink s = s := by
  induction ls with
  | nil => rfl
  | cons l ls ih =>
    have hl : s.startLink l = s := by simp [State.startLink, h l (List.mem_cons_self ..)]
    rw [List.foldl_cons, hl, ih fun k hk => h k (List.mem_cons_of_mem _ hk)]

theorem State.wakeLinks_of_T4 (s : State) : s.wakeLinks 4 = (List.range 96).foldl State.startLink s := rfl

/-- Where the first link to train leads to a chip reset, no other link trains. -/
theorem State.wakeLinks_of_chipReset {s u : State} (h : s.startLink 0 = u.chipReset) : s.wakeLinks 4 = u.chipReset := by
  have hrange : List.range 96 = 0 :: (List.range 95).map Nat.succ := List.range_succ_eq_map
  rw [State.wakeLinks_of_T4, hrange, List.foldl_cons, h]
  refine State.startLinks_of_disabled _ fun l hl => State.chipReset_linkEn u ?_
  obtain ⟨k, hk, rfl⟩ := List.mem_map.1 hl
  have := List.mem_range.1 hk
  omega

-- ## A link that cannot train (R265, R267)

theorem State.writeFabricPage_keeps (s : State) : s.keeps s.writeFabricPage [.fabric, .mem, .ports] :=
  State.keeps_step (State.keeps_mono (s.keeps_fabric _) (by decide)) (State.putAdminPage_keeps _ _ _)

theorem State.setLink_writeFabricPage_keeps (s : State) (l : Nat) (x : Link) : s.keeps ((s.setLink l x).writeFabricPage) [.links, .fabric, .mem, .ports] :=
  State.keeps_step (State.keeps_mono (s.setLink_keeps l x) (by decide)) (State.writeFabricPage_keeps _)

/-- A reaction turns on the registers alone. -/
theorem State.react_of_keeps {s t : State} {fs : List Field} (h : s.keeps t fs) (hf : Field.regs ∉ fs) (i : Nat) : t.react i = s.react i := by
  have hregs : t.regs = s.regs := h .regs hf
  have hfld : t.fld (.knotSrc i) 0 3 = s.fld (.knotSrc i) 0 3 := by simp only [State.fld, State.reg, hregs]
  unfold State.react
  rw [hfld]

/-- An event whose reaction is the chip reset. -/
theorem State.raiseWith_of_chipReset {s : State} {ev : FaultEv} (injected : Bool) (h : s.react ev.source = 4) :
    ∃ u : State, s.raiseWith ev injected = u.chipReset := by
  simp only [State.raiseWith, h, show (4 : Nat) ≠ 2 by decide, show (4 : Nat) ≠ 3 by decide, if_false, if_true]
  exact ⟨_, rfl⟩

/-- A disabled link that is enabled in a dimension of extent 1 fails; with REACT 4 of its port the chip resets. -/
theorem State.startLink_of_chipReset {s : State} {l : Nat} (hen : s.linkEn l = true) (hst : (s.link l).st = 0) (hext : s.extent (l / 32) = 1)
    (hreact : s.react (44 + l / 16) = 4) : ∃ u : State, s.startLink l = u.chipReset := by
  have hfails : s.startLink l = s.failLink l 8 := by simp [State.startLink, State.trainLink, hen, hst, hext]
  have hmove : s.moveLink l 7 8 = (s.setLink l { s.link l with st := 7, cause := 8 }).writeFabricPage := rfl
  have hkeeps := s.setLink_writeFabricPage_keeps l { s.link l with st := 7, cause := 8 }
  rw [← hmove] at hkeeps
  rw [hfails]
  exact State.raiseWith_of_chipReset false ((State.react_of_keeps hkeeps (by decide) _).trans hreact)

-- ## The state that refutes the exit's clause

/-- An exit from T4 has brought every domain up; link 0 is enabled in a dimension of extent 1, and REACT of its port is the chip reset. -/
def interruptedExit : State :=
  { regs := [((Reg.wflPortCfg 0).offset, 1), ((Reg.knotSrc 44).offset, 4)]
    treadle := { state := 4, moving := some (.exit 0), domains := allDomains } }

/-- The state from which the links of the exit train. -/
def interruptedExitUp : State :=
  let s := (List.range Config.islands).foldl (fun s i => s.setIsland i { s.island i with gated := false }) (interruptedExit.setDomains allDomains)
  { s with treadle := { s.treadle with state := 0, moving := none, served := true, pinSupply := false } }

theorem exitDone_interruptedExit : exitDone interruptedExit = (interruptedExitUp.wakeLinks 4).runPending := rfl

/-- Refutes O54: the exit that T4 left under way meets a link which cannot train, whose failure resets the chip: the module ends in T4, not in T0. -/
theorem not_railsAndStates : ¬ Obligations.RailsAndStates := by
  unfold Obligations.RailsAndStates
  rintro ⟨-, -, -, -, -, -, -, hexit⟩
  obtain ⟨⟨t, hexec, hstate, -⟩, -⟩ := hexit interruptedExit 0 rfl rfl
  obtain ⟨u, hu⟩ : ∃ u : State, interruptedExitUp.startLink 0 = u.chipReset := State.startLink_of_chipReset rfl rfl rfl rfl
  have hrun : exec .powerStateExitComplete interruptedExit = .next (settle (exitDone interruptedExit)) := rfl
  rw [exitDone_interruptedExit, State.wakeLinks_of_chipReset hu, hexec] at hrun
  obtain rfl := Host.Outcome.next.inj hrun
  have hT4 : (settle u.chipReset.runPending).treadle.state = 4 := rfl
  exact absurd (hstate.symm.trans hT4) (by decide)

end Sys2Proof.Machine
end

section
/-!
PROOFS. Fault events whose reaction is the record alone (REACT 0): the bit, the class, the log, and nothing else (R434, R435, R436, R439).
-/

-- Proofs are elaborated one after another: side by side, the threads of the whole text outgrow the memory that the check allows.
set_option Elab.async false

namespace Sys2Proof.Machine

theorem State.hostPut_knot (s : State) (q f key : Nat) (bs : List Byte) : (s.hostPut q f key bs).knot = s.knot := s.hostPut_keeps q f key bs .knot (by decide)

/-- A record is written where the log has room, or counted as dropped; the bits and classes stay (R439). -/
theorem State.logRecord_records (s : State) (record : List Byte) :
    s.keeps (s.logRecord record) [.mem, .ports, .knot] ∧ (s.logRecord record).knot.word = s.knot.word ∧
      (s.logRecord record).knot.lastClass = s.knot.lastClass := by
  have hdropped : s.keeps { s with knot := { s.knot with dropped := satInc 16 s.knot.dropped 1 } } [.mem, .ports, .knot] :=
    State.keeps_mono (s.keeps_knot _) (by decide)
  unfold State.logRecord
  dsimp only
  split
  · exact ⟨hdropped, rfl, rfl⟩
  · split
    · exact ⟨State.keeps_step hdropped (State.hostPut_keeps _ _ _ _ _), by rw [State.hostPut_knot], by rw [State.hostPut_knot]⟩
    · refine ⟨State.keeps_step (State.keeps_mono (s.hostPut_keeps _ _ _ _) (by decide)) (State.keeps_knot _ _), ?_, ?_⟩ <;> dsimp only <;>
        rw [State.hostPut_knot]

/-- The knot's bits, numbers and classes after an event (R435). -/
def Knot.noted (ev : FaultEv) (k : Knot) : Knot :=
  { k with
    word := setField k.word ev.source 1 1, seq := k.seq + 1
    lastClass := tset 0 k.lastClass ev.source ev.cls
    events := tset 0 k.events ev.source (satInc 16 (tget 0 k.events ev.source) 1) }

theorem Knot.noted_word (ev : FaultEv) (k : Knot) (i : Nat) : bitAt (k.noted ev).word i = (bitAt k.word i || i == ev.source) := by
  rw [Knot.noted, bitAt_setField]
  by_cases h : i = ev.source
  · simp [h, show bitAt 1 0 = true from rfl]
  · have hne : ¬ (ev.source ≤ i ∧ i < ev.source + 1) := by omega
    rw [if_neg hne, beq_false_of_ne h, Bool.or_false]

/-- With REACT 0 an event is noted and recorded. -/
theorem State.raiseWith_of_noReaction {s : State} {ev : FaultEv} (injected : Bool) (h : s.react ev.source = 0) :
    ∃ record, s.raiseWith ev injected = State.logRecord { s with knot := s.knot.noted ev } record := by
  simp only [State.raiseWith, h, show ¬ (1 : Nat) ≤ 0 by decide, show (0 : Nat) ≠ 2 by decide, show (0 : Nat) ≠ 3 by decide, show (0 : Nat) ≠ 4 by decide,
    false_and, if_false, decide_false, Bool.false_and, Bool.false_eq_true]
  exact ⟨_, rfl⟩

/-- What an event that is only recorded leaves: its bit and class, and every part but the knot and what a record is written to. -/
def State.noted (s t : State) (ev : FaultEv) : Prop :=
  s.keeps t [.mem, .ports, .knot] ∧ (∀ i, bitAt t.knot.word i = (bitAt s.knot.word i || i == ev.source)) ∧ tget 0 t.knot.lastClass ev.source = ev.cls

theorem State.raiseWith_noted {s : State} {ev : FaultEv} (injected : Bool) (h : s.react ev.source = 0) : s.noted (s.raiseWith ev injected) ev := by
  obtain ⟨record, hraise⟩ := State.raiseWith_of_noReaction injected h
  obtain ⟨hkeeps, hword, hclass⟩ := State.logRecord_records { s with knot := s.knot.noted ev } record
  rw [hraise]
  refine ⟨State.keeps_step (State.keeps_mono (s.keeps_knot _) (by decide)) hkeeps, fun i => ?_, ?_⟩
  · rw [hword]
    exact s.knot.noted_word ev i
  · rw [hclass]
    exact tget_tset_same 0 ev.cls s.knot.lastClass ev.source

/-- An event that counts for no unit of the classifier (R443). -/
theorem State.raise_noted {s : State} {ev : FaultEv} (hunit : classUnit ev = none) (h : s.react ev.source = 0) : s.noted (s.raise ev) ev := by
  rw [State.raise, hunit]
  exact State.raiseWith_noted false h

theorem State.noted_bit {s t : State} {ev : FaultEv} (h : s.noted t ev) : bitAt t.knot.word ev.source = true := by simp [h.2.1]

end Sys2Proof.Machine
end

section
/-!
PROOFS. The boot record and the fuses (O56): what a record written to the other copy makes governing, and which bits a programming blows (R481, R494).
-/

-- Proofs are elaborated one after another: side by side, the threads of the whole text outgrow the memory that the check allows.
set_option Elab.async false

namespace Sys2Proof.Machine

-- ## Parts of the state replaced

theorem State.keeps_boot (s : State) (x : Boot) : s.keeps { s with boot := x } [.boot] := by
  intro f hf
  cases f <;> simp_all [Field.same, State.rd]

theorem State.keeps_trust (s : State) (x : Trust) : s.keeps { s with trust := x } [.trust] := by
  intro f hf
  cases f <;> simp_all [Field.same, State.rd]

theorem State.keeps_treadle (s : State) (x : Treadle) : s.keeps { s with treadle := x } [.treadle] := by
  intro f hf
  cases f <;> simp_all [Field.same, State.rd]

theorem State.keeps_fuses (s : State) (x : Nat) : s.keeps { s with fuses := x } [.fuses] := by
  intro f hf
  cases f <;> simp_all [Field.same, State.rd]

theorem State.keeps_straps (s : State) (x : Nat) : s.keeps { s with straps := x } [.straps] := by
  intro f hf
  cases f <;> simp_all [Field.same, State.rd]

-- ## The boot record (R481)

/-- Bytes written are the bytes read there. -/
theorem State.rdBytes_wrBytes_same (s : State) (k : Nat) (bs : List Byte) : (s.wrBytes k bs).rdBytes k bs.length = bs := by
  refine List.ext_getElem (by simp [State.rdBytes]) fun i _ hi => ?_
  simp [State.rdBytes, State.wrBytes_rd, hi]

/-- A range outside a write reads as before. -/
theorem State.rdBytes_wrBytes_of_apart (s : State) {k j n : Nat} {bs : List Byte} (h : j + n ≤ k ∨ k + bs.length ≤ j) :
    (s.wrBytes k bs).rdBytes j n = s.rdBytes j n := by
  refine List.map_congr_left fun i hi => State.wrBytes_rd_outside s k bs ?_
  have := List.mem_range.1 hi
  omega

/-- The 60 bytes of a record that its CRC covers. -/
def recordBody (seq slot : Nat) : List Byte := leBytes 8 seq ++ leBytes 1 slot ++ zeros 51

theorem length_recordBody (seq slot : Nat) : (recordBody seq slot).length = 60 := by simp [recordBody]

theorem State.writeRecord_eq (s : State) (slot : Nat) :
    s.writeRecord slot = s.wrBytes (recordKey (1 - s.governing.1))
      (recordBody (s.governing.2.1 + 1) slot ++ leBytes 4 (crc32 (recordBody (s.governing.2.1 + 1) slot))) := rfl

/-- A record that is written whole is valid and says what was written. -/
theorem State.recordCopy_written (s : State) (copy : Nat) {seq slot : Nat} (hseq : seq < 2 ^ 64) (hslot : slot ≤ 1) :
    (s.wrBytes (recordKey copy) (recordBody seq slot ++ leBytes 4 (crc32 (recordBody seq slot)))).recordCopy copy = some (seq, slot) := by
  have hlen : (recordBody seq slot ++ leBytes 4 (crc32 (recordBody seq slot))).length = 64 := by simp [length_recordBody]
  have hread := s.rdBytes_wrBytes_same (recordKey copy) (recordBody seq slot ++ leBytes 4 (crc32 (recordBody seq slot)))
  rw [hlen] at hread
  have hcrc := crc32_appended (length_recordBody seq slot)
  have hseqField : le (recordBody seq slot ++ leBytes 4 (crc32 (recordBody seq slot))) 0 8 = seq := by
    rw [recordBody, List.append_assoc, List.append_assoc, le_leBytes_append, Nat.mod_eq_of_lt (by simpa using hseq)]
  have hslotField : le (recordBody seq slot ++ leBytes 4 (crc32 (recordBody seq slot))) 8 1 = slot := by
    rw [recordBody, List.append_assoc, List.append_assoc, le_leBytes_append_of_le (Nat.le_refl 8), Nat.sub_self, le_leBytes_append,
      Nat.mod_eq_of_lt (by omega)]
  simp only [State.recordCopy, hread, hcrc, if_true, hseqField, hslotField, Nat.mod_eq_of_lt (show slot < 2 by omega)]

/-- The other copy stays as it was. -/
theorem State.recordCopy_other (s : State) {copy other : Nat} (h : other ≠ copy) {bs : List Byte} (hlen : bs.length = 64) :
    (s.wrBytes (recordKey copy) bs).recordCopy other = s.recordCopy other := by
  have hread : (s.wrBytes (recordKey copy) bs).rdBytes (recordKey other) 64 = s.rdBytes (recordKey other) 64 := by
    refine s.rdBytes_wrBytes_of_apart ?_
    unfold recordKey spaceKey
    omega
  simp only [State.recordCopy, hread]

/-- The governing one of two copies. -/
def governs (c0 c1 : Option (Nat × Nat)) : Nat × Nat × Nat :=
  match c0, c1 with
  | some (q0, a0), some (q1, a1) => if q0 < q1 then (1, q1, a1) else (0, q0, a0)
  | some (q0, a0), none => (0, q0, a0)
  | none, some (q1, a1) => (1, q1, a1)
  | none, none => (1, 0, 0)

theorem State.governing_eq (s : State) : s.governing = governs (s.recordCopy 0) (s.recordCopy 1) := rfl

/-- The copy that does not govern, written with the next number, governs. -/
theorem governs_next (c0 c1 : Option (Nat × Nat)) (slot : Nat) :
    (governs c0 c1).1 = 0 ∧ (governs c0 (some ((governs c0 c1).2.1 + 1, slot))).2.2 = slot ∨
      (governs c0 c1).1 = 1 ∧ (governs (some ((governs c0 c1).2.1 + 1, slot)) c1).2.2 = slot := by
  rcases c0 with _ | ⟨q0, a0⟩
  · rcases c1 with _ | ⟨q1, a1⟩
    · exact .inr ⟨rfl, rfl⟩
    · have hnext : ¬ q1 + 1 < q1 := by omega
      exact .inr ⟨rfl, by simp [governs, hnext]⟩
  · rcases c1 with _ | ⟨q1, a1⟩
    · exact .inl ⟨rfl, by simp [governs]⟩
    · by_cases hlt : q0 < q1
      · exact .inr (by simp [governs, hlt])
      · exact .inl (by simp [governs, hlt])

/-- The record written after another is the governing one. -/
theorem State.writeRecord_recordSlot {s : State} {slot : Nat} (hslot : slot ≤ 1) (hseq : s.governing.2.1 < 2 ^ 64 - 1) :
    (s.writeRecord slot).recordSlot = slot := by
  have hnew := s.recordCopy_written (1 - s.governing.1) (seq := s.governing.2.1 + 1) (by omega) hslot
  have hold : ∀ other, other ≠ 1 - s.governing.1 → (s.writeRecord slot).recordCopy other = s.recordCopy other := fun other h =>
    s.recordCopy_other h (by simp)
  rw [← State.writeRecord_eq] at hnew
  rw [State.recordSlot, State.governing_eq]
  rcases governs_next (s.recordCopy 0) (s.recordCopy 1) slot with ⟨hgov, hnext⟩ | ⟨hgov, hnext⟩ <;> rw [← State.governing_eq] at hgov hnext <;>
    rw [hgov] at hnew hold
  · rw [hnew, hold 0 (by decide)]
    exact hnext
  · rw [hnew, hold 1 (by decide)]
    exact hnext

theorem State.writeRecord_keepsMem (s : State) (slot : Nat) : s.keepsMem (s.writeRecord slot) (recordKey (1 - s.governing.1)) 64 := by
  intro j hj
  rw [State.writeRecord_eq]
  exact State.wrBytes_rd_outside _ _ _ (by simpa [length_recordBody] using hj)

/-- Which record governs is read from memory. -/
theorem State.recordSlot_of_rd {s t : State} (h : ∀ k, t.rd k = s.rd k) : t.recordSlot = s.recordSlot := by
  have hread : ∀ k n, t.rdBytes k n = s.rdBytes k n := fun k n => List.map_congr_left fun i _ => h _
  simp only [State.recordSlot, State.governing, State.recordCopy, hread]

-- ## Fuses (R494)

/-- Bits set one after another. -/
theorem bitAt_foldl_set (bs : List Nat) (w i : Nat) : bitAt (bs.foldl (fun f b => setField f b 1 1) w) i = (bitAt w i || bs.contains i) := by
  induction bs generalizing w with
  | nil => simp
  | cons b bs ih =>
    rw [List.foldl_cons, ih, bitAt_setField, List.contains_cons]
    by_cases h : i = b
    · subst h
      simp [show bitAt 1 0 = true from rfl]
    · have hne : ¬ (b ≤ i ∧ i < b + 1) := by omega
      rw [if_neg hne, beq_false_of_ne h, Bool.false_or]

/-- Events that are only recorded, one after another. -/
theorem State.raises_noted {src : Nat} (mk : Nat → FaultEv) (hmk : ∀ b, (mk b).source = src ∧ classUnit (mk b) = none) (bs : List Nat) :
    ∀ s : State, s.react src = 0 → s.keeps (bs.foldl (fun s b => s.raise (mk b)) s) [.mem, .ports, .knot] ∧
      (bitAt s.knot.word src = true ∨ bs ≠ [] → bitAt (bs.foldl (fun s b => s.raise (mk b)) s).knot.word src = true) := by
  induction bs with
  | nil => exact fun s _ => ⟨s.keeps_refl _, fun h => h.resolve_right (fun h => h rfl)⟩
  | cons b bs ih =>
    intro s hs
    have hraise : s.noted (s.raise (mk b)) (mk b) := State.raise_noted (hmk b).2 ((hmk b).1.symm ▸ hs)
    obtain ⟨hkeeps, hbit⟩ := ih (s.raise (mk b)) ((State.react_of_keeps hraise.1 (by decide) _).trans hs)
    exact ⟨State.keeps_trans hraise.1 hkeeps, fun _ => hbit (.inl ((hmk b).1 ▸ State.noted_bit hraise))⟩

end Sys2Proof.Machine
end

section
/-!
PROOFS. The boot machine's course and the fuse operations (O56).
-/

-- Proofs are elaborated one after another: side by side, the threads of the whole text outgrow the memory that the check allows.
set_option Elab.async false

namespace Sys2Proof.Machine

-- ## RESET and FUSES (R68, R333, R486)

theorem bootStart_starts {s : State} (hst : s.boot.state = .reset) (hgood : s.treadle.vstbyGood = true) :
    bootStart s = { s with boot := { s.boot with state := .fuses } } := by simp [bootStart, hst, hgood]

theorem bootStart_rests {s : State} (hst : s.boot.state ≠ .reset) : bootStart s = s := by simp [bootStart, hst]

/-- The event of a fuse array that fails (R486, R494). -/
def fuseEvent (detail : Nat) : FaultEv :=
  { source := 60, cls := 0x3C, unit := 0, unit2 := 0, address := 0, detail := detail, island := 0x31, part := none }

theorem bootFusesDone_mismatch {s : State} (straps : Nat) (hst : s.boot.state = .fuses) (hcrc : crc32 (mfgBytes s.fuses) ≠ field s.fuses 992 32) :
    bootFusesDone s straps = State.raise { s with boot := { s.boot with state := .fail, failCause := 1 } } (fuseEvent 31) := by
  simp only [bootFusesDone, hst, hcrc, ne_eq, not_true, not_false_eq_true, if_true, if_false]
  rfl

/-- The state once the straps are sampled and a slot is taken. -/
def State.strapped (s : State) (straps : Nat) : State :=
  { s with straps := straps, trust := { s.trust with jtagClosed := s.debugLock }
           boot := { s.boot with state := .verify, recordSlot := s.recordSlot, trying := s.recordSlot, tried := 0 } }

theorem State.strapped_keeps (s : State) (straps : Nat) : s.keeps (s.strapped straps) [.straps, .boot, .trust] :=
  State.keeps_step (State.keeps_step (State.keeps_mono (s.keeps_straps straps) (by decide)) (State.keeps_trust _ (s.strapped straps).trust))
    (State.keeps_boot _ (s.strapped straps).boot)

/-- A role that the fuses permit, or none, leaves no record. -/
theorem State.refuseRole_of_permitted {s : State} (h : s.mgrCap = true ∨ s.straps / 4096 % 4 = 0) : s.refuseRole = s := by
  rw [State.refuseRole, if_pos h]

theorem bootFusesDone_straps {s : State} {straps : Nat} (hst : s.boot.state = .fuses) (hcrc : crc32 (mfgBytes s.fuses) = field s.fuses 992 32)
    (hrole : s.mgrCap = true ∨ straps % 2 ^ 14 / 4096 = 0) : bootFusesDone s straps = s.strapped (straps % 2 ^ 14) := by
  have hrefuse := State.refuseRole_of_permitted
    (s := { s with straps := straps % 2 ^ 14, trust := { s.trust with jtagClosed := s.debugLock } }) (hrole.imp id fun h => by dsimp only; rw [h])
  simp only [bootFusesDone, hst, hcrc, ne_eq, not_true, if_false, hrefuse]
  rfl

-- ## VERIFY and MEASURE (R485, R487)

theorem bootVerifyDone_ok {s : State} {k : Nat} (hst : s.boot.state = .verify) (hv : s.verifySlot s.boot.trying = .ok k) :
    bootVerifyDone s = { s with boot := { s.boot with state := .measure, image := { s.boot.image with keySlot := k } } } := by
  simp [bootVerifyDone, hst, hv]

theorem bootVerifyDone_failed {s : State} {k : Nat} (hst : s.boot.state = .verify) (hv : s.verifySlot s.boot.trying = .error k) :
    bootVerifyDone s = s.slotFailed k := by
  simp [bootVerifyDone, hst, hv]

/-- What is kept of an image is read from memory (R4, R496). -/
theorem State.imageOf_of_rd {s t : State} (h : ∀ k, t.rd k = s.rd k) (slot keySlot : Nat) : t.imageOf slot keySlot = s.imageOf slot keySlot := by
  have hread : ∀ k n, t.rdBytes k n = s.rdBytes k n := fun k n => List.map_congr_left fun i _ => h _
  have hheader : t.header slot = s.header slot := hread _ _
  have hmeasure : ∀ e, t.measure slot e = s.measure slot e := fun e => by rw [State.measure, hread, State.measure]
  simp only [State.imageOf, hheader, hmeasure]

theorem State.setSlotInfo_boot (s : State) (slot : Nat) (x : SlotInfo) :
    (s.setSlotInfo slot x).boot = { s.boot with slots := (s.setSlotInfo slot x).boot.slots } := rfl

theorem State.reportSlot_keeps (s : State) (slot cause : Nat) : s.keeps (s.reportSlot slot cause) [.boot] := s.keeps_boot _

/-- A report changes what BOOT_SLOT shows and nothing else of the boot machine. -/
theorem State.reportSlot_boot (s : State) (slot cause : Nat) :
    (s.reportSlot slot cause).boot = { s.boot with slots := (s.reportSlot slot cause).boot.slots } := by
  unfold State.reportSlot
  exact s.setSlotInfo_boot slot _

theorem State.reportSlot_imageOf (s : State) (i cause slot keySlot : Nat) : (s.reportSlot i cause).imageOf slot keySlot = s.imageOf slot keySlot :=
  State.imageOf_of_rd ((s.reportSlot_keeps i cause) .mem (by decide)) slot keySlot

/-- An image is the active one, and the boot machine is in IDENTITY. -/
def State.imageTaken (s : State) (i : Image) : State := { s with boot := { s.boot.activate i with state := .identity } }

theorem bootMeasureDone_ok {s : State} (hst : s.boot.state = .measure) (hm : s.measureSlot s.boot.trying = 0) :
    bootMeasureDone s = (s.reportSlot s.boot.trying 0).imageTaken (s.imageOf s.boot.trying s.boot.image.keySlot) := by
  have himage := s.reportSlot_imageOf s.boot.trying 0 s.boot.trying s.boot.image.keySlot
  have htrying : (s.reportSlot s.boot.trying 0).boot.trying = s.boot.trying := by rw [State.reportSlot_boot]
  have hkey : (s.reportSlot s.boot.trying 0).boot.image = s.boot.image := by rw [State.reportSlot_boot]
  unfold bootMeasureDone
  rw [if_neg (not_not_intro hst), hm]
  simp only [htrying, hkey, himage, State.imageTaken]

theorem bootMeasureDone_failed {s : State} (hst : s.boot.state = .measure) (hm : s.measureSlot s.boot.trying ≠ 0) :
    bootMeasureDone s = s.slotFailed (s.measureSlot s.boot.trying) := by
  simp only [bootMeasureDone, hst, ne_eq, not_true, if_false]

/-- A failed verification has a cause. -/
theorem State.verifySlot_error_ne_zero {s : State} {slot k : Nat} (h : s.verifySlot slot = .error k) : k ≠ 0 := by
  unfold State.verifySlot at h
  dsimp only at h
  split at h
  · cases h; decide
  · split at h
    · cases h; decide
    · split at h
      · cases h
      · cases h; decide

theorem State.setSlotInfo_slotInfo (s : State) (slot : Nat) (x : SlotInfo) : (s.setSlotInfo slot x).slotInfo slot = x := tget_tset_same _ _ _ _

theorem State.reportSlot_slotInfo (s : State) (slot cause : Nat) :
    (s.reportSlot slot cause).slotInfo slot = ⟨le (s.header slot) 6 2, le (s.header slot) 14 1, cause, cause == 0⟩ := by
  rw [State.reportSlot, State.setSlotInfo_slotInfo]

-- ## RECOVERY (R488)

theorem State.islandOff_keeps (s : State) (i : Nat) : s.keeps (s.islandOff i) [.islands] := s.setIsland_keeps _ _

theorem State.clearAcc_keeps (s : State) (l : Nat) : s.keeps (s.clearAcc l) [.mem, .looms] :=
  State.keeps_step (State.keeps_mono (s.zero_keeps _ _) (by decide)) (State.setLoom_keeps _ _ _)

theorem State.islandUp_keeps (s : State) (i : Nat) : s.keeps (s.islandUp i) [.islands, .mem, .looms] := by
  unfold State.islandUp
  dsimp only
  split
  · exact s.keeps_refl _
  · split
    · exact State.keeps_step (State.keeps_mono (s.setIsland_keeps _ _) (by decide)) (State.keeps_fold (fun s j => s.clearAcc_keeps _) _ _)
    · exact State.keeps_mono (s.setIsland_keeps _ _) (by decide)

/-- Two ranges of memory are cleared, or not. -/
theorem State.zeroTwo_keeps (s : State) (k k' n : Nat) (c : Bool) : s.keeps (if c = true then (s.zero k n).zero k' n else s) [.mem] := by
  split
  · exact State.keeps_trans (s.zero_keeps _ _) (State.zero_keeps _ _ _)
  · exact s.keeps_refl _

/-- The looms of the clusters that go off lose their SRAM and their control state, or none does. -/
theorem State.zeroLooms_keeps (s : State) (k n : Nat) (looms : List (Nat × Loom)) (c : Bool) :
    s.keeps (if c = true then { s.zero k n with looms := looms } else s) [.mem, .looms] := by
  split
  · exact State.keeps_step (State.keeps_mono (s.zero_keeps _ _) (by decide)) (State.keeps_looms _ _)
  · exact s.keeps_refl _

/-- Domains are switched, among which those of the PCIe links and of PG_OUT are on (R458, R461). -/
theorem State.setDomains_links_on {s : State} {on : List Nat} (h5 : 5 ∈ on) (h8 : 8 ∈ on) (h33 : 0x33 ∈ on) :
    s.keeps (s.setDomains on) [.mem, .islands, .looms, .treadle] ∧ (s.setDomains on).treadle.domains = on := by
  have hports : (s.treadle.domains.filter (fun d => !on.contains d)).any (fun d => d == 5 || d == 8 || d == 0x33) = false := by
    refine List.any_eq_false.2 fun d hd => ?_
    have hoff : d ∉ on := by simpa using (List.mem_filter.1 hd).2
    simp only [Bool.or_eq_true, beq_iff_eq, not_or]
    exact ⟨⟨fun h => hoff (h ▸ h5), fun h => hoff (h ▸ h8)⟩, fun h => hoff (h ▸ h33)⟩
  have hup : ∀ (is : List Nat) (u : State), u.keeps (is.foldl State.islandUp u) [.islands, .mem, .looms] := fun is u =>
    State.keeps_fold (fun s i => s.islandUp_keeps i) u is
  have hoff : ∀ is : List Nat, s.keeps (is.foldl State.islandOff s) [.mem, .islands, .looms, .treadle] := fun is =>
    State.keeps_mono (State.keeps_fold (fun s i => s.islandOff_keeps i) s is) (by decide)
  unfold State.setDomains
  dsimp only
  rw [hports]
  simp only [Bool.false_eq_true, if_false]
  refine ⟨?_, congrArg Treadle.domains (hup _ _ .treadle (by decide))⟩
  refine State.keeps_step ?_ (hup _ _)
  refine State.keeps_step ?_ (State.keeps_treadle _ _)
  refine State.keeps_step ?_ (State.zeroTwo_keeps _ _ _ _ _)
  refine State.keeps_step ?_ (State.zeroTwo_keeps _ _ _ _ _)
  exact State.keeps_step (hoff _) (State.zeroLooms_keeps _ _ _ _ _)

end Sys2Proof.Machine
end

section
/-!
PROOFS. The boot machine from RESET on, and the three fuse operations, step by step (O56).
-/

-- Proofs are elaborated one after another: side by side, the threads of the whole text outgrow the memory that the check allows.
set_option Elab.async false

namespace Sys2Proof.Machine

-- ## A failed check (R486, R488)

/-- The other slot is taken. -/
def State.otherSlot (s : State) : State := { s with boot := { s.boot with state := .verify, trying := 1 - s.boot.trying, tried := 1 } }

/-- RECOVERY, before its domains come up. -/
def State.toRecovery (s : State) : State := { s with boot := { s.boot with state := .recovery, recovered := true } }

theorem State.otherSlot_slotInfo (s : State) (slot : Nat) : s.otherSlot.slotInfo slot = s.slotInfo slot := rfl

theorem State.toRecovery_slotInfo (s : State) (slot : Nat) : s.toRecovery.slotInfo slot = s.slotInfo slot := rfl

theorem State.slotFailed_first {s : State} (k : Nat) (htried : s.boot.tried = 0) : s.slotFailed k = (s.reportSlot s.boot.trying k).otherSlot := by
  have hb : (s.reportSlot s.boot.trying k).boot.tried = 0 := by rw [State.reportSlot_boot, htried]
  unfold State.slotFailed
  exact if_pos hb

theorem State.slotFailed_second {s : State} (k : Nat) (htried : s.boot.tried ≠ 0) :
    s.slotFailed k = (s.reportSlot s.boot.trying k).toRecovery.setDomains [0, 1, 5, 8, 0x33] := by
  have hb : (s.reportSlot s.boot.trying k).boot.tried ≠ 0 := by rwa [State.reportSlot_boot]
  unfold State.slotFailed
  exact if_neg hb

/-- What BOOT_SLOT shows lies in the boot machine. -/
theorem State.slotInfo_of_boot {s t : State} (h : t.boot = s.boot) (slot : Nat) : t.slotInfo slot = s.slotInfo slot := by
  rw [State.slotInfo, h, State.slotInfo]

/-- A failed check is reported with its cause; the other slot is taken, or RECOVERY is entered with its four domains. -/
theorem State.gives_slotFailed {s : State} {c : Instr} {k : Nat} (hexec : exec c s = finish (s.slotFailed k)) (hk : k ≠ 0) :
    s.gives c (fun t => t.slotInfo s.boot.trying = ⟨le (s.header s.boot.trying) 6 2, le (s.header s.boot.trying) 14 1, k, false⟩ ∧
      (s.boot.tried = 0 → t.boot.state = .verify ∧ t.boot.trying = 1 - s.boot.trying ∧ t.boot.tried = 1 ∧ s.keeps t [.boot]) ∧
      (s.boot.tried ≠ 0 → t.boot.state = .recovery ∧ t.treadle.domains = [0, 1, 5, 8, 0x33])) := by
  have hinfo := s.reportSlot_slotInfo s.boot.trying k
  have htrying : (s.reportSlot s.boot.trying k).boot.trying = s.boot.trying := by rw [State.reportSlot_boot]
  have hkeeps := s.reportSlot_keeps s.boot.trying k
  rw [beq_false_of_ne hk] at hinfo
  refine State.gives_of_finish hexec ?_
  by_cases htried : s.boot.tried = 0
  · rw [State.slotFailed_first k htried]
    generalize s.reportSlot s.boot.trying k = u at hinfo htrying hkeeps ⊢
    exact ⟨(u.otherSlot_slotInfo _).trans hinfo, fun _ => ⟨rfl, congrArg (1 - ·) htrying, rfl, State.keeps_settled (State.keeps_trans hkeeps (State.keeps_boot _ _))⟩,
      fun h => absurd htried h⟩
  · rw [State.slotFailed_second k htried]
    generalize s.reportSlot s.boot.trying k = u at hinfo ⊢
    obtain ⟨hup, hdomains⟩ := State.setDomains_links_on (s := u.toRecovery) (on := [0, 1, 5, 8, 0x33]) (by decide) (by decide) (by decide)
    have hboot : (u.toRecovery.setDomains [0, 1, 5, 8, 0x33]).boot = u.toRecovery.boot := hup .boot (by decide)
    exact ⟨(State.slotInfo_of_boot hboot _).trans ((u.toRecovery_slotInfo _).trans hinfo), fun h => absurd h htried, fun _ => ⟨congrArg Boot.state hboot, hdomains⟩⟩

-- ## READY (R460, R486, R495)

/-- The record names the slot booted, where it did not. -/
def State.recorded (s : State) : State := if s.boot.trying = s.boot.recordSlot then s else s.writeRecord s.boot.trying

/-- The boot machine in READY, before the treadle is told. -/
def State.bootReady (s : State) : State :=
  { s with trust := { s.trust with ready := true }, boot := { s.boot with state := .ready, recordSlot := s.boot.trying } }

def State.booted (s : State) : State := s.recorded.bootReady

theorem State.recorded_keeps (s : State) : s.keeps s.recorded [.mem] := by
  unfold State.recorded
  split
  · exact s.keeps_refl _
  · exact s.wrBytes_keeps _ _

theorem State.bootReady_keeps (s : State) : s.keeps s.bootReady [.boot, .trust] :=
  State.keeps_step (State.keeps_mono (s.keeps_trust { s.trust with ready := true }) (by decide)) (State.keeps_boot _ s.bootReady.boot)

theorem State.booted_keeps (s : State) : s.keeps s.booted [.mem, .boot, .trust] :=
  State.keeps_step (State.keeps_mono s.recorded_keeps (by decide)) (State.bootReady_keeps _)

theorem State.booted_boot (s : State) : s.booted.boot = { s.boot with state := .ready, recordSlot := s.boot.trying } := by
  have h : s.recorded.boot = s.boot := s.recorded_keeps .boot (by decide)
  rw [State.booted, State.bootReady, h]

theorem State.booted_trust (s : State) : s.booted.trust = { s.trust with ready := true } := by
  have h : s.recorded.trust = s.trust := s.recorded_keeps .trust (by decide)
  rw [State.booted, State.bootReady, h]

theorem State.recorded_same {s : State} (h : s.boot.trying = s.boot.recordSlot) : s.recorded = s := if_pos h

theorem State.recorded_written {s : State} (h : s.boot.trying ≠ s.boot.recordSlot) : s.recorded = s.writeRecord s.boot.trying := if_neg h

theorem State.startExit_keeps (s : State) (source port : Nat) : s.keeps (s.startExit source port) [.treadle] := s.keeps_treadle _

theorem bootIdentityDone_exits {s : State} (hst : s.boot.state = .identity) (hv : s.treadle.vmainGood = true) (hw : s.treadle.vsideGood = true)
    (hm : s.treadle.moving = none) : bootIdentityDone s = s.booted.startExit 0 0 := by
  have ht : s.booted.treadle = s.treadle := s.booted_keeps .treadle (by decide)
  unfold bootIdentityDone
  rw [if_neg (not_not_intro hst)]
  exact if_pos ⟨by rw [← hv]; exact congrArg Treadle.vmainGood ht, by rw [← hw]; exact congrArg Treadle.vsideGood ht,
    by rw [← hm]; exact congrArg Treadle.moving ht⟩

theorem bootIdentityDone_awaits {s : State} (hst : s.boot.state = .identity)
    (hno : ¬ (s.treadle.vmainGood = true ∧ s.treadle.vsideGood = true ∧ s.treadle.moving = none)) :
    bootIdentityDone s = { s.booted with treadle := { s.treadle with awaiting := true } } := by
  have ht : s.booted.treadle = s.treadle := s.booted_keeps .treadle (by decide)
  rw [← ht] at hno ⊢
  unfold bootIdentityDone
  rw [if_neg (not_not_intro hst)]
  exact if_neg hno

/-- BOOT_IDENTITY_DONE in IDENTITY. -/
theorem State.gives_bootIdentityDone {s : State} (hst : s.boot.state = .identity) :
    s.gives .bootIdentityDone (fun t => s.booted.keeps t [.treadle] ∧
      (s.treadle.vmainGood = true → s.treadle.vsideGood = true → s.treadle.moving = none → t.treadle.moving = some (.exit 0)) ∧
      ((s.treadle.vmainGood = false ∨ s.treadle.vsideGood = false) → t.treadle = { s.treadle with awaiting := true })) := by
  refine State.gives_of_finish (u := bootIdentityDone s) rfl ?_
  by_cases h : s.treadle.vmainGood = true ∧ s.treadle.vsideGood = true ∧ s.treadle.moving = none
  · obtain ⟨hv, hw, hm⟩ := h
    rw [bootIdentityDone_exits hst hv hw hm]
    exact ⟨State.keeps_settled (State.startExit_keeps _ _ _), fun _ _ _ => rfl, fun hlost => by simp [hv, hw] at hlost⟩
  · rw [bootIdentityDone_awaits hst h]
    exact ⟨State.keeps_settled (State.keeps_treadle _ _), fun hv hw hm => absurd ⟨hv, hw, hm⟩ h, fun _ => rfl⟩

-- ## Fuse operations (R494)

/-- FUS_PROG is obeyed: the administrative host port, CONFIRM, nothing being blown. -/
theorem fusProg_begins {s : State} {src : Src} {op v : Nat} {bs : List Nat} (hadmin : s.adminPf src = true) (hconf : field v 16 16 = 0x9600)
    (hbusy : s.trust.blowBusy = false) (hbits : s.progBits op (field v 8 1) = some bs) (hne : bs ≠ []) :
    fusProg s src op v = { s with trust := { s.trust with blowing := bs, blowBusy := true } } := by
  obtain ⟨b, r, rfl⟩ := List.exists_cons_of_ne_nil hne
  simp [fusProg, hadmin, hconf, hbusy, hbits]

theorem fusProg_nothing {s : State} {src : Src} {op v : Nat} (hadmin : s.adminPf src = true) (hconf : field v 16 16 = 0x9600)
    (hbusy : s.trust.blowBusy = false) (hbits : s.progBits op (field v 8 1) = some []) :
    fusProg s src op v = { s with trust := { s.trust with progResult := 1 } } := by
  simp [fusProg, hadmin, hconf, hbusy, hbits]

theorem fusProg_refused {s : State} {src : Src} {op v : Nat} (hadmin : s.adminPf src = true) (hconf : field v 16 16 = 0x9600)
    (hbusy : s.trust.blowBusy = false) (hbits : s.progBits op (field v 8 1) = none) :
    fusProg s src op v = { s with trust := { s.trust with progResult := 2 } } := by
  simp [fusProg, hadmin, hconf, hbusy, hbits]

theorem State.progBits_revoke (s : State) (arg : Nat) : s.progBits 2 arg = if s.verifiesUnder (1 - arg) then some [768 + arg] else none := by
  rw [State.progBits, if_neg (by decide), if_pos rfl]

/-- The state once the bits that take are blown. -/
def State.blown (s : State) (failedBit : Option Nat) : State :=
  { s with
    fuses := (s.trust.blowing.filter (fun b => failedBit != some b)).foldl (fun f b => setField f b 1 1) s.fuses
    trust := { s.trust with blowing := [], blowBusy := false
                            progResult := if (s.trust.blowing.filter (fun b => failedBit == some b)).isEmpty then 1 else 3 } }

theorem State.blown_keeps (s : State) (failedBit : Option Nat) : s.keeps (s.blown failedBit) [.fuses, .trust] :=
  State.keeps_step (State.keeps_mono (s.keeps_fuses (s.blown failedBit).fuses) (by decide)) (State.keeps_trust _ (s.blown failedBit).trust)

theorem State.blown_fuses (s : State) (failedBit : Option Nat) (i : Nat) :
    bitAt (s.blown failedBit).fuses i = (bitAt s.fuses i || (s.trust.blowing.contains i && failedBit != some i)) := by
  have hfilter : (s.trust.blowing.filter (fun b => failedBit != some b)).contains i = (s.trust.blowing.contains i && failedBit != some i) := by
    rw [Bool.eq_iff_iff]
    simp [List.mem_filter]
  rw [State.blown, bitAt_foldl_set, hfilter]

theorem fuseDone_eq {s : State} {failedBit : Option Nat} (hbusy : s.trust.blowBusy = true) :
    fuseDone s failedBit =
      (s.trust.blowing.filter (fun b => failedBit == some b)).foldl (fun s b => s.raise (fuseEvent b)) (s.blown failedBit) := by
  simp only [fuseDone, hbusy, Bool.not_true, Bool.false_eq_true, if_false]
  rfl

theorem fuseDone_all {s : State} (hbusy : s.trust.blowBusy = true) : fuseDone s none = s.blown none := by
  have hnone : s.trust.blowing.filter (fun b => (none : Option Nat) == some b) = [] := List.filter_eq_nil_iff.2 fun b _ => by simp
  rw [fuseDone_eq hbusy, hnone, List.foldl_nil]

/-- A bit that does not take is recorded, with REACT 0 of source 60. -/
theorem fuseDone_some {s : State} {b : Nat} (hbusy : s.trust.blowBusy = true) (hb : b ∈ s.trust.blowing) (hreact : s.react 60 = 0) :
    (s.blown (some b)).keeps (fuseDone s (some b)) [.mem, .ports, .knot] ∧ bitAt (fuseDone s (some b)).knot.word 60 = true := by
  have hne : s.trust.blowing.filter (fun x => some b == some x) ≠ [] := List.ne_nil_of_mem (List.mem_filter.2 ⟨hb, by simp⟩)
  obtain ⟨hkeeps, hbit⟩ := State.raises_noted fuseEvent (fun _ => ⟨rfl, rfl⟩) (s.trust.blowing.filter (fun x => some b == some x))
    (s.blown (some b)) ((State.react_of_keeps (s.blown_keeps _) (by decide) _).trans hreact)
  rw [← fuseDone_eq hbusy] at hkeeps hbit
  exact ⟨hkeeps, hbit (.inr hne)⟩

theorem State.blown_result_failed {s : State} {b : Nat} (hb : b ∈ s.trust.blowing) : (s.blown (some b)).trust.progResult = 3 := by
  have hne : s.trust.blowing.filter (fun x => some b == some x) ≠ [] := List.ne_nil_of_mem (List.mem_filter.2 ⟨hb, by simp⟩)
  rw [State.blown, if_neg (by rwa [List.isEmpty_iff])]

theorem State.blown_trust_all (s : State) : (s.blown none).trust = { s.trust with blowing := [], blowBusy := false, progResult := 1 } := by
  simp [State.blown]

-- ## O56

/-- Settles O56, state by state of the boot machine and operation by operation of the fuses. -/
theorem bootRunsItsCourse : Obligations.BootRunsItsCourse := by
  unfold Obligations.BootRunsItsCourse
  refine ⟨fun s => ⟨fun hst hgood => ?_, fun hst => ?_⟩, fun s straps hst => ⟨fun hcrc hreact => ?_, fun hcrc hrole => ?_⟩, fun s k hst hv => ?_,
    fun s hst hm => ?_, fun s c k hfails => ?_, fun s hst => ?_, fun s src v harr hadmin hconf hbusy begins hbegins reports hreports => ?_,
    fun s hbusy => ⟨?_, fun b hb hreact => ?_⟩⟩
  case refine_1 =>
    refine State.gives_of_finish (u := bootStart s) rfl ?_
    rw [bootStart_starts hst hgood]
    exact ⟨rfl, State.keeps_settled (s.keeps_boot _)⟩
  case refine_2 => exact congrArg finish (bootStart_rests hst)
  case refine_3 =>
    refine State.gives_of_finish (u := bootFusesDone s straps) rfl ?_
    rw [bootFusesDone_mismatch straps hst hcrc]
    have hfail := s.keeps_boot { s.boot with state := .fail, failCause := 1 }
    have hraise := State.raise_noted (ev := fuseEvent 31) rfl ((State.react_of_keeps hfail (by decide) 60).trans hreact)
    have hboot := hraise.1 .boot (by decide)
    exact ⟨hboot, State.noted_bit hraise,
      State.keeps_settled (State.keeps_step (State.keeps_mono hfail (by decide)) hraise.1)⟩
  case refine_4 =>
    refine State.gives_of_finish (u := bootFusesDone s straps) rfl ?_
    rw [bootFusesDone_straps hst hcrc hrole]
    exact ⟨rfl, rfl, rfl, State.keeps_settled (s.strapped_keeps _)⟩
  case refine_5 =>
    refine State.gives_of_finish (u := bootVerifyDone s) rfl ?_
    rw [bootVerifyDone_ok hst hv]
    exact ⟨rfl, State.keeps_settled (s.keeps_boot _)⟩
  case refine_6 =>
    refine State.gives_of_finish (u := bootMeasureDone s) rfl ?_
    have hverified := congrArg SlotInfo.verified (s.reportSlot_slotInfo s.boot.trying 0)
    have hkeeps := s.reportSlot_keeps s.boot.trying 0
    rw [bootMeasureDone_ok hst hm]
    generalize s.reportSlot s.boot.trying 0 = u at hverified hkeeps ⊢
    generalize s.imageOf s.boot.trying s.boot.image.keySlot = i
    exact ⟨rfl, rfl, rfl, rfl, hverified, State.keeps_settled (State.keeps_trans hkeeps (State.keeps_boot _ _))⟩
  case refine_7 =>
    obtain ⟨rfl, hst, hv⟩ | ⟨rfl, hst, hm, hk⟩ := hfails
    · exact State.gives_slotFailed (congrArg finish (bootVerifyDone_failed hst hv)) (State.verifySlot_error_ne_zero hv)
    · subst hm
      exact State.gives_slotFailed (congrArg finish (bootMeasureDone_failed hst hk)) hk
  case refine_8 =>
    obtain ⟨t, hexec, hthen, hexit, hawaits⟩ := State.gives_bootIdentityDone hst
    have hboot : t.boot = s.booted.boot := hthen .boot (by decide)
    have htrust : t.trust = s.booted.trust := hthen .trust (by decide)
    have hrd : ∀ k, t.rd k = s.recorded.rd k := hthen .mem (by decide)
    refine ⟨t, hexec, hboot.trans s.booted_boot, htrust.trans s.booted_trust, State.keeps_step (State.keeps_mono s.booted_keeps (by decide)) hthen,
      fun h => ?_, fun h hslot hseq => ?_, hexit, hawaits⟩
    · rwa [State.recorded_same h] at hrd
    · rw [State.recorded_written h] at hrd
      exact ⟨(State.recordSlot_of_rd hrd).trans (State.writeRecord_recordSlot hslot hseq), fun j hj => (hrd j).trans (s.writeRecord_keepsMem _ j hj)⟩
  case refine_9 =>
    subst hbegins hreports
    have hrun : ∀ {c : Instr} {op : Nat} {x : Trust}, exec c s = finish (s.via src (fun s => fusProg s src op v)) →
        fusProg s src op v = { s with trust := x } → s.gives c (fun t => t.trust = x ∧ s.keeps t [.trust]) := by
      intro c op x hexec hprog
      rw [State.via_of_arrives _ harr, hprog] at hexec
      exact State.gives_of_finish hexec ⟨rfl, State.keeps_settled (s.keeps_trust _)⟩
    refine ⟨fun hsvn => ?_, fun hsvn => ?_, fun hkey => ?_, fun hkey => ?_, ?_⟩
    · refine hrun rfl (fusProg_begins hadmin hconf hbusy (op := 1) rfl ?_)
      simp only [ne_eq, List.map_eq_nil_iff, List.range_eq_nil]
      omega
    · refine hrun rfl (fusProg_nothing hadmin hconf hbusy (op := 1) ?_)
      rw [State.progBits, if_pos rfl, Nat.sub_eq_zero_of_le hsvn]
      rfl
    · refine hrun rfl (fusProg_begins hadmin hconf hbusy (op := 2) ?_ (by simp))
      rw [State.progBits_revoke, if_pos hkey]
    · refine hrun rfl (fusProg_refused hadmin hconf hbusy (op := 2) ?_)
      simp [State.progBits_revoke, hkey]
    · exact hrun rfl (fusProg_begins hadmin hconf hbusy (op := 3) rfl (by simp))
  case refine_10 =>
    refine State.gives_of_finish (u := fuseDone s none) rfl ?_
    rw [fuseDone_all hbusy]
    exact ⟨fun i => (s.blown_fuses none i).trans (by rw [show ((none : Option Nat) != some i) = true from rfl, Bool.and_true]), s.blown_trust_all, State.keeps_settled (s.blown_keeps _)⟩
  case refine_11 =>
    obtain ⟨hkeeps, hbit⟩ := fuseDone_some hbusy hb hreact
    have hfuses : (fuseDone s (some b)).fuses = (s.blown (some b)).fuses := hkeeps .fuses (by decide)
    have htrust : (fuseDone s (some b)).trust = (s.blown (some b)).trust := hkeeps .trust (by decide)
    refine State.gives_of_finish (u := fuseDone s (some b)) rfl ⟨fun i => ?_, (congrArg Trust.progResult htrust).trans (State.blown_result_failed hb),
      congrArg Trust.blowBusy htrust, hbit, State.keeps_settled (State.keeps_step (State.keeps_mono (s.blown_keeps _) (by decide)) hkeeps)⟩
    have hneq : (some b != some i) = (i != b) := by simp [bne, Bool.beq_comm (a := b)]
    rw [← hneq, ← s.blown_fuses (some b) i, ← hfuses]
    rfl

end Sys2Proof.Machine
end

section
/-!
PROOFS. One access to a line of HBM or tier 2 (O52): reads through the cache, a line that turns out uncorrectable, writes of a whole line and of part of
one, scrub reads (R232, R233, R234, R443).
-/

-- Proofs are elaborated one after another: side by side, the threads of the whole text outgrow the memory that the check allows.
set_option Elab.async false

namespace Sys2Proof.Machine

-- ## The key of a line (R64, R235)

/-- A key tells the space and the offset of its byte, wherever the unit lies. -/
theorem State.dataKey_splits {s : State} {sp o : Nat} (hsp : sp ≤ 1) (ho : o < 2 ^ 48) : s.dataKey sp o / 2 ^ 48 % 0x20 = sp ∧ s.dataKey sp o % 2 ^ 48 = o := by
  unfold State.dataKey spaceKey
  split <;> omega

theorem State.unitOfKey_dataKey {s : State} {sp o : Nat} (hsp : sp ≤ 1) (ho : o < 2 ^ 48) :
    unitOfKey (s.dataKey sp o) = 65536 * unitClass sp + unitOf sp o := by
  obtain ⟨hspace, hoffset⟩ := State.dataKey_splits (s := s) hsp ho
  rw [unitOfKey, hspace, hoffset]

-- ## A line is read (R232, R233, R236)

theorem State.cached_eq_false {s : State} {k : Nat} (h : s.cached k = false) : s.memCtl.cache.find? (fun l => l.key == k) = none :=
  List.find?_eq_none.2 fun l hl => by simpa using List.any_eq_false.1 h l hl

theorem State.readLine_poisoned {s : State} {sp o : Nat} {first second : Decoded} {part : Option Nat} (h : s.dataKey sp (o / 64 * 64) ∈ s.memCtl.poison) :
    s.readLine sp o first second part = (s, false) := by
  simp [State.readLine, h]

theorem State.readLine_clean {s : State} {sp o : Nat} {part : Option Nat} (hp : s.dataKey sp (o / 64 * 64) ∉ s.memCtl.poison)
    (hc : s.dataKey sp (o / 64 * 64) ∉ s.memCtl.corrupt) : s.readLine sp o .clean .clean part = (s, true) := by
  simp [State.readLine, hp, hc]

theorem State.readLine_uncorrectable {s : State} {sp o : Nat} {part : Option Nat} (hp : s.dataKey sp (o / 64 * 64) ∉ s.memCtl.poison)
    (hc : s.dataKey sp (o / 64 * 64) ∉ s.memCtl.corrupt) :
    s.readLine sp o .uncorrectable .uncorrectable part = (s.poisonLine sp o false part, false) := by
  simp [State.readLine, hp, hc]

/-- A line that the cache does not hold is read from memory. -/
theorem State.readThrough_uncached {s : State} {sp o : Nat} {first second : Decoded} {part : Option Nat}
    (hcached : s.cached (s.dataKey sp (o / 64 * 64)) = false) (hbad : (s.readLine sp o first second part).2 = false) :
    s.readThrough sp o first second part = s.readLine sp o first second part := by
  rw [State.readThrough, State.cached_eq_false hcached]
  exact if_neg (by simp [hbad])

/-- A good line passes the cache. -/
theorem State.readThrough_clean {s : State} {sp o : Nat} {part : Option Nat} (hp : s.dataKey sp (o / 64 * 64) ∉ s.memCtl.poison)
    (hc : s.dataKey sp (o / 64 * 64) ∉ s.memCtl.corrupt) :
    s.readThrough sp o .clean .clean part = (s.passLine (s.dataKey sp (o / 64 * 64)) false false, true) := by
  unfold State.readThrough
  dsimp only
  cases s.memCtl.cache.find? (fun l => l.key == s.dataKey sp (o / 64 * 64)) with
  | none => simp only [State.readLine_clean hp hc, if_true]
  | some l => simp only [State.readCached, if_true]

/-- MEMORY_READ of a line whose controller serves. -/
theorem memoryRead_of_serves {s : State} {a : Nat} (first second : Decoded) (hl : s.isLocal a = true) (hsp : gSpace a ≤ 1)
    (hv : offsetValid (gSpace a) (gOffset a) = true) (hs : s.serves (gSpace a) (gOffset a) = true) :
    memoryRead s a first second .outside =
      if (s.readThrough (gSpace a) (gOffset a) first second none).2 then
        (s.readThrough (gSpace a) (gOffset a) first second none).1.emit (.data ((List.range 64).map fun i =>
          (s.readThrough (gSpace a) (gOffset a) first second none).1.rd
            ((s.readThrough (gSpace a) (gOffset a) first second none).1.dataKey (gSpace a) (gOffset a / 64 * 64 + i))) true)
      else (s.readThrough (gSpace a) (gOffset a) first second none).1.emit (.data [] false) := by
  unfold memoryRead
  exact if_neg (by simp [hl, hv, hs]; omega)

theorem memoryRead_refused {s : State} {a : Nat} {first second : Decoded} (hl : s.isLocal a = true) (hsp : gSpace a ≤ 1)
    (hv : offsetValid (gSpace a) (gOffset a) = true) (hs : s.serves (gSpace a) (gOffset a) = true)
    (hcached : s.cached (s.dataKey (gSpace a) (gOffset a / 64 * 64)) = false) (hbad : (s.readLine (gSpace a) (gOffset a) first second none).2 = false) :
    memoryRead s a first second .outside = (s.readLine (gSpace a) (gOffset a) first second none).1.emit (.data [] false) := by
  rw [memoryRead_of_serves first second hl hsp hv hs, State.readThrough_uncached hcached hbad, if_neg (by simp [hbad])]

-- ## A line that reads uncorrectable twice (R233, R443)

theorem State.tableFull_of_room {s : State} {sp u : Nat} (h : s.memCtl.poison.length < tableSize sp) : s.tableFull sp u = false :=
  decide_eq_false (Nat.not_le.2 (Nat.lt_of_le_of_lt (List.length_filter_le _ _) h))

/-- Where the table has room the line is entered, counted and recorded. -/
theorem State.poisonLine_enters {s : State} {sp o : Nat} {part : Option Nat} (hroom : s.tableFull sp (unitOf sp o) = false) :
    ∃ ev : FaultEv, ev.source = (unitSource (unitClass sp) (unitOf sp o)).1 ∧ s.poisonLine sp o false part =
      State.raiseWith (State.hardEvent { s with memCtl := { s.memCtl with poison := s.memCtl.poison ++ [s.dataKey sp (o / 64 * 64)] } }
        (unitClass sp) (unitOf sp o)) ev false := by
  refine ⟨_, ?_, by simp only [State.poisonLine, hroom, Bool.false_eq_true, false_and, if_false]; rfl⟩
  rfl

theorem State.hardEvent_keeps (s : State) (cls u : Nat) : s.keeps (s.hardEvent cls u) [.units] := s.setUnit_keeps _ _ _

theorem State.hardEvent_unit (s : State) (cls u : Nat) : (s.hardEvent cls u).unit cls u = { s.unit cls u with hard := (s.unit cls u).hard + 1 } :=
  State.setUnit_unit_same _ _ _ _

theorem State.poisonLine_records {s : State} {sp o : Nat} {part : Option Nat} (hroom : s.tableFull sp (unitOf sp o) = false)
    (hreact : s.react (unitSource (unitClass sp) (unitOf sp o)).1 = 0) :
    (s.poisonLine sp o false part).memCtl = { s.memCtl with poison := s.memCtl.poison ++ [s.dataKey sp (o / 64 * 64)] } ∧
      (s.poisonLine sp o false part).unit (unitClass sp) (unitOf sp o) =
        { s.unit (unitClass sp) (unitOf sp o) with hard := (s.unit (unitClass sp) (unitOf sp o)).hard + 1 } ∧
      bitAt (s.poisonLine sp o false part).knot.word (unitSource (unitClass sp) (unitOf sp o)).1 = true ∧
      s.keeps (s.poisonLine sp o false part) [.mem, .ports, .memCtl, .units, .knot] := by
  obtain ⟨ev, hsource, hpoison⟩ := State.poisonLine_enters (part := part) hroom
  have hentered := s.keeps_memCtl { s.memCtl with poison := s.memCtl.poison ++ [s.dataKey sp (o / 64 * 64)] }
  have hcounted := State.keeps_step (State.keeps_mono hentered (gs := [.memCtl, .units]) (by decide)) (State.hardEvent_keeps _ (unitClass sp) (unitOf sp o))
  have hraise := State.raiseWith_noted (ev := ev) false (hsource ▸ (State.react_of_keeps hcounted (by decide) _).trans hreact)
  have hmemCtl := hraise.1 .memCtl (by decide)
  have hunits := hraise.1 .units (by decide)
  rw [hpoison]
  refine ⟨hmemCtl, ?_, hsource ▸ State.noted_bit hraise, State.keeps_step (State.keeps_mono hcounted (by decide)) hraise.1⟩
  exact (congrArg (tget ({} : Unit) · _) hunits).trans (State.hardEvent_unit _ _ _)

-- ## A whole line is written, with no fault armed (R233, R237, R442)

/-- A line stored uncorrectable is the one that is written. -/
theorem State.storeLine_corrupt_other {s : State} {j k : Nat} {whole : Bool} (hne : j ≠ k) (h : j ∉ s.memCtl.corrupt) :
    j ∉ (s.storeLine k whole).memCtl.corrupt := by
  unfold State.storeLine
  dsimp only
  split
  · simp [hne, h]
  · split
    · simp [h]
    · exact h

theorem State.storeLine_whole {s : State} {k : Nat} (h : tget 0 s.memCtl.armed (unitOfKey k) = 0) : k ∉ (s.storeLine k true).memCtl.corrupt := by
  simp [State.storeLine, h]

theorem State.lineAccess_memCtl (s : State) (k : Nat) (write whole : Bool) :
    ∃ buf reads writes, s.lineAccess k write whole =
      { s with memCtl := { s.memCtl with checkBuf := buf, checkReads := reads, checkWrites := writes } } := by
  unfold State.lineAccess
  split
  · exact ⟨_, _, _, rfl⟩
  · exact ⟨_, _, _, rfl⟩

theorem State.lineAccess_corrupt (s : State) (k : Nat) (write whole : Bool) : (s.lineAccess k write whole).memCtl.corrupt = s.memCtl.corrupt := by
  obtain ⟨_, _, _, h⟩ := s.lineAccess_memCtl k write whole
  rw [h]

theorem State.dropLine_corrupt_other {s : State} {l : CacheLine} {j : Nat} (hne : j ≠ l.key) (h : j ∉ s.memCtl.corrupt) :
    j ∉ (s.dropLine l).memCtl.corrupt := by
  unfold State.dropLine
  dsimp only
  split
  · rw [State.lineAccess_corrupt]
    exact State.storeLine_corrupt_other hne h
  · exact h

/-- The line that makes room is another one, where no way in question holds the line itself. -/
theorem State.allocLine_corrupt {s : State} {k ways : Nat} {dirty : Bool} (hmiss : ∀ l ∈ s.memCtl.cache, bitAt ways l.way = true → l.key ≠ k)
    (h : k ∉ s.memCtl.corrupt) : k ∉ (s.allocLine k ways dirty).memCtl.corrupt := by
  unfold State.allocLine
  dsimp only
  split
  · exact h
  · next l _ hlast =>
    obtain ⟨hmem, hin⟩ := List.mem_filter.1 (List.mem_of_getLast? hlast)
    have hway : bitAt ways l.way = true := by simp_all
    exact State.dropLine_corrupt_other (hmiss l hmem hway).symm h
  · exact h

/-- A line written passes the cache and stays as good as it was. -/
theorem State.passLine_corrupt {s : State} {k : Nat} (h : k ∉ s.memCtl.corrupt) : k ∉ (s.passLine k true false).memCtl.corrupt := by
  unfold State.passLine
  dsimp only
  split
  · rwa [State.lineAccess_corrupt]
  · split
    · exact h
    · next hnone =>
      split
      · rwa [State.lineAccess_corrupt]
      · refine State.allocLine_corrupt (fun l hl hway hkey => ?_) h
        simpa [hkey, hway] using List.find?_eq_none.1 hnone l hl

/-- Bytes written one after another, each where its unit then lies. -/
theorem State.foldl_wr_dataKey {s : State} {sp o : Nat} (l : List (Nat × Byte)) :
    ∀ u : State, u.memCtl = s.memCtl → l.foldl (fun u p => u.wr (u.dataKey sp (o + p.1)) p.2) u = l.foldl (fun u p => u.wr (s.dataKey sp (o + p.1)) p.2) u := by
  induction l with
  | nil => exact fun _ _ => rfl
  | cons p l ih =>
    intro u hu
    rw [List.foldl_cons, List.foldl_cons, State.dataKey_of_gates (congrArg MemCtl.gates hu)]
    exact ih _ hu

/-- The line is stored and has passed the cache, and is out of the poison table; its bytes are still to be written. -/
def State.madeGood (s : State) (k : Nat) : State :=
  { (s.storeLine k true).passLine k true false with memCtl :=
    { ((s.storeLine k true).passLine k true false).memCtl with poison := ((s.storeLine k true).passLine k true false).memCtl.poison.filter (· != k) } }

theorem State.madeGood_stored (s : State) (k : Nat) : s.passes ((s.storeLine k true).passLine k true false) :=
  State.passes_trans (s.storeLine_passes _ _) (State.passLine_passes _ _ _ _)

theorem State.madeGood_keeps (s : State) (k : Nat) : s.keeps (s.madeGood k) [.memCtl] :=
  State.keeps_trans (State.passes_keeps (s.madeGood_stored k)) (State.keeps_memCtl _ _)

theorem State.madeGood_gates (s : State) (k : Nat) : (s.madeGood k).memCtl.gates = s.memCtl.gates := (s.madeGood_stored k).2.1

theorem State.madeGood_poison (s : State) (k : Nat) : k ∉ (s.madeGood k).memCtl.poison := by simp [State.madeGood]

theorem State.madeGood_corrupt {s : State} {k : Nat} (h : tget 0 s.memCtl.armed (unitOfKey k) = 0) : k ∉ (s.madeGood k).memCtl.corrupt :=
  State.passLine_corrupt (State.storeLine_whole h)

/-- MEMORY_WRITE of a whole line whose controller serves. -/
theorem memoryWrite_whole {s : State} {a : Nat} {bs : List Byte} {first second : Decoded} {iss : Issuer} (hl : s.isLocal a = true) (hsp : gSpace a ≤ 1)
    (hv : offsetValid (gSpace a) (gOffset a) = true) (hs : s.serves (gSpace a) (gOffset a) = true) (hlen : bs.length = 64) (ho : gOffset a % 64 = 0) :
    memoryWrite s a bs first second iss = ((List.range bs.length).zip bs).foldl (fun u p => u.wr (u.dataKey (gSpace a) (gOffset a + p.1)) p.2)
      (s.madeGood (s.dataKey (gSpace a) (gOffset a / 64 * 64))) := by
  have hguard : ¬ ((!s.isLocal a) = true ∨ 2 ≤ gSpace a ∨ (!offsetValid (gSpace a) (gOffset a)) = true ∨ 64 < gOffset a % 64 + bs.length ∨
      bs.isEmpty = true ∨ (!s.serves (gSpace a) (gOffset a)) = true) := by
    have hne : bs ≠ [] := List.ne_nil_of_length_pos (by omega)
    simp [hl, hv, hs, hne]
    omega
  unfold memoryWrite
  rw [if_neg hguard]
  simp only [hlen, decide_true, if_true, Bool.not_true, Bool.false_eq_true, if_false]
  rfl

/-- Part of a line that cannot be read is not written (R233). -/
theorem memoryWrite_part_poisoned {s : State} {a : Nat} {bs : List Byte} {first second : Decoded} (hlen : bs.length < 64)
    (hp : s.dataKey (gSpace a) (gOffset a / 64 * 64) ∈ s.memCtl.poison) (hcached : s.cached (s.dataKey (gSpace a) (gOffset a / 64 * 64)) = false) :
    memoryWrite s a bs first second .outside = s := by
  have hread : s.readThrough (gSpace a) (gOffset a) first second none = (s, false) := by
    rw [State.readThrough_uncached hcached (by rw [State.readLine_poisoned hp]), State.readLine_poisoned hp]
  unfold memoryWrite
  dsimp only
  split
  · rfl
  · have hpart : decide (bs.length = 64) = false := decide_eq_false (by omega)
    have hissuer : s.issuerPart .outside = none := rfl
    simp only [hpart, Bool.false_eq_true, if_false, hissuer, hread, Bool.not_false, if_true]
    rfl

-- ## Scrub reads (R234)

/-- The channel goes on to its next line. -/
def State.scrubMoved (s : State) (sp c : Nat) : State :=
  { s with memCtl := { s.memCtl with
    scrubNext := tset 0 s.memCtl.scrubNext (256 * sp + c) ((tget 0 s.memCtl.scrubNext (256 * sp + c) + 1) % channelLines sp)
    scrubWait := s.memCtl.scrubWait.erase (256 * sp + c) } }

/-- The line whose decode a scrub read meets, and the state after the draw of a check line's. -/
def State.scrubLine (s : State) (sp c : Nat) : Nat × State :=
  if tget 0 s.memCtl.scrubNext (256 * sp + c) < channelData sp then (tget 0 s.memCtl.scrubNext (256 * sp + c), s.scrubMoved sp c)
  else (16 * (tget 0 s.memCtl.scrubNext (256 * sp + c) - channelData sp) + (s.scrubMoved sp c).draw.1 % 16, (s.scrubMoved sp c).draw.2)

theorem State.scrubRead_eq (s : State) (sp c : Nat) (first second : Decoded) :
    s.scrubRead sp c first second =
      if offsetValid sp (channelLine sp c (s.scrubLine sp c).1) ∧ !s.offsetRetired sp (channelLine sp c (s.scrubLine sp c).1) then
        (((s.scrubLine sp c).2.lineAccess (s.dataKey sp (channelLine sp c (s.scrubLine sp c).1)) false false).readLine sp
          (channelLine sp c (s.scrubLine sp c).1) first second none).1
      else (s.scrubLine sp c).2 := rfl

theorem State.scrubLine_state (s : State) (sp c : Nat) : ∃ draws, (s.scrubLine sp c).2 = { s.scrubMoved sp c with draws := draws } := by
  unfold State.scrubLine
  split
  · exact ⟨s.draws, rfl⟩
  · exact ⟨s.draws + 1, rfl⟩

/-- A line that decodes clean, where nothing is stored uncorrectable, is left as it is, poisoned or not. -/
theorem State.readLine_idle {s : State} {sp o : Nat} {part : Option Nat} (h : s.memCtl.corrupt = []) : (s.readLine sp o .clean .clean part).1 = s := by
  by_cases hp : s.dataKey sp (o / 64 * 64) ∈ s.memCtl.poison
  · rw [State.readLine_poisoned hp]
  · rw [State.readLine_clean hp (by simp [h])]

/-- Such a scrub read moves the channel on and may use check lines. -/
theorem State.scrubRead_clean {s : State} (sp c : Nat) (hcor : s.memCtl.corrupt = []) :
    ∃ draws buf reads writes, s.scrubRead sp c .clean .clean = { s.scrubMoved sp c with
      draws := draws, memCtl := { (s.scrubMoved sp c).memCtl with checkBuf := buf, checkReads := reads, checkWrites := writes } } := by
  obtain ⟨draws, hline⟩ := s.scrubLine_state sp c
  have hclean : (s.scrubLine sp c).2.memCtl.corrupt = [] := by rw [hline]; exact hcor
  rw [State.scrubRead_eq]
  split
  · rw [State.readLine_idle ((State.lineAccess_corrupt ..).trans hclean)]
    obtain ⟨buf, reads, writes, h⟩ := (s.scrubLine sp c).2.lineAccess_memCtl (s.dataKey sp (channelLine sp c (s.scrubLine sp c).1)) false false
    exact ⟨draws, buf, reads, writes, by rw [h, hline]⟩
  · exact ⟨draws, _, _, _, hline⟩

theorem scrubDue_eq {s : State} {tier2 : Bool} {c : Nat} (hc : c < if tier2 then 64 else 256) (hen : s.bit (.scrub tier2) 0 = true) (first second : Decoded) :
    scrubDue s (b2n tier2) c first second =
      if s.serves (b2n tier2) (channelLine (b2n tier2) c 0) then s.scrubRead (b2n tier2) c first second
      else if s.memCtl.scrubWait.contains (256 * b2n tier2 + c) then s
      else { s with memCtl := { s.memCtl with scrubWait := s.memCtl.scrubWait ++ [256 * b2n tier2 + c] } } := by
  unfold scrubDue
  refine if_neg ?_
  cases tier2 <;> simp_all [b2n]

end Sys2Proof.Machine
end

section
/-!
PROOFS. External accesses to loom SRAM, and the transfers of a channel (O52): which bytes and counts a write changes, what a read answers (R50, R53, R74,
R75).
-/

-- Proofs are elaborated one after another: side by side, the threads of the whole text outgrow the memory that the check allows.
set_option Elab.async false

namespace Sys2Proof.Machine

-- ## A range within one loom

/-- A range that ends within the loom where it begins is one piece. -/
theorem loomPieces_within {o n : Nat} (hn : n ≠ 0) (h : o % loomBytes + n ≤ loomBytes) : loomPieces o n = [(o / loomBytes, o % loomBytes, n, 0)] := by
  unfold loomBytes at *
  have hrest : ((List.range (n / loomBytes + 1)).map Nat.succ).filterMap (fun i =>
      if max o ((o / 0x400000 + i) * 0x400000) < min (o + n) ((o / 0x400000 + i + 1) * 0x400000) then
        some (o / 0x400000 + i, max o ((o / 0x400000 + i) * 0x400000) - (o / 0x400000 + i) * 0x400000,
          min (o + n) ((o / 0x400000 + i + 1) * 0x400000) - max o ((o / 0x400000 + i) * 0x400000), max o ((o / 0x400000 + i) * 0x400000) - o)
      else none) = [] := by
    refine List.filterMap_eq_nil_iff.2 fun i hi => if_neg ?_
    obtain ⟨j, -, rfl⟩ := List.mem_map.1 hi
    omega
  have hrange : List.range (n / loomBytes + 2) = 0 :: (List.range (n / loomBytes + 1)).map Nat.succ := List.range_succ_eq_map
  have hfirst : max o ((o / 0x400000 + 0) * 0x400000) < min (o + n) ((o / 0x400000 + 0 + 1) * 0x400000) := by omega
  unfold loomPieces
  rw [hrange, List.filterMap_cons]
  unfold loomBytes at *
  simp only [hfirst, if_true]
  rw [hrest]
  simp only [List.cons.injEq, Prod.mk.injEq, and_true]
  omega

/-- The role's address gives the place in the halves one to one (R97, R223). -/
theorem localPhys_inj {x : Loom} {a b : Nat} (h : localPhys x a = localPhys x b) : a = b := by
  unfold localPhys fillBase feedBase scratchBase at h
  split_ifs at h <;> omega

theorem State.localKey_inj {s : State} {l a b : Nat} (h : s.localKey l a = s.localKey l b) : a = b :=
  localPhys_inj (Nat.add_left_cancel h)

/-- Where a loom's bytes lie turns on the exchanges, the registers and its half roles. -/
theorem State.localKey_of_parts {s t : State} (hg : t.guests = s.guests) (hr : t.regs = s.regs) {l : Nat} (hx : (t.loom l).feedH1 = (s.loom l).feedH1) (a : Nat) :
    t.localKey l a = s.localKey l a := by
  have haddr : ∀ p, t.addr (.knotPark p 0) (.knotPark p 1) = s.addr (.knotPark p 0) (.knotPark p 1) := fun p => by
    simp only [State.addr, State.reg, hr]
  simp only [State.localKey, State.loomKey, State.parkKey, haddr, hg, localPhys, hx]

-- ## A write that is stored (R74, R98)

/-- What a write leaves of the loom's own record. -/
def Loom.storedOver (x : Loom) (a n : Nat) : Loom :=
  let ws := (List.range ((n + a % 8 + 7) / 8)).map (fun i => a / 8 * 8 + 8 * i)
  let whole := ws.filter (fun w => decide (a ≤ w ∧ w + 8 ≤ a + n))
  { x with
    bad := (x.bad.filter (fun w => !whole.contains (localPhys x w))) ++ (ws.take (tget 0 x.armed 3)).map (localPhys x)
    armed := tset 0 x.armed 3 (tget 0 x.armed 3 - ws.length) }

theorem State.loomStore_eq (s : State) (l a : Nat) (bs : List Byte) : s.loomStore l a bs =
    ((List.range bs.length).zip bs).foldl (fun u p => u.wr (u.localKey l (a + p.1)) p.2) (s.setLoom l ((s.loom l).storedOver a bs.length)) := rfl

theorem State.foldl_wr_localKey {s : State} {l a : Nat} (bs : List (Nat × Byte)) :
    ∀ u : State, u.guests = s.guests → u.regs = s.regs → (u.loom l).feedH1 = (s.loom l).feedH1 →
      bs.foldl (fun u p => u.wr (u.localKey l (a + p.1)) p.2) u = bs.foldl (fun u p => u.wr (s.localKey l (a + p.1)) p.2) u := by
  induction bs with
  | nil => exact fun _ _ _ _ => rfl
  | cons p bs ih =>
    intro u hg hr hx
    rw [List.foldl_cons, List.foldl_cons, State.localKey_of_parts hg hr hx]
    exact ih _ hg hr hx

/-- Writes, each at the key of its place. -/
theorem State.foldl_wr_keeps (K : Nat → Nat) (bs : List (Nat × Byte)) (u : State) : u.keeps (bs.foldl (fun u p => u.wr (K p.1) p.2) u) [.mem] :=
  State.keeps_fold (fun s _ => s.wr_keeps _ _) u bs

theorem State.loomStore_writes (s : State) (l a : Nat) (bs : List Byte) : s.loomStore l a bs =
    ((List.range bs.length).zip bs).foldl (fun u p => u.wr (s.localKey l (a + p.1)) p.2) (s.setLoom l ((s.loom l).storedOver a bs.length)) := by
  rw [State.loomStore_eq]
  exact State.foldl_wr_localKey _ _ rfl rfl (by rw [State.setLoom_loom_same]; rfl)

theorem State.loomStore_looms (s : State) (l a : Nat) (bs : List Byte) :
    (s.loomStore l a bs).looms = (s.setLoom l ((s.loom l).storedOver a bs.length)).looms := by
  rw [State.loomStore_writes]
  exact State.foldl_wr_keeps (fun i => s.localKey l (a + i)) _ _ .looms (by decide)

/-- The bytes stand at the loom's own place for each, and no other byte changes. -/
theorem State.loomStore_rd (s : State) (l a : Nat) (bs : List Byte) :
    (∀ i, i < bs.length → (s.loomStore l a bs).rd (s.localKey l (a + i)) = bs.getD i 0) ∧
      ∀ j, (∀ i, i < bs.length → j ≠ s.localKey l (a + i)) → (s.loomStore l a bs).rd j = s.rd j := by
  have hlt : ∀ p ∈ (List.range bs.length).zip bs, p.1 < bs.length := fun p hp => List.mem_range.1 (List.of_mem_zip hp).1
  rw [State.loomStore_writes]
  refine ⟨fun i hi => ?_, fun j hj => ?_⟩
  · have hfst : ((List.range bs.length).zip bs).map Prod.fst = List.range bs.length := List.map_fst_zip (by simp)
    have hmem : (i, bs[i]) ∈ (List.range bs.length).zip bs := List.mem_iff_getElem.2 ⟨i, by simpa using hi, by simp⟩
    have hnodup : (((List.range bs.length).zip bs).map Prod.fst).Pairwise (· ≠ ·) := by rw [hfst]; exact List.nodup_range
    rw [List.getD_eq_getElem bs 0 hi]
    exact State.foldl_wr_rd_mem (fun i => s.localKey l (a + i)) _
      ((List.pairwise_map.1 hnodup).imp fun hne hkey => hne (Nat.add_left_cancel (State.localKey_inj hkey))) hmem _
  · rw [State.foldl_wr_rd_other (fun i => s.localKey l (a + i)) j _ (fun p hp => (hj p.1 (hlt p hp)).symm), State.setLoom_rd]

theorem State.extWrite_keeps (s : State) (l a : Nat) (bs : List Byte) : s.keeps (s.extWrite l a bs) [.mem, .looms] :=
  State.keeps_step (s.loomStore_keeps l a bs) (State.setLoom_keeps _ _ _)

theorem State.extWrite_rd (s : State) (l a : Nat) (bs : List Byte) (j : Nat) : (s.extWrite l a bs).rd j = (s.loomStore l a bs).rd j :=
  State.setLoom_rd _ _ _ _

/-- The bytes in the FILL half are counted. -/
theorem State.extWrite_fillBytes (s : State) (l a : Nat) (bs : List Byte) :
    ((s.extWrite l a bs).loom l).fillBytes = (s.loom l).fillBytes + fillOverlap a bs.length := by
  have hstored : (s.loomStore l a bs).loom l = (s.loom l).storedOver a bs.length :=
    (congrArg (tget ({} : Loom) · l) (s.loomStore_looms l a bs)).trans (State.setLoom_loom_same ..)
  rw [State.extWrite]
  rw [State.setLoom_loom_same, hstored]
  rfl

theorem State.extWrite_other (s : State) {l m : Nat} (a : Nat) (bs : List Byte) (h : m ≠ l) : (s.extWrite l a bs).loom m = s.loom m := by
  have hstored : (s.loomStore l a bs).loom m = s.loom m :=
    (congrArg (tget ({} : Loom) · m) (s.loomStore_looms l a bs)).trans (by
      rw [← State.loom, State.setLoom_loom, if_neg h])
  rw [State.extWrite]
  rw [State.setLoom_loom, if_neg h, hstored]

-- ## EXTERNAL_WRITE (R74)

section externalWrite

variable {s : State} {a : Nat} {bs : List Byte} {c : Ctx}

/-- An allowed write to one loom is refused where the loom does not take it now. -/
theorem State.writeErr_loom (hl : s.isLocal a = true) (hsp : gSpace a = 2) (hend : gOffset a % loomBytes + bs.length ≤ loomBytes) (hne : bs ≠ [])
    (hok : s.allowed c a bs.length true = true) : s.writeErr c a bs.length =
      if (s.loomIsland (gOffset a / loomBytes)).relocking || s.extWriteOk (gOffset a / loomBytes) (gOffset a % loomBytes) bs.length then none
      else some stInvalid := by
  have hn : bs.length ≠ 0 := by simpa using hne
  simp [State.writeErr, hn, hl, hok, hsp, loomPieces_within hn hend]

theorem State.put_loom_taken (hl : s.isLocal a = true) (hsp : gSpace a = 2) (hend : gOffset a % loomBytes + bs.length ≤ loomBytes) (hne : bs ≠ [])
    (herr : s.writeErr c a bs.length = none) (iss : Issuer) :
    s.put c iss a bs = (s.storeExt iss (gOffset a / loomBytes) (gOffset a % loomBytes) bs, none) := by
  have hn : bs.length ≠ 0 := by simpa using hne
  have hall : slice bs 0 bs.length = bs := by simp [slice]
  simp [State.put, herr, hne, hl, hsp, loomPieces_within hn hend, hall]

theorem State.put_loom_refused (hl : s.isLocal a = true) (hsp : gSpace a = 2) (hok : s.allowed c a bs.length true = true) {st : Nat}
    (herr : s.writeErr c a bs.length = some st) (iss : Issuer) : s.put c iss a bs = (s.countRefused (gOffset a / loomBytes), some st) := by
  simp [State.put, herr, hl, hsp, hok]

theorem externalWrite_taken (hl : s.isLocal a = true) (hsp : gSpace a = 2) {u : State}
    (hput : s.put { part := s.loomPart a } .outside a bs = (u, none)) : externalWrite s a bs .outside = u := by
  simp [externalWrite, hl, hsp, State.issuerCtx, hput]

theorem externalWrite_refused (hl : s.isLocal a = true) (hsp : gSpace a = 2) {u : State} {st : Nat}
    (hput : s.put { part := s.loomPart a } .outside a bs = (u, some st)) : externalWrite s a bs .outside = u := by
  simp [externalWrite, hl, hsp, State.issuerCtx, hput, State.failIssuer]

end externalWrite

theorem State.countRefused_of_part {s : State} {l p : Nat} (h : s.clusterPart (l / 8) = some p) : s.countRefused l = s.count p 6 1 := by
  rw [State.countRefused, h]

theorem State.count_counter (s : State) (p i n : Nat) :
    tget 0 ((s.count p i n).part p).counters i = satInc 64 (tget 0 (s.part p).counters i) n := by
  rw [State.count, State.setPart_part_same, tget_tset_same]

-- ## EXTERNAL_READ (R75)

theorem isLocal_word (s : State) (a : Nat) : s.isLocal (a / 8 * 8) = s.isLocal a := by
  have hmodule : gModule (a / 8 * 8) = gModule a := by unfold gModule; omega
  rw [State.isLocal, hmodule, State.isLocal]

theorem externalRead_fetched {s : State} {a n : Nat} {bs : List Byte} (hl : s.isLocal a = true) (hsp : gSpace a = 2)
    (h : s.fetch { part := s.loomPart a } (a / 8 * 8) (8 * n) = some bs) : externalRead s a n .outside = s.emit (.data bs true) := by
  have hread : s.readErr { part := s.loomPart a } (a / 8 * 8) (8 * n) = none ∧ s.valueAt { part := s.loomPart a } (a / 8 * 8) (8 * n) = bs := by
    unfold State.fetch at h
    split at h
    · next hnone => exact ⟨hnone, Option.some.inj h⟩
    · cases h
  simp [externalRead, hl, hsp, State.issuerCtx, State.mayRead, hread]

theorem externalRead_refused {s : State} {a n : Nat} (hl : s.isLocal a = true) (hsp : gSpace a = 2) (hn : 0 < n)
    (h : s.allowed { part := s.loomPart a } (a / 8 * 8) (8 * n) false = false) : externalRead s a n .outside = s.emit (.data [] false) := by
  have herr : s.readErr { part := s.loomPart a } (a / 8 * 8) (8 * n) = some stInvalid := by
    simp [State.readErr, isLocal_word, hl, h]
    omega
  have hmeet : s.meet { part := s.loomPart a } (a / 8 * 8) (8 * n) = s := by simp [State.meet, h]
  simp [externalRead, hl, hsp, State.issuerCtx, State.mayRead, herr, hmeet, State.failIssuer]

-- ## Transfers (R50, R52, R53, R104)

theorem deliver_held {s : State} {i j : Nat} (h : (s.island j).on = false ∨ (s.island j).relocking = true) : deliver s i j = s := by
  have hheld : (!(s.island j).on || (s.island j).relocking) = true := by simpa using h
  unfold deliver
  split
  · rfl
  · exact if_pos hheld

/-- The oldest transfer of a channel has left it, and its island runs. -/
def State.handed (s : State) (i j : Nat) (rest : List Transfer) : State :=
  { s.setIsland j { s.island j with gated := false } with channels := tset [] s.channels (256 * i + j) rest }

theorem State.handed_keeps (s : State) (i j : Nat) (rest : List Transfer) : s.keeps (s.handed i j rest) [.channels, .islands] :=
  State.keeps_step (State.keeps_mono (s.setIsland_keeps _ _) (by decide)) (State.keeps_channels _ _)

theorem State.handed_island (s : State) (i j : Nat) (rest : List Transfer) (m : Nat) :
    (s.handed i j rest).island m = if m = j then { s.island j with gated := false } else s.island m := State.setIsland_island ..

theorem State.handed_channel (s : State) (i j : Nat) (rest : List Transfer) : tget [] (s.handed i j rest).channels (256 * i + j) = rest :=
  tget_tset_same ..

/-- The pick store of an island takes a number. -/
def Island.picked (x : Island) (p n : Nat) : Island := { x with picks := tset 0 x.picks p n }

theorem State.regate_awake {s : State} {i : Nat} (h : s.treadle.state ≠ 1) : s.regate i = s := if_neg fun hT1 => h hT1.1

theorem deliver_pick {s : State} {i j p n : Nat} {rest : List Transfer} (hch : tget [] s.channels (256 * i + j) = .pick p n :: rest)
    (hon : (s.island j).on = true) (hclock : (s.island j).relocking = false) (hst : s.treadle.state ≠ 1) :
    deliver s i j = (s.handed i j rest).setIsland j (((s.handed i j rest).island j).picked p n) := by
  have hdeliver : deliver s i j = ((s.handed i j rest).setIsland j (((s.handed i j rest).island j).picked p n)).regate j := by
    unfold deliver
    rw [hch]
    exact if_neg (by simp [hon, hclock])
  rw [hdeliver]
  exact State.regate_awake hst

theorem handshakeTimeout_eq {s : State} {i j : Nat} {x : Transfer} {rest : List Transfer} (hch : tget [] s.channels (256 * i + j) = x :: rest) :
    handshakeTimeout s i j = State.raise { s with channels := tset [] s.channels (256 * i + j) rest }
      { source := 59, cls := 6, unit := i, unit2 := j, address := 0, detail := 0, island := i, part := none } := by
  simp only [handshakeTimeout, hch]

end Sys2Proof.Machine
end

section
/-!
PROOFS. O52, group by group: lines of HBM and tier 2, scrub reads, external accesses, transfers.
-/

-- Proofs are elaborated one after another: side by side, the threads of the whole text outgrow the memory that the check allows.
set_option Elab.async false

namespace Sys2Proof.Machine

-- ## Lines of HBM and tier 2

section lines

variable {s : State} {a : Nat} (hl : s.isLocal a = true) (hsp : gSpace a ≤ 1) (hv : offsetValid (gSpace a) (gOffset a) = true)
  (hs : s.serves (gSpace a) (gOffset a) = true)

include hl hsp hv hs

theorem gives_memoryRead_good (hp : s.dataKey (gSpace a) (gOffset a / 64 * 64) ∉ s.memCtl.poison)
    (hc : s.dataKey (gSpace a) (gOffset a / 64 * 64) ∉ s.memCtl.corrupt) : s.gives (.memoryRead a .clean .clean .outside) (fun t =>
      t.out = s.out ++ [Out.data ((List.range 64).map (fun i => s.rd (s.dataKey (gSpace a) (gOffset a / 64 * 64 + i)))) true] ∧ s.keeps t [.out, .memCtl]) := by
  have hpass := s.passLine_passes (s.dataKey (gSpace a) (gOffset a / 64 * 64)) false false
  have hout : (s.passLine (s.dataKey (gSpace a) (gOffset a / 64 * 64)) false false).out = s.out := State.passes_keeps hpass .out (by decide)
  refine State.gives_of_finish (u := memoryRead s a .clean .clean .outside) rfl ?_
  rw [memoryRead_of_serves _ _ hl hsp hv hs, State.readThrough_clean hp hc, if_pos rfl]
  generalize s.passLine (s.dataKey (gSpace a) (gOffset a / 64 * 64)) false false = u at hpass hout ⊢
  refine ⟨?_, State.keeps_settled (State.keeps_step (State.keeps_mono (State.passes_keeps hpass) (by decide)) (State.emit_keeps _ _))⟩
  simp only [settle_out, State.emit, hout, State.passes_dataKey hpass, State.passes_rd hpass]

theorem gives_memoryRead_poisoned (hp : s.dataKey (gSpace a) (gOffset a / 64 * 64) ∈ s.memCtl.poison)
    (hcached : s.cached (s.dataKey (gSpace a) (gOffset a / 64 * 64)) = false) :
    s.gives (.memoryRead a .clean .clean .outside) (fun t => t.out = s.out ++ [Out.data [] false] ∧ s.keeps t [.out]) := by
  have hread : s.readLine (gSpace a) (gOffset a) .clean .clean none = (s, false) := State.readLine_poisoned hp
  refine State.gives_of_finish (u := memoryRead s a .clean .clean .outside) rfl ?_
  rw [memoryRead_refused hl hsp hv hs hcached (by rw [hread]), hread]
  exact ⟨rfl, State.keeps_settled (s.emit_keeps _)⟩

theorem gives_memoryRead_uncorrectable (hp : s.dataKey (gSpace a) (gOffset a / 64 * 64) ∉ s.memCtl.poison)
    (hc : s.dataKey (gSpace a) (gOffset a / 64 * 64) ∉ s.memCtl.corrupt) (hcached : s.cached (s.dataKey (gSpace a) (gOffset a / 64 * 64)) = false)
    (hroom : s.memCtl.poison.length < tableSize (gSpace a)) {u : Nat} (hu : u = unitOf (gSpace a) (gOffset a))
    (hreact : s.react (unitSource (unitClass (gSpace a)) u).1 = 0) :
    s.gives (.memoryRead a .uncorrectable .uncorrectable .outside) (fun t =>
      t.memCtl = { s.memCtl with poison := s.memCtl.poison ++ [s.dataKey (gSpace a) (gOffset a / 64 * 64)] } ∧
      t.unit (unitClass (gSpace a)) u = { s.unit (unitClass (gSpace a)) u with hard := (s.unit (unitClass (gSpace a)) u).hard + 1 } ∧
      bitAt t.knot.word (unitSource (unitClass (gSpace a)) u).1 = true ∧ t.out = s.out ++ [Out.data [] false] ∧
      s.keeps t [.mem, .ports, .memCtl, .units, .knot, .out]) := by
  subst hu
  have hread := State.readLine_uncorrectable (part := none) hp hc
  obtain ⟨hmemCtl, hunit, hbit, hkeeps⟩ := State.poisonLine_records (part := none) (State.tableFull_of_room hroom) hreact
  have hout : (s.poisonLine (gSpace a) (gOffset a) false none).out = s.out := hkeeps .out (by decide)
  refine State.gives_of_finish (u := memoryRead s a .uncorrectable .uncorrectable .outside) rfl ?_
  rw [memoryRead_refused hl hsp hv hs hcached (by rw [hread]), hread]
  exact ⟨hmemCtl, hunit, hbit, congrArg (· ++ [Out.data [] false]) hout,
    State.keeps_settled (State.keeps_step (State.keeps_mono hkeeps (by decide)) (State.emit_keeps _ _))⟩

theorem gives_memoryWrite_whole {bs : List Byte} (hlen : bs.length = 64) (ho : gOffset a % 64 = 0) {k : Nat}
    (hk : k = s.dataKey (gSpace a) (gOffset a / 64 * 64))
    (harmed : tget 0 s.memCtl.armed (65536 * unitClass (gSpace a) + unitOf (gSpace a) (gOffset a)) = 0) :
    s.gives (.memoryWrite a bs .clean .clean .outside) (fun t =>
      (∀ i, i < 64 → t.rd (s.dataKey (gSpace a) (gOffset a + i)) = bs.getD i 0) ∧
      (∀ j, (∀ i, i < 64 → j ≠ s.dataKey (gSpace a) (gOffset a + i)) → t.rd j = s.rd j) ∧
      k ∉ t.memCtl.poison ∧ k ∉ t.memCtl.corrupt ∧ s.keeps t [.mem, .memCtl]) := by
  have hoffset : gOffset a < 2 ^ 48 := Nat.mod_lt _ (by decide)
  have hstart : gOffset a / 64 * 64 = gOffset a := by omega
  rw [hstart] at hk
  have harmed' : tget 0 s.memCtl.armed (unitOfKey k) = 0 := by rwa [hk, State.unitOfKey_dataKey hsp hoffset]
  have hkey : ∀ o, (s.madeGood k).dataKey (gSpace a) o = s.dataKey (gSpace a) o := State.dataKey_of_gates (s.madeGood_gates k) (gSpace a)
  have hrd : ∀ j, (s.madeGood k).rd j = s.rd j := s.madeGood_keeps k .mem (by decide)
  obtain ⟨hin, hout⟩ := State.foldl_wr_holdsData (s := s.madeGood k) (sp := gSpace a) (o := gOffset a) (bs := bs) (by omega)
  have hwrites := State.foldl_wr_keeps (fun i => (s.madeGood k).dataKey (gSpace a) (gOffset a + i)) ((List.range bs.length).zip bs) (s.madeGood k)
  refine State.gives_of_finish (u := memoryWrite s a bs .clean .clean .outside) rfl ?_
  rw [memoryWrite_whole hl hsp hv hs hlen ho, hstart, ← hk, State.foldl_wr_dataKey _ _ rfl]
  have hmemCtl := hwrites .memCtl (by decide)
  refine ⟨fun i hi => ?_, fun j hj => ?_, fun h => s.madeGood_poison k (?_ : k ∈ (s.madeGood k).memCtl.poison),
    fun h => State.madeGood_corrupt harmed' (?_ : k ∈ (s.madeGood k).memCtl.corrupt),
    State.keeps_settled (State.keeps_step (State.keeps_mono (s.madeGood_keeps k) (by decide)) hwrites)⟩
  · rw [settle_rd, ← hkey, hin i (by omega), List.getD_eq_getElem bs 0 (by omega)]
  · rw [settle_rd, hout j fun i hi => hkey _ ▸ hj i (by omega), hrd]
  · rwa [settle_memCtl, hmemCtl] at h
  · rwa [settle_memCtl, hmemCtl] at h

end lines

-- ## Scrub reads

theorem State.keeps_draws (s : State) (n : Nat) : s.keeps { s with draws := n } [.draws] := by
  intro f hf
  cases f <;> simp_all [Field.same, State.rd]

section scrub

variable {s : State} {tier2 : Bool} {c n : Nat} (hc : c < if tier2 then 64 else 256) (hen : s.bit (.scrub tier2) 0 = true) (hn : n = 256 * b2n tier2 + c)

include hc hen hn

theorem gives_scrub_read (hs : s.serves (b2n tier2) (channelLine (b2n tier2) c 0) = true) (hcor : s.memCtl.corrupt = []) :
    s.gives (.scrubReadDue tier2 c .clean .clean) (fun t =>
      tget 0 t.memCtl.scrubNext n = (tget 0 s.memCtl.scrubNext n + 1) % channelLines (b2n tier2) ∧
      (∀ m, m ≠ n → tget 0 t.memCtl.scrubNext m = tget 0 s.memCtl.scrubNext m) ∧ t.memCtl.scrubWait = s.memCtl.scrubWait.erase n ∧
      t.memCtl.poison = s.memCtl.poison ∧ t.memCtl.corrupt = [] ∧ t.memCtl.cache = s.memCtl.cache ∧ s.keeps t [.memCtl, .draws]) := by
  subst hn
  obtain ⟨draws, buf, reads, writes, hread⟩ := State.scrubRead_clean (s := s) (b2n tier2) c hcor
  refine State.gives_of_finish (u := scrubDue s (b2n tier2) c .clean .clean) rfl ?_
  rw [scrubDue_eq hc hen, if_pos hs, hread]
  exact ⟨tget_tset_same .., fun m hm => tget_tset_ne _ _ _ hm, rfl, rfl, hcor, rfl,
    State.keeps_settled (State.keeps_step (State.keeps_mono (s.keeps_memCtl { (s.scrubMoved (b2n tier2) c).memCtl with
      checkBuf := buf, checkReads := reads, checkWrites := writes }) (by decide)) (State.keeps_draws _ draws))⟩

theorem gives_scrub_waits (hs : s.serves (b2n tier2) (channelLine (b2n tier2) c 0) = false) :
    s.gives (.scrubReadDue tier2 c .clean .clean) (fun t =>
      n ∈ t.memCtl.scrubWait ∧ t.memCtl = { s.memCtl with scrubWait := t.memCtl.scrubWait } ∧ s.keeps t [.memCtl]) := by
  subst hn
  refine State.gives_of_finish (u := scrubDue s (b2n tier2) c .clean .clean) rfl ?_
  rw [scrubDue_eq hc hen, if_neg (by simp [hs])]
  split
  · next hwaits => exact ⟨by simpa using hwaits, rfl, s.keeps_settle _⟩
  · exact ⟨List.mem_append_right _ (List.mem_singleton.2 rfl), rfl, State.keeps_settled (s.keeps_memCtl _)⟩

end scrub

-- ## External writes

section external

variable {s : State} {a l o : Nat} {bs : List Byte} (hl : s.isLocal a = true) (hsp : gSpace a = 2) (hloom : l = gOffset a / loomBytes)
  (ho : o = gOffset a % loomBytes) (hend : o + bs.length ≤ loomBytes) (hne : bs ≠ []) (hok : s.allowed { part := s.loomPart a } a bs.length true = true)

include hl hsp hloom ho hend hne hok

theorem gives_externalWrite_taken (htaken : ((s.loomIsland l).relocking || s.extWriteOk l o bs.length) = true) {P : State → Prop}
    (hp : P (settle (s.storeExt .outside l o bs))) : s.gives (.externalWrite a bs .outside) P := by
  subst hloom ho
  have herr := State.writeErr_loom hl hsp hend hne hok
  rw [if_pos htaken] at herr
  refine State.gives_of_finish (u := externalWrite s a bs .outside) rfl ?_
  rwa [externalWrite_taken hl hsp (State.put_loom_taken hl hsp hend hne herr .outside)]

theorem gives_externalWrite_waits (hclock : (s.loomIsland l).relocking = true) : s.gives (.externalWrite a bs .outside) (fun t =>
    tget [] t.channels (256 * 0x2E + s.hostOf l / 8) = tget [] s.channels (256 * 0x2E + s.hostOf l / 8) ++ [Transfer.store l o bs .outside] ∧
    s.keeps t [.channels]) := by
  have hstore : s.storeExt .outside l o bs = { s with
      channels := tset [] s.channels (256 * 0x2E + s.hostOf l / 8)
        (tget [] s.channels (256 * 0x2E + s.hostOf l / 8) ++ [Transfer.store l o bs .outside]) } := if_pos hclock
  refine gives_externalWrite_taken hl hsp hloom ho hend hne hok (by simp [hclock]) ?_
  rw [hstore]
  exact ⟨tget_tset_same .., State.keeps_settled (s.keeps_channels _)⟩

theorem gives_externalWrite_accepted (hclock : (s.loomIsland l).relocking = false) (hfill : s.extWriteOk l o bs.length = true) :
    s.gives (.externalWrite a bs .outside) (fun t =>
      (∀ i, i < bs.length → t.rd (s.localKey l (o + i)) = bs.getD i 0) ∧ (∀ j, (∀ i, i < bs.length → j ≠ s.localKey l (o + i)) → t.rd j = s.rd j) ∧
      (t.loom l).fillBytes = (s.loom l).fillBytes + fillOverlap o bs.length ∧ (∀ m, m ≠ l → t.loom m = s.loom m) ∧ s.keeps t [.mem, .looms]) := by
  have hstore : s.storeExt .outside l o bs = s.extWrite l o bs := if_neg (by simp [hclock])
  have hrd : ∀ j, (settle (s.extWrite l o bs)).rd j = (s.loomStore l o bs).rd j := fun j => (settle_rd _ j).trans (s.extWrite_rd l o bs j)
  obtain ⟨hin, hout⟩ := s.loomStore_rd l o bs
  refine gives_externalWrite_taken hl hsp hloom ho hend hne hok (by simp [hfill]) ?_
  rw [hstore]
  exact ⟨fun i hi => (hrd _).trans (hin i hi), fun j hj => (hrd j).trans (hout j hj), s.extWrite_fillBytes l o bs, fun m hm => s.extWrite_other o bs hm,
    State.keeps_settled (s.extWrite_keeps l o bs)⟩

theorem gives_externalWrite_refused (hclock : (s.loomIsland l).relocking = false) (hfill : s.extWriteOk l o bs.length = false) {p : Nat}
    (hp : s.loomPart a = some p) : s.gives (.externalWrite a bs .outside) (fun t =>
      tget 0 (t.part p).counters 6 = satInc 64 (tget 0 (s.part p).counters 6) 1 ∧ (∀ m, m ≠ p → t.part m = s.part m) ∧ s.keeps t [.parts]) := by
  subst hloom ho
  have herr := State.writeErr_loom hl hsp hend hne hok
  rw [hclock, hfill, if_neg (by decide)] at herr
  refine State.gives_of_finish (u := externalWrite s a bs .outside) rfl ?_
  rw [externalWrite_refused hl hsp (State.put_loom_refused hl hsp hok herr .outside), State.countRefused_of_part hp]
  exact ⟨s.count_counter p 6 1, fun m hm => (State.setPart_part ..).trans (if_neg hm), State.keeps_settled (s.setPart_keeps _ _)⟩

end external

-- ## Transfers

section transfers

variable {s : State} {i j p n : Nat} {rest : List Transfer} (hch : tget [] s.channels (256 * i + j) = .pick p n :: rest)

include hch

theorem gives_crossingDeliver_pick (hon : (s.island j).on = true) (hclock : (s.island j).relocking = false) (hst : s.treadle.state ≠ 1) :
    s.gives (.crossingDeliver i j) (fun t => (t.island j).gated = false ∧ tget [] t.channels (256 * i + j) = rest ∧ tget 0 (t.island j).picks p = n ∧
      (∀ m, m ≠ p → tget 0 (t.island j).picks m = tget 0 (s.island j).picks m) ∧ (∀ m, m ≠ j → t.island m = s.island m) ∧
      s.keeps t [.channels, .islands]) := by
  have hat := s.handed_island i j rest j
  rw [if_pos rfl] at hat
  refine State.gives_of_finish (u := deliver s i j) rfl ?_
  rw [deliver_pick hch hon hclock hst, hat]
  refine ⟨?_, s.handed_channel i j rest, ?_, fun m hm => ?_, fun m hm => ?_,
    State.keeps_settled (State.keeps_step (s.handed_keeps i j rest) (State.setIsland_keeps _ _ _))⟩
  · rw [settle_island, State.setIsland_island_same]
    rfl
  · rw [settle_island, State.setIsland_island_same]
    exact tget_tset_same ..
  · rw [settle_island, State.setIsland_island_same]
    exact tget_tset_ne _ _ _ hm
  · rw [settle_island, State.setIsland_island, if_neg hm, State.handed_island, if_neg hm]

theorem gives_handshakeTimeout (hreact : s.react 59 = 0) : s.gives (.handshakeTimeout i j) (fun t =>
    tget [] t.channels (256 * i + j) = rest ∧ bitAt t.knot.word 59 = true ∧ tget 0 t.knot.lastClass 59 = 6 ∧
    s.keeps t [.channels, .knot, .mem, .ports]) := by
  have hleft := s.keeps_channels (tset [] s.channels (256 * i + j) rest)
  have hraise := State.raise_noted (s := { s with channels := tset [] s.channels (256 * i + j) rest })
    (ev := { source := 59, cls := 6, unit := i, unit2 := j, address := 0, detail := 0, island := i, part := none }) rfl
    ((State.react_of_keeps hleft (by decide) 59).trans hreact)
  have hchannels := hraise.1 .channels (by decide)
  refine State.gives_of_finish (u := handshakeTimeout s i j) rfl ?_
  rw [handshakeTimeout_eq hch]
  exact ⟨(congrArg (tget [] · _) hchannels).trans (tget_tset_same ..), State.noted_bit hraise, hraise.2.2,
    State.keeps_settled (State.keeps_step (State.keeps_mono hleft (by decide)) hraise.1)⟩

end transfers

-- ## O52

/-- Settles O52, group by group: lines, scrub reads, external writes and reads, transfers. -/
theorem linesWordsAndTransfers : Obligations.LinesWordsAndTransfers := by
  unfold Obligations.LinesWordsAndTransfers
  refine ⟨?_, ?_, ?_, ?_, ?_⟩
  · rintro s a sp o k u rfl rfl rfl hu hl hsp hv hs
    exact ⟨gives_memoryRead_good hl hsp hv hs, gives_memoryRead_poisoned hl hsp hv hs,
      fun hp hc hcached hroom hreact => gives_memoryRead_uncorrectable hl hsp hv hs hp hc hcached hroom hu hreact,
      fun bs hlen ho harmed => gives_memoryWrite_whole hl hsp hv hs hlen ho rfl (hu ▸ harmed),
      fun bs _ hlen _ hp hcached => congrArg finish (memoryWrite_part_poisoned hlen hp hcached)⟩
  · intro s tier2 c n hc hen hn
    exact ⟨gives_scrub_read hc hen hn, gives_scrub_waits hc hen hn⟩
  · rintro s a l o bs c hl hsp hloom ho hend hne rfl hok
    exact ⟨gives_externalWrite_waits hl hsp hloom ho hend hne hok, gives_externalWrite_accepted hl hsp hloom ho hend hne hok,
      fun hclock hfill p hp => gives_externalWrite_refused hl hsp hloom ho hend hne hok hclock hfill hp⟩
  · intro s a n hd hl hsp
    refine ⟨fun bs hfetch => ?_, fun hn hno => ?_⟩
    · have hexec : exec (.externalRead a ⟨n, .outside⟩) s = finishDeferred (externalRead s a n .outside) := rfl
      rw [externalRead_fetched hl hsp hfetch] at hexec
      exact State.gives_of_finishDeferred hexec hd ⟨rfl, State.keeps_settled (s.emit_keeps _)⟩
    · have hexec : exec (.externalRead a ⟨n, .outside⟩) s = finishDeferred (externalRead s a n .outside) := rfl
      rw [externalRead_refused hl hsp hn hno] at hexec
      exact State.gives_of_finishDeferred hexec hd ⟨rfl, State.keeps_settled (s.emit_keeps _)⟩
  · intro s i j p n rest _ _ hch
    exact ⟨gives_crossingDeliver_pick hch, fun hheld => congrArg finish (deliver_held hheld), gives_handshakeTimeout hch⟩

end Sys2Proof.Machine
end

section
/-!
PROOFS. A loom and the node it runs: what its work says, and that skipping, fetching and draining leave the state as it is where there is nothing to
skip, to fetch or to send (R101, R151, R174).
-/

-- Proofs are elaborated one after another: side by side, the threads of the whole text outgrow the memory that the check allows.
set_option Elab.async false

namespace Sys2Proof.Machine

-- ## Work (R52, R95, R104)

theorem State.work_some {s : State} {l : Nat} {w : Work} (h : s.work l = some w) :
    s.holding l = some w ∧ w.node.st = .running ∧ w.node.failing = none ∧ s.runs w.draft.part = true := by
  unfold State.work at h
  split at h
  · next w' hw =>
    split at h
    · next hrun =>
      obtain rfl : w' = w := by simpa using h
      exact ⟨hw, hrun.1, by simpa using hrun.2.1, hrun.2.2.1⟩
    · simp at h
  · simp at h

theorem State.holding_some {s : State} {l : Nat} {w : Work} (h : s.holding l = some w) :
    (s.loom l).node = some (w.d, w.n) ∧ s.draft w.d = some w.draft ∧ s.node w.d w.n = some w.node ∧ (s.loom l).imageOf w.node.image = some w.img := by
  unfold State.holding at h
  split at h
  · simp at h
  · next d n hnode =>
    split at h
    · next x y hx hy =>
      split at h
      · obtain ⟨i, hi, rfl⟩ := Option.map_eq_some_iff.1 h
        exact ⟨hnode, hx, hy, hi⟩
      · simp at h
    · simp at h

theorem State.holding_of_free {s : State} {l : Nat} (h : (s.loom l).node = none) : s.holding l = none := by simp [State.holding, h]

theorem State.work_of_free {s : State} {l : Nat} (h : (s.loom l).node = none) : s.work l = none := by simp [State.work, State.holding_of_free h]

/-- Whatever the loom is found to hold, it holds under this image. -/
def State.underImage (s : State) (l : Nat) (i : Img) : Prop := ∀ w, s.holding l = some w → w.img = i

theorem State.underImage_of_node {s : State} {l d n : Nat} {y : Node} {i : Img} (hnode : (s.loom l).node = some (d, n)) (hy : s.node d n = some y)
    (hi : (s.loom l).imageOf y.image = some i) : s.underImage l i := by
  intro w hw
  obtain ⟨hwnode, -, hwy, hwi⟩ := State.holding_some hw
  obtain ⟨rfl, rfl⟩ : w.d = d ∧ w.n = n := by simpa using hwnode.symm.trans hnode
  obtain rfl : w.node = y := Option.some.inj (hwy.symm.trans hy)
  exact Option.some.inj (hwi.symm.trans hi)

theorem State.underImage_of_free {s : State} {l : Nat} (h : (s.loom l).node = none) (i : Img) : s.underImage l i := by
  simp [State.underImage, State.holding_of_free h]

-- ## Nothing to skip, to fetch, to send

theorem State.skipPairs_of_mode {w : Work} (hm : w.img.mode ≠ 2) (s : State) (l fuel : Nat) : s.skipPairs l w fuel = s := by
  cases fuel with
  | zero => rfl
  | succ fuel => simp [State.skipPairs, hm]

theorem State.skipTiles_of_image {s : State} {l : Nat} {i : Img} (h : s.underImage l i) (hm : i.mode ≠ 2) : s.skipTiles l = s := by
  unfold State.skipTiles
  split
  · next w hw => exact State.skipPairs_of_mode (by rwa [h w hw]) s l _
  · rfl

theorem State.drain_of_image {s : State} {l : Nat} {i : Img} (h : s.underImage l i) (hepi : i.epilogue = false) (fuel : Nat) : s.drain l fuel = s := by
  have hrows : Img.outRows i = 0 := by simp [Img.outRows, hepi]
  cases fuel with
  | zero => rfl
  | succ fuel =>
    rw [State.drain]
    split
    · rfl
    · next w hw => simp [State.outRow, h w (State.work_some hw).1, hrows]

theorem State.drainAll_of_image {s : State} {l : Nat} {i : Img} (h : s.underImage l i) (hepi : i.epilogue = false) : s.drainAll l = s := by
  unfold State.drainAll
  split
  · exact State.drain_of_image h hepi _
  · rfl

/-- FETCH stages that have brought all rows bring no more (R101). -/
theorem State.fetchAll_of_fetched {s : State} {l : Nat} {w : Work} (h : s.holding l = some w)
    (hf : ((s.loom l).run.fetchList w.node).length ≤ (s.loom l).run.fetched) : s.fetchAll l = s := by
  simp [State.fetchAll, h, Nat.sub_eq_zero_of_le hf, State.fetchRows]

theorem State.fetchAll_of_free {s : State} {l : Nat} (h : (s.loom l).node = none) : s.fetchAll l = s := by
  simp [State.fetchAll, State.holding_of_free h]

-- ## One loom's record replaced

/-- One loom's record has become `x`; every other loom and the rest are as they were. -/
def State.loomBecomes (s t : State) (l : Nat) (x : Loom) : Prop := t.loom l = x ∧ (∀ m, m ≠ l → t.loom m = s.loom m) ∧ s.keeps t [.looms]

theorem State.setLoom_becomes (s : State) (l : Nat) (x : Loom) : s.loomBecomes (s.setLoom l x) l x :=
  ⟨State.setLoom_loom_same .., fun _ hm => (State.setLoom_loom ..).trans (if_neg hm), s.setLoom_keeps l x⟩

theorem State.loomBecomes_setLoom {s t : State} {l : Nat} {x : Loom} (h : s.loomBecomes t l x) (y : Loom) : s.loomBecomes (t.setLoom l y) l y :=
  ⟨State.setLoom_loom_same .., fun m hm => ((State.setLoom_loom ..).trans (if_neg hm)).trans (h.2.1 m hm), State.keeps_trans h.2.2 (t.setLoom_keeps l y)⟩

theorem State.loomBecomes_settle {s t : State} {l : Nat} {x : Loom} (h : s.loomBecomes t l x) : s.loomBecomes (settle t) l x :=
  ⟨h.1, h.2.1, State.keeps_settled h.2.2⟩

/-- A command that gives one loom another record. -/
theorem State.gives_loomBecomes {s u : State} {c : Instr} {l : Nat} {x : Loom} (h : exec c s = finishDeferred u) (hd : s.deferred = [])
    (hu : s.loomBecomes u l x) : s.gives c (fun t => s.loomBecomes t l x) :=
  State.gives_of_finishDeferred h (State.deferred_of_keeps hu.2.2 (by decide) hd) (State.loomBecomes_settle hu)

theorem State.badIn_setLoom {s : State} {l : Nat} {x : Loom} (hb : x.bad = (s.loom l).bad) (hf : x.feedH1 = (s.loom l).feedH1) (m a n : Nat) :
    (s.setLoom l x).badIn m a n = s.badIn m a n := by
  have hphys : localPhys x = localPhys (s.loom l) := funext fun a => by simp only [localPhys, hf]
  simp only [State.badIn, State.setLoom_loom]
  split
  · next h => rw [h, hb, hphys]
  · rfl

theorem State.meetsBad_setLoom {s : State} {l : Nat} {x : Loom} (hb : x.bad = (s.loom l).bad) (hf : x.feedH1 = (s.loom l).feedH1) (m a n : Nat) :
    (s.setLoom l x).meetsBad m a n = s.meetsBad m a n := by
  rw [State.meetsBad, State.badIn_setLoom hb hf, State.meetsBad]

theorem State.localKey_setLoom {s : State} {l : Nat} {x : Loom} (hf : x.feedH1 = (s.loom l).feedH1) (m a : Nat) :
    (s.setLoom l x).localKey m a = s.localKey m a := by
  have hhalf : ((s.setLoom l x).loom m).feedH1 = (s.loom m).feedH1 := by
    rw [State.setLoom_loom]
    split
    · next h => rw [h, hf]
    · rfl
  exact State.localKey_of_parts (s := s) (t := s.setLoom l x) rfl rfl hhalf a

theorem State.badIn_of_meetsBad {s : State} {l a n : Nat} (h : s.meetsBad l a n = false) : s.badIn l a n = none := by
  simpa [State.meetsBad] using h

end Sys2Proof.Machine
end

section
/-!
PROOFS. Warps, images and the halves of the weft (O50): loaded, switched and swapped (R77, R91, R95 to R98).
-/

-- Proofs are elaborated one after another: side by side, the threads of the whole text outgrow the memory that the check allows.
set_option Elab.async false

namespace Sys2Proof.Machine

-- ## Warps (R77)

theorem warpLoaded_loads {s : State} {l a : Nat} {w : Work} {g : Gen} (hw : s.work l = some w) (hm : w.img.mode < 2)
    (hsteps : (s.loom l).run.step < w.img.arraySteps) (hg : w.img.gen 1 = some g) (hnext : (s.loom l).nextWarp w.img g = some (a : Int))
    (hport : portReaches 1 a (tileBytes w.img.warp) = true) (hgood : s.meetsBad l a (tileBytes w.img.warp) = false)
    (hshadow : ∀ b, (s.loom l).shadow ≠ some (a, b)) :
    warpLoaded s l = s.setLoom l { s.loom l with shadow := some (a, s.localBytes l a (tileBytes w.img.warp)), loadingWarp := none } := by
  have hother : ∀ t, (s.loom l).shadow = some t → t.1 ≠ a := fun t ht h => hshadow t.2 (by rw [ht, ← h])
  have hbad := State.badIn_of_meetsBad hgood
  cases ht : (s.loom l).shadow with
  | none => simp [warpLoaded, hw, Nat.not_le.2 hm, Nat.not_le.2 hsteps, hg, hnext, hport, ht, hbad]
  | some t => simp [warpLoaded, hw, Nat.not_le.2 hm, Nat.not_le.2 hsteps, hg, hnext, hport, ht, hother t ht, hbad]

-- ## Images (R84, R91, R95, R233)

/-- A read that can be made meets nothing that reads uncorrectable. -/
theorem State.meet_of_readable {s : State} {c : Ctx} {a n : Nat} (h : s.readErr c a n = none) : s.meet c a n = s := by
  by_cases hskip : n = 0 ∨ (!s.isLocal a) = true ∨ (!s.allowed c a n false) = true
  · rw [State.meet, if_pos hskip]
  obtain ⟨hn, hl, ha⟩ : n ≠ 0 ∧ s.isLocal a = true ∧ s.allowed c a n false = true := by simpa using hskip
  by_cases hsp : gSpace a ≤ 1
  · have hpoison : s.anyPoison c a n false = false := by simpa [State.readErr, hn, hl, ha, hsp] using h
    by_cases hcor : s.memCtl.corrupt.isEmpty = true
    · simp [State.meet, hn, hl, ha, hsp, hcor]
    · have hline : ∀ i < (a % 64 + n + 63) / 64, s.lineBad (s.lineKey c (a / 64 * 64 + 64 * i) false) = false := by
        simpa [State.anyPoison, hcor, hsp] using hpoison
      have hnone : (((List.range ((a % 64 + n + 63) / 64)).map (fun i => s.lineKey c (a / 64 * 64 + 64 * i) false)).dedup.filter
          (fun k => s.memCtl.corrupt.contains k && !s.memCtl.poison.contains k && !s.cached k)) = [] := by
        refine List.filter_eq_nil_iff.2 fun k hk hbad => ?_
        obtain ⟨i, hi, rfl⟩ := List.mem_map.1 (List.mem_dedup.1 hk)
        have hgood := hline i (List.mem_range.1 hi)
        simp only [State.lineBad, Bool.and_eq_false_iff, Bool.or_eq_false_iff, Bool.not_eq_false'] at hgood
        simp only [Bool.and_eq_true, Bool.not_eq_true'] at hbad
        rcases hgood with ⟨-, hc⟩ | hc
        · exact absurd (hbad.1.1.symm.trans hc) (by simp)
        · exact absurd (hbad.2.symm.trans hc) (by simp)
      rw [State.meet, if_neg hskip, if_pos hsp, if_neg hcor, State.meetLines, hnone, List.map_nil, List.append_nil]
  · by_cases hsp2 : gSpace a = 2
    · have hgood : ∀ x ∈ loomPieces (gOffset a) n, s.badIn x.1 x.2.1 x.2.2.1 = none := by
        intro x hx
        have hall : ∀ x ∈ loomPieces (gOffset a) n, s.meetsBad x.1 x.2.1 x.2.2.1 = false := by
          simpa [State.readErr, hn, hl, ha, hsp2] using h
        exact State.badIn_of_meetsBad (hall x hx)
      have hnone : (loomPieces (gOffset a) n).filterMap (fun x => (s.badIn x.1 x.2.1 x.2.2.1).map (fun w => Deferred.word x.1 w c.part)) = [] :=
        List.filterMap_eq_nil_iff.2 fun x hx => by rw [hgood x hx]; rfl
      simp [State.meet, hn, hl, ha, hsp2, hnone]
    · simp [State.meet, hsp, hsp2]

theorem State.readErr_of_fetch {s : State} {c : Ctx} {a n : Nat} {b : List Byte} (h : s.fetch c a n = some b) : s.readErr c a n = none := by
  unfold State.fetch at h
  split at h
  · assumption
  · simp at h

/-- What a read meets turns, of the looms, on their bad words and half roles. -/
theorem State.readErr_setLoom {s : State} {l : Nat} {x : Loom} (hb : x.bad = (s.loom l).bad) (hf : x.feedH1 = (s.loom l).feedH1) (c : Ctx) (a n : Nat) :
    (s.setLoom l x).readErr c a n = s.readErr c a n := by
  have hbad : ∀ m a n, (s.setLoom l x).meetsBad m a n = s.meetsBad m a n := State.meetsBad_setLoom hb hf
  have hkey : ∀ a, (s.setLoom l x).keyOf c a false = s.keyOf c a false := fun a => by
    simp only [State.keyOf, State.localKey_setLoom hf]
    rfl
  have hpoison : (s.setLoom l x).anyPoison c a n false = s.anyPoison c a n false := by
    simp only [State.anyPoison, State.lineKey, hkey]
    rfl
  simp only [State.readErr, hbad, hpoison]
  rfl

section
variable {s : State} {l slot p : Nat} {y : Load} {b : List Byte} (hload : (s.loom l).loading.find? (fun z => z.slot == slot) = some y)
  (hpart : s.clusterPart (l / 8) = some p) (hruns : s.runs p = true) (hclock : s.clocked l = true)
  (hread : s.fetch (partCtx p) y.addr y.length = some b)
include hload hpart hruns hclock hread

/-- The loom once a load has ended. -/
def Loom.loadEnded (slot : Nat) (x : Loom) : Loom := { x with loading := x.loading.filter (fun z => z.slot != slot) }

omit hload hpart hruns hclock in
theorem State.loadEnded_meet : (s.setLoom l ((s.loom l).loadEnded slot)).meet (partCtx p) y.addr y.length = s.setLoom l ((s.loom l).loadEnded slot) :=
  State.meet_of_readable ((State.readErr_setLoom (x := (s.loom l).loadEnded slot) rfl rfl ..).trans (State.readErr_of_fetch hread))

theorem imageLoaded_valid (hok : Img.check b y.id y.length s.boot.image.numeric = stOK) :
    imageLoaded s l slot = (s.setLoom l ((s.loom l).loadEnded slot)).setLoom l { (s.loom l).loadEnded slot with
      images := (slot, b) :: (s.loom l).images.filter (fun z => z.1 != slot) } := by
  have hmeet := State.loadEnded_meet (l := l) (slot := slot) hread
  simp only [Loom.loadEnded] at hmeet
  simp [imageLoaded, hload, hpart, hruns, hclock, State.block, hread, hok, hmeet, Loom.loadEnded]

theorem imageLoaded_refused (hbad : Img.check b y.id y.length s.boot.image.numeric ≠ stOK) (hd : s.drafts = []) :
    imageLoaded s l slot = s.setLoom l ((s.loom l).loadEnded slot) := by
  have hmeet := State.loadEnded_meet (l := l) (slot := slot) hread
  simp only [Loom.loadEnded] at hmeet
  simp [imageLoaded, hload, hpart, hruns, hclock, State.block, hread, hbad, hmeet, Loom.loadEnded, hd]

end

/-- The loom once another image is the active one (R96). -/
def Loom.switched (slot : Nat) (i : Img) (x : Loom) : Loom :=
  { x with
    active := some slot, warp := if i.warpKeep then x.warp else none, shadow := if i.warpKeep then x.shadow else none
    loadingWarp := if i.warpKeep then x.loadingWarp else none }

theorem imageSwitch_switches {s : State} {l slot d n : Nat} {i : Img} {y : Node} (hnode : (s.loom l).node = some (d, n))
    (hslot : (s.loom l).images.find? (fun z => z.1 == slot) = some (slot, i)) (himg : (s.loom l).imageOf i.id = some i) (hclock : s.clocked l = true)
    (hy : s.node d n = some y) (hid : y.image = i.id) (hact : (s.loom l).active ≠ some slot) (hepi : i.epilogue = false) :
    imageSwitch s l slot = s.setLoom l ((s.loom l).switched slot i) := by
  have hunder : (s.setLoom l ((s.loom l).switched slot i)).underImage l i := by
    refine State.underImage_of_node (y := y) (d := d) (n := n) ?_ hy ?_
    · rw [State.setLoom_loom_same]
      exact hnode
    · rw [State.setLoom_loom_same, hid]
      exact himg
  simpa [imageSwitch, hnode, hslot, hy, hid, hact, hclock, Loom.switched] using State.drainAll_of_image hunder hepi

-- ## Halves (R97, R98)

theorem weftSwap_swaps {s : State} {l fb : Nat} (hp : (s.loom l).pendingSwap = some fb) (hfill : fb ≤ (s.loom l).fillBytes)
    (hfree : (s.loom l).node = none) (hclock : s.clocked l = true) :
    weftSwap s l = s.setLoom l { (s.loom l).swapHalves with pendingSwap := none } := by
  have hnode : ((s.setLoom l { (s.loom l).swapHalves with pendingSwap := none }).loom l).node = none := by
    rw [State.setLoom_loom_same]
    exact hfree
  have hskip : (s.setLoom l { (s.loom l).swapHalves with pendingSwap := none }).skipTiles l = _ :=
    State.skipTiles_of_image (i := []) (State.underImage_of_free hnode _) (by decide)
  have hdrain : (s.setLoom l { (s.loom l).swapHalves with pendingSwap := none }).drainAll l = _ :=
    State.drainAll_of_image (i := []) (State.underImage_of_free hnode _) (by decide)
  simp [weftSwap, hp, hfill, hclock, hskip, State.fetchAll_of_free hnode, hdrain]

theorem weftSwap_waits {s : State} {l fb : Nat} (hp : (s.loom l).pendingSwap = some fb) (hfill : (s.loom l).fillBytes < fb) : weftSwap s l = s := by
  simp [weftSwap, hp, Nat.not_le.2 hfill]

-- ## O50

/-- Settles O50: a warp load, an image that passes and one that fails its check, a switch of the image, a swap of the halves. -/
theorem loomsLoadSwitchAndSwap : Obligations.LoomsLoadSwitchAndSwap := by
  unfold Obligations.LoomsLoadSwitchAndSwap
  refine ⟨?_, ?_, ?_, ?_⟩
  · intro s l a w g hd hw hm hsteps hg hnext hport hgood hshadow
    have hexec : exec (.warpShadowLoadComplete l) s = finishDeferred (warpLoaded s l) := rfl
    rw [warpLoaded_loads hw hm hsteps hg hnext hport hgood hshadow] at hexec
    exact State.gives_loomBecomes hexec hd (s.setLoom_becomes _ _)
  · intro s l slot p y b hd hload hpart hruns hclock hread
    have hexec : exec (.imageLoadComplete l slot) s = finishDeferred (imageLoaded s l slot) := rfl
    refine ⟨fun hok => ?_, fun hbad hdrafts => ?_⟩
    · rw [imageLoaded_valid hload hpart hruns hclock hread hok] at hexec
      exact State.gives_loomBecomes hexec hd (State.loomBecomes_setLoom (s.setLoom_becomes _ _) _)
    · rw [imageLoaded_refused hload hpart hruns hclock hread hbad hdrafts] at hexec
      exact State.gives_loomBecomes hexec hd (s.setLoom_becomes _ _)
  · intro s l slot d n i y hd hnode hslot himg hclock hy hid hact hepi
    have hexec : exec (.imageSwitch l slot) s = finishDeferred (imageSwitch s l slot) := rfl
    rw [imageSwitch_switches hnode hslot himg hclock hy hid hact hepi] at hexec
    exact State.gives_loomBecomes hexec hd (s.setLoom_becomes _ _)
  · intro s l fb hd hp
    have hexec : exec (.weftSwap l) s = finishDeferred (weftSwap s l) := rfl
    refine ⟨fun hfill hfree hclock => ?_, fun hfill => ?_⟩
    · rw [weftSwap_swaps hp hfill hfree hclock] at hexec
      exact State.gives_loomBecomes hexec hd (s.setLoom_becomes _ _)
    · rw [hexec, weftSwap_waits hp hfill, finishDeferred_of_none hd, finish_next]

end Sys2Proof.Machine
end

section
/-!
PROOFS. Faults of the looms (O51): the watchdogs of a swap and of a tile row, a word that reads uncorrectable twice, the idle scrub (R84, R85, R100, R148,
R435, R443).
-/

-- Proofs are elaborated one after another: side by side, the threads of the whole text outgrow the memory that the check allows.
set_option Elab.async false

namespace Sys2Proof.Machine

-- ## A node that fails while another of its draft runs (R197, R210)

/-- A node that has completed with a status. -/
def Node.endedWith (st : Nat) (y : Node) : Node := { y with st := .done st, pins := [] }

/-- A draft whose node `n` has completed with a failing status. -/
def Draft.nodeFailed (n : Nat) (y : Node) (st : Nat) (x : Draft) : Draft :=
  { x with
    info := x.info ||| infoBit st, failed := x.failed || true
    nodes := (x.nodes.modify n (Node.endedWith st)).zipIdx.map (fun ni => y.released ni.2 ni.1) }

theorem Draft.nodeFailed_node (n k : Nat) (y : Node) (st : Nat) (x : Draft) :
    (x.nodeFailed n y st).nodes[k]? = (if k = n then x.nodes[k]?.map (Node.endedWith st) else x.nodes[k]?).map (y.released k) := by
  simp only [Draft.nodeFailed, List.getElem?_map, List.getElem?_zipIdx, List.getElem?_modify]
  cases x.nodes[k]? with
  | none => simp
  | some z =>
    by_cases hk : n = k
    · subst hk; simp
    · simp [hk, Ne.symm hk]

theorem Node.released_st (y : Node) (k : Nat) (z : Node) : (y.released k z).st = z.st := by
  rw [Node.released_eq]

/-- A failed draft goes on while a node of it runs. -/
theorem Draft.not_ended_of_running {x : Draft} {k : Nat} {z : Node} (hf : x.failed = true) (hk : x.nodes[k]? = some z) (hz : z.running = true) :
    x.ended = false := by
  simp only [Draft.ended, hf, if_true]
  exact List.all_eq_false.2 ⟨z, List.mem_of_getElem? hk, by simp [hz]⟩

/-- What the failing end of a node leaves: the node done with the status, its draft failed, its looms free; other drafts, other looms and the rest stay. -/
def State.nodeFails (s t : State) (d n st : Nat) : Prop :=
  (∃ y, t.node d n = some y ∧ y.st = .done st) ∧ (∃ x, t.draft d = some x ∧ x.failed = true) ∧ (∀ m, m ≠ d → t.draft m = s.draft m) ∧
  (∀ l, t.loom l = (s.loom l).freed d n) ∧ s.keeps t [.mem, .drafts, .looms, .parts]

/-- The state as the failing end of a node leaves it, but for what waits for the node. -/
def State.nodeStopped (s : State) (x : Draft) (n : Nat) (y : Node) (st : Nat) : State :=
  ((y.pins.foldl (fun s e => s.pin x.part e false) (s.freeLooms x.id n)).setDraft x.id (Draft.nodeFailed n y st)).freeStaged x n

theorem State.nodeStopped_keeps (s : State) (x : Draft) (n : Nat) (y : Node) (st : Nat) :
    (s.freeLooms x.id n).keeps (s.nodeStopped x n y st) [.mem, .drafts] :=
  State.keeps_step (State.keeps_step (State.keeps_mono (State.keeps_fold (fs := [.mem]) (fun s e => s.pin_keeps _ _ _) _ _) (by decide))
    (State.setDraft_keeps _ _ _)) (State.freeStaged_keeps _ _ _)

theorem State.nodeStopped_draft {s : State} {x : Draft} (n : Nat) (y : Node) (st : Nat) (hx : s.draft x.id = some x) :
    (∃ es, (s.nodeStopped x n y st).draft x.id = some { x.nodeFailed n y st with staged := es }) ∧
      ∀ k, k ≠ x.id → (s.nodeStopped x n y st).draft k = s.draft k := by
  have hpins : s.keeps (y.pins.foldl (fun s e => s.pin x.part e false) (s.freeLooms x.id n)) [.mem, .looms] :=
    State.keeps_step (State.keeps_mono (s.keeps_looms _) (by decide)) (State.keeps_fold (fs := [.mem]) (fun s e => s.pin_keeps _ _ _) _ _)
  unfold State.nodeStopped
  generalize y.pins.foldl (fun s e => s.pin x.part e false) (s.freeLooms x.id n) = u at hpins
  have hset : ∀ k, (u.setDraft x.id (Draft.nodeFailed n y st)).draft k = if k = x.id then some (x.nodeFailed n y st) else s.draft k := by
    intro k
    rw [State.setDraft_draft u x.id k (Draft.nodeFailed n y st) (fun _ => rfl), State.draft_of_drafts (hpins .drafts (by decide)),
      State.draft_of_drafts (hpins .drafts (by decide)), hx]
    rfl
  obtain ⟨-, hother, hstaged⟩ := State.freeStaged_drafts (u.setDraft x.id (Draft.nodeFailed n y st)) x n
  exact ⟨hstaged _ ((hset x.id).trans (if_pos rfl)), fun k hk => (hother k hk).trans ((hset k).trans (if_neg hk))⟩

theorem State.closeNode_stops {s : State} {x : Draft} {n st : Nat} {y : Node} (hx : s.draft x.id = some x) (hy : s.node x.id n = some y)
    (hst : y.st = .running) (hbad : failing st = true) :
    ∃ z : Part, z.job = ((s.nodeStopped x n y st).part x.part).job ∧
      s.closeNode x.id n st = (((s.nodeStopped x n y st).setPart x.part z).settleGuests).checkDraft x.id := by
  have hdone : y.isDone = false := by simp [Node.isDone, hst]
  have hfails : s.fails x.part y st = true := by simp [State.fails, hbad]
  refine ⟨{ (s.nodeStopped x n y st).part x.part with streams := ((s.nodeStopped x n y st).part x.part).streams.map (fun z =>
    if z.draft = x.id ∧ !z.gather ∧ z.lastNode = n then { z with lastDone := true } else z) }, rfl, ?_⟩
  simp only [State.closeNode, hx, hy, hdone, hfails, Bool.false_eq_true, if_false]
  rfl

/-- A running node fails while another node of its draft runs, and the module has lost no loom. -/
theorem State.closeNode_fails {s : State} {x : Draft} {n st : Nat} {y : Node} (hx : s.draft x.id = some x) (hy : s.node x.id n = some y)
    (hst : y.st = .running) (hbad : failing st = true) (hret : s.retired = [])
    (hopen : ∃ k z, k ≠ n ∧ x.nodes[k]? = some z ∧ z.running = true)
    (hjob : (s.part x.part).job.step = some x.id ∨ ((s.part x.part).job.step = none ∧ (s.part x.part).job.ended = none)) :
    s.nodeFails (s.closeNode x.id n st) x.id n st := by
  obtain ⟨z, hzjob, hclose⟩ := State.closeNode_stops hx hy hst hbad
  obtain ⟨⟨es, hdraft⟩, hother⟩ := State.nodeStopped_draft n y st hx
  have hk : s.keeps (s.nodeStopped x n y st) [.mem, .drafts, .looms] :=
    State.keeps_step (State.keeps_mono (s.keeps_looms _) (by decide)) (s.nodeStopped_keeps x n y st)
  have hguests : ((s.nodeStopped x n y st).setPart x.part z).settleGuests = (s.nodeStopped x n y st).setPart x.part z :=
    State.settleGuests_of_live ((hk .retired (by decide)).trans hret)
  have hfailed : ({ x.nodeFailed n y st with staged := es } : Draft).failed = true := by simp [Draft.nodeFailed]
  have hgoes : ({ x.nodeFailed n y st with staged := es } : Draft).ended = false := by
    obtain ⟨k, w, hkn, hw, hrun⟩ := hopen
    have hnodes : (x.nodeFailed n y st).nodes[k]? = some (y.released k w) := by rw [Draft.nodeFailed_node, if_neg hkn, hw]; rfl
    exact Draft.not_ended_of_running hfailed hnodes (by rw [Node.running, Node.released_st]; exact hrun)
  have hpart : (((s.nodeStopped x n y st).setPart x.part z).part x.part).job = (s.part x.part).job := by
    rw [State.setPart_part_same, hzjob, State.part_of_keeps hk (by decide)]
  rw [← hpart] at hjob
  rw [hclose, hguests,
    State.checkDraft_of_open (s := (s.nodeStopped x n y st).setPart x.part z) (x := { x.nodeFailed n y st with staged := es }) hdraft hgoes hjob]
  refine ⟨⟨y.released n (y.endedWith st), ?_, Node.released_st ..⟩, ⟨_, hdraft, hfailed⟩, hother, fun l => ?_,
    State.keeps_step (State.keeps_mono hk (by decide)) (State.setPart_keeps _ _ _)⟩
  · have hyn : x.nodes[n]? = some y := by simpa [State.node, hx] using hy
    have hnode : (s.nodeStopped x n y st).node x.id n = (x.nodeFailed n y st).nodes[n]? := by rw [State.node, hdraft]; rfl
    refine Eq.trans hnode ?_
    rw [Draft.nodeFailed_node, if_pos rfl, hyn]
    rfl
  · have hlooms : (s.nodeStopped x n y st).looms = (s.freeLooms x.id n).looms := (s.nodeStopped_keeps x n y st) .looms (by decide)
    exact (congrArg (tget ({} : Loom) · l) hlooms).trans (s.freeLooms_loom x.id n l)

/-- With every write of it acknowledged a running node ends at once (R210). -/
theorem State.endNode_of_running {s : State} {d n : Nat} {y : Node} (hy : s.node d n = some y) (hacks : y.acks = 0) (hf : y.failing = none) (st : Nat) :
    s.endNode d n st = s.closeNode d n st := by simp [State.endNode, hy, hacks, hf]

-- ## The watchdogs (R100, R148)

/-- A fault of a loom that stops its node: the record, with the node failed and the loom free. -/
theorem State.gives_stopped {s : State} {c : Instr} {l k cls : Nat} {w : Work} {z : Node} {ev : FaultEv}
    (hexec : exec c s = finish ((s.raise ev).endNode w.d w.n stInvalid)) (hsource : ev.source = l / 8) (hcls : ev.cls = cls)
    (hunit : classUnit ev = none) (hw : s.work l = some w) (hacks : w.node.acks = 0) (hkn : k ≠ w.n) (hz : w.draft.nodes[k]? = some z)
    (hrun : z.running = true) (hreact : s.react (l / 8) = 0) (hret : s.retired = [])
    (hjob : (s.part w.draft.part).job.step = some w.d ∨ ((s.part w.draft.part).job.step = none ∧ (s.part w.draft.part).job.ended = none)) :
    s.gives c (fun t => bitAt t.knot.word (l / 8) = true ∧ tget 0 t.knot.lastClass (l / 8) = cls ∧
      (∃ y', t.node w.d w.n = some y' ∧ y'.st = .done stInvalid) ∧ (∃ x', t.draft w.d = some x' ∧ x'.failed = true) ∧
      (∀ m, m ≠ w.d → t.draft m = s.draft m) ∧ (t.loom l).node = none ∧ s.keeps t [.mem, .ports, .knot, .drafts, .looms, .parts]) := by
  obtain ⟨hhold, hst, hf, -⟩ := State.work_some hw
  obtain ⟨hnode, hx, hy, -⟩ := State.holding_some hhold
  have hraise : s.noted (s.raise ev) ev := State.raise_noted hunit (hsource ▸ hreact)
  have hdrafts := hraise.1 .drafts (by decide)
  have hid := State.draft_id hx
  have hy' : (s.raise ev).node w.d w.n = some w.node := (State.node_of_drafts hdrafts _ _).trans hy
  have hends : (s.raise ev).nodeFails ((s.raise ev).closeNode w.d w.n stInvalid) w.d w.n stInvalid := by
    rw [← hid] at hy' hjob ⊢
    refine State.closeNode_fails ?_ hy' hst (by decide) ((hraise.1 .retired (by decide)).trans hret) ⟨k, z, hkn, hz, hrun⟩ ?_
    · rw [State.draft_of_drafts hdrafts, hid, hx]
    · rwa [State.part_of_keeps hraise.1 (by decide)]
  rw [State.endNode_of_running hy' hacks hf] at hexec
  obtain ⟨hdone, hfailed, hother, hloom, hk⟩ := hends
  have hknot := hk .knot (by decide)
  refine State.gives_of_finish hexec ⟨?_, ?_, hdone, hfailed, fun m hm => (hother m hm).trans (State.draft_of_drafts hdrafts m), ?_,
    State.keeps_settled (State.keeps_step (State.keeps_mono hraise.1 (by decide)) hk)⟩
  · rw [settle_knot, hknot, ← hsource]
    exact State.noted_bit hraise
  · rw [settle_knot, hknot, ← hsource, ← hcls]
    exact hraise.2.2
  · have hbefore : ((s.raise ev).loom l).node = some (w.d, w.n) := by
      rw [State.loom, hraise.1 .looms (by decide)]
      exact hnode
    rw [settle_loom, hloom, Loom.freed, if_pos hbefore, Loom.release_node]

theorem swapTimedOut_of_wait {s : State} {l fb : Nat} {w : Work} (h : s.swapWaits l = some (w, fb)) :
    swapTimedOut s l = (s.raise (s.loomEvent l 4 0 0 (fb + (s.loom l).fillBytes * 2 ^ 32))).endNode w.d w.n stInvalid := by simp [swapTimedOut, h]

/-- The generator whose address the output path gives is among those it reads (R86, R151). -/
theorem Img.reads_of_outAddr {i : Img} {n : Nat} {a : Int} (h : i.outAddr n = some a) : i.reads.any (fun g => g.port == 2 && g.addr n == a) = true := by
  obtain ⟨g, hg, ha⟩ := Option.map_eq_some_iff.1 h
  rw [Img.gen] at hg
  have hport := List.find?_some hg
  refine List.any_eq_true.2 ⟨g, List.mem_filter.2 ⟨List.mem_of_find?_eq_some hg, by simp [hport]⟩, ?_⟩
  simp [hport, ha]

theorem readyTimedOut_of_wait {s : State} {l row : Nat} {w : Work} (hw : s.work l = some w) (hout : (s.loom l).run.out < w.img.outRows)
    (haddr : w.img.outAddr (s.loom l).run.out = some ((accBase + row * w.img.tileRow : Nat) : Int))
    (hready : (s.loom l).notReady.contains (accBase + row * w.img.tileRow) = true) :
    readyTimedOut s l row = (s.raise (s.loomEvent l 5 row 0 (s.loomDetail l))).endNode w.d w.n stInvalid := by
  have hreads := Img.reads_of_outAddr haddr
  simp only [readyTimedOut, hw, hout, hready, hreads, and_self, if_true]

-- ## Words (R84)

theorem mem_insertBy {α : Type} (le : α → α → Bool) (a b : α) (l : List α) : b ∈ insertBy le a l ↔ b = a ∨ b ∈ l := by
  induction l with
  | nil => simp [insertBy]
  | cons c l ih =>
    rw [insertBy]
    split
    · simp
    · simp only [List.mem_cons, ih]; tauto

theorem mem_sortBy {α : Type} (le : α → α → Bool) (b : α) (l : List α) : b ∈ sortBy le l ↔ b ∈ l := by
  induction l with
  | nil => simp [sortBy]
  | cons c l ih => rw [sortBy, List.foldr_cons, mem_insertBy, ← sortBy, ih, List.mem_cons]

/-- The halves exchanged twice are as they were. -/
theorem localPhys_localPhys (x : Loom) (a : Nat) : localPhys x (localPhys x a) = a := by
  unfold localPhys fillBase feedBase scratchBase
  split_ifs <;> omega

/-- A word that meets nothing bad is not stored so. -/
theorem State.bad_of_meetsBad {s : State} {l a n : Nat} (hn : 0 < n) (h : s.meetsBad l a n = false) :
    (s.loom l).bad.contains (localPhys (s.loom l) a) = false := by
  have hnone := State.badIn_of_meetsBad h
  rw [State.badIn, List.find?_eq_none] at hnone
  refine Bool.eq_false_iff.2 fun hin => ?_
  have hmem : a ∈ (s.loom l).bad.map (localPhys (s.loom l)) := List.mem_map.2 ⟨_, List.contains_iff_mem.1 hin, localPhys_localPhys _ a⟩
  have hlook := hnone a ((mem_sortBy _ _ _).2 hmem)
  simp only [decide_eq_true_eq] at hlook
  omega

/-- The loom once a word of it has been corrected. -/
def Loom.correctedAt (a : Nat) (x : Loom) : Loom := { x with corrected := x.corrected + 1, bad := x.bad.filter (· != localPhys x (a / 8 * 8)) }

theorem State.correctWord_eq (s : State) (l a : Nat) : s.correctWord l a = s.setLoom l ((s.loom l).correctedAt a) := rfl

/-- A word that reads uncorrectable twice and was not stored so counts one hard event of its loom and is recorded. -/
theorem State.badWord_outside {s : State} {l a : Nat} (h : s.meetsBad l (a / 8 * 8) 8 = false) :
    ∃ ev : FaultEv, ev.source = l / 8 ∧ ev.cls = 3 ∧ s.badWord l a .outside false = (s.hardEvent 0 l).raiseWith ev false := by
  have hgood := State.bad_of_meetsBad (by decide) h
  refine ⟨_, ?_, ?_, by simp only [State.badWord, State.recordWord, hgood, State.raiseLoom, Bool.false_eq_true, false_and, if_false]; rfl⟩ <;> rfl

theorem loomUncorrectable_of_good {s : State} {l a : Nat} (second : Decoded) (hl : l < Config.looms) (ha : a < loomBytes)
    (hgood : s.meetsBad l (a / 8 * 8) 8 = false) : loomUncorrectable s l a second .outside =
      match second with
      | .clean => s
      | .corrected => s.correctWord l a
      | .uncorrectable => s.badWord l a .outside false := by
  simp only [loomUncorrectable, hl, ha, and_self, if_true, State.readWord, hgood, Bool.false_eq_true, if_false]
  cases second <;> rfl

/-- A word whose second read fails too is recorded and counted. -/
theorem State.gives_uncorrectable {s : State} {l a : Nat} (hl : l < Config.looms) (ha : a < loomBytes) (hgood : s.meetsBad l (a / 8 * 8) 8 = false)
    (hreact : s.react (l / 8) = 0) : s.gives (.loomSramUncorrectable l a .uncorrectable .outside) (fun t =>
      bitAt t.knot.word (l / 8) = true ∧ tget 0 t.knot.lastClass (l / 8) = 3 ∧ t.unit 0 l = { s.unit 0 l with hard := (s.unit 0 l).hard + 1 } ∧
      s.keeps t [.mem, .ports, .knot, .units]) := by
  obtain ⟨ev, hsource, hcls, hbad⟩ := State.badWord_outside hgood
  have hexec : exec (.loomSramUncorrectable l a .uncorrectable .outside) s = finish (loomUncorrectable s l a .uncorrectable .outside) := rfl
  rw [loomUncorrectable_of_good _ hl ha hgood] at hexec
  dsimp only at hexec
  rw [hbad] at hexec
  have hcount := s.hardEvent_keeps 0 l
  have hraise : (s.hardEvent 0 l).noted ((s.hardEvent 0 l).raiseWith ev false) ev :=
    State.raiseWith_noted false (hsource ▸ (State.react_of_keeps hcount (by decide) _).trans hreact)
  have hunits := hraise.1 .units (by decide)
  refine State.gives_of_finish hexec ⟨?_, ?_, ?_, State.keeps_settled (State.keeps_step (State.keeps_mono hcount (by decide)) hraise.1)⟩
  · rw [settle_knot, ← hsource]
    exact State.noted_bit hraise
  · rw [settle_knot, ← hsource, ← hcls]
    exact hraise.2.2
  · exact (congrArg (tget ({} : Unit) · _) hunits).trans (s.hardEvent_unit 0 l)

-- ## The idle scrub (R85)

/-- The loom whose scrub goes on to its next word. -/
def Loom.scrubbed (x : Loom) : Loom := { x with scrubAt := (x.scrubAt + 1) % 2 ^ 19 }

theorem scrubWord_reads {s : State} {l : Nat} (hl : l < Config.looms) (hen : s.bit .lmCfg 0 = true) (hfree : (s.loom l).node = none)
    (hclock : s.clocked l = true) (first second : Decoded) :
    scrubWord s l first second =
      (s.setLoom l (s.loom l).scrubbed).readWord l (localPhys (s.loom l) (8 * (s.loom l).scrubAt)) first second .outside true := by
  have hidle : s.loomRuns l = false := by simp [State.loomRuns, State.work_of_free hfree]
  simp [scrubWord, hen, Nat.not_le.2 hl, hclock, hidle, Loom.scrubbed]

theorem State.readWord_clean {s : State} {l a : Nat} (second : Decoded) (iss : Issuer) (scrub : Bool) (hgood : s.meetsBad l (a / 8 * 8) 8 = false) :
    s.readWord l a .clean second iss scrub = s := by simp [State.readWord, hgood]

theorem State.readWord_corrected {s : State} {l a : Nat} (second : Decoded) (iss : Issuer) (scrub : Bool) (hgood : s.meetsBad l (a / 8 * 8) 8 = false) :
    s.readWord l a .corrected second iss scrub = s.setLoom l ((s.loom l).correctedAt a) := by simp [State.readWord, hgood, State.correctWord_eq]

-- ## O51

/-- Settles O51: the two watchdogs, a word whose first read was uncorrectable, the idle scrub. -/
theorem loomFaultsAreRecorded : Obligations.LoomFaultsAreRecorded := by
  unfold Obligations.LoomFaultsAreRecorded
  refine ⟨?_, ?_, ?_⟩
  · rintro s l d n k cls fb row w x y z c - hw rfl rfl hx hy hacks hkn hz hrun hreact hret hjob hc
    obtain ⟨-, hwx, hwy, -⟩ := State.holding_some (State.work_some hw).1
    obtain rfl : w.draft = x := Option.some.inj (hwx.symm.trans hx)
    obtain rfl : w.node = y := Option.some.inj (hwy.symm.trans hy)
    rcases hc with ⟨rfl, rfl, hwait⟩ | ⟨rfl, rfl, hout, haddr, hready⟩
    · exact State.gives_stopped (congrArg finish (swapTimedOut_of_wait hwait)) rfl rfl rfl hw hacks hkn hz hrun hreact hret hjob
    · exact State.gives_stopped (congrArg finish (readyTimedOut_of_wait hw hout haddr hready)) rfl rfl rfl hw hacks hkn hz hrun hreact hret hjob
  · intro s l a hl ha hgood
    have hexec : ∀ second, exec (.loomSramUncorrectable l a second .outside) s = finish (loomUncorrectable s l a second .outside) := fun _ => rfl
    refine ⟨?_, ?_, State.gives_uncorrectable hl ha hgood⟩
    · rw [hexec, loomUncorrectable_of_good _ hl ha hgood, finish_next]
    · obtain ⟨hloom, hother, hk⟩ := State.loomBecomes_settle (s.setLoom_becomes l ((s.loom l).correctedAt a))
      refine State.gives_of_finish ((hexec .corrected).trans (congrArg finish (loomUncorrectable_of_good _ hl ha hgood))) ⟨?_, hother, hk⟩
      exact congrArg Loom.corrected hloom
  · intro s l hl hen hfree hclock hgood
    have hgood' : (s.setLoom l (s.loom l).scrubbed).meetsBad l (localPhys (s.loom l) (8 * (s.loom l).scrubAt) / 8 * 8) 8 = false :=
      (State.meetsBad_setLoom (x := (s.loom l).scrubbed) rfl rfl ..).trans hgood
    refine ⟨?_, ?_⟩
    · refine State.gives_of_finish (congrArg finish ((scrubWord_reads hl hen hfree hclock _ _).trans (State.readWord_clean _ _ _ hgood'))) ?_
      exact State.loomBecomes_settle (s.setLoom_becomes l _)
    · obtain ⟨hloom, hother, hk⟩ := State.loomBecomes_settle (State.loomBecomes_setLoom (s.setLoom_becomes l (s.loom l).scrubbed)
        (((s.setLoom l (s.loom l).scrubbed).loom l).correctedAt (localPhys (s.loom l) (8 * (s.loom l).scrubAt))))
      have hscrubbed : (s.setLoom l (s.loom l).scrubbed).loom l = (s.loom l).scrubbed := State.setLoom_loom_same ..
      refine State.gives_of_finish (congrArg finish ((scrubWord_reads hl hen hfree hclock _ _).trans (State.readWord_corrected _ _ _ hgood')))
        ⟨?_, ?_, hother, hk⟩
      · exact (congrArg Loom.scrubAt hloom).trans (congrArg Loom.scrubAt hscrubbed)
      · have hcount := congrArg (fun y => Loom.corrected y + 1) hscrubbed
        exact (congrArg Loom.corrected hloom).trans hcount

end Sys2Proof.Machine
end

section
/-!
PROOFS. The bytes of a tile row (O49): what a field of a packed row is, and a row of 32-bit elements.
-/

-- Proofs are elaborated one after another: side by side, the threads of the whole text outgrow the memory that the check allows.
set_option Elab.async false

namespace Sys2Proof.Machine

-- ## Fields of byte strings

theorem slice_eq_map {bs : List Byte} {o n : Nat} (h : o + n ≤ bs.length) : slice bs o n = (List.range n).map (fun i => bs.getD (o + i) 0) := by
  refine List.ext_getElem (by simp [slice]; omega) fun i hi _ => ?_
  have hlt : o + i < bs.length := by simp [slice] at hi; omega
  simp [slice, hlt]

theorem le_one (bs : List Byte) (i : Nat) : le bs i 1 = (bs.getD i 0).toNat := by
  by_cases h : i < bs.length
  · rw [le, slice_eq_map (by omega)]
    simp [ofLe]
  · simp [le, slice, List.drop_eq_nil_of_le (Nat.not_lt.1 h), ofLe, List.getElem?_eq_none (Nat.not_lt.1 h)]

/-- Element `i` of a packed MXINT8 row is its byte `i` (R108, R110). -/
theorem unpackElem_int8 (bs : List Byte) (i : Nat) : unpackElem 13 bs i = (bs.getD i 0).toNat := by
  rw [← le_one]
  simp [unpackElem, fmtBits]

/-- Element `j` of equal pieces put together. -/
theorem slice_flatMap {α : Type} {f : α → List Byte} {n : Nat} (hf : ∀ x, (f x).length = n) (xs : List α) {j : Nat} (h : j < xs.length) :
    slice (xs.flatMap f) (n * j) n = f xs[j] := by
  induction xs generalizing j with
  | nil => simp at h
  | cons x xs ih =>
    rw [List.flatMap_cons]
    cases j with
    | zero => exact slice_append_left (hf x) _
    | succ j =>
      have hsub : n * (j + 1) - n = n * j := by rw [Nat.mul_succ, Nat.add_sub_cancel]
      rw [slice_append_of_le (by rw [hf, Nat.mul_succ]; omega), hf, hsub]
      exact ih (by simpa using h)

-- ## Bytes of a loom

theorem State.localBytes_getD {s : State} {l a n i : Nat} (h : i < n) : (s.localBytes l a n).getD i 0 = s.rd (s.localKey l (a + i)) := by
  simp [State.localBytes, h]

/-- Above the halves of the weft a loom's bytes lie in the order of their local addresses (R73). -/
theorem State.localKey_add {s : State} {l a : Nat} (i : Nat) (h : accBase ≤ a) : s.localKey l a + i = s.localKey l (a + i) := by
  have hfix : ∀ b, accBase ≤ b → localPhys (s.loom l) b = b := fun b hb => by
    unfold localPhys fillBase feedBase scratchBase
    unfold accBase at hb
    split_ifs <;> omega
  simp only [State.localKey, hfix a h, hfix (a + i) (by omega), Nat.add_assoc]

/-- An element of a tile row of 32-bit elements is the number at its key. -/
theorem State.le_localBytes {s : State} {l a j : Nat} (ha : accBase ≤ a) (hj : j < 128) : le (s.localBytes l a 512) (4 * j) 4 = s.rdN (s.localKey l (a + 4 * j)) 4 := by
  have hlen : (s.localBytes l a 512).length = 512 := by simp [State.localBytes]
  rw [le, slice_eq_map (by omega), State.rdN, State.rdBytes]
  refine congrArg ofLe (List.map_congr_left fun i hi => ?_)
  have hi := List.mem_range.1 hi
  rw [State.localBytes_getD (by omega), State.localKey_add i (by omega), Nat.add_assoc]

/-- Where a state holds a byte string at a tile row's keys, the number at an element's key is the string's. -/
theorem State.rdN_of_row {s t : State} {l a j : Nat} {bs : List Byte} (ha : accBase ≤ a) (hlen : bs.length = 512) (hj : j < 128)
    (hin : ∀ i, i < bs.length → t.rd (s.localKey l (a + i)) = bs.getD i 0) : t.rdN (s.localKey l (a + 4 * j)) 4 = le bs (4 * j) 4 := by
  rw [le, slice_eq_map (by omega), State.rdN, State.rdBytes]
  refine congrArg ofLe (List.map_congr_left fun i hi => ?_)
  have hi := List.mem_range.1 hi
  rw [State.localKey_add i (by omega), Nat.add_assoc, hin _ (by omega)]

-- ## Sums in INT32 (R121, R124)

theorem foldl_add_eq_sum {α : Type} (f : α → Int) (l : List α) (a : Int) : l.foldl (fun z x => z + f x) a = a + (l.map f).sum := by
  induction l generalizing a with
  | nil => simp
  | cons x l ih => rw [List.foldl_cons, ih, List.map_cons, List.sum_cons, add_assoc]

/-- In INT32 an element takes the sum of the products, of raw words as signed bytes, in two's complement. -/
theorem Img.element_int32 {i : Img} (hacc : i.acc = 15) (fa fb : Nat) (clear : Bool) (old : Nat) (ws scales : List (Nat × Nat)) :
    i.element fa fb clear old ws scales =
      (ofSigned 32 ((if clear then 0 else (old : Int)) + (ws.map (fun w => toSigned 8 w.1 * toSigned 8 w.2)).sum), 0, .zero) := by
  simp only [Img.element, hacc, if_true, foldl_add_eq_sum]

/-- The dot product of an operand row with column `j` of a warp, both of signed bytes. -/
def rowDot (x w : List Byte) (j : Nat) : Int :=
  ((List.range 128).map (fun k => toSigned 8 (x.getD k 0).toNat * toSigned 8 (w.getD (128 * k + j) 0).toNat)).sum

theorem Img.rowElem_int8 {i : Img} (hm : i.mode = 0) (hacc : i.acc = 15) (hweft : i.weft = 13) (hwarp : i.warp = 13) (x w : List Byte) (clear : Bool)
    (j old : Nat) : i.rowElem x w 0 clear j old = (ofSigned 32 ((if clear then 0 else (old : Int)) + rowDot x w j), 0, .zero) := by
  have hn : i.rowElems = 128 := by simp [Img.rowElems, hweft]
  simp only [Img.rowElem, Img.element_int32 hacc, hn, hweft, hwarp, hm, unpackElem_int8, List.map_map, rowDot, Function.comp_def, Nat.zero_add,
    show ¬ (0 = 1) by decide, if_false, Nat.mul_comm]

/-- An MXINT8 warp has one half (R121). -/
theorem Img.halfStart_int8 {i : Img} (hwarp : i.warp = 13) (g : Gen) (n onWarp : Nat) : i.halfStart g n onWarp = 0 := by
  simp [Img.halfStart, hwarp, tileDepth]

theorem foldl_flags_of_none (es : List Elem) (h : ∀ e ∈ es, e.2 = (0, .zero)) (z : Nat) : es.foldl (fun z e => z ||| e.2.1) z = z := by
  induction es with
  | nil => rfl
  | cons e es ih =>
    rw [List.foldl_cons, h e (by simp), Nat.or_zero]
    exact ih fun e he => h e (by simp [he])

theorem foldl_counts_of_none (es : List Elem) (h : ∀ e ∈ es, e.2 = (0, .zero)) (z : ArithCount) : es.foldl (fun z e => z.plus e.2.2) z = z := by
  induction es with
  | nil => rfl
  | cons e es ih =>
    rw [List.foldl_cons, h e (by simp)]
    exact ih fun e he => h e (by simp [he])

/-- A row of 32-bit elements that raise and count nothing. -/
theorem Img.newRow_of_quiet {i : Img} (h4 : i.accBytes = 4) (old : List Byte) {f : Nat → Nat → Elem} (hf : ∀ j o, (f j o).2 = (0, .zero)) :
    i.newRow old f = ((List.range 128).flatMap (fun j => leBytes 4 (f j (le old (4 * j) 4)).1), 0, .zero) := by
  have hquiet : ∀ e ∈ (List.range 128).map (fun j => f j (le old (4 * j) 4)), e.2 = (0, .zero) := fun e he => by
    obtain ⟨j, -, rfl⟩ := List.mem_map.1 he
    exact hf _ _
  simp only [Img.newRow, h4, foldl_flags_of_none _ hquiet, foldl_counts_of_none _ hquiet, List.flatMap_map]

theorem ofSigned_lt (v : Int) : ofSigned 32 v < 2 ^ 32 := by
  unfold ofSigned
  omega

/-- Element `j` of such a row reads back. -/
theorem le_row {v : Nat → Nat} (hv : ∀ j, v j < 2 ^ 32) {j : Nat} (hj : j < 128) : le ((List.range 128).flatMap (fun j => leBytes 4 (v j))) (4 * j) 4 = v j := by
  rw [le, slice_flatMap (f := fun j => leBytes 4 (v j)) (fun _ => length_leBytes 4 _) (List.range 128) (by simpa using hj), List.getElem_range, ofLe_leBytes]
  exact Nat.mod_eq_of_lt (hv j)

end Sys2Proof.Machine
end

section
/-!
PROOFS. An operand row passes the array (O49): a mismatch marks it for its second entry, a match adds its sums to the accumulator row (R76, R81, R82,
R83, R121, R124, R145, R146).
-/

-- Proofs are elaborated one after another: side by side, the threads of the whole text outgrow the memory that the check allows.
set_option Elab.async false

namespace Sys2Proof.Machine

-- ## What storing a row leaves of a loom's record

/-- A loom's record that differs at most in its uncorrectable words, its armed faults and its row-ready bits. -/
def Loom.marked (x y : Loom) : Prop := y = { x with bad := y.bad, armed := y.armed, notReady := y.notReady }

/-- One loom's record is so, every other's is as it was. -/
def State.marksLoom (s t : State) (l : Nat) : Prop := (s.loom l).marked (t.loom l) ∧ ∀ m, m ≠ l → t.loom m = s.loom m

theorem State.marksLoom_of_looms {s t : State} (l : Nat) (h : t.looms = s.looms) : s.marksLoom t l := by
  have hloom : ∀ m, t.loom m = s.loom m := fun m => congrArg (tget ({} : Loom) · m) h
  refine ⟨?_, fun m _ => hloom m⟩
  rw [hloom]
  rfl

theorem State.marksLoom_trans {s t u : State} {l : Nat} (h1 : s.marksLoom t l) (h2 : t.marksLoom u l) : s.marksLoom u l := by
  refine ⟨?_, fun m hm => (h2.2 m hm).trans (h1.2 m hm)⟩
  refine h2.1.trans ?_
  rw [h1.1]

theorem State.setLoom_marks {s : State} {l : Nat} {x : Loom} (h : (s.loom l).marked x) : s.marksLoom (s.setLoom l x) l :=
  ⟨(State.setLoom_loom_same s l x).symm ▸ h, fun _ hm => (State.setLoom_loom ..).trans (if_neg hm)⟩

theorem State.setReady_marks (s : State) (l : Nat) (rows : List Nat) (ready : Bool) : s.marksLoom (s.setReady l rows ready) l := State.setLoom_marks rfl

theorem State.loomStore_marks (s : State) (l a : Nat) (bs : List Byte) : s.marksLoom (s.loomStore l a bs) l :=
  State.marksLoom_trans (State.setLoom_marks (x := (s.loom l).storedOver a bs.length) rfl) (State.marksLoom_of_looms l (s.loomStore_looms l a bs))

/-- A loom's row-ready bit where the reduction begins or ends there (R146, R147). -/
def State.readyIf (s : State) (l a : Nat) (c ready : Bool) : State := if c then s.setReady l [a] ready else s

theorem State.readyIf_keeps (s : State) (l a : Nat) (c ready : Bool) : s.keeps (s.readyIf l a c ready) [.looms] := by
  unfold State.readyIf
  split
  · exact s.setLoom_keeps _ _
  · exact s.keeps_refl _

theorem State.readyIf_marks (s : State) (l a : Nat) (c ready : Bool) : s.marksLoom (s.readyIf l a c ready) l := by
  unfold State.readyIf
  split
  · exact s.setReady_marks _ _ _
  · exact State.marksLoom_of_looms l rfl

theorem State.readyIf_localKey (s : State) (l a : Nat) (c ready : Bool) (b : Nat) : (s.readyIf l a c ready).localKey l b = s.localKey l b := by
  have hhalf : ((s.readyIf l a c ready).loom l).feedH1 = (s.loom l).feedH1 := by rw [(s.readyIf_marks l a c ready).1]
  exact State.localKey_of_parts (s.readyIf_keeps l a c ready .guests (by decide)) (s.readyIf_keeps l a c ready .regs (by decide)) hhalf b

-- ## Counts and flags (R133, R138)

theorem State.addArith_keeps (s : State) (p : Nat) (n : ArithCount) : s.keeps (s.addArith p n) [.parts] := by
  unfold State.addArith
  split
  · exact s.keeps_refl _
  · exact State.keeps_trans (State.keeps_trans (State.keeps_trans (s.setPart_keeps _ _) (State.setPart_keeps _ _ _)) (State.setPart_keeps _ _ _))
      (State.setPart_keeps _ _ _)

theorem State.addFlags_keeps (s : State) (d flags : Nat) : s.keeps (s.addFlags d flags) [.drafts] := by
  unfold State.addFlags
  split
  · exact s.keeps_refl _
  · exact s.setDraft_keeps _ _

/-- Flags enter a draft and none of its nodes. -/
theorem State.addFlags_node (s : State) (d flags e n : Nat) : (s.addFlags d flags).node e n = s.node e n := by
  unfold State.addFlags
  split
  · rfl
  · rw [State.node, State.node, State.setDraft_draft s d e (fun x => { x with strict := x.strict ||| flags }) (fun _ => rfl)]
    split
    · next h => rw [h]; cases s.draft d <;> rfl
    · rfl

theorem State.storeRow_keeps (s : State) (l : Nat) (w : Work) (a : Nat) (f : Nat → Nat → Elem) :
    s.keeps (s.storeRow l w a f) [.mem, .looms, .parts, .drafts] :=
  State.keeps_step (State.keeps_step (State.keeps_mono (s.loomStore_keeps l a _) (by decide)) (State.addArith_keeps _ _ _)) (State.addFlags_keeps _ _ _)

theorem State.storeRow_marks (s : State) (l : Nat) (w : Work) (a : Nat) (f : Nat → Nat → Elem) : s.marksLoom (s.storeRow l w a f) l :=
  State.marksLoom_trans (s.loomStore_marks l a _)
    (State.marksLoom_of_looms l ((State.addFlags_keeps _ _ _ .looms (by decide)).trans (State.addArith_keeps _ _ _ .looms (by decide))))

theorem State.storeRow_node (s : State) (l : Nat) (w : Work) (a : Nat) (f : Nat → Nat → Elem) (d n : Nat) :
    (s.storeRow l w a f).node d n = s.node d n := by
  refine (State.addFlags_node ..).trans (State.node_of_drafts ?_ d n)
  exact (State.addArith_keeps _ _ _ .drafts (by decide)).trans (s.loomStore_keeps l a _ .drafts (by decide))

/-- A row whose elements raise and count nothing is stored, and nothing more. -/
theorem State.storeRow_of_quiet {s : State} {l a : Nat} {w : Work} {f : Nat → Nat → Elem} {bs : List Byte}
    (h : w.img.newRow (s.localBytes l a w.img.tileRow) f = (bs, 0, .zero)) : s.storeRow l w a f = s.loomStore l a bs := by
  simp [State.storeRow, h, State.addArith, State.addFlags]

-- ## A row's sums (R145 to R147)

/-- The sums of a row enter the accumulator row at `a`, whose ready bit follows the reduction's ends. -/
def State.rowSummed (s : State) (l : Nat) (w : Work) (ends : Bool × Bool) (a : Nat) (f : Nat → Nat → Elem) : State :=
  ((s.readyIf l a ends.1 false).storeRow l w a f).readyIf l a ends.2 true

/-- The walk one array row on. -/
def Run.passed (last : Bool) (a : Nat) (r : Run) : Run :=
  { r with
    step := r.step + 1, feedRows := r.feedRows + 1, onWarp := r.onWarp + 1, entered := true, unread := if last then r.unread ++ [a] else r.unread }

/-- Column by column, what the row at hand adds against a warp. -/
def State.rowSums (s : State) (l : Nat) (i : Img) (g0 g1 : Gen) (wb : List Byte) (clear : Bool) : Nat → Nat → Elem :=
  i.rowElem (s.localBytes l (g0.addr (s.loom l).run.step).toNat (Machine.rowBytes i.weft i.rowElems)) wb (i.halfStart g1 (s.loom l).run.step (s.loom l).run.onWarp) clear

theorem State.rowSummed_keeps (s : State) (l : Nat) (w : Work) (ends : Bool × Bool) (a : Nat) (f : Nat → Nat → Elem) :
    s.keeps (s.rowSummed l w ends a f) [.mem, .looms, .parts, .drafts] :=
  State.keeps_step (State.keeps_step (State.keeps_mono (s.readyIf_keeps _ _ _ _) (by decide)) (State.storeRow_keeps _ _ _ _ _))
    (State.readyIf_keeps _ _ _ _ _)

theorem State.rowSummed_marks (s : State) (l : Nat) (w : Work) (ends : Bool × Bool) (a : Nat) (f : Nat → Nat → Elem) :
    s.marksLoom (s.rowSummed l w ends a f) l :=
  State.marksLoom_trans (State.marksLoom_trans (s.readyIf_marks _ _ _ _) (State.storeRow_marks _ _ _ _ _)) (State.readyIf_marks _ _ _ _ _)

theorem State.rowSummed_node (s : State) (l : Nat) (w : Work) (ends : Bool × Bool) (a : Nat) (f : Nat → Nat → Elem) (d n : Nat) :
    (s.rowSummed l w ends a f).node d n = s.node d n := by
  refine (State.node_of_drafts (State.readyIf_keeps _ _ _ _ _ .drafts (by decide)) d n).trans ((State.storeRow_node ..).trans ?_)
  exact State.node_of_drafts (s.readyIf_keeps _ _ _ _ .drafts (by decide)) d n

/-- A quiet row stands at the keys of its accumulator row, and no other byte changes. -/
theorem State.rowSummed_of_quiet {s : State} {l a : Nat} {w : Work} {ends : Bool × Bool} {f : Nat → Nat → Elem} {bs : List Byte}
    (h : w.img.newRow (s.localBytes l a w.img.tileRow) f = (bs, 0, .zero)) :
    s.keeps (s.rowSummed l w ends a f) [.mem, .looms] ∧
      (∀ i, i < bs.length → (s.rowSummed l w ends a f).rd (s.localKey l (a + i)) = bs.getD i 0) ∧
      ∀ j, (∀ i, i < bs.length → j ≠ s.localKey l (a + i)) → (s.rowSummed l w ends a f).rd j = s.rd j := by
  have hkey : ∀ b, (s.readyIf l a ends.1 false).localKey l b = s.localKey l b := s.readyIf_localKey l a ends.1 false
  have hbegun := s.readyIf_keeps l a ends.1 false
  have hrd : ∀ k, (s.readyIf l a ends.1 false).rd k = s.rd k := hbegun .mem (by decide)
  have hbytes : (s.readyIf l a ends.1 false).localBytes l a w.img.tileRow = s.localBytes l a w.img.tileRow := by simp only [State.localBytes, hkey, hrd]
  have hstored := State.storeRow_of_quiet (s := s.readyIf l a ends.1 false) (hbytes.symm ▸ h)
  have hended := ((s.readyIf l a ends.1 false).loomStore l a bs).readyIf_keeps l a ends.2 true
  obtain ⟨hin, hout⟩ := (s.readyIf l a ends.1 false).loomStore_rd l a bs
  simp only [hkey, hrd] at hin hout
  simp only [State.rowSummed, hstored]
  exact ⟨State.keeps_step (State.keeps_step (State.keeps_mono hbegun (by decide)) (State.loomStore_keeps _ _ _ _)) hended,
    fun i hi => (hended .mem (by decide) _).trans (hin i hi), fun j hj => (hended .mem (by decide) j).trans (hout j hj)⟩

theorem State.addRow_eq {s : State} {l : Nat} {w : Work} {g0 g1 g3 : Gen} {wa : Nat} {wb : List Byte} (h0 : w.img.gen 0 = some g0)
    (h1 : w.img.gen 1 = some g1) (h3 : w.img.gen 3 = some g3) (hwarp : (s.loom l).warp = some (wa, wb)) :
    s.addRow l w = (s.rowSummed l w (w.img.reduceEnds g3 (s.loom l).run.step) (g3.addr (s.loom l).run.step).toNat
      (s.rowSums l w.img g0 g1 wb (w.img.clearFirst && (w.img.reduceEnds g3 (s.loom l).run.step).1))).setRun l
        (Run.passed ((w.img.reduceEnds g3 (s.loom l).run.step).2 && w.img.epilogue) (g3.addr (s.loom l).run.step).toNat) := by
  simp only [State.addRow, h0, h1, h3, hwarp]
  rfl

/-- The loom's walk is one row on, and the loom still has its node and its images. -/
theorem State.addRow_loom {s u : State} {l : Nat} {last : Bool} {a : Nat} (h : s.marksLoom u l) :
    (u.setRun l (Run.passed last a)).loom l = { u.loom l with run := (s.loom l).run.passed last a } ∧
      (∀ m, m ≠ l → (u.setRun l (Run.passed last a)).loom m = s.loom m) := by
  have hrun : (u.loom l).run = (s.loom l).run := by rw [h.1]
  refine ⟨?_, fun m hm => ((State.setLoom_loom ..).trans (if_neg hm)).trans (h.2 m hm)⟩
  rw [State.setRun, State.setLoom_loom_same, hrun]

/-- After a row of a loom without output path nothing more is at hand (R151, R174). -/
theorem State.accumulate_eq {s : State} {l : Nat} {w : Work} {g0 g1 g3 : Gen} {wa : Nat} {wb : List Byte} (hm : w.img.mode = 0)
    (hepi : w.img.epilogue = false) (hnode : (s.loom l).node = some (w.d, w.n)) (hy : s.node w.d w.n = some w.node)
    (hi : (s.loom l).imageOf w.node.image = some w.img) (h0 : w.img.gen 0 = some g0) (h1 : w.img.gen 1 = some g1) (h3 : w.img.gen 3 = some g3)
    (hwarp : (s.loom l).warp = some (wa, wb)) : s.accumulate l w = s.addRow l w := by
  have hunder : (s.addRow l w).underImage l w.img := by
    rw [State.addRow_eq h0 h1 h3 hwarp]
    generalize hf : s.rowSums l w.img g0 g1 wb (w.img.clearFirst && (w.img.reduceEnds g3 (s.loom l).run.step).1) = f
    generalize ha : (g3.addr (s.loom l).run.step).toNat = a
    generalize he : w.img.reduceEnds g3 (s.loom l).run.step = ends
    have hmarks := s.rowSummed_marks l w ends a f
    obtain ⟨hloom, -⟩ := State.addRow_loom (last := ends.2 && w.img.epilogue) (a := a) hmarks
    refine State.underImage_of_node (d := w.d) (n := w.n) (y := w.node) ?_ ((s.rowSummed_node l w ends a f w.d w.n).trans hy) ?_
    · rw [hloom, hmarks.1]
      exact hnode
    · rw [hloom, hmarks.1]
      exact hi
  have hskip := State.skipTiles_of_image hunder (by omega)
  simp only [State.accumulate, hm, show ¬ ((0 : Nat) = 2) by decide, if_false, hskip]
  exact State.drainAll_of_image hunder hepi

-- ## The row enters (R77, R81, R82)

theorem State.arrayFault_setLoom {s : State} {l : Nat} {x : Loom} (hb : x.bad = (s.loom l).bad) (hf : x.feedH1 = (s.loom l).feedH1)
    (hr : x.run = (s.loom l).run) (i : Img) (n : Nat) : (s.setLoom l x).arrayFault l i n = s.arrayFault l i n := by
  have hbad : ∀ a n, (s.setLoom l x).badIn l a n = s.badIn l a n := State.badIn_setLoom hb hf l
  simp only [State.arrayFault, hbad, State.setLoom_loom_same, hr]

/-- A row that meets no fault has its accumulator row in its region (R142). -/
theorem State.tileRowStart_of_arrayFault {s : State} {l n : Nat} {i : Img} {g0 g3 : Gen} (hm : i.mode = 0) (h0 : i.gen 0 = some g0) (h3 : i.gen 3 = some g3)
    (h : s.arrayFault l i n = none) : i.tileRowStart (g3.addr n) = true := by
  simp only [State.arrayFault, h0, h3, hm, show ¬ ((0 : Nat) = 2) by decide, if_false, Option.or_eq_none_iff] at h
  by_contra hno
  rw [Bool.not_eq_true] at hno
  simp [hno] at h

theorem accBase_le_of_tileRowStart {i : Img} {a : Int} (h : i.tileRowStart a = true) : accBase ≤ a.toNat := by
  simp only [Img.tileRowStart, portReaches, Bool.and_eq_true, decide_eq_true_eq] at h
  unfold accBase
  omega

section
variable {s : State} {l n : Nat} {w : Work} {g0 g1 g3 : Gen} {wa : Nat} {wb : List Byte} (hguests : s.guests = []) (hw : s.work l = some w)
  (hm : w.img.mode = 0) (h0 : w.img.gen 0 = some g0) (h1 : w.img.gen 1 = some g1) (h3 : w.img.gen 3 = some g3)
  (hwarp : (s.loom l).warp = some (wa, wb)) (hwa : (wa : Int) = g1.addr n) (hn : n = (s.loom l).run.step)
  (hfetched : ((s.loom l).run.fetchList w.node).length ≤ (s.loom l).run.fetched) (hfault : s.arrayFault l w.img n = none)
  (harmed : tget 0 (s.loom l).armed 1 = 0)
include hguests hw hm h1 hwarp hwa hn hfetched hfault harmed

/-- A row that may enter against the active warp passes the array with the outcome of its check. -/
theorem arrayRow_enters (hmay : (s.loom l).mayEnter w.img = true) (check : RowCheck) :
    arrayRow s l check =
      match check with
      | .matches => (s.setLoom l (s.loom l)).accumulate l w
      | .mismatch => (s.setLoom l (s.loom l)).setLoom l { s.loom l with retry := true, retryParity := false }
      | .parity => (s.setLoom l (s.loom l)).setLoom l { s.loom l with retry := true, retryParity := true } := by
  have hfetch := State.fetchAll_of_fetched (State.work_some hw).1 hfetched
  have hres : s.makeResident l = some s := by simp [State.makeResident, hguests]
  have hactive : (s.loom l).warpFor (g1.addr (s.loom l).run.step) = some (s.loom l) := by simp [Loom.warpFor, hwarp, ← hn, ← hwa]
  have hpass : (s.setLoom l (s.loom l)).arrayFault l w.img (s.loom l).run.step = none := (State.arrayFault_setLoom rfl rfl rfl ..).trans (hn ▸ hfault)
  cases check <;>
    simp only [arrayRow, hfetch, hres, hw, hmay, hm, h1, hactive, State.enterRow, State.setLoom_loom_same, hpass, harmed, Bool.not_true, Bool.false_eq_true,
      show ¬ ((0 : Nat) = 2) by decide, ne_eq, not_true_eq_false, if_false]

end

end Sys2Proof.Machine
end

section
/-!
PROOFS. ARRAY_ROW_COMPLETE and ROW_CHECK_RETRY_COMPLETE (O49).
-/

-- Proofs are elaborated one after another: side by side, the threads of the whole text outgrow the memory that the check allows.
set_option Elab.async false

namespace Sys2Proof.Machine

-- ## A matching integer row (R121, R124, R145, R146)

/-- The accumulator row of step `n` with the dot products of the step's operand row added to what it held, or in its place; no other byte changed; the
loom one step further. -/
def State.rowAdded (s t : State) (l n : Nat) (i : Img) (g0 g3 : Gen) (wb : List Byte) : Prop :=
  (∀ j, j < 128 → t.rdN (s.localKey l ((g3.addr n).toNat + 4 * j)) 4 = ofSigned 32 (
    (if i.clearFirst = true ∧ (i.reduceEnds g3 n).1 = true then 0 else (s.rdN (s.localKey l ((g3.addr n).toNat + 4 * j)) 4 : Int)) +
    ((List.range 128).map (fun k => toSigned 8 (s.rd (s.localKey l ((g0.addr n).toNat + k))).toNat * toSigned 8 (wb.getD (128 * k + j) 0).toNat)).sum)) ∧
  s.keepsMem t (s.localKey l (g3.addr n).toNat) 512 ∧ (t.loom l).run.step = n + 1 ∧ (t.loom l).run.feedRows = (s.loom l).run.feedRows + 1 ∧
  (∀ m, m ≠ l → t.loom m = s.loom m) ∧ s.keeps t [.mem, .looms]

/-- A loom's record written back as it is changes nothing that is read. -/
theorem State.rowAdded_of_self {s t : State} {l n : Nat} {i : Img} {g0 g3 : Gen} {wb : List Byte} (h : (s.setLoom l (s.loom l)).rowAdded t l n i g0 g3 wb) :
    s.rowAdded t l n i g0 g3 wb := by
  have hkey : ∀ a, (s.setLoom l (s.loom l)).localKey l a = s.localKey l a := State.localKey_setLoom rfl l
  have hrdN : ∀ k, (s.setLoom l (s.loom l)).rdN k 4 = s.rdN k 4 := fun _ => rfl
  obtain ⟨hrow, hmem, hstep, hfeed, hother, hk⟩ := h
  simp only [hkey, hrdN, State.setLoom_rd] at hrow
  rw [hkey] at hmem
  rw [State.setLoom_loom_same] at hfeed
  exact ⟨hrow, hmem, hstep, hfeed, fun m hm => (hother m hm).trans ((State.setLoom_loom ..).trans (if_neg hm)),
    State.keeps_step (State.keeps_mono (s.setLoom_keeps _ _) (by decide)) hk⟩

theorem State.rowAdded_settle {s t : State} {l n : Nat} {i : Img} {g0 g3 : Gen} {wb : List Byte} (h : s.rowAdded t l n i g0 g3 wb) :
    s.rowAdded (settle t) l n i g0 g3 wb := by
  have hrdN : ∀ k, (settle t).rdN k 4 = t.rdN k 4 := fun k => by simp only [State.rdN, State.rdBytes, settle_rd]
  obtain ⟨hrow, hmem, hstep, hfeed, hother, hk⟩ := h
  exact ⟨fun j hj => (hrdN _).trans (hrow j hj), fun j hj => (settle_rd t j).trans (hmem j hj), hstep, hfeed, hother, State.keeps_settled hk⟩

theorem rowDot_localBytes (s : State) (l a len : Nat) (hlen : 128 ≤ len) (wb : List Byte) (j : Nat) : rowDot (s.localBytes l a len) wb j =
    ((List.range 128).map (fun k => toSigned 8 (s.rd (s.localKey l (a + k))).toNat * toSigned 8 (wb.getD (128 * k + j) 0).toNat)).sum := by
  refine congrArg List.sum (List.map_congr_left fun k hk => ?_)
  rw [State.localBytes_getD (Nat.lt_of_lt_of_le (List.mem_range.1 hk) hlen)]

theorem State.addRow_adds {s : State} {l n : Nat} {w : Work} {g0 g1 g3 : Gen} {wa : Nat} {wb : List Byte} (hm : w.img.mode = 0) (hacc : w.img.acc = 15)
    (hweft : w.img.weft = 13) (hwarp13 : w.img.warp = 13) (h0 : w.img.gen 0 = some g0) (h1 : w.img.gen 1 = some g1) (h3 : w.img.gen 3 = some g3)
    (hwarp : (s.loom l).warp = some (wa, wb)) (hn : n = (s.loom l).run.step) (hstart : w.img.tileRowStart (g3.addr n) = true) :
    s.rowAdded (s.addRow l w) l n w.img g0 g3 wb := by
  have hbase := accBase_le_of_tileRowStart hstart
  have h4 : w.img.accBytes = 4 := by simp [Img.accBytes, hacc]
  have hrow : w.img.tileRow = 512 := by simp [Img.tileRow, h4]
  have hbytes : Machine.rowBytes w.img.weft w.img.rowElems = 132 := by simp [Machine.rowBytes, Img.rowElems, hweft, fmtBits, fmtMx]
  rw [State.addRow_eq h0 h1 h3 hwarp, ← hn]
  generalize ha : (g3.addr n).toNat = a at hbase ⊢
  generalize hends : w.img.reduceEnds g3 n = ends
  have hsums : ∀ j old, s.rowSums l w.img g0 g1 wb (w.img.clearFirst && ends.1) j old =
      (ofSigned 32 ((if (w.img.clearFirst && ends.1) = true then 0 else (old : Int)) + rowDot (s.localBytes l (g0.addr n).toNat 132) wb j), 0, .zero) :=
    fun j old => by rw [State.rowSums, Img.halfStart_int8 hwarp13, hbytes, ← hn, Img.rowElem_int8 hm hacc hweft hwarp13]
  generalize hf : s.rowSums l w.img g0 g1 wb (w.img.clearFirst && ends.1) = f at hsums
  have hquiet := Img.newRow_of_quiet h4 (s.localBytes l a w.img.tileRow) (f := f) (fun j o => by rw [hsums])
  have hlen : ((List.range 128).flatMap (fun j => leBytes 4 (f j (le (s.localBytes l a w.img.tileRow) (4 * j) 4)).1)).length = 512 := by
    simp [List.length_flatMap]
  obtain ⟨hk, hin, hout⟩ := State.rowSummed_of_quiet (ends := ends) hquiet
  obtain ⟨hloom, hother⟩ := State.addRow_loom (last := ends.2 && w.img.epilogue) (a := a) (s.rowSummed_marks l w ends a f)
  refine ⟨fun j hj => ?_, fun j hj => ?_, ?_, ?_, hother, State.keeps_step hk (State.setLoom_keeps _ _ _)⟩
  · rw [ha, hends]
    refine (State.rdN_of_row hbase hlen hj hin).trans ((le_row (fun j => ?_) hj).trans ?_)
    · rw [hsums]
      exact ofSigned_lt _
    · rw [hsums, hrow, State.le_localBytes hbase hj, rowDot_localBytes _ _ _ _ (by decide)]
      simp only [Bool.and_eq_true]
  · refine hout j fun i hi hkey => ?_
    rw [ha, hkey, ← State.localKey_add i hbase] at hj
    omega
  · rw [hloom, hn]
    rfl
  · rw [hloom]
    rfl

-- ## A row that matches at its second entry (R82, R443)

/-- The loom once a row has matched at its second entry. -/
def Loom.retried (x : Loom) : Loom :=
  { x with retry := false, retryParity := false, corrected := x.corrected + 1, armed := tset 0 x.armed 512 0 }

theorem State.softEvent_keeps (s : State) (cls u per : Nat) : s.keeps (s.softEvent cls u per) [.units] := s.setUnit_keeps _ _ _

theorem rowRetried_matches {s : State} {l column : Nat} {w : Work} (hw : s.work l = some w) (hretry : (s.loom l).retry = true)
    (h1 : tget 0 (s.loom l).armed 1 = 0) (h512 : tget 0 (s.loom l).armed 512 = 0) :
    rowRetried s l false column = ((s.setLoom l (s.loom l).retried).softEvent 0 l 1).accumulate l w := by
  have hrw : s.retryWork l = some w := by simp [State.retryWork, hw]
  simp [rowRetried, hrw, hretry, h1, h512, Loom.retried]

/-- The step once more: retry over, one corrected event counted, whatever the row's format. -/
theorem State.gives_retried {s : State} {l n : Nat} {w : Work} {g0 g1 g3 : Gen} {wa : Nat} {wb : List Byte} (hd : s.deferred = []) (hw : s.work l = some w)
    (hm : w.img.mode = 0) (h0 : w.img.gen 0 = some g0) (h1 : w.img.gen 1 = some g1) (h3 : w.img.gen 3 = some g3)
    (hwarp : (s.loom l).warp = some (wa, wb)) (hn : n = (s.loom l).run.step) (harmed : tget 0 (s.loom l).armed 1 = 0)
    (hretry : (s.loom l).retry = true) (h512 : tget 0 (s.loom l).armed 512 = 0) (hepi : w.img.epilogue = false) :
    s.gives (.rowCheckRetryComplete l false 0) (fun t =>
      (t.loom l).retry = false ∧ (t.loom l).corrected = (s.loom l).corrected + 1 ∧ (t.loom l).run.step = n + 1 ∧
      t.unit 0 l = { s.unit 0 l with soft := (s.unit 0 l).soft + (s.unit 0 l).raw + 1, raw := 0 } ∧
      (∀ m, m ≠ l → t.loom m = s.loom m) ∧ s.keeps t [.mem, .looms, .units, .parts, .drafts]) := by
  have hexec : exec (.rowCheckRetryComplete l false 0) s = finishDeferred (rowRetried s l false 0) := rfl
  obtain ⟨hnode, -, hy, hi⟩ := State.holding_some (State.work_some hw).1
  generalize hu : (s.setLoom l (s.loom l).retried).softEvent 0 l 1 = u
  have hself : u.loom l = (s.loom l).retried := by rw [← hu]; exact State.setLoom_loom_same ..
  have hothers : ∀ m, m ≠ l → u.loom m = s.loom m := fun m hne => by rw [← hu]; exact (State.setLoom_loom ..).trans (if_neg hne)
  have hunit : u.unit 0 l = { s.unit 0 l with soft := (s.unit 0 l).soft + ((s.unit 0 l).raw + 1) / 1, raw := ((s.unit 0 l).raw + 1) % 1 } := by
    rw [← hu]
    exact State.setUnit_unit_same ..
  have hku : s.keeps u [.looms, .units] := by
    rw [← hu]
    exact State.keeps_step (State.keeps_mono (s.setLoom_keeps _ _) (by decide)) (State.softEvent_keeps _ _ _ _)
  have hnodes : u.node w.d w.n = some w.node := (State.node_of_drafts (hku .drafts (by decide)) _ _).trans hy
  have hacc := State.accumulate_eq (s := u) hm hepi (by rw [hself]; exact hnode) hnodes (by rw [hself]; exact hi) h0 h1 h3 (by rw [hself]; exact hwarp)
  rw [rowRetried_matches hw hretry harmed h512, hu, hacc, State.addRow_eq h0 h1 h3 (by rw [hself]; exact hwarp)] at hexec
  generalize u.rowSums l w.img g0 g1 wb (w.img.clearFirst && (w.img.reduceEnds g3 (u.loom l).run.step).1) = f at hexec
  generalize (g3.addr (u.loom l).run.step).toNat = a at hexec
  generalize w.img.reduceEnds g3 (u.loom l).run.step = ends at hexec
  have hmarks := u.rowSummed_marks l w ends a f
  obtain ⟨hloom, hother⟩ := State.addRow_loom (last := ends.2 && w.img.epilogue) (a := a) hmarks
  have hk := State.keeps_step (u.rowSummed_keeps l w ends a f) (State.setLoom_keeps _ l
    { (u.rowSummed l w ends a f).loom l with run := ((u.rowSummed l w ends a f).loom l).run.passed (ends.2 && w.img.epilogue) a })
  have hks := State.keeps_step (State.keeps_mono hku (gs := [.mem, .looms, .units, .parts, .drafts]) (by decide)) hk
  rw [hmarks.1, hself] at hloom
  refine State.gives_of_finishDeferred hexec (State.deferred_of_keeps hks (by decide) hd)
    ⟨congrArg Loom.retry hloom, congrArg Loom.corrected hloom, ?_, ?_, fun m hne => (hother m hne).trans (hothers m hne), State.keeps_settled hks⟩
  · rw [hn]
    exact congrArg (fun y => (Loom.run y).step) hloom
  · refine (congrArg (tget ({} : Unit) · _) (hk .units (by decide))).trans (hunit.trans ?_)
    rw [Nat.div_one, Nat.mod_one, Nat.add_assoc]

-- ## O49

/-- Settles O49: a row that does not match, a matching row of signed bytes, a row that matches at its second entry. -/
theorem arrayRowsAccumulate : Obligations.ArrayRowsAccumulate := by
  unfold Obligations.ArrayRowsAccumulate
  intro s l n w g0 g1 g3 wa wb hguests hd hw hm h0 h1 h3 hwarp hwa hn hfetched hfault harmed
  refine ⟨fun hmay => ?_, fun hretry h512 hepi => State.gives_retried hd hw hm h0 h1 h3 hwarp hn harmed hretry h512 hepi⟩
  have henter := arrayRow_enters hguests hw hm h1 hwarp hwa hn hfetched hfault harmed hmay
  have hexec : ∀ check, exec (.arrayRowComplete l check) s = finishDeferred (arrayRow s l check) := fun _ => rfl
  refine ⟨?_, ?_, fun hepi hacc hweft hwarp13 => ?_⟩
  · exact State.gives_loomBecomes ((hexec .mismatch).trans (congrArg finishDeferred (henter .mismatch))) hd
      (State.loomBecomes_setLoom (s.setLoom_becomes _ _) _)
  · exact State.gives_loomBecomes ((hexec .parity).trans (congrArg finishDeferred (henter .parity))) hd
      (State.loomBecomes_setLoom (s.setLoom_becomes _ _) _)
  · obtain ⟨hnode, -, hy, hi⟩ := State.holding_some (State.work_some hw).1
    have hself : (s.setLoom l (s.loom l)).loom l = s.loom l := State.setLoom_loom_same ..
    have hstart := State.tileRowStart_of_arrayFault hm h0 h3 hfault
    have hacc' := State.accumulate_eq (s := s.setLoom l (s.loom l)) hm hepi (by rw [hself]; exact hnode) hy (by rw [hself]; exact hi) h0 h1 h3
      (by rw [hself]; exact hwarp)
    have hadded := State.rowAdded_of_self (State.addRow_adds (s := s.setLoom l (s.loom l)) hm hacc hweft hwarp13 h0 h1 h3 (by rw [hself]; exact hwarp)
      (by rw [hself]; exact hn) hstart)
    rw [← hacc'] at hadded
    obtain ⟨-, -, -, -, -, hk⟩ := id hadded
    exact State.gives_of_finishDeferred ((hexec .matches).trans (congrArg finishDeferred (henter .matches)))
      (State.deferred_of_keeps hk (by decide) hd) (State.rowAdded_settle hadded)

end Sys2Proof.Machine
end

section
/-!
PROOFS. Wakes and heat (O55): the wake pins, the brake, a reading of the sensors (R468 to R472, R475, R530).
-/

-- Proofs are elaborated one after another: side by side, the threads of the whole text outgrow the memory that the check allows.
set_option Elab.async false

namespace Sys2Proof.Machine

-- ## Wakes (R468, R469, R530)

/-- A wake of source 1 or 2 that is disabled, or comes in T0, does nothing. -/
theorem State.wake_ignored {s : State} {w port : Nat} (hw : w = 1 ∨ w = 2) (hmv : s.treadle.moving = none)
    (h : s.treadle.state = 0 ∨ s.bit .trdWakeEn w = false) : s.wake w port = s := by
  rcases h with h | h
  · have hfrom : wakesFrom w 0 = false := by rcases hw with rfl | rfl <;> rfl
    simp [State.wake, hmv, h, hfrom]
  · have hne : w ≠ 0 ∧ w ≠ 7 := by omega
    simp [State.wake, h, hne]

/-- An enabled wake of source 1 or 2 starts the exit, where nothing moves or holds. -/
theorem State.wake_exits {s : State} {w port : Nat} (hw : w = 1 ∨ w = 2) (hmv : s.treadle.moving = none) (hen : s.bit .trdWakeEn w = true)
    (hst : s.treadle.state ≠ 0) (hgood : s.treadle.state = 4 → s.treadle.vmainGood = true) (hready : s.boot.state = .ready) (hphase : s.boot.phase = .idle)
    (hhold : s.treadle.hold = 0) : s.wake w port = s.startExit w port := by
  have hfrom : wakesFrom w s.treadle.state = true := by rcases hw with rfl | rfl <;> simpa [wakesFrom] using hst
  have hsupply : (s.treadle.state == 4 && !s.treadle.vmainGood) = false := by
    by_cases h4 : s.treadle.state = 4 <;> simp [h4, hgood]
  simp [State.wake, hmv, hen, hfrom, hsupply, hready, State.request, hphase, hhold, State.beginRequest, hst.symm]

theorem State.startExit_treadle (s : State) (w port : Nat) :
    (s.startExit w port).treadle = { s.treadle with
      moving := some (.exit w), wakeSource := w, wakeFrom := s.treadle.state, wakePort := port, wakeEpoch := (s.island 0x31).epoch
      wakeCycle := (s.island 0x31).cycle, driving := (s.startExit w port).treadle.driving, ignoring := (s.startExit w port).treadle.ignoring } := rfl

-- ## A reading of the sensors (R470 to R472)

/-- The treadle's record after a reading: what the sensors say, and the readings in a row. -/
def Treadle.read (tWarn tHot level hot : Nat) (temps : List (Nat × Nat)) (t : Treadle) : Treadle :=
  { t with
    temps := temps.filter (fun p => p.2 != 0), warm := decide (8 * tWarn ≤ hot), pinTrip := decide (920 ≤ hot), level := level
    hotRun := if 8 * tHot ≤ hot then min 2 (t.hotRun + 1) else 0
    critRun := if 840 ≤ hot then min 2 (t.critRun + 1) else 0
    coolRun := if hot < 8 * tWarn - 40 then min 1000 (t.coolRun + 1) else 0 }

/-- The state with that record. -/
def State.sensed (s : State) (level hot : Nat) (temps : List (Nat × Nat)) : State := { s with treadle := s.treadle.read s.tWarn s.tHot level hot temps }

/-- The hottest sensor and the level that a reading reaches. -/
def hottest (temps : List (Nat × Nat)) : Nat := temps.foldl (fun m p => max m p.2) 0
def State.levelAt (s : State) (hot : Nat) : Nat := (s.thresholds.filter (fun t => decide (t ≤ hot))).length

/-- The records that a change of level writes, one for each threshold crossed (R472). -/
def levelEvents (sensor old level hot : Nat) : List FaultEv :=
  (List.range (level - old)).map (fun i => treadleEvent 0x38 sensor (old + 1 + i) hot) ++
    (List.range (old - level)).map (fun _ => treadleEvent 0x38 sensor 0 hot)

/-- The state after a reading and its records. -/
def State.crossed (s : State) (sensor level hot : Nat) (temps : List (Nat × Nat)) : State :=
  (levelEvents sensor s.treadle.level level hot).foldl State.raise (s.sensed level hot temps)

/-- A reading without a hold and without a second one at T_CRIT: the second one at T_HOT starts a thermal entry. -/
theorem thermalReading_of_noHold {s : State} {es : List Nat} {temps : List (Nat × Nat)} {hot : Nat} (htemps : temps = s.sensors.map (fun i => (i, es.getD i 0)))
    (hhot : hot = hottest temps) (hsensors : s.sensors ≠ []) (hhold : s.treadle.hold = 0) (hcrit : ¬ (s.treadle.critRun = 1 ∧ 840 ≤ hot)) :
    ∃ sensor, thermalReading s es = if s.treadle.hotRun = 1 ∧ 8 * s.tHot ≤ hot then (s.crossed sensor (s.levelAt hot) hot temps).thermalEntry 1
      else s.crossed sensor (s.levelAt hot) hot temps := by
  subst hhot htemps
  refine ⟨(((s.sensors.map (fun i => (i, es.getD i 0))).find? (fun p => p.2 == hottest (s.sensors.map (fun i => (i, es.getD i 0))))).map (·.1)).getD 0, ?_⟩
  rw [hottest] at hcrit
  simp only [thermalReading, List.isEmpty_iff, hsensors, if_false, decide_eq_true_eq, hcrit, hhold, Nat.zero_lt_one, Nat.zero_lt_two, and_true, ne_eq, not_true_eq_false,
    false_and, State.crossed, State.sensed, Treadle.read, levelEvents, State.levelAt, hottest]
  rfl

/-- A reading at the level of the last one writes no record. -/
theorem State.crossed_same {s : State} {level : Nat} (h : level = s.treadle.level) (sensor hot : Nat) (temps : List (Nat × Nat)) :
    s.crossed sensor level hot temps = s.sensed level hot temps := by
  simp [State.crossed, levelEvents, h]

theorem levelEvents_ne_nil {old level : Nat} (h : level ≠ old) (sensor hot : Nat) : levelEvents sensor old level hot ≠ [] := by
  simp only [levelEvents, ne_eq, List.append_eq_nil_iff, List.map_eq_nil_iff, List.range_eq_nil]
  omega

/-- The records of a change of level are of source 58 and class 0x38, which is of no unit of the classifier. -/
theorem levelEvents_sensor {sensor old level hot : Nat} {ev : FaultEv} (h : ev ∈ levelEvents sensor old level hot) :
    ev.source = 58 ∧ ev.cls = 0x38 ∧ classUnit ev = none := by
  simp only [levelEvents, List.mem_append, List.mem_map] at h
  obtain ⟨i, -, rfl⟩ | ⟨i, -, rfl⟩ := h <;> exact ⟨rfl, rfl, rfl⟩

/-- Events of one source and class that are only recorded leave its bit and its class. -/
theorem State.raises_classed {src cls : Nat} (evs : List FaultEv) (hevs : ∀ ev ∈ evs, ev.source = src ∧ ev.cls = cls ∧ classUnit ev = none) :
    ∀ s : State, s.react src = 0 → s.keeps (evs.foldl State.raise s) [.mem, .ports, .knot] ∧
      (evs ≠ [] ∨ (bitAt s.knot.word src = true ∧ tget 0 s.knot.lastClass src = cls) →
        bitAt (evs.foldl State.raise s).knot.word src = true ∧ tget 0 (evs.foldl State.raise s).knot.lastClass src = cls) := by
  induction evs with
  | nil => exact fun s _ => ⟨s.keeps_refl _, fun h => h.resolve_left (fun h => h rfl)⟩
  | cons ev evs ih =>
    intro s hs
    obtain ⟨rfl, rfl, hunit⟩ := hevs ev List.mem_cons_self
    have hraise : s.noted (s.raise ev) ev := State.raise_noted hunit hs
    obtain ⟨hkeeps, hbit⟩ := ih (fun ev h => hevs ev (List.mem_cons_of_mem _ h)) (s.raise ev) ((State.react_of_keeps hraise.1 (by decide) _).trans hs)
    exact ⟨State.keeps_trans hraise.1 hkeeps, fun _ => hbit (.inr ⟨State.noted_bit hraise, hraise.2.2⟩)⟩

/-- A change of level with REACT 0 sets the knot bit of the sensors with class 0x38. -/
theorem State.crossed_noted {s : State} {level : Nat} (h : level ≠ s.treadle.level) (hreact : s.react 58 = 0) (sensor hot : Nat) (temps : List (Nat × Nat)) :
    (s.sensed level hot temps).keeps (s.crossed sensor level hot temps) [.mem, .ports, .knot] ∧
      bitAt (s.crossed sensor level hot temps).knot.word 58 = true ∧ tget 0 (s.crossed sensor level hot temps).knot.lastClass 58 = 0x38 := by
  obtain ⟨hkeeps, hbit⟩ := State.raises_classed _ (fun _ h => levelEvents_sensor h) (s.sensed level hot temps) hreact
  exact ⟨hkeeps, hbit (.inl (levelEvents_ne_nil h sensor hot))⟩

/-- An entry into T1 idles no link (R464). -/
theorem State.idleForSleep_one (s : State) : s.idleForSleep 1 = s := by
  have hstep : ∀ ls : List Nat, ls.foldl (fun (s : State) _ => s) s = s := fun ls => by induction ls <;> simp_all
  exact hstep (List.range 96)

/-- A thermal entry into T1 from T0, nothing moving or holding (R471). -/
theorem State.thermalEntry_one {s : State} (hhold : s.treadle.hold = 0) (hstate : s.treadle.state = 0) (hmv : s.treadle.moving = none) :
    s.thermalEntry 1 = { s with treadle := { s.treadle with hold := 1, moving := some (.entry 1) } } := by
  simp [State.thermalEntry, hhold, hstate, hmv, State.startEntry, State.idleForSleep_one]

end Sys2Proof.Machine
end

section
/-!
PROOFS. The power cap (O55): the clocks that an interval changes, and what a command of wakes, heat and the cap answers (R468 to R475, R530).
-/

-- Proofs are elaborated one after another: side by side, the threads of the whole text outgrow the memory that the check allows.
set_option Elab.async false

namespace Sys2Proof.Machine

-- ## Clocks changed one cluster after another (R474)

/-- The clusters of a list that meet a condition go to new clocks. -/
def State.retune (s : State) (P : Nat → Prop) [DecidablePred P] (freq : Nat → Nat) (cs : List Nat) : State :=
  cs.foldl (fun u c => if P c then u.setFreq c (freq c) else u) s

section
variable (P : Nat → Prop) [DecidablePred P] (freq : Nat → Nat)

theorem State.retune_keeps (s : State) (cs : List Nat) : s.keeps (s.retune P freq cs) [.islands] := by
  refine State.keeps_fold (fun u c => ?_) s cs
  split
  · exact u.setIsland_keeps _ _
  · exact u.keeps_refl _

/-- Each cluster is changed once, from what it was. -/
theorem State.retune_island (cs : List Nat) (hnodup : cs.Nodup) : ∀ (s : State) (i : Nat),
    (s.retune P freq cs).island i = if i ∈ cs ∧ P i then { s.island i with freq := freq i, relocking := true } else s.island i := by
  induction cs with
  | nil => intro s i; simp [State.retune]
  | cons c cs ih =>
    intro s i
    obtain ⟨hnotin, hrest⟩ := List.nodup_cons.1 hnodup
    refine (ih hrest _ i).trans ?_
    by_cases hic : i = c
    · subst hic
      by_cases hP : P i <;> simp [hnotin, hP, State.setFreq]
    · have hother : (if P c then s.setFreq c (freq c) else s).island i = s.island i := by
        split
        · rw [State.setFreq, State.setIsland_island, if_neg hic]
        · rfl
      simp [hother, hic]

end

/-- The pinned clusters go to their clocks: what each reads, the others leave as it was. -/
theorem State.runPinned_eq_retune {s : State} (hpin : s.bit .tmpCapCtl 0 = true) :
    s.runPinned = s.retune (fun c => (s.island c).on = true ∧ (s.island c).freq ≠ s.pinFreq c) s.pinFreq (List.range 32) := by
  have hfold : ∀ (cs : List Nat) (u : State), cs.Nodup → u.regs = s.regs → (∀ c ∈ cs, u.island c = s.island c) →
      cs.foldl (fun u c => if !(u.island c).on || (u.island c).freq == u.pinFreq c then u else u.setFreq c (u.pinFreq c)) u =
        u.retune (fun c => (s.island c).on = true ∧ (s.island c).freq ≠ s.pinFreq c) s.pinFreq cs := by
    intro cs
    induction cs with
    | nil => exact fun u _ _ _ => rfl
    | cons c cs ih =>
      intro u hnodup hregs hislands
      obtain ⟨hnotin, hrest⟩ := List.nodup_cons.1 hnodup
      have hfreq : u.pinFreq c = s.pinFreq c := by simp only [State.pinFreq, State.fMin, State.fMax, State.fld, State.reg, hregs]
      have hstep : (if !(u.island c).on || (u.island c).freq == u.pinFreq c then u else u.setFreq c (u.pinFreq c)) =
          if (s.island c).on = true ∧ (s.island c).freq ≠ s.pinFreq c then u.setFreq c (s.pinFreq c) else u := by
        rw [hislands c List.mem_cons_self, hfreq]
        by_cases hon : (s.island c).on = true <;> by_cases hf : (s.island c).freq = s.pinFreq c <;> simp [hon, hf]
      rw [List.foldl_cons, hstep]
      refine ih _ hrest ?_ fun d hd => ?_
      · split
        · exact hregs
        · exact hregs
      · have hdc : d ≠ c := fun h => hnotin (h ▸ hd)
        rw [← hislands d (List.mem_cons_of_mem _ hd)]
        split
        · rw [State.setFreq, State.setIsland_island, if_neg hdc]
        · rfl
  rw [State.runPinned, if_pos hpin]
  exact hfold _ s List.nodup_range rfl fun _ _ => rfl

-- ## The end of a power-cap interval (R474, R475)

/-- The state with the power of an interval, no clock being pinned. -/
def State.metered (s : State) (p : Nat) : State :=
  { s with treadle := { s.treadle with power := p, overCap := 0, capThrottle := s.treadle.capThrottle && decide (s.cap ≤ p) } }

/-- The clusters whose islands are on. -/
def State.onClusters (s : State) : List Nat := (List.range 32).filter (fun c => (s.island c).on)

theorem State.onClusters_nodup (s : State) : s.onClusters.Nodup := List.nodup_range.filter _

/-- Unpinned, the clusters at the highest clock go a step down, those at the lowest a step up, or none changes. -/
theorem capInterval_unpinned {s : State} {watts p hi lo : Nat} (hp : p = min 4095 watts) (hhi : hi = s.onClusters.foldl (fun m c => max m (s.fNow c)) 0)
    (hlo : lo = s.onClusters.foldl (fun m c => min m (s.fNow c)) 31) (hpin : s.bit .tmpCapCtl 0 = false) :
    capInterval s watts =
      if s.cap < p ∨ s.treadle.warm = true then
        (s.metered p).retune (fun c => s.fNow c = hi ∧ s.fMin c < s.fNow c) (fun c => s.fNow c - 1) s.onClusters
      else if p + 8 * s.fld .tmpCapCtl 16 8 < s.cap then
        (s.metered p).retune (fun c => s.fNow c = lo ∧ s.fNow c < s.fMax c) (fun c => s.fNow c + 1) s.onClusters
      else s.metered p := by
  subst hp hhi hlo
  simp only [capInterval, hpin, Bool.false_eq_true, if_false, Bool.false_or]
  rfl

/-- The state with the power of an interval, the clocks being pinned. -/
def State.meteredPinned (s : State) (p : Nat) : State :=
  let above := if s.cap < p then min 4 (s.treadle.overCap + 1) else 0
  { s with treadle := { s.treadle with
    power := p, overCap := above, capThrottle := if above = 4 then true else if p < s.cap then false else s.treadle.capThrottle } }

/-- Pinned, each cluster takes its pinned clock. -/
theorem capInterval_pinned {s : State} {watts p : Nat} (hp : p = min 4095 watts) (hpin : s.bit .tmpCapCtl 0 = true) :
    capInterval s watts =
      (s.meteredPinned p).retune (fun c => (s.island c).on = true ∧ (s.island c).freq ≠ s.pinFreq c) s.pinFreq (List.range 32) := by
  subst hp
  simp only [capInterval, hpin, if_true, Bool.true_or, Bool.and_true]
  exact State.runPinned_eq_retune (s := s.meteredPinned (min 4095 watts)) hpin

end Sys2Proof.Machine
end

section
/-!
PROOFS. Wakes, heat and the cap (O55): what their commands answer (R468 to R475, R530).
-/

-- Proofs are elaborated one after another: side by side, the threads of the whole text outgrow the memory that the check allows.
set_option Elab.async false

namespace Sys2Proof.Machine

-- ## Readings of the sensors (R470 to R472)

/-- A reading below T_HOT at the level of the last one. -/
theorem gives_thermalReading_same {s : State} {es : List Nat} {temps : List (Nat × Nat)} {hot : Nat} (htemps : temps = s.sensors.map (fun i => (i, es.getD i 0)))
    (hhot : hot = hottest temps) (hsensors : s.sensors ≠ []) (hhold : s.treadle.hold = 0) (hsame : s.levelAt hot = s.treadle.level) (hcool : hot < 8 * s.tHot) :
    s.gives (.thermalReading es) (fun t => t.treadle = s.treadle.read s.tWarn s.tHot (s.levelAt hot) hot temps ∧
      t.thermN = decide (8 * s.tWarn ≤ hot) ∧ s.keeps t [.treadle]) := by
  have htop : s.tHot ≤ 104 := Nat.min_le_left ..
  obtain ⟨sensor, heq⟩ := thermalReading_of_noHold htemps hhot hsensors hhold (by omega)
  rw [if_neg (by omega), State.crossed_same hsame] at heq
  refine State.gives_of_finish (congrArg finish heq) ⟨rfl, rfl, State.keeps_settled (s.keeps_treadle _)⟩

/-- A reading below T_HOT at another level, which writes its records. -/
theorem gives_thermalReading_crossing {s : State} {es : List Nat} {temps : List (Nat × Nat)} {hot : Nat} (htemps : temps = s.sensors.map (fun i => (i, es.getD i 0)))
    (hhot : hot = hottest temps) (hsensors : s.sensors ≠ []) (hhold : s.treadle.hold = 0) (hother : s.levelAt hot ≠ s.treadle.level) (hcool : hot < 8 * s.tHot)
    (hreact : s.react 58 = 0) :
    s.gives (.thermalReading es) (fun t => t.treadle = s.treadle.read s.tWarn s.tHot (s.levelAt hot) hot temps ∧
      bitAt t.knot.word 58 = true ∧ tget 0 t.knot.lastClass 58 = 0x38 ∧ s.keeps t [.mem, .ports, .knot, .treadle]) := by
  have htop : s.tHot ≤ 104 := Nat.min_le_left ..
  obtain ⟨sensor, heq⟩ := thermalReading_of_noHold htemps hhot hsensors hhold (by omega)
  rw [if_neg (by omega)] at heq
  obtain ⟨hkeeps, hbit, hclass⟩ := State.crossed_noted hother hreact sensor hot temps
  have htreadle : (s.crossed sensor (s.levelAt hot) hot temps).treadle = (s.sensed (s.levelAt hot) hot temps).treadle := hkeeps .treadle (by decide)
  exact State.gives_of_finish (congrArg finish heq) ⟨htreadle, hbit, hclass,
    State.keeps_settled (State.keeps_step (State.keeps_mono (s.keeps_treadle _) (by decide)) hkeeps)⟩

/-- A second reading at T_HOT in T0 starts the entry into T1. -/
theorem gives_thermalReading_hot {s : State} {es : List Nat} {temps : List (Nat × Nat)} {hot : Nat} (htemps : temps = s.sensors.map (fun i => (i, es.getD i 0)))
    (hhot : hot = hottest temps) (hsensors : s.sensors ≠ []) (hhold : s.treadle.hold = 0) (hsame : s.levelAt hot = s.treadle.level) (hreached : 8 * s.tHot ≤ hot)
    (hsecond : s.treadle.hotRun = 1) (hcrit : s.treadle.critRun = 0) (hstate : s.treadle.state = 0) (hmv : s.treadle.moving = none) :
    s.gives (.thermalReading es) (fun t =>
      t.treadle = { s.treadle.read s.tWarn s.tHot (s.levelAt hot) hot temps with hold := 1, moving := some (.entry 1) } ∧
      t.thermN = true ∧ (920 ≤ hot → t.faultN = true) ∧ s.keeps t [.treadle]) := by
  have hwarn : s.tWarn ≤ s.tHot := Nat.min_le_left ..
  obtain ⟨sensor, heq⟩ := thermalReading_of_noHold htemps hhot hsensors hhold (by omega)
  rw [if_pos ⟨hsecond, hreached⟩, State.crossed_same hsame, State.thermalEntry_one (s := s.sensed (s.levelAt hot) hot temps) hhold hstate hmv] at heq
  have hwarm : decide (8 * s.tWarn ≤ hot) = true := decide_eq_true (by omega)
  refine State.gives_of_finish (congrArg finish heq) ⟨rfl, hwarm, fun htrip => ?_, State.keeps_settled (s.keeps_treadle _)⟩
  have hpin : decide (920 ≤ hot) = true := decide_eq_true htrip
  simp [settle, State.faultPin, State.sensed, Treadle.read, hpin]

/-- With no analogue domain on nothing is read. -/
theorem gives_thermalReading_unread {s : State} (es : List Nat) (hsensors : s.sensors = []) :
    s.gives (.thermalReading es) (fun t => t.treadle = { s.treadle with
      temps := [], warm := false, pinTrip := false, level := 0, hotRun := 0, critRun := 0, coolRun := 0 } ∧ s.keeps t [.treadle]) := by
  have heq : thermalReading s es = { s with treadle := { s.treadle with
      temps := [], warm := false, pinTrip := false, level := 0, hotRun := 0, critRun := 0, coolRun := 0 } } := by
    rw [thermalReading, if_pos (List.isEmpty_iff.2 hsensors)]
  exact State.gives_of_finish (congrArg finish heq) ⟨rfl, State.keeps_settled (s.keeps_treadle _)⟩

-- ## The cap (R474)

theorem State.mem_onClusters {s : State} {c : Nat} : c ∈ s.onClusters ↔ c < 32 ∧ (s.island c).on = true := by
  simp [State.onClusters]

/-- An interval with pinned clocks. -/
theorem gives_capInterval_pinned {s : State} {watts p : Nat} (hp : p = min 4095 watts) (hpin : s.bit .tmpCapCtl 0 = true) :
    s.gives (.powerCapInterval watts) (fun t => t.treadle = (s.meteredPinned p).treadle ∧ s.keeps t [.treadle, .islands] ∧
      (∀ c, c ∉ s.onClusters → t.island c = s.island c) ∧ ∀ c ∈ s.onClusters, (t.island c).freq = s.pinFreq c) := by
  have hkeeps := (s.meteredPinned p).retune_keeps (fun c => (s.island c).on = true ∧ (s.island c).freq ≠ s.pinFreq c) s.pinFreq (List.range 32)
  have hisland := State.retune_island (fun c => (s.island c).on = true ∧ (s.island c).freq ≠ s.pinFreq c) s.pinFreq (List.range 32) List.nodup_range
    (s.meteredPinned p)
  refine State.gives_of_finish (congrArg finish (capInterval_pinned hp hpin)) ⟨hkeeps .treadle (by decide),
    State.keeps_settled (State.keeps_step (State.keeps_mono (s.keeps_treadle _) (by decide)) hkeeps), fun c hc => ?_, fun c hc => ?_⟩
  · have hnot : ¬ (c ∈ List.range 32 ∧ (s.island c).on = true ∧ (s.island c).freq ≠ s.pinFreq c) := fun h =>
      hc (State.mem_onClusters.2 ⟨List.mem_range.1 h.1, h.2.1⟩)
    exact (hisland c).trans (if_neg hnot)
  · obtain ⟨hlt, hon⟩ := State.mem_onClusters.1 hc
    rw [settle_island, hisland c]
    by_cases hfreq : (s.island c).freq = s.pinFreq c
    · rw [if_neg (fun h => h.2.2 hfreq)]
      exact hfreq
    · rw [if_pos ⟨List.mem_range.2 hlt, hon, hfreq⟩]

/-- What a change of clocks from the metered state leaves, whatever the condition. -/
theorem State.metered_retune (s : State) (p : Nat) (P : Nat → Prop) [DecidablePred P] (freq : Nat → Nat) {t : State} (ht : t = (s.metered p).retune P freq s.onClusters) :
    t.treadle = (s.metered p).treadle ∧ s.keeps t [.treadle, .islands] ∧ (∀ c, c ∉ s.onClusters → t.island c = s.island c) ∧
      ∀ c ∈ s.onClusters, t.island c = if P c then { s.island c with freq := freq c, relocking := true } else s.island c := by
  subst ht
  have hkeeps := (s.metered p).retune_keeps P freq s.onClusters
  have hisland := State.retune_island P freq s.onClusters s.onClusters_nodup (s.metered p)
  exact ⟨hkeeps .treadle (by decide), State.keeps_step (State.keeps_mono (s.keeps_treadle _) (by decide)) hkeeps,
    fun c hc => (hisland c).trans (if_neg fun h => hc h.1), fun c hc => (hisland c).trans (by simp only [hc, true_and]; rfl)⟩

/-- An interval with free clocks: above the cap or warm a step down from the highest clock, far below the cap one up from the lowest. -/
theorem capInterval_steps {s : State} {watts p hi lo : Nat} (hp : p = min 4095 watts) (hhi : hi = s.onClusters.foldl (fun m c => max m (s.fNow c)) 0)
    (hlo : lo = s.onClusters.foldl (fun m c => min m (s.fNow c)) 31) (hpin : s.bit .tmpCapCtl 0 = false) :
    (capInterval s watts).treadle = (s.metered p).treadle ∧ s.keeps (capInterval s watts) [.treadle, .islands] ∧
      (∀ c, c ∉ s.onClusters → (capInterval s watts).island c = s.island c) ∧ ∀ c ∈ s.onClusters, (capInterval s watts).island c =
        if (s.cap < p ∨ s.treadle.warm = true) ∧ s.fNow c = hi ∧ s.fMin c < s.fNow c then { s.island c with freq := s.fNow c - 1, relocking := true }
        else if s.treadle.warm = false ∧ p + 8 * s.fld .tmpCapCtl 16 8 < s.cap ∧ s.fNow c = lo ∧ s.fNow c < s.fMax c then
          { s.island c with freq := s.fNow c + 1, relocking := true }
        else s.island c := by
  have heq := capInterval_unpinned hp hhi hlo hpin
  by_cases hover : s.cap < p ∨ s.treadle.warm = true
  · have hno : ¬ (s.treadle.warm = false ∧ p + 8 * s.fld .tmpCapCtl 16 8 < s.cap) := by
      rintro ⟨hcold, hroom⟩
      exact hover.elim (by omega) (by simp [hcold])
    obtain ⟨htreadle, hkeeps, hoff, hon⟩ := s.metered_retune p _ _ (heq.trans (if_pos hover))
    refine ⟨htreadle, hkeeps, hoff, fun c hc => (hon c hc).trans ?_⟩
    simp only [hover, true_and, ← and_assoc, hno, false_and, if_false]
  · have hcold : s.treadle.warm = false := by simpa using fun h => hover (.inr h)
    by_cases hroom : p + 8 * s.fld .tmpCapCtl 16 8 < s.cap
    · obtain ⟨htreadle, hkeeps, hoff, hon⟩ := s.metered_retune p _ _ (heq.trans ((if_neg hover).trans (if_pos hroom)))
      refine ⟨htreadle, hkeeps, hoff, fun c hc => (hon c hc).trans ?_⟩
      rw [if_neg (c := _ ∧ s.fNow c = hi ∧ _) fun h => hover h.1]
      simp only [hcold, hroom, true_and]
    · rw [heq, if_neg hover, if_neg hroom]
      refine ⟨rfl, State.keeps_mono (s.keeps_treadle _) (by decide), fun _ _ => rfl, fun c _ => ?_⟩
      simp only [hover, false_and, if_false, hroom, and_false]
      rfl

-- ## The obligation

/-- Settles O55: the wakes of R469 and R530, the readings of R470 to R472, and the clocks of R474, each by the equation of its command. -/
theorem wakesHeatAndTheCap : Obligations.WakesHeatAndTheCap := by
  unfold Obligations.WakesHeatAndTheCap
  refine ⟨fun s c w port hc => ?_, fun s port b => ⟨fun h => ?_, ?_, ?_, ?_⟩, fun s es temps hot htemps hhot => ⟨fun hsensors => ?_, fun hsensors x hx => ?_⟩,
    fun s watts p hi lo cs hp hcs hhi hlo => ?_, fun s c hc => ?_⟩
  · have hexec : (w = 1 ∨ w = 2) ∧ exec c s = finish (s.wake w port) := by
      rcases hc with ⟨rfl, rfl, rfl⟩ | ⟨rfl, rfl, hdriving, hignoring⟩
      · exact ⟨.inl rfl, rfl⟩
      · exact ⟨.inr rfl, congrArg finish (if_neg (by simp [hdriving, hignoring]))⟩
    obtain ⟨hw, hexec⟩ := hexec
    refine ⟨fun hmv h => ?_, fun hmv hen hst hgood hready hphase hhold => ?_⟩
    · rw [hexec, State.wake_ignored hw hmv h]
      rfl
    · rw [State.wake_exits hw hmv hen hst hgood hready hphase hhold] at hexec
      exact State.gives_of_finish hexec ⟨s.startExit_treadle w port, State.keeps_settled (s.startExit_keeps w port)⟩
  · exact congrArg finish (if_pos (by simpa using h))
  · exact State.gives_of_finish rfl ⟨rfl, State.keeps_settled (s.keeps_treadle _)⟩
  · exact State.gives_of_finish rfl ⟨rfl, State.keeps_settled (s.keeps_treadle _)⟩
  · exact State.gives_of_finish rfl ⟨rfl, State.keeps_settled (s.keeps_treadle _)⟩
  · exact gives_thermalReading_unread es hsensors
  · subst hx
    exact ⟨fun hsame hcool hhold => gives_thermalReading_same htemps hhot hsensors hhold hsame hcool,
      fun hother hcool hhold hreact => gives_thermalReading_crossing htemps hhot hsensors hhold hother hcool hreact,
      fun hsame hreached hsecond hcrit hhold hstate hmv =>
        gives_thermalReading_hot htemps hhot hsensors hhold hsame hreached hsecond hcrit hstate hmv⟩
  · subst hcs
    cases hpin : s.bit .tmpCapCtl 0 with
    | false =>
      obtain ⟨htreadle, hkeeps, hoff, hon⟩ := capInterval_steps hp hhi hlo hpin
      exact State.gives_of_finish rfl ⟨congrArg Treadle.power htreadle, State.keeps_settled hkeeps, hoff, fun _ => ⟨htreadle, hon⟩, nofun⟩
    | true =>
      obtain ⟨t, hexec, htreadle, hkeeps, hoff, hon⟩ := gives_capInterval_pinned hp hpin
      exact ⟨t, hexec, congrArg Treadle.power htreadle, hkeeps, hoff, nofun, fun _ => hon⟩
  · refine State.gives_of_finish (congrArg finish (if_pos hc)) ⟨s.setIsland_island_same c _, fun i hi => ?_, State.keeps_settled (s.setIsland_keeps c _)⟩
    exact (s.setIsland_island c i _).trans (if_neg hi)

end Sys2Proof.Machine
end

section
/-!
PROOFS. The pages of a partition, and its looms at enable: what they leave as it is, and that looms made fresh stay so until the enable ends (O14).
-/

-- Proofs are elaborated one after another: side by side, the threads of the whole text outgrow the memory that the check allows.
set_option Elab.async false

namespace Sys2Proof.Machine

-- ## Pages of a partition (R198, R199, R200)

theorem State.setPart_part_ne (s : State) (x : Part) {p k : Nat} (h : k ≠ p) : (s.setPart p x).part k = s.part k :=
  (s.setPart_part p k x).trans (if_neg h)

theorem State.writePartPage_keeps (s : State) (p : Nat) : s.keeps (s.writePartPage p) [.mem, .ports, .parts] := by
  unfold State.writePartPage
  split
  · exact s.keeps_refl _
  · exact State.keeps_step (State.keeps_mono (s.setPart_keeps _ _) (by decide)) (State.putPage_keeps _ _ _ _ _)

theorem State.writePartPage_part_ne (s : State) {p k : Nat} (h : k ≠ p) : (s.writePartPage p).part k = s.part k := by
  unfold State.writePartPage
  split
  · rfl
  · exact (State.part_of_keeps (State.putPage_keeps _ _ _ _ _) (by decide) k).trans (s.setPart_part_ne _ h)

theorem State.writePartPage_part (s : State) (p : Nat) : ∃ g, (s.writePartPage p).part p = { s.part p with genPage := g } := by
  unfold State.writePartPage
  split
  · exact ⟨_, rfl⟩
  · exact ⟨_, (State.part_of_keeps (State.putPage_keeps _ _ _ _ _) (by decide) p).trans (s.setPart_part_same p _)⟩

theorem State.writeJobPage_part (s : State) (p : Nat) : ∃ g, (s.writeJobPage p).part p = { s.part p with genJob := g } := by
  unfold State.writeJobPage
  split
  · exact ⟨_, rfl⟩
  · exact ⟨_, (State.part_of_keeps (State.putPage_keeps _ _ _ _ _) (by decide) p).trans (s.setPart_part_same p _)⟩

/-- Both pages advance their GENs in the partition's record, and nothing else there. -/
theorem State.writePages_part (s : State) (p : Nat) : ∃ g j, (s.writePages p).part p = { s.part p with genPage := g, genJob := j } := by
  obtain ⟨g, hg⟩ := s.writePartPage_part p
  obtain ⟨j, hj⟩ := (s.writePartPage p).writeJobPage_part p
  exact ⟨g, j, by rw [State.writePages, hj, hg]⟩

theorem State.writePages_part_ne (s : State) {p k : Nat} (h : k ≠ p) : (s.writePages p).part k = s.part k := (s.writePages_keepsWork p).2.2 k h

theorem State.writePages_keeps (s : State) (p : Nat) : s.keeps (s.writePages p) [.mem, .ports, .parts] := (s.writePages_keepsWork p).1

-- ## Writes that reach host memory alone

/-- Looms are as before, and no byte below the host windows that was zero is another. -/
def State.keepsZeros (s t : State) : Prop := t.looms = s.looms ∧ ∀ k, k < spaceKey 4 0 → s.rd k = 0 → t.rd k = 0

theorem State.keepsZeros_refl (s : State) : s.keepsZeros s := ⟨rfl, fun _ _ h => h⟩

theorem State.keepsZeros_trans {s t u : State} (h1 : s.keepsZeros t) (h2 : t.keepsZeros u) : s.keepsZeros u :=
  ⟨h2.1.trans h1.1, fun k hk h => h2.2 k hk (h1.2 k hk h)⟩

theorem State.keepsZeros_of_keeps {s t : State} {fs : List Field} (h : s.keeps t fs) (hm : Field.mem ∉ fs := by decide)
    (hl : Field.looms ∉ fs := by decide) : s.keepsZeros t :=
  ⟨h .looms hl, fun k _ h0 => (h .mem hm k).trans h0⟩

theorem State.keepsZeros_fold {β : Type} {f : State → β → State} (hf : ∀ (s : State) (b : β), s.keepsZeros (f s b)) (bs : List β) :
    ∀ s : State, s.keepsZeros (bs.foldl f s) := by
  induction bs with
  | nil => exact State.keepsZeros_refl
  | cons b bs ih => exact fun s => State.keepsZeros_trans (hf s b) (ih _)

theorem State.zero_keepsZeros (s : State) (k n : Nat) : s.keepsZeros (s.zero k n) := by
  refine ⟨rfl, fun j _ h => ?_⟩
  rw [State.zero_rd]
  split
  · rfl
  · exact h

theorem State.zeroData_keepsZeros (s : State) (sp o n : Nat) : s.keepsZeros (s.zeroData sp o n) :=
  State.keepsZeros_trans (s.zero_keepsZeros _ _) (State.zero_keepsZeros _ _ _)

theorem State.wrBytes_keepsZeros (s : State) {k : Nat} (bs : List Byte) (hk : spaceKey 4 0 ≤ k) : s.keepsZeros (s.wrBytes k bs) :=
  ⟨rfl, fun j hj h => (s.wrBytes_rd_outside k bs (.inl (by omega))).trans h⟩

theorem State.hostPut_keepsZeros (s : State) (q f : Nat) {k : Nat} (bs : List Byte) (hk : spaceKey 4 0 ≤ k) : s.keepsZeros (s.hostPut q f k bs) := by
  simp only [State.hostPut]
  split
  · exact State.keepsZeros_of_keeps (s.setPort_keeps _ _)
  · split
    · exact State.keepsZeros_of_keeps (s.setPort_keeps _ _)
    · exact s.wrBytes_keepsZeros bs hk

/-- The pages of a port lie in its host window. -/
theorem State.pageKey_host {s : State} {q a k : Nat} (h : s.pageKey q a = some k) : spaceKey 4 0 ≤ k := by
  unfold State.pageKey at h
  split at h
  · obtain rfl := Option.some.inj h
    simp only [spaceKey]
    omega
  · exact nomatch h

theorem State.putPage_keepsZeros (s : State) (q f a : Nat) (bs : List Byte) : s.keepsZeros (s.putPage q f a bs) := by
  unfold State.putPage
  split
  · exact s.keepsZeros_refl
  · next k hk =>
    have hhost := State.pageKey_host hk
    split
    · exact s.hostPut_keepsZeros q f _ hhost
    · exact State.keepsZeros_trans (s.zero_keepsZeros _ _) (State.wrBytes_keepsZeros _ _ hhost)

theorem State.putAdminPage_keepsZeros (s : State) (a : Nat) (bs : List Byte) : s.keepsZeros (s.putAdminPage a bs) := by
  unfold State.putAdminPage
  split
  · exact s.putPage_keepsZeros _ _ _ _
  · exact s.keepsZeros_refl

theorem State.writePages_keepsZeros (s : State) (p : Nat) : s.keepsZeros (s.writePages p) := by
  rw [State.writePages]
  refine State.keepsZeros_trans (t := s.writePartPage p) ?_ ?_
  · unfold State.writePartPage
    split
    · exact s.keepsZeros_refl
    · exact State.keepsZeros_trans (State.keepsZeros_of_keeps (s.setPart_keeps _ _)) (State.putPage_keepsZeros _ _ _ _ _)
  · unfold State.writeJobPage
    split
    · exact State.keepsZeros_refl _
    · exact State.keepsZeros_trans (State.keepsZeros_of_keeps (State.setPart_keeps _ _ _)) (State.putPage_keepsZeros _ _ _ _ _)

theorem State.writeRetirePage_keepsZeros (s : State) : s.keepsZeros s.writeRetirePage := by
  have hgen : s.keepsZeros { s with genRetire := (s.genRetire + 2) % 2 ^ 64 } := ⟨rfl, fun _ _ h => h⟩
  exact State.keepsZeros_trans hgen (State.putAdminPage_keepsZeros _ _ _)

/-- A guest that starts from zero gets a cleared slot. -/
theorem State.placeGuest_keepsZeros (s : State) (p l : Nat) : s.keepsZeros (s.placeGuest p l false) := by
  unfold State.placeGuest
  simp only [Bool.false_and, Bool.false_eq_true, if_false]
  split
  · exact s.keepsZeros_refl
  · refine State.keepsZeros_trans ?_ (State.writeRetirePage_keepsZeros _)
    split
    · exact State.keepsZeros_trans (s.zero_keepsZeros _ _) (State.keepsZeros_of_keeps (State.keeps_guests _ _ _))
    · exact State.keepsZeros_of_keeps (s.keeps_guests _ _)

-- ## Fresh looms (R143, R147, R208)

/-- A loom's own accumulators hold zero with every row ready, and it has no image. -/
def State.isFresh (s : State) (l : Nat) : Prop :=
  (∀ a, a < 0x80000 → s.rd (spaceKey 2 (l * loomBytes) + accBase + a) = 0) ∧ (s.loom l).notReady = [] ∧ (s.loom l).images = []

theorem State.loomKey_of_noGuests {s : State} (h : s.guests = []) (l : Nat) : s.loomKey l = spaceKey 2 (l * loomBytes) := by
  simp [State.loomKey, h]

theorem State.freshLoom_keeps (s : State) (l : Nat) : s.keeps (s.freshLoom l) [.mem, .looms] :=
  State.keeps_step (s.clearAcc_keeps l) (State.setLoom_keeps _ _ _)

theorem State.freshLoom_rd (s : State) (l k : Nat) :
    (s.freshLoom l).rd k = if s.loomKey l + accBase ≤ k ∧ k < s.loomKey l + accBase + 0x80000 then 0 else s.rd k := s.zero_rd _ _ _

theorem State.freshLoom_loom_ne (s : State) {l m : Nat} (h : m ≠ l) : (s.freshLoom l).loom m = s.loom m := by
  simp [State.freshLoom, State.clearAcc, State.setLoom_loom, h]

theorem State.freshLoom_isFresh_self {s : State} (hg : s.guests = []) (l : Nat) : (s.freshLoom l).isFresh l := by
  refine ⟨fun a ha => ?_, ?_, ?_⟩
  · rw [State.freshLoom_rd, State.loomKey_of_noGuests hg, if_pos (by omega)]
  · simp [State.freshLoom, State.clearAcc]
  · simp [State.freshLoom]

theorem State.freshLoom_isFresh {s : State} {m : Nat} (l : Nat) (hg : s.guests = []) (hm : s.isFresh m) : (s.freshLoom l).isFresh m := by
  by_cases hml : m = l
  · exact hml ▸ State.freshLoom_isFresh_self hg l
  · obtain ⟨hacc, hready, himages⟩ := hm
    rw [State.isFresh, State.freshLoom_loom_ne s hml]
    refine ⟨fun a ha => ?_, hready, himages⟩
    rw [State.freshLoom_rd]
    split
    · rfl
    · exact hacc a ha

/-- Every loom of a list made fresh in turn is fresh at the end, as is each that was before. -/
theorem State.foldl_freshLoom_isFresh (ls : List Nat) : ∀ s : State, s.guests = [] → ∀ l, l ∈ ls ∨ s.isFresh l → (ls.foldl State.freshLoom s).isFresh l := by
  induction ls with
  | nil => exact fun s _ l hl => hl.resolve_left (List.not_mem_nil)
  | cons m ls ih =>
    intro s hg l hl
    have hguests : (s.freshLoom m).guests = [] := hg
    refine ih _ hguests l ?_
    rcases hl with hl | hl
    · rcases List.mem_cons.1 hl with rfl | hl
      · exact .inr (State.freshLoom_isFresh_self hg l)
      · exact .inl hl
    · exact .inr (State.freshLoom_isFresh m hg hl)

/-- Zeros that stay keep a loom of the module fresh. -/
theorem State.isFresh_of_keepsZeros {s t : State} {l : Nat} (h : s.keepsZeros t) (hl : l < 256) (hf : s.isFresh l) : t.isFresh l := by
  obtain ⟨hlooms, hzeros⟩ := h
  obtain ⟨hacc, hready, himages⟩ := hf
  have hloom : t.loom l = s.loom l := congrArg (fun ls => tget ({} : Loom) ls l) hlooms
  rw [State.isFresh, hloom]
  refine ⟨fun a ha => hzeros _ ?_ (hacc a ha), hready, himages⟩
  simp only [spaceKey, loomBytes, accBase]
  omega

/-- The looms of a partition's clusters, as an enable goes through them. -/
def State.partLooms (s : State) (p : Nat) : List Nat := (s.clusters p).flatMap (fun c => (List.range 8).map (8 * c + ·))

theorem State.mem_partLooms {s : State} {p c j : Nat} (hc : c ∈ s.clusters p) (hj : j < 8) : 8 * c + j ∈ s.partLooms p :=
  List.mem_flatMap.2 ⟨c, hc, List.mem_map.2 ⟨j, List.mem_range.2 hj, rfl⟩⟩

theorem State.clusters_lt {s : State} {p c : Nat} (h : c ∈ s.clusters p) : c < 32 := by
  simp only [State.clusters, bitList, List.mem_filter, List.mem_range] at h
  exact h.1

end Sys2Proof.Machine
end

section
/-!
PROOFS. What the commands on the life of a partition do to it, and what of the state they leave as it is (O14).
-/

-- Proofs are elaborated one after another: side by side, the threads of the whole text outgrow the memory that the check allows.
set_option Elab.async false

namespace Sys2Proof.Machine

-- ## Configuration and owner (R493, R516, R518)

theorem partitionConfigure_taken {s : State} {src : Src} {p v : Nat} (hp : p < 16) (hadmin : s.fromAdmin src = true) (hidle : (s.part p).st.idle = true)
    (hfree : s.resourceFree p (.partClusters p) (v % 2 ^ 32) = true) (hport : s.portPart p ≠ 0) (hv : v % 2 ^ 32 ≠ 0) :
    partitionConfigure s src p v = (s.setReg (.partClusters p) (v % 2 ^ 32)).setPart p { s.part p with st := .configured } := by
  simp only [partitionConfigure, Nat.not_le.2 hp, hadmin, hidle, hfree, hport, hv, Bool.not_true, Bool.false_eq_true, or_self, and_false, if_false]

theorem partitionConfigure_refused {s : State} {src : Src} {p : Nat} (v : Nat) (hp : p < 16) (hadmin : s.fromAdmin src = true)
    (hbusy : (s.part p).st.idle = false) : partitionConfigure s src p v = s.refuseCfg p := by
  simp only [partitionConfigure, Nat.not_le.2 hp, hadmin, hbusy, Bool.not_true, Bool.not_false, Bool.false_eq_true, or_self, true_or, if_false, if_true]

/-- A partition without an owner has no entries to move. -/
theorem ownerChange_unowned {s : State} {src : Src} {p v : Nat} (hp : p < 16) (hadmin : s.fromAdmin src = true) (hidle : (s.part p).st.idle = true)
    (hallowed : s.portAllowed p (field (v % 65536) 6 1) = true) (hnone : s.owner p = none) : ownerChange s src p v = s.setReg (.partOwner p) (v % 65536) := by
  simp only [ownerChange, Nat.not_le.2 hp, hadmin, hidle, hallowed, hnone, Bool.not_true, Bool.and_false, Bool.false_and, Bool.true_or, Bool.or_self,
    Bool.false_eq_true, or_self, if_false]

-- ## Writes of EN (R477, R516)

theorem Part.en_of_noOps {x : Part} (h : x.ops = []) : x.en = (!x.st.idle && x.st != .disabling) := by simp [Part.en, h]

theorem partitionEn_configured {s : State} {src : Src} {p : Nat} (hp : p < 16) (hwriter : s.partWriter src p = true) (hst : (s.part p).st = .configured)
    (hops : (s.part p).ops = []) : partitionEn s src p true = s.runEnable p := by
  have hen : (s.part p).en = false := by rw [Part.en_of_noOps hops, hst]; rfl
  simp [partitionEn, State.partEnable, Nat.not_le.2 hp, hwriter, hst, hen]

theorem partitionEn_active {s : State} {src : Src} {p : Nat} (hp : p < 16) (hwriter : s.partWriter src p = true) (hst : (s.part p).st = .active)
    (hops : (s.part p).ops = []) : partitionEn s src p false = s.runDisable p := by
  have hen : (s.part p).en = true := by rw [Part.en_of_noOps hops, hst]; rfl
  simp [partitionEn, State.partDisable, Nat.not_le.2 hp, hwriter, hst, hen, PartState.busy]

theorem State.runEnable_starts {s : State} {p : Nat} (hst : (s.part p).st = .configured) (hfail : s.enableFail p = 0) (hways : s.ways p ≠ 0) :
    s.runEnable p = s.startEnabling p := by
  simp [State.runEnable, hst, hfail, hways]

theorem State.runEnable_fails {s : State} {p : Nat} (hst : (s.part p).st = .configured) (h : s.enableFail p ≠ 0 ∨ s.ways p = 0) :
    ∃ fl, s.runEnable p = (s.setPart p { s.part p with fail := s.enableFail p, flipFailed := fl }).writePartPage p := by
  have hnot : ¬ (s.enableFail p = 0 ∧ s.ways p ≠ 0) := fun hok => h.elim (fun hf => hf hok.1) hok.2
  exact ⟨_, by simp only [State.runEnable, hst, ne_eq, not_true, if_false, if_neg hnot]; rfl⟩

-- ## ENABLING begins (R143, R147, R208, R516)

/-- What an enable does once the looms are fresh: the pool directory and the flip tables are cleared, retired looms become guests. -/
def State.afterFresh (s : State) (p : Nat) (u : State) : State :=
  let u1 := if s.poolBlocks p = 0 then u else u.zeroData 0 (s.poolBase p) 0x200000
  let u2 := ((List.range 8).filterMap (s.flip p)).foldl (fun u f => u.zeroData f.space (f.shadow + 65536 * f.units) (flipTableBytes f)) u1
  (s.partLooms p).foldl (fun u l => if u.isRetired 0 l then u.placeGuest p l false else u) u2

theorem State.afterFresh_keepsZeros (s : State) (p : Nat) (u : State) : u.keepsZeros (s.afterFresh p u) := by
  have hpool : u.keepsZeros (if s.poolBlocks p = 0 then u else u.zeroData 0 (s.poolBase p) 0x200000) := by
    split
    · exact u.keepsZeros_refl
    · exact u.zeroData_keepsZeros _ _ _
  refine State.keepsZeros_trans hpool (State.keepsZeros_trans (State.keepsZeros_fold (fun u _ => u.zeroData_keepsZeros _ _ _) _ _)
    (State.keepsZeros_fold (fun u l => ?_) _ _))
  split
  · exact u.placeGuest_keepsZeros p l
  · exact u.keepsZeros_refl

theorem State.afterFresh_keeps (s : State) (p : Nat) (u : State) : u.keeps (s.afterFresh p u) [.mem, .ports, .genRetire, .guests, .vacant] := by
  have hzero (u : State) (sp o n : Nat) : u.keeps (u.zeroData sp o n) [.mem] := State.keeps_trans (u.zero_keeps _ _) (State.zero_keeps _ _ _)
  have hpool : u.keeps (if s.poolBlocks p = 0 then u else u.zeroData 0 (s.poolBase p) 0x200000) [.mem] := by
    split
    · exact u.keeps_refl _
    · exact hzero _ _ _ _
  refine State.keeps_trans (State.keeps_mono (State.keeps_trans hpool (State.keeps_fold (fun u _ => hzero _ _ _ _) _ _)) (by decide))
    (State.keeps_fold (fun u l => ?_) _ _)
  split
  · exact u.placeGuest_keeps p l false
  · exact u.keeps_refl _

/-- An enable that starts begins the record of the partition anew, makes its looms fresh one after another, and goes on from there. -/
theorem State.startEnabling_eq (s : State) (p : Nat) : ∃ x : Part, x.st = .enabling ∧ x.fail = 0 ∧
    s.startEnabling p = (s.afterFresh p ((s.partLooms p).foldl State.freshLoom (s.setPart p x))).writePages p := by
  have hlooms (u : State) : (s.partLooms p).foldl State.freshLoom u =
      (s.clusters p).foldl (fun u c => (List.range 8).foldl (fun u j => u.freshLoom (8 * c + j)) u) u := by
    simp only [State.partLooms, List.foldl_flatMap, List.foldl_map]
  simp only [hlooms]
  exact ⟨_, rfl, rfl, rfl⟩

/-- An enable that passes every check and has a way. -/
theorem gives_partitionEnable_starts {s : State} {src : Src} {p : Nat} (hp : p < 16) (harr : s.arrives src = true) (hwriter : s.partWriter src p = true)
    (hst : (s.part p).st = .configured) (hops : (s.part p).ops = []) (hfail : s.enableFail p = 0) (hways : s.ways p ≠ 0) (hguests : s.guests = []) :
    s.gives (.partitionEnable src p) (fun t => (t.part p).st = .enabling ∧ (t.part p).fail = 0 ∧ (∀ l ∈ s.partLooms p, l < 256 → t.isFresh l) ∧
      (∀ p', p' ≠ p → t.part p' = s.part p') ∧ s.keeps t [.mem, .ports, .parts, .looms, .guests, .vacant, .genRetire]) := by
  obtain ⟨x, hx, hxfail, heq⟩ := s.startEnabling_eq p
  have hexec : exec (.partitionEnable src p) s = finish (s.startEnabling p) := congrArg finish
    ((State.via_of_arrives _ harr).trans ((partitionEn_configured hp hwriter hst hops).trans (State.runEnable_starts hst hfail hways)))
  rw [heq] at hexec
  have hfresh := State.foldl_freshLoom_isFresh (s.partLooms p) (s.setPart p x) hguests
  have hlooms := State.keeps_fold (fun u l => u.freshLoom_keeps l) (s.setPart p x) (s.partLooms p)
  generalize hu : (s.partLooms p).foldl State.freshLoom (s.setPart p x) = u at *
  have hafter := s.afterFresh_keeps p u
  obtain ⟨g, j, hpart⟩ := (s.afterFresh p u).writePages_part p
  have hparts (k : Nat) : (s.afterFresh p u).part k = (s.setPart p x).part k :=
    (State.part_of_keeps hafter (by decide) k).trans (State.part_of_keeps hlooms (by decide) k)
  rw [hparts, State.setPart_part_same] at hpart
  refine State.gives_of_finish hexec ⟨?_, ?_, fun l hl hlt => ?_, fun k hk => ?_, State.keeps_settled ?_⟩
  · rw [settle_part, hpart, ← hx]
  · rw [settle_part, hpart, ← hxfail]
  · have hzeros := State.keepsZeros_trans (s.afterFresh_keepsZeros p u)
      (State.keepsZeros_trans (State.writePages_keepsZeros _ p) (State.keepsZeros_of_keeps (State.keeps_settle _ [])))
    exact State.isFresh_of_keepsZeros hzeros hlt (hfresh l (.inl hl))
  · rw [settle_part, State.writePages_part_ne _ hk, hparts, State.setPart_part_ne _ _ hk]
  · exact State.keeps_step (State.keeps_step (State.keeps_step (State.keeps_mono (s.setPart_keeps p x) (by decide)) hlooms) hafter)
      (State.writePages_keeps _ p)

/-- An enable that fails a check, or finds no way. -/
theorem gives_partitionEnable_fails {s : State} {src : Src} {p : Nat} (hp : p < 16) (harr : s.arrives src = true) (hwriter : s.partWriter src p = true)
    (hst : (s.part p).st = .configured) (hops : (s.part p).ops = []) (h : s.enableFail p ≠ 0 ∨ s.ways p = 0) :
    s.gives (.partitionEnable src p) (fun t => (t.part p).st = .configured ∧ (t.part p).fail = s.enableFail p ∧
      (∀ p', p' ≠ p → t.part p' = s.part p') ∧ s.keeps t [.mem, .ports, .parts]) := by
  obtain ⟨fl, heq⟩ := State.runEnable_fails hst h
  have hexec : exec (.partitionEnable src p) s = finish (s.runEnable p) :=
    congrArg finish ((State.via_of_arrives _ harr).trans (partitionEn_configured hp hwriter hst hops))
  rw [heq] at hexec
  obtain ⟨g, hpart⟩ := (s.setPart p { s.part p with fail := s.enableFail p, flipFailed := fl }).writePartPage_part p
  rw [State.setPart_part_same] at hpart
  refine State.gives_of_finish hexec ⟨?_, ?_, fun k hk => ?_, State.keeps_settled ?_⟩
  · rw [settle_part, hpart, ← hst]
  · rw [settle_part, hpart]
  · rw [settle_part, State.writePartPage_part_ne _ hk, State.setPart_part_ne _ _ hk]
  · exact State.keeps_step (State.keeps_mono (s.setPart_keeps p _) (by decide)) (State.writePartPage_keeps _ p)

-- ## ENABLING and DISABLING end (R220)

/-- A partition in its next state, its pages written. -/
def State.entersState (s : State) (p : Nat) (st : PartState) : State := (s.setPart p { s.part p with st := st }).writePages p

theorem State.entersState_part (s : State) (p : Nat) (st : PartState) :
    ∃ g j, (s.entersState p st).part p = { s.part p with st := st, genPage := g, genJob := j } := by
  obtain ⟨g, j, hpart⟩ := (s.setPart p { s.part p with st := st }).writePages_part p
  exact ⟨g, j, hpart.trans (by rw [State.setPart_part_same])⟩

theorem State.entersState_st (s : State) (p : Nat) (st : PartState) : ((s.entersState p st).part p).st = st := by
  obtain ⟨g, j, hpart⟩ := s.entersState_part p st
  rw [hpart]

theorem State.entersState_ops (s : State) (p : Nat) (st : PartState) : ((s.entersState p st).part p).ops = (s.part p).ops := by
  obtain ⟨g, j, hpart⟩ := s.entersState_part p st
  rw [hpart]

theorem State.entersState_part_ne (s : State) (st : PartState) {p k : Nat} (h : k ≠ p) : (s.entersState p st).part k = s.part k :=
  (State.writePages_part_ne _ h).trans (s.setPart_part_ne _ h)

theorem State.entersState_keeps (s : State) (p : Nat) (st : PartState) : s.keeps (s.entersState p st) [.mem, .ports, .parts] :=
  State.keeps_step (State.keeps_mono (s.setPart_keeps p _) (by decide)) (State.writePages_keeps _ p)

theorem State.partNext_of_noOps {s : State} {p : Nat} (h : (s.part p).ops = []) : s.partNext p = s := by simp [State.partNext, State.partRun, h]

theorem State.actHold_of_notHolding {s : State} (h : s.boot.phase ≠ .holding) : s.actHold = s := if_pos h

/-- With nothing kept for the partition and no live activation that holds, a new state is all that comes. -/
theorem State.entersState_settles {s : State} {p : Nat} (st : PartState) (hops : (s.part p).ops = []) (hphase : s.boot.phase ≠ .holding) :
    ((s.entersState p st).partNext p).actHold = s.entersState p st := by
  rw [State.partNext_of_noOps ((s.entersState_ops p st).trans hops)]
  have hboot : (s.entersState p st).boot = s.boot := s.entersState_keeps p st .boot (by decide)
  exact State.actHold_of_notHolding (hboot ▸ hphase)

theorem State.enablingEnd_eq {s : State} {p : Nat} (hst : (s.part p).st = .enabling) (hops : (s.part p).ops = []) (hphase : s.boot.phase ≠ .holding) :
    s.enablingEnd p = s.entersState p .active := (if_neg (by simp [hst])).trans (State.entersState_settles .active hops hphase)

theorem State.disablingEnd_eq {s : State} {p : Nat} (hst : (s.part p).st = .disabling) (hops : (s.part p).ops = []) (hphase : s.boot.phase ≠ .holding)
    (hchanges : ∀ c ∈ s.memCtl.changes, c.off ≠ (Reg.partCtl p).offset) : s.disablingEnd p = s.entersState p .configured :=
  (if_neg (by simpa [hst] using hchanges)).trans (State.entersState_settles .configured hops hphase)

theorem State.flrEnd_keeps (s : State) : s.keeps s.flrEnd [.funcs] := by
  intro f hf
  cases f <;> simp_all [Field.same, State.flrEnd, State.rd]

-- ## DISABLING begins (R220, R238)

theorem State.stopNodes_keeps (s : State) (p : Nat) : s.keeps (s.stopNodes p) [.drafts, .looms] :=
  State.keeps_step (State.keeps_mono (s.keeps_drafts _) (by decide)) (State.keeps_looms _ _)

theorem State.flushWays_keeps (s : State) (p : Nat) : s.keeps (s.flushWays p) [.memCtl] := by
  unfold State.flushWays
  split
  · exact s.keeps_memCtl _
  · exact s.keeps_refl _

theorem State.dropGuests_keeps (s : State) (p : Nat) : s.keeps (s.dropGuests p) [.mem, .ports, .genRetire, .guests, .vacant] := by
  unfold State.dropGuests
  dsimp only
  split
  · exact s.keeps_refl _
  · have hback := State.keeps_fold (fun s g => s.exchange_keeps g) s ((s.guests.filter (fun g => g.part == p)).filter (·.resident))
    exact State.keeps_step (State.keeps_mono (State.keeps_step hback (State.keeps_guests _ _ _)) (by decide)) (State.writeRetirePage_keeps _)

/-- The state in which the entries of a partition whose work is dropped complete: its nodes are stopped and its drafts have left. -/
def State.draftsDropped (s : State) (p : Nat) : State :=
  let s1 := (s.drafts.filter (fun d => d.part == p)).foldl State.freeDraft (s.stopNodes p)
  { s1 with drafts := s1.drafts.filter (fun d => d.part != p) }

theorem State.draftsDropped_keeps (s : State) (p : Nat) : s.keeps (s.draftsDropped p) [.mem, .drafts, .looms] :=
  State.keeps_step (State.keeps_step (State.keeps_mono (s.stopNodes_keeps p) (by decide)) (State.keeps_fold (fun s d => s.freeDraft_keeps d) _ _))
    (State.keeps_drafts _ _)

theorem State.draftsDropped_drafts {s : State} {p : Nat} {d : Draft} (h : d ∈ (s.draftsDropped p).drafts) : d.part ≠ p :=
  bne_iff_ne.1 (List.mem_filter.1 h).2

/-- Dropping the work of a partition completes its entries, each with a status and a result. -/
theorem State.dropWork_eq (s : State) (p status : Nat) : ∃ st : Entry × Nat → Nat, s.dropWork p status =
    ((s.entries.filter (fun e => e.part == p)).map (fun e => (e, s.resultNow e))).foldl (fun s e => s.complete e.1.acc (st e) e.2) (s.draftsDropped p) :=
  ⟨_, rfl⟩

-- ## Entries that complete in turn (R184)

/-- Records of one entry agree on whether it waits in its engine. -/
def State.parkedAlike (s : State) : Prop := ∀ x ∈ s.entries, ∀ y ∈ s.entries, x.acc = y.acc → x.parked.isSome = y.parked.isSome

/-- Of the entries that stay when one leaves, only what they wait for changes. -/
theorem State.leave_entries {s : State} {e x : Entry} {st pick res : Nat} (h : x ∈ (s.leave e st pick res).entries) :
    ∃ y ∈ s.entries, y.acc ≠ e.acc ∧ y.acc = x.acc ∧ y.bytes = x.bytes ∧ x.parked = y.parked := by
  obtain ⟨y, hy, rfl⟩ := List.mem_map.1 h
  obtain ⟨hmem, hne⟩ := List.mem_filter.1 hy
  refine ⟨y, hmem, bne_iff_ne.1 hne, ?_⟩
  split
  · exact ⟨rfl, rfl, rfl⟩
  · exact ⟨rfl, rfl, rfl⟩

/-- After a completion the entry is outstanding no more or waits in its engine; every other is parked as it was. -/
theorem State.completeWith_entries {s : State} (hs : s.parkedAlike) (a st pick res : Nat) : ∀ x ∈ (s.completeWith a st pick res).entries, ∃ y ∈ s.entries,
    y.acc = x.acc ∧ y.bytes = x.bytes ∧ (if x.acc = a then x.parked.isSome = true else x.parked = y.parked) := by
  intro x hx
  unfold State.completeWith at hx
  split at hx
  · next hnone =>
    have hne : x.acc ≠ a := by simpa using List.find?_eq_none.1 hnone x hx
    exact ⟨x, hx, rfl, rfl, by rw [if_neg hne]⟩
  · next e he =>
    have hacc := State.entry_acc he
    have hmem := List.mem_of_find?_eq_some he
    split at hx
    · next hparked =>
      refine ⟨x, hx, rfl, rfl, ?_⟩
      split
      · next hxa => exact (hs x hx e hmem (hxa.trans hacc.symm)).trans hparked
      · rfl
    · split at hx
      · obtain ⟨y, hy, rfl⟩ := List.mem_map.1 hx
        refine ⟨y, hy, ?_⟩
        by_cases hya : y.acc = a
        · simp [hya]
        · simp [hya]
      · obtain ⟨y, hy, hne, hyacc, hbytes, hparked⟩ := State.leave_entries hx
        exact ⟨y, hy, hyacc, hbytes, by rwa [if_neg (hyacc ▸ hacc ▸ hne)]⟩

theorem State.complete_entries {s : State} (hs : s.parkedAlike) (a st res : Nat) : ∀ x ∈ (s.complete a st res).entries, ∃ y ∈ s.entries,
    y.acc = x.acc ∧ y.bytes = x.bytes ∧ (if x.acc = a then x.parked.isSome = true else x.parked = y.parked) := by
  unfold State.complete
  split
  · next hnone =>
    intro x hx
    have hne : x.acc ≠ a := by simpa using List.find?_eq_none.1 hnone x hx
    exact ⟨x, hx, rfl, rfl, by rw [if_neg hne]⟩
  · exact State.completeWith_entries hs _ _ _ _

theorem State.complete_parkedAlike {s : State} (hs : s.parkedAlike) (a st res : Nat) : (s.complete a st res).parkedAlike := by
  intro x hx y hy hxy
  obtain ⟨x', hx', hxacc, -, hxp⟩ := State.complete_entries hs a st res x hx
  obtain ⟨y', hy', hyacc, -, hyp⟩ := State.complete_entries hs a st res y hy
  rw [← hxy] at hyp
  split at hxp
  · next hxa => rw [hxp, (if_pos hxa).mp hyp]
  · next hxa => rw [hxp, (if_neg hxa).mp hyp, hs x' hx' y' hy' (by rw [hxacc, hxy, hyacc])]

/-- After completions in turn, every entry that is still outstanding waits in its engine if it was named or waited there before. -/
theorem State.foldl_complete_entries {β : Type} (acc st res : β → Nat) (bs : List β) : ∀ s : State, s.parkedAlike →
    ∀ x ∈ (bs.foldl (fun s b => s.complete (acc b) (st b) (res b)) s).entries, ∃ y ∈ s.entries,
      y.acc = x.acc ∧ y.bytes = x.bytes ∧ (x.acc ∈ bs.map acc ∨ y.parked.isSome = true → x.parked.isSome = true) := by
  induction bs with
  | nil => exact fun s _ x hx => ⟨x, hx, rfl, rfl, fun h => h.resolve_left List.not_mem_nil⟩
  | cons b bs ih =>
    intro s hs x hx
    obtain ⟨z, hz, hzacc, hzbytes, hzx⟩ := ih _ (State.complete_parkedAlike hs _ _ _) x hx
    obtain ⟨y, hy, hyacc, hybytes, hyz⟩ := State.complete_entries hs _ _ _ z hz
    refine ⟨y, hy, hyacc.trans hzacc, hybytes.trans hzbytes, fun h => hzx ?_⟩
    by_cases hza : z.acc = acc b
    · exact .inr ((if_pos hza).mp hyz)
    · rw [if_neg hza] at hyz
      rw [hyz]
      refine h.imp_left fun hmem => ?_
      exact (List.mem_cons.1 hmem).resolve_left (hzacc ▸ hza)

theorem State.dropWork_keeps (s : State) (p st : Nat) : s.keeps (s.dropWork p st) [.mem, .rings, .entries, .drafts, .looms] := by
  obtain ⟨status, heq⟩ := s.dropWork_eq p st
  rw [heq]
  exact State.keeps_step (State.keeps_mono (s.draftsDropped_keeps p) (by decide)) (State.keeps_fold (fun s _ => s.complete_keeps _ _ _) _ _)

theorem State.dropWork_drafts {s : State} {p st : Nat} {d : Draft} (h : d ∈ (s.dropWork p st).drafts) : d.part ≠ p := by
  obtain ⟨status, heq⟩ := s.dropWork_eq p st
  have hdrafts : (s.dropWork p st).drafts = (s.draftsDropped p).drafts :=
    heq ▸ State.keeps_fold (fun s _ => s.complete_keeps _ _ _) (s.draftsDropped p) _ .drafts (by decide)
  exact State.draftsDropped_drafts (hdrafts ▸ h)

/-- Where no entry waits in its engine, dropping the work of a partition leaves of its entries only such as then wait there. -/
theorem State.dropWork_entries {s : State} {p st : Nat} {x : Entry} (hs : ∀ e ∈ s.entries, e.parked = none) (h : x ∈ (s.dropWork p st).entries)
    (hx : x.part = p) : x.parked.isSome = true := by
  obtain ⟨status, heq⟩ := s.dropWork_eq p st
  have hentries : (s.draftsDropped p).entries = s.entries := s.draftsDropped_keeps p .entries (by decide)
  have halike : (s.draftsDropped p).parkedAlike := fun y hy z hz _ => by rw [hs y (hentries ▸ hy), hs z (hentries ▸ hz)]
  rw [heq] at h
  obtain ⟨y, hy, hacc, hbytes, hparked⟩ := State.foldl_complete_entries (fun e : Entry × Nat => e.1.acc) status Prod.snd _ _ halike x h
  have hpart : y.part = p := by rw [← hx, Entry.part, hbytes, Entry.part]
  refine hparked (.inl ?_)
  simp only [List.map_map, List.mem_map, List.mem_filter, beq_iff_eq]
  exact ⟨y, ⟨hentries ▸ hy, hpart⟩, hacc⟩

/-- What `tearDown` leaves when the work is dropped: flip regions settled, guests gone. -/
def State.workEnded (s : State) (p status : Nat) : State := ((s.dropWork p status).settleFlips p false).dropGuests p

theorem State.workEnded_keeps_drop (s : State) (p st : Nat) : (s.dropWork p st).keeps (s.workEnded p st) [.mem, .ports, .genRetire, .guests, .vacant] :=
  State.keeps_trans (State.keeps_mono (State.settleFlips_keeps _ _ _) (by decide)) (State.dropGuests_keeps _ _)

/-- The end of a partition's work changes its record there, and leaves its state. -/
theorem State.tearDown_eq (s : State) (p status : Nat) : ∃ x : Part, s.tearDown p status = (s.workEnded p status).setPart p x ∧
    x.st = ((s.workEnded p status).part p).st := ⟨_, rfl, rfl⟩

/-- What a disable does to the state before the partition's work ends: DISABLING, and the cache's write-back asked for. -/
def State.disablingBegun (s : State) (p : Nat) : State := (s.setPart p { s.part p with st := .disabling }).flushWays p

theorem State.disablingBegun_keeps (s : State) (p : Nat) : s.keeps (s.disablingBegun p) [.memCtl, .parts] :=
  State.keeps_step (State.keeps_mono (s.setPart_keeps p _) (by decide)) (State.flushWays_keeps _ p)

theorem State.disablingBegun_part (s : State) (p k : Nat) : (s.disablingBegun p).part k = (s.setPart p { s.part p with st := .disabling }).part k :=
  State.part_of_keeps (State.flushWays_keeps _ p) (by decide) k

theorem State.runDisable_eq {s : State} {p : Nat} (hidle : (s.part p).st.idle = false) :
    s.runDisable p = ((s.disablingBegun p).tearDown p stInvalid).writePages p := if_neg (by simp [hidle])

/-- A disable of an ACTIVE partition, none of whose entries waits in its engine. -/
theorem gives_partitionDisable {s : State} {src : Src} {p : Nat} (hp : p < 16) (harr : s.arrives src = true) (hwriter : s.partWriter src p = true)
    (hst : (s.part p).st = .active) (hops : (s.part p).ops = []) (hparked : ∀ e ∈ s.entries, e.parked = none) :
    s.gives (.partitionDisable src p) (fun t => (t.part p).st = .disabling ∧ (∀ e ∈ t.entries, e.part = p → e.parked.isSome = true) ∧
      (∀ d ∈ t.drafts, d.part ≠ p) ∧ (∀ p', p' ≠ p → t.part p' = s.part p') ∧
      s.keeps t [.mem, .ports, .rings, .entries, .drafts, .parts, .looms, .memCtl, .guests, .vacant, .genRetire]) := by
  have hexec : exec (.partitionDisable src p) s = finish (s.runDisable p) :=
    congrArg finish ((State.via_of_arrives _ harr).trans (partitionEn_active hp hwriter hst hops))
  rw [State.runDisable_eq (by rw [hst]; rfl)] at hexec
  obtain ⟨x, htear, hx⟩ := (s.disablingBegun p).tearDown_eq p stInvalid
  rw [htear] at hexec
  have hbegun := s.disablingBegun_keeps p
  have hdrop := (s.disablingBegun p).dropWork_keeps p stInvalid
  have hrest := (s.disablingBegun p).workEnded_keeps_drop p stInvalid
  have hlast := State.keeps_step (State.keeps_mono (((s.disablingBegun p).workEnded p stInvalid).setPart_keeps p x) (by decide))
    (State.writePages_keeps _ p) (fs := [.mem, .ports, .parts])
  have hparts (k : Nat) : ((s.disablingBegun p).workEnded p stInvalid).part k = (s.setPart p { s.part p with st := .disabling }).part k :=
    (State.part_of_keeps hrest (by decide) k).trans ((State.part_of_keeps hdrop (by decide) k).trans (s.disablingBegun_part p k))
  obtain ⟨g, j, hpart⟩ := (((s.disablingBegun p).workEnded p stInvalid).setPart p x).writePages_part p
  have hend := State.keeps_step (State.keeps_mono hrest (by decide)) hlast (fs := [.mem, .ports, .genRetire, .guests, .vacant, .parts])
  refine State.gives_of_finish hexec ⟨?_, fun e he hep => ?_, fun d hd => ?_, fun k hk => ?_, State.keeps_settled ?_⟩
  · rw [settle_part, hpart, State.setPart_part_same, hx, hparts, State.setPart_part_same]
  · have hentries := hend .entries (by decide)
    have hbefore : (s.disablingBegun p).entries = s.entries := hbegun .entries (by decide)
    exact State.dropWork_entries (hbefore ▸ hparked) (hentries ▸ he) hep
  · have hdrafts := hend .drafts (by decide)
    exact State.dropWork_drafts (hdrafts ▸ hd)
  · rw [settle_part, State.writePages_part_ne _ hk, State.setPart_part_ne _ _ hk, hparts, State.setPart_part_ne _ _ hk]
  · exact State.keeps_step (State.keeps_step (State.keeps_mono hbegun (by decide)) hdrop) hend

-- ## The obligation

/-- Settles O14: each command by the equation of what it does, the enable and the disable by what their stages leave. -/
theorem partitionConfiguresEnablesDisables : Obligations.PartitionConfiguresEnablesDisables := by
  unfold Obligations.PartitionConfiguresEnablesDisables
  refine ⟨fun s src p v hp harr hadmin hidle hfree hport hv => ?_, fun s src p v hp harr hadmin hbusy => ?_,
    fun s src p v hp harr hadmin hidle hallowed hnone => ?_, fun s src p hp harr hwriter hst hops => ⟨fun hfail hways hguests => ?_, fun h => ?_⟩,
    fun s p hst hops hphase => ?_, fun s src p hp harr hwriter hst hops hparked => ?_, fun s p hst hops hphase hchanges => ?_⟩
  · have hexec : exec (.partitionConfigure src p v) s = finish (partitionConfigure s src p v) := congrArg finish (State.via_of_arrives _ harr)
    rw [partitionConfigure_taken hp hadmin hidle hfree hport hv] at hexec
    refine State.gives_of_finish hexec ⟨?_, ?_, fun k hk => ?_, State.keeps_settled ?_⟩
    · rw [settle_part, State.setPart_part_same]
    · exact (State.setReg_reg_same _ _ _).trans (Nat.mod_mod _ _)
    · rw [settle_part, State.setPart_part_ne _ _ hk, State.setReg_part]
    · exact State.keeps_step (State.keeps_mono (s.setReg_keeps _ _) (by decide)) (State.setPart_keeps _ _ _)
  · have hexec : exec (.partitionConfigure src p v) s = finish (partitionConfigure s src p v) := congrArg finish (State.via_of_arrives _ harr)
    rw [partitionConfigure_refused v hp hadmin hbusy] at hexec
    exact State.gives_of_finish hexec ⟨State.setPart_part_same _ p _, fun k hk => State.setPart_part_ne _ _ hk, State.keeps_settled (s.setPart_keeps p _)⟩
  · have hexec : exec (.partitionOwnerChange src p v) s = finish (ownerChange s src p v) := congrArg finish (State.via_of_arrives _ harr)
    rw [ownerChange_unowned hp hadmin hidle hallowed hnone] at hexec
    refine State.gives_of_finish hexec ⟨?_, fun r hr => State.setReg_reg_ne _ _ hr, State.keeps_settled (s.setReg_keeps _ _)⟩
    rw [settle_reg, State.setReg_reg_same]
    omega
  · obtain ⟨t, hexec, hstate, hzero, hfresh, hframe⟩ := gives_partitionEnable_starts hp harr hwriter hst hops hfail hways hguests
    have hloom (c : Nat) (hc : c ∈ s.clusters p) (j : Nat) (hj : j < 8) : t.isFresh (8 * c + j) :=
      hfresh _ (State.mem_partLooms hc hj) (by have := State.clusters_lt hc; omega)
    exact ⟨t, hexec, hstate, hzero, fun c hc j a hj ha => (hloom c hc j hj).1 a ha, fun c hc j hj => (hloom c hc j hj).2, hframe⟩
  · exact gives_partitionEnable_fails hp harr hwriter hst hops h
  · exact State.gives_of_finish (congrArg finish (State.enablingEnd_eq hst hops hphase)) ⟨s.entersState_st p _,
      fun k hk => s.entersState_part_ne _ hk, State.keeps_settled (s.entersState_keeps p _)⟩
  · exact gives_partitionDisable hp harr hwriter hst hops hparked
  · have hflr := (s.entersState p .configured).flrEnd_keeps
    have hparts (k : Nat) := State.part_of_keeps hflr (by decide) k
    refine State.gives_of_finish (congrArg (fun u : State => finish u.flrEnd) (State.disablingEnd_eq hst hops hphase hchanges)) ⟨?_, fun k hk => ?_,
      State.keeps_settled (State.keeps_step (State.keeps_mono (s.entersState_keeps p _) (by decide)) hflr)⟩
    · rw [settle_part, hparts, State.entersState_st]
    · rw [settle_part, hparts, State.entersState_part_ne _ _ hk]

end Sys2Proof.Machine
end

section
/-!
PROOFS. Every step answers (O3). Ring pairs: what an update of one leaves of the others, the ring record, the doorbells and the inline window (O7, O8),
enable and disable (O13).
-/

namespace Sys2Proof.Machine

/-- Settles O3: an empty queue lets time pass, and every command answers (`exec_next`). -/
theorem stepNeverStops : Obligations.StepNeverStops := by
  intro s
  cases hq : s.pending with
  | nil => exact ⟨idle s, by simp only [step, hq]⟩
  | cons c rest =>
    obtain ⟨t, ht⟩ := exec_next c { s with pending := rest }
    exact ⟨t, by simp only [step, hq, ht]⟩

-- ## One ring pair is updated

theorem State.setRing_ring_ne (s : State) (q : Nat) (x : Ring) {k k' : Nat} (h : k' ≠ k) : (s.setRing q k x).ring q k' = s.ring q k' := by
  rw [State.setRing_ring, if_neg (by omega)]

theorem State.ring_of_keeps {s t : State} {fs : List Field} (h : s.keeps t fs) (hf : Field.rings ∉ fs) (q k : Nat) : t.ring q k = s.ring q k := by
  rw [State.ring, (h .rings hf : t.rings = s.rings), State.ring]

theorem State.port_of_keeps {s t : State} {fs : List Field} (h : s.keeps t fs) (hf : Field.ports ∉ fs) (q : Nat) : t.port q = s.port q := by
  rw [State.port, (h .ports hf : t.ports = s.ports), State.port]

theorem State.reg_of_keeps {s t : State} {fs : List Field} (h : s.keeps t fs) (hf : Field.regs ∉ fs) (r : Reg) : t.reg r = s.reg r := by
  rw [State.reg, (h .regs hf : t.regs = s.regs), State.reg]

theorem State.ringSize_of_keeps {s t : State} {fs : List Field} (h : s.keeps t fs) (hf : Field.regs ∉ fs) (q k : Nat) : t.ringSize q k = s.ringSize q k := by
  simp only [State.ringSize, State.fld, State.reg_of_keeps h hf]

theorem State.ringFunc_of_keeps {s t : State} {fs : List Field} (h : s.keeps t fs) (hf : Field.regs ∉ fs) (q k : Nat) : t.ringFunc q k = s.ringFunc q k := by
  simp only [State.ringFunc, State.fld, State.reg_of_keeps h hf]

theorem State.addr_of_keeps {s t : State} {fs : List Field} (h : s.keeps t fs) (hf : Field.regs ∉ fs) (r r' : Reg) : t.addr r r' = s.addr r r' := by
  simp only [State.addr, State.reg_of_keeps h hf]

-- ## The ring record (R185)

theorem State.length_stamp (s : State) (i : Nat) (p : Option Nat) : (s.stamp i p).length = 16 := by
  simp only [State.stamp, List.length_append, length_leBytes]

theorem State.length_ringRecord (s : State) (q k : Nat) : (s.ringRecord q k).length = 64 := by
  simp only [State.ringRecord, List.length_append, length_leBytes, length_zeros, State.length_stamp]

/-- The key at which the record of a ring pair lies, where its IOVA names one. -/
def State.recordKeyOf (s : State) (q k : Nat) : Nat := spaceKey (4 + q) (s.addr (.rqAddr q k 4) (.rqAddr q k 5))

theorem State.writeRingRecord_keeps (s : State) (q k : Nat) : s.keeps (s.writeRingRecord q k) [.mem, .ports] := by
  simp only [State.writeRingRecord]
  split
  · exact s.keeps_refl _
  · exact s.hostPut_keeps _ _ _ _

theorem State.hostPut_keepsMem (s : State) (q f key : Nat) (bs : List Byte) : s.keepsMem (s.hostPut q f key bs) key bs.length := by
  intro j hj
  simp only [State.hostPut]
  split
  · rfl
  · split
    · rfl
    · exact s.wrBytes_rd_outside key bs hj

theorem State.writeRingRecord_keepsMem (s : State) (q k : Nat) : s.keepsMem (s.writeRingRecord q k) (s.recordKeyOf q k) 64 := by
  simp only [State.writeRingRecord]
  split
  · exact fun _ _ => rfl
  · exact s.length_ringRecord q k ▸ s.hostPut_keepsMem _ _ _ _

-- ## Doorbells (R179 to R181, R469)

/-- An awake module is not woken: source 3 wakes from T1 to T3 only. -/
theorem State.wake_of_awake {s : State} (h : s.awake) (port : Nat) : s.wake 3 port = s := by
  simp [State.wake, h.1, h.2, wakesFrom]

theorem State.doorbell_of_owner {s : State} {q f k : Nat} (harr : s.arrives (.port q f) = true) (hact : (s.ring q k).active = true)
    (hf : f = s.ringFunc q k) : s.doorbell q f k = true := by
  simp [State.doorbell, harr, hact, ← hf]

theorem State.awake_of_keeps {s t : State} {fs : List Field} (hs : s.awake) (h : s.keeps t fs) (hf : Field.treadle ∉ fs) : t.awake := by
  have ht : t.treadle = s.treadle := h .treadle hf
  exact ⟨ht ▸ hs.1, ht ▸ hs.2⟩

/-- A doorbell write that arrives in T0 does what the doorbell does, and wakes nothing. -/
theorem State.via_wake {s u : State} {src : Src} {g : State → State} {fs : List Field} (harr : s.arrives src = true) (hs : s.awake) (hu : g s = u)
    (hk : s.keeps u fs) (hf : Field.treadle ∉ fs) : s.via src (fun s => (g s).wake 3 0) = u := by
  rw [State.via_of_arrives _ harr, hu, State.wake_of_awake (State.awake_of_keeps hs hk hf)]

/-- A pair whose tail has been announced, with the inline entries it then has captured (R180). -/
def Ring.announces (l : List (Nat × List Byte)) (v : Nat) (x : Ring) : Ring := { x with window := [], inlined := l, sqTail := v }

theorem sqTail_announces {s : State} {q f k v : Nat} (hd : s.doorbell q f k = true) (hv : v % 65536 < s.ringSize q k) :
    ∃ l, sqTail s q f k v = (s.setRing q k ((s.ring q k).announces l (v % 65536))).writeRingRecord q k := by
  simp only [sqTail, hd, Bool.not_true, Bool.false_eq_true, if_false, if_neg (Nat.not_le.2 hv)]
  split
  · exact ⟨_, rfl⟩
  · exact ⟨_, rfl⟩

theorem sqTail_counts {s : State} {q f k v : Nat} (hd : s.doorbell q f k = true) (hv : s.ringSize q k ≤ v % 65536) :
    sqTail s q f k v = s.setRing q k { s.ring q k with window := [], errors := satInc 32 (s.ring q k).errors 1 } := by
  simp [sqTail, hd, hv]

/-- Where no completion waits in its engine for the pair, there is none to take from there. -/
theorem State.unpark_of_none {s : State} {q k : Nat} (h : ∀ y ∈ s.entries, y.home = (q, k) → y.parked = none) : s.unpark q k = s := by
  have hnil : s.entries.filter (fun e => e.home == (q, k) && e.parked.isSome) = [] := by
    refine List.filter_eq_nil_iff.2 fun y hy => ?_
    by_cases hh : y.home = (q, k)
    · simp [h y hy hh]
    · simp [hh]
  rw [State.unpark, hnil, List.foldl_nil]

theorem cqHead_frees {s : State} {q f k v : Nat} (hd : s.doorbell q f k = true) (hv : v % 65536 < s.ringSize q k)
    (hp : ∀ y ∈ s.entries, y.home = (q, k) → y.parked = none) :
    cqHead s q f k v = s.setRing q k { s.ring q k with
      cqHead := v % 65536, cqUsed := (s.ring q k).cqUsed - (v % 65536 + s.ringSize q k - (s.ring q k).cqHead) % s.ringSize q k } := by
  simp only [cqHead, hd, Bool.not_true, Bool.false_eq_true, if_false, if_neg (Nat.not_le.2 hv)]
  exact State.unpark_of_none hp

theorem cqHead_counts {s : State} {q f k v : Nat} (hd : s.doorbell q f k = true) (hv : s.ringSize q k ≤ v % 65536) :
    cqHead s q f k v = s.setRing q k { s.ring q k with errors := satInc 32 (s.ring q k).errors 1 } := by
  simp [cqHead, hd, hv]

/-- A command that ends in the update of one ring pair answers it, and leaves the other pairs and the rest of the state. -/
theorem State.gives_of_setRing {s : State} {c : Instr} {q k : Nat} {x : Ring} (h : exec c s = finish (s.setRing q k x)) :
    s.gives c (fun t => t.ring q k = x ∧ (∀ k', k' < 256 → k' ≠ k → t.ring q k' = s.ring q k') ∧ s.keeps t [.rings]) :=
  State.gives_of_finish h ⟨s.setRing_ring_same q k x, fun _ _ hk => s.setRing_ring_ne q x hk, State.keeps_settled (s.setRing_keeps q k x)⟩

/-- Settles O7: a tail or head below the ring size is taken, with the record rewritten for SQ_TAIL; any other is counted. -/
theorem doorbellTailsMoveOrCount : Obligations.DoorbellTailsMoveOrCount := by
  intro s q f k v _ _ _ hs harr hact hf
  have hd := State.doorbell_of_owner harr hact hf
  have hring {u : State} {x : Ring} (g : State → State) (hg : g s = u) (hu : u = s.setRing q k x) : s.via (.port q f) (fun s => (g s).wake 3 0) = s.setRing q k x :=
    State.via_wake harr hs (hg.trans hu) (s.setRing_keeps q k x) (by decide)
  refine ⟨fun hv => ⟨?_, fun hp => ?_⟩, fun hv => ⟨?_, ?_⟩⟩
  · obtain ⟨l, hl⟩ := sqTail_announces hd hv
    have hrec := (s.setRing q k ((s.ring q k).announces l (v % 65536))).writeRingRecord_keeps q k
    have hk := State.keeps_step (State.keeps_mono (s.setRing_keeps q k _) (by decide)) hrec (fs := [.rings, .mem, .ports])
    have hexec : exec (.sqTail q f k v) s = finish _ := congrArg finish (State.via_wake (g := fun s => sqTail s q f k v) harr hs hl hk (by decide))
    have hrings (k' : Nat) := State.ring_of_keeps hrec (by decide) q k'
    have hpair := (hrings k).trans (s.setRing_ring_same q k _)
    exact State.gives_of_finish hexec ⟨congrArg Ring.sqTail hpair, (congrArg Ring.sqHead hpair :), (congrArg Ring.errors hpair :),
      (congrArg Ring.cqHead hpair :), (congrArg Ring.held hpair :), fun k' _ hne => (hrings k').trans (s.setRing_ring_ne q _ hne), State.keeps_settled hk,
      fun j hj => (settle_rd _ j).trans (State.writeRingRecord_keepsMem _ q k j hj)⟩
  · exact State.gives_of_setRing (congrArg finish (hring (fun s => cqHead s q f k v) rfl (cqHead_frees hd hv hp)))
  · exact State.gives_of_setRing (congrArg finish (hring (fun s => sqTail s q f k v) rfl (sqTail_counts hd hv)))
  · exact State.gives_of_setRing (congrArg finish (hring (fun s => cqHead s q f k v) rfl (cqHead_counts hd hv)))

-- ## The inline window (R180)

/-- One byte of an INLINE_ENTRY write laid into the window. -/
def windowPut (off : Nat) (w : List (Nat × Byte)) (ib : Nat × Byte) : List (Nat × Byte) :=
  if off + ib.1 < 64 then tinsert (off + ib.1) ib.2 (terase w (off + ib.1)) else w

theorem inlineEntry_puts {s : State} {q f k : Nat} (off : Nat) (data : List Byte) (hd : s.doorbell q f k = true) :
    inlineEntry s q f k off data =
      s.setRing q k { s.ring q k with window := ((List.range data.length).zip data).foldl (windowPut off) (s.ring q k).window } := by
  simp only [inlineEntry, hd, Bool.not_true, Bool.false_eq_true, if_false]
  rfl

theorem tget_windowPut {off i : Nat} (h : off + i < 64) (w : List (Nat × Byte)) (b : Byte) (j : Nat) :
    tget 0 (windowPut off w (i, b)) j = if j = off + i then b else tget 0 w j := by
  rw [windowPut, if_pos h, tget_tinsert 0 b _ j _ (fun p hp => ((mem_terase w _ p).1 hp).2), tget_terase]
  by_cases hj : j = off + i
  · rw [if_pos hj, if_pos hj]
  · rw [if_neg hj, if_neg hj, if_neg hj]

/-- Bytes laid into the window one after another from place `off + i` on. -/
theorem tget_foldl_windowPut (off j : Nat) (data : List Byte) : ∀ (i : Nat) (w : List (Nat × Byte)), off + i + data.length ≤ 64 →
    tget 0 (((List.range' i data.length).zip data).foldl (windowPut off) w) j =
      if off + i ≤ j ∧ j < off + i + data.length then data.getD (j - (off + i)) 0 else tget 0 w j := by
  induction data with
  | nil => intro i w _; rw [if_neg (by simp)]; rfl
  | cons b data ih =>
    intro i w hend
    rw [List.length_cons] at hend
    rw [List.length_cons, List.range'_succ, List.zip_cons_cons, List.foldl_cons, ih (i + 1) _ (by omega), tget_windowPut (by omega)]
    by_cases hlater : off + (i + 1) ≤ j ∧ j < off + (i + 1) + data.length
    · rw [if_pos hlater, if_pos (by omega), show j - (off + i) = (j - (off + (i + 1))) + 1 by omega, List.getD_cons_succ]
    · rw [if_neg hlater]
      by_cases hj : j = off + i
      · rw [if_pos hj, if_pos (by omega), hj, Nat.sub_self, List.getD_cons_zero]
      · rw [if_neg hj, if_neg (by omega)]

/-- Settles O8: the window is a table of bytes, and the write is a fold of puts into it. -/
theorem inlineWindowHoldsWrittenBytes : Obligations.InlineWindowHoldsWrittenBytes := by
  intro s q f k off data _ _ _ hend harr hact hf
  obtain ⟨t, ht, hring, hothers, hkeeps⟩ := State.gives_of_setRing (s := s) (c := .inlineEntry q f k off data)
    (congrArg finish (inlineEntry_puts off data (State.doorbell_of_owner harr hact hf)))
  refine ⟨t, ht, fun j => ?_, ⟨_, hring⟩, hothers, hkeeps⟩
  rw [hring, List.range_eq_range']
  exact tget_foldl_windowPut off j data 0 (s.ring q k).window hend

-- ## Enable and disable (R178, R477, R513)

theorem Ring.en_of_noOps {x : Ring} (h : x.ops = []) : x.en = x.active := by simp [Ring.en, h]

/-- Nothing runs of a pair that neither closes nor keeps an operation. -/
theorem State.ringRun_rests {s : State} {q k : Nat} (hc : (s.ring q k).closing = false) (hops : (s.ring q k).ops = []) (fuel : Nat) :
    s.ringRun q k fuel = s := by
  cases fuel with
  | zero => rfl
  | succ n => simp [State.ringRun, hc, hops]

/-- A ring pair as an enable leaves it. -/
def Ring.fresh (x : Ring) : Ring :=
  { x with ops := [], active := true, sqHead := 0, sqTail := 0, cqHead := 0, cqTail := 0, cqUsed := 0, phase := true, window := [], inlined := [] }

/-- A ring pair as a disable leaves it, once its shutdown is over. -/
def Ring.disabled (x : Ring) : Ring := { x with ops := [], active := false, closing := false }

/-- A state that differs in one ring pair only, and holds `x` there. -/
def State.ringBecomes (s t : State) (q k : Nat) (x : Ring) : Prop :=
  t.ring q k = x ∧ (∀ k', k' ≠ k → t.ring q k' = s.ring q k') ∧ s.keeps t [.rings]

theorem State.setRing_ringBecomes {s u : State} {q k : Nat} {y : Ring} (h : s.ringBecomes u q k y) (x : Ring) : s.ringBecomes (u.setRing q k x) q k x :=
  ⟨u.setRing_ring_same q k x, fun k' hk => (u.setRing_ring_ne q x hk).trans (h.2.1 k' hk), State.keeps_trans h.2.2 (u.setRing_keeps q k x)⟩

theorem State.ringBecomes_refl (s : State) (q k : Nat) : s.ringBecomes s q k (s.ring q k) := ⟨rfl, fun _ _ => rfl, s.keeps_refl _⟩

theorem State.ringDrained_of_same {s t : State} {q k : Nat} (hh : (t.ring q k).held = (s.ring q k).held) (he : t.entries = s.entries) :
    t.ringDrained q k = s.ringDrained q k := by
  rw [State.ringDrained, hh, he, State.ringDrained]

section
variable {s u : State} {q k : Nat} {x : Ring} (h : s.ringBecomes u q k x)
include h

theorem State.ringRun_enables (hc : x.closing = false) (hops : x.ops = [true]) (fuel : Nat) : s.ringBecomes (u.ringRun q k (fuel + 1)) q k x.fresh := by
  have hfresh := State.setRing_ringBecomes h x.fresh
  have hrun : u.ringRun q k (fuel + 1) = (u.setRing q k x.fresh).ringRun q k fuel := by
    simp only [State.ringRun, h.1, hc, hops, Bool.false_eq_true, if_false, Ring.fresh]
  rw [hrun, State.ringRun_rests (by rw [hfresh.1]; exact hc) (by rw [hfresh.1]; rfl)]
  exact hfresh

theorem State.ringRun_disables (hc : x.closing = false) (hops : x.ops = [false]) (ha : x.active = true) (hd : s.ringDrained q k = true)
    (hheld : x.held = (s.ring q k).held) (fuel : Nat) : s.ringBecomes (u.ringRun q k (fuel + 2)) q k x.disabled := by
  have hcloses := State.setRing_ringBecomes h { x with ops := [], active := false, closing := true }
  have hdrained : (u.setRing q k { x with ops := [], active := false, closing := true }).ringDrained q k = true :=
    (State.ringDrained_of_same ((congrArg Ring.held hcloses.1).trans hheld) (hcloses.2.2 .entries (by decide))).trans hd
  have hends := State.setRing_ringBecomes hcloses x.disabled
  have hrun : u.ringRun q k (fuel + 2) = ((u.setRing q k { x with ops := [], active := false, closing := true }).setRing q k x.disabled).ringRun q k fuel := by
    simp only [State.ringRun, h.1, hc, hops, ha, Bool.false_eq_true, if_false, if_true, State.setRing_ring_same, hdrained, Ring.disabled]
  rw [hrun, State.ringRun_rests (by rw [hends.1]; rfl) (by rw [hends.1]; rfl)]
  exact hends

end

/-- An operation that changes EN of a pair that keeps none is kept, and the operations run. -/
theorem State.ringOp_runs {s : State} {q k : Nat} {en : Bool} (hops : (s.ring q k).ops = []) (hen : (s.ring q k).active = !en) :
    s.ringOp q k en = (s.setRing q k { s.ring q k with ops := [en] }).ringRun q k 4 := by
  have hne : (s.ring q k).en ≠ en := by rw [Ring.en_of_noOps hops, hen]; simp
  simp only [State.ringOp, hne, hops, false_and, if_false, List.nil_append, List.length_nil]

theorem State.ringOp_enables {s : State} {q k : Nat} (ha : (s.ring q k).active = false) (hc : (s.ring q k).closing = false)
    (hops : (s.ring q k).ops = []) : s.ringBecomes (s.ringOp q k true) q k (s.ring q k).fresh := by
  rw [State.ringOp_runs (en := true) hops ha]
  exact State.ringRun_enables (x := { s.ring q k with ops := [true] }) (State.setRing_ringBecomes (s.ringBecomes_refl q k) _) hc rfl 3

theorem State.ringOp_disables {s : State} {q k : Nat} (ha : (s.ring q k).active = true) (hc : (s.ring q k).closing = false)
    (hops : (s.ring q k).ops = []) (hd : s.ringDrained q k = true) : s.ringBecomes (s.ringOp q k false) q k (s.ring q k).disabled := by
  rw [State.ringOp_runs (en := false) hops ha]
  exact State.ringRun_disables (x := { s.ring q k with ops := [false] }) (State.setRing_ringBecomes (s.ringBecomes_refl q k) _) hc rfl ha hd rfl 2

theorem ringCtl_enables {s : State} {src : Src} {q k v : Nat} (hq : q < 2) (hk : k < 256) (hw : s.ringWriter src q k = true)
    (ha : (s.ring q k).active = false) (hops : (s.ring q k).ops = []) (hv : bitAt v 8 = true) :
    ringCtl s src q k v = (s.setReg (.rqCtl q k) (v &&& 0x3F001F)).ringOp q k true := by
  simp [ringCtl, hw, Nat.not_le.2 hq, Nat.not_le.2 hk, (Ring.en_of_noOps hops).trans ha, hv]

/-- Settles O13: the register takes the fields, and the one operation kept runs to its end. -/
theorem ringPairEnableAndDisable : Obligations.RingPairEnableAndDisable := by
  refine ⟨fun s src q k v hq hk harr hw ha hc hops => ?_, fun s src q k hq hk harr hw ha hc hops hd => ?_⟩
  · have hexec : exec (.ringPairEnable src q k v) s = finish (ringCtl s src q k (setField v 8 1 1)) := congrArg finish (State.via_of_arrives _ harr)
    rw [ringCtl_enables hq hk hw ha hops (bitAt_setField v 8 1 1 8)] at hexec
    obtain ⟨hpair, hothers, hkeeps⟩ := State.ringOp_enables (s := s.setReg (.rqCtl q k) (setField v 8 1 1 &&& 0x3F001F)) ha hc hops
    refine State.gives_of_finish hexec ⟨congrArg Ring.active hpair, congrArg Ring.sqHead hpair, congrArg Ring.sqTail hpair, congrArg Ring.cqHead hpair,
      congrArg Ring.cqTail hpair, congrArg Ring.cqUsed hpair, congrArg Ring.phase hpair, congrArg Ring.window hpair, congrArg Ring.ops hpair, ?_,
      fun k' _ hne => hothers k' hne, State.keeps_settled (State.keeps_step (State.keeps_mono (s.setReg_keeps _ _) (by decide)) hkeeps)⟩
    rw [settle_reg, State.reg_of_keeps hkeeps (by decide), State.setReg_reg_same]
    exact Nat.mod_eq_of_lt (lt_of_le_of_lt Nat.and_le_right (by decide))
  · have hexec : exec (.ringPairDisable src q k) s = finish (if s.ringWriter src q k ∧ q < 2 ∧ k < 256 then s.ringOp q k false else s) :=
      congrArg finish (State.via_of_arrives _ harr)
    rw [if_pos ⟨hw, hq, hk⟩] at hexec
    obtain ⟨hpair, hothers, hkeeps⟩ := State.ringOp_disables ha hc hops hd
    refine State.gives_of_finish hexec ⟨hpair.trans ?_, fun k' _ hne => hothers k' hne, State.keeps_settled hkeeps⟩
    rw [Ring.disabled, ← hops, ← hc]

end Sys2Proof.Machine
end

section
/-!
PROOFS. Completions (O12): what a completion that leaves an engine does to the ring pairs, and what COMPLETION_WRITE writes.
-/

namespace Sys2Proof.Machine

-- ## Completions and ring pairs

/-- A ring pair may have other completions and other remembered statuses, and is as before in all else. -/
def State.sameIndices (s t : State) (q k : Nat) : Prop := ∃ l h, t.ring q k = { s.ring q k with held := l, history := h }

theorem State.sameIndices_refl (s : State) (q k : Nat) : s.sameIndices s q k := ⟨_, _, rfl⟩

theorem State.sameIndices_trans {s t u : State} {q k : Nat} (h1 : s.sameIndices t q k) (h2 : t.sameIndices u q k) : s.sameIndices u q k := by
  obtain ⟨l, h, ht⟩ := h1
  obtain ⟨l', h', hu⟩ := h2
  exact ⟨l', h', by rw [hu, ht]⟩

theorem State.sameIndices_of_keeps {s t : State} {fs : List Field} (h : s.keeps t fs) (hf : Field.rings ∉ fs) (q k : Nat) : s.sameIndices t q k :=
  ⟨_, _, (State.ring_of_keeps h hf q k).trans rfl⟩

theorem State.ring_of_key (s : State) {q k q' k' : Nat} (h : 256 * q' + k' = 256 * q + k) : s.ring q' k' = s.ring q k := by
  rw [State.ring, h, State.ring]

theorem State.recordStatus_ring (u : State) (q' k' tag st q k : Nat) : ∃ h, (u.recordStatus q' k' tag st).ring q k = { u.ring q k with history := h } := by
  show ∃ h, (u.setRing q' k' { u.ring q' k' with history := ((tag, st) :: (u.ring q' k').history).take 256 }).ring q k = _
  rw [State.setRing_ring]
  split
  · next h => exact ⟨_, by rw [u.ring_of_key h]⟩
  · exact ⟨_, rfl⟩

theorem State.pushCompl_ring (u : State) (home : Nat × Nat) (c : Compl) (q k : Nat) : (u.pushCompl home c).ring q k =
    { u.ring q k with held := if 256 * q + k = 256 * home.1 + home.2 then (u.ring q k).held ++ [c] else (u.ring q k).held } := by
  rw [State.pushCompl, State.setRing_ring]
  split
  · next h => rw [u.ring_of_key h]
  · rfl

/-- A completion joins those of its home, and its status is remembered for the submitting pair. -/
theorem State.leave_ring (s : State) (x : Entry) (st pick res q k : Nat) : ∃ h, (s.leave x st pick res).ring q k =
    { s.ring q k with
      held := if 256 * q + k = 256 * x.home.1 + x.home.2 then (s.ring q k).held ++ [x.compl st pick res] else (s.ring q k).held, history := h } := by
  obtain ⟨h, hr⟩ := State.recordStatus_ring (({ s with entries := s.entries.filter (fun y => y.acc != x.acc) } : State).pushCompl x.home
    (x.compl st pick res)) x.port x.ring x.tag st q k
  rw [State.pushCompl_ring] at hr
  exact ⟨h, hr⟩

theorem State.leave_sameIndices (s : State) (x : Entry) (st pick res q k : Nat) : s.sameIndices (s.leave x st pick res) q k :=
  let ⟨h, hr⟩ := s.leave_ring x st pick res q k
  ⟨_, h, hr⟩

theorem State.leave_entry (s : State) (x : Entry) (st pick res : Nat) : (s.leave x st pick res).entry x.acc = none := by
  refine List.find?_eq_none.2 fun y hy => ?_
  obtain ⟨z, hz, rfl⟩ := List.mem_map.1 hy
  have hne : z.acc ≠ x.acc := by simpa using (List.mem_filter.1 hz).2
  have hacc : (if z.st = .waiting ∧ z.port = x.port ∧ field z.wait 32 8 = x.ring ∧ field z.wait 0 32 = x.tag ∧ z.waitDone = none
      then { z with waitDone := some st } else z).acc = z.acc := by split <;> rfl
  simpa [hacc] using hne

theorem State.completeWith_sameIndices (s : State) (e st pick res q k : Nat) : s.sameIndices (s.completeWith e st pick res) q k := by
  simp only [State.completeWith]
  split
  · exact s.sameIndices_refl q k
  · split
    · exact s.sameIndices_refl q k
    · split
      · exact State.sameIndices_of_keeps (s.setEntry_keeps _ _) (by decide) q k
      · exact s.leave_sameIndices _ _ _ _ q k

theorem State.complete_sameIndices (s : State) (e st res q k : Nat) : s.sameIndices (s.complete e st res) q k := by
  simp only [State.complete]
  split
  · exact s.sameIndices_refl q k
  · exact s.completeWith_sameIndices _ _ _ _ q k

theorem State.endEntry_sameIndices (s : State) (e st q k : Nat) : s.sameIndices (s.endEntry e st) q k := by
  simp only [State.endEntry]
  split
  · exact s.sameIndices_refl q k
  · exact s.complete_sameIndices _ _ _ q k

theorem State.endEntry_keeps (s : State) (e st : Nat) : s.keeps (s.endEntry e st) [.entries, .rings] := by
  simp only [State.endEntry]
  split
  · exact s.keeps_refl _
  · exact s.complete_keeps _ _ _

theorem State.endEntry_completed {s : State} {e : Nat} {x : Entry} (st : Nat) (hx : s.entry e = some x) (hp : x.parked = none) :
    State.completed x st x.result0 (s.endEntry e st) := by
  rw [State.endEntry, hx]
  exact State.complete_completed s e st _ x hx hp

-- ## The record and the message of a pair whose function is reachable (R185, R502)

theorem Compl.length_bytes (c : Compl) (phase : Bool) : (c.bytes phase).length = 32 := by
  simp only [Compl.bytes, List.length_append, length_leBytes, length_zeros]

theorem State.writeRingRecord_keeps_up {s : State} {q k : Nat} (hl : (s.port q).linkUp = true) (hd : (s.func q (s.ringFunc q k)).d3 = false) :
    s.keeps (s.writeRingRecord q k) [.mem] := by
  simp only [State.writeRingRecord]
  split
  · exact s.keeps_refl _
  · rw [State.hostPut_up s q _ _ _ hl hd]
    exact s.wrBytes_keeps _ _

theorem State.msix_keeps_up {s : State} {q f : Nat} (v : Nat) (hl : (s.port q).linkUp = true) (hd : (s.func q f).d3 = false) :
    s.keeps (s.msix q f v) [.funcs, .out] := by
  simp only [State.msix, hl, hd, Bool.not_true, Bool.false_eq_true, if_false]
  split
  · exact State.keeps_mono (s.setFunc_keeps _ _ _) (by decide)
  · exact State.keeps_mono (s.emit_keeps _) (by decide)

theorem State.msix_d3 {s : State} {q f : Nat} (v : Nat) (hl : (s.port q).linkUp = true) (hd : (s.func q f).d3 = false) :
    ((s.msix q f v).func q f).d3 = false := by
  simp only [State.msix, hl, hd, Bool.not_true, Bool.false_eq_true, if_false]
  split
  · rw [State.setFunc_func_same]
  · exact hd

-- ## COMPLETION_WRITE (R184)

/-- A ring pair of `n` slots after the oldest completion has been written. -/
def Ring.wrote (n : Nat) (rest : List Compl) (x : Ring) : Ring :=
  { x with held := rest, cqUsed := x.cqUsed + 1, cqTail := (x.cqTail + 1) % n, phase := if x.cqTail + 1 = n then !x.phase else x.phase }

/-- The key of the next completion slot of a ring pair. -/
def State.slotKey (s : State) (q k : Nat) : Nat := spaceKey (4 + q) (s.addr (.rqAddr q k 2) (.rqAddr q k 3) + 32 * (s.ring q k).cqTail)

/-- The oldest completion of a ring pair is in its slot. -/
def State.slotFilled (s : State) (q k : Nat) (c : Compl) (rest : List Compl) : State :=
  (s.setRing q k ((s.ring q k).wrote (s.ringSize q k) rest)).wrBytes (s.slotKey q k) (c.bytes (s.ring q k).phase)

theorem State.slotFilled_keeps (s : State) (q k : Nat) (c : Compl) (rest : List Compl) : s.keeps (s.slotFilled q k c rest) [.mem, .rings] :=
  State.keeps_step (State.keeps_mono (s.setRing_keeps q k _) (by decide)) (State.wrBytes_keeps _ _ _)

theorem State.slotFilled_rd (s : State) (q k : Nat) (c : Compl) (rest : List Compl) (j : Nat) : (s.slotFilled q k c rest).rd j =
    if s.slotKey q k ≤ j ∧ j < s.slotKey q k + 32 then (c.bytes (s.ring q k).phase).getD (j - s.slotKey q k) 0 else s.rd j := by
  rw [State.slotFilled, State.wrBytes_rd, c.length_bytes, State.setRing_rd]

theorem State.slotFilled_ring (s : State) (q k : Nat) (c : Compl) (rest : List Compl) (k' : Nat) :
    (s.slotFilled q k c rest).ring q k' = if k' = k then (s.ring q k).wrote (s.ringSize q k) rest else s.ring q k' := by
  rw [State.slotFilled, State.wrBytes_ring]
  split
  · next h => rw [h, State.setRing_ring_same]
  · next h => exact s.setRing_ring_ne q _ h

/-- The completion is in its slot, and its message has left where it asks for one. -/
def State.complWritten (s : State) (q k : Nat) (c : Compl) (rest : List Compl) : State :=
  if c.irq then (s.slotFilled q k c rest).msix q (s.ringFunc q k) (s.fld (.rqVec q k) 0 11) else s.slotFilled q k c rest

theorem State.func_of_keeps {s t : State} {fs : List Field} (h : s.keeps t fs) (hf : Field.funcs ∉ fs) (q f : Nat) : t.func q f = s.func q f := by
  rw [State.func, (h .funcs hf : t.funcs = s.funcs), State.func]

theorem State.slotFilled_port (s : State) (q k : Nat) (c : Compl) (rest : List Compl) (q' : Nat) : (s.slotFilled q k c rest).port q' = s.port q' :=
  State.port_of_keeps (s.slotFilled_keeps q k c rest) (by decide) q'

theorem State.slotFilled_func (s : State) (q k : Nat) (c : Compl) (rest : List Compl) (q' f : Nat) :
    (s.slotFilled q k c rest).func q' f = s.func q' f :=
  State.func_of_keeps (s.slotFilled_keeps q k c rest) (by decide) q' f

section
variable {s : State} {q k : Nat} {c : Compl} {rest : List Compl} (hlink : (s.port q).linkUp = true) (hd3 : (s.func q (s.ringFunc q k)).d3 = false)
include hlink hd3

theorem completionWrite_writes (hheld : (s.ring q k).held = c :: rest) (hfree : (s.ring q k).cqUsed < s.ringSize q k) :
    completionWrite s q k =
      (((s.complWritten q k c rest).unpark q k).writeRingRecord q k).ringRun q k (2 * (s.ring q k).ops.length + 4) := by
  have hput (key : Nat) (bs : List Byte) := State.hostPut_up (s.setRing q k ((s.ring q k).wrote (s.ringSize q k) rest)) q (s.ringFunc q k) key bs hlink hd3
  simp only [completionWrite, hheld, hlink, Bool.not_true, Bool.false_eq_true, if_false, if_neg (Nat.not_le.2 hfree), State.complWritten,
    State.slotFilled, State.slotKey, ← hput]
  rfl

/-- The message changes pending bits or what has left only. -/
theorem State.complWritten_keeps_slot : (s.slotFilled q k c rest).keeps (s.complWritten q k c rest) [.funcs, .out] := by
  rw [State.complWritten]
  split
  · exact State.msix_keeps_up _ ((s.slotFilled_port q k c rest q).symm ▸ hlink) ((s.slotFilled_func q k c rest q _).symm ▸ hd3)
  · exact State.keeps_refl _ _

theorem State.complWritten_d3 : ((s.complWritten q k c rest).func q (s.ringFunc q k)).d3 = false := by
  rw [State.complWritten]
  split
  · exact State.msix_d3 _ ((s.slotFilled_port q k c rest q).symm ▸ hlink) ((s.slotFilled_func q k c rest q _).symm ▸ hd3)
  · exact (s.slotFilled_func q k c rest q _).symm ▸ hd3

theorem State.complWritten_keeps : s.keeps (s.complWritten q k c rest) [.mem, .rings, .funcs, .out] :=
  State.keeps_step (State.keeps_mono (s.slotFilled_keeps q k c rest) (by decide)) (State.complWritten_keeps_slot hlink hd3)

theorem State.complWritten_ring (k' : Nat) :
    (s.complWritten q k c rest).ring q k' = if k' = k then (s.ring q k).wrote (s.ringSize q k) rest else s.ring q k' := by
  rw [State.ring_of_keeps (State.complWritten_keeps_slot hlink hd3) (by decide), State.slotFilled_ring]

theorem State.complWritten_rd (j : Nat) : (s.complWritten q k c rest).rd j =
    if s.slotKey q k ≤ j ∧ j < s.slotKey q k + 32 then (c.bytes (s.ring q k).phase).getD (j - s.slotKey q k) 0 else s.rd j :=
  (State.complWritten_keeps_slot hlink hd3 .mem (by decide) j).trans (s.slotFilled_rd q k c rest j)

end

theorem State.complWritten_out {s : State} {c : Compl} (hirq : c.irq = false) (q k : Nat) (rest : List Compl) : (s.complWritten q k c rest).out = s.out := by
  rw [State.complWritten, if_neg (by simp [hirq])]
  exact s.slotFilled_keeps q k c rest .out (by decide)

/-- The record is written, no operation of the pair waits to run, and function level resets that have ended are over. -/
def State.endsWrite (u t : State) (q k : Nat) : Prop := u.keeps t [.mem, .funcs] ∧ u.keepsMem t (u.recordKeyOf q k) 64

theorem State.recordWritten {u : State} {q k : Nat} (hl : (u.port q).linkUp = true) (hd : (u.func q (u.ringFunc q k)).d3 = false)
    (hc : (u.ring q k).closing = false) (hops : (u.ring q k).ops = []) (fuel : Nat) :
    u.endsWrite ((u.writeRingRecord q k).ringRun q k fuel).flrEnd q k := by
  have hrec := State.writeRingRecord_keeps_up hl hd
  have hring := State.ring_of_keeps hrec (by decide) q k
  rw [State.ringRun_rests (hring ▸ hc) (hring ▸ hops)]
  exact ⟨State.keeps_step (State.keeps_mono hrec (by decide)) (State.flrEnd_keeps _), fun j hj => u.writeRingRecord_keepsMem q k j hj⟩

/-- Where one completion for the pair waits in its engine, and one more may be held, it leaves the engine. -/
theorem State.unpark_of_one {s : State} {q k : Nat} {x : Entry} {st pick res : Nat} (hb : s.heldBack q k < 256)
    (hone : s.entries.filter (fun e => e.home == (q, k) && e.parked.isSome) = [x]) (hx : x.parked = some (st, pick, res)) :
    s.unpark q k = s.leave x st pick res := by
  rw [State.unpark, hone, List.foldl_cons, List.foldl_nil]
  simp only [hx, if_neg (Nat.not_le.2 hb)]

theorem completionWrite_full {s : State} {q k : Nat} {c : Compl} {rest : List Compl} (hlink : (s.port q).linkUp = true)
    (hheld : (s.ring q k).held = c :: rest) (hfull : s.ringSize q k ≤ (s.ring q k).cqUsed) : completionWrite s q k = s := by
  simp [completionWrite, hheld, hlink, hfull]

/-- What COMPLETION_WRITE ends with, from the state in which what waited in an engine has left it. -/
theorem exec_completionWrite {s u : State} {q k : Nat} {c : Compl} {rest : List Compl} (hlink : (s.port q).linkUp = true)
    (hd3 : (s.func q (s.ringFunc q k)).d3 = false) (hclosing : (s.ring q k).closing = false) (hops : (s.ring q k).ops = [])
    (hheld : (s.ring q k).held = c :: rest) (hfree : (s.ring q k).cqUsed < s.ringSize q k) {fs : List Field}
    (hu : (s.complWritten q k c rest).unpark q k = u) (hk : (s.complWritten q k c rest).keeps u fs) (hi : (s.complWritten q k c rest).sameIndices u q k)
    (hfs : Field.regs ∉ fs ∧ Field.funcs ∉ fs ∧ Field.ports ∉ fs) : ∃ t, exec (.completionWrite q k) s = finish t ∧ u.endsWrite t q k := by
  have hw := State.complWritten_keeps hlink hd3 (c := c) (rest := rest)
  have hself := (State.complWritten_ring hlink hd3 (c := c) (rest := rest) k).trans (if_pos rfl)
  obtain ⟨l, h, hring⟩ := hi
  rw [hself] at hring
  refine ⟨_, congrArg (fun u : State => finish u.flrEnd) (completionWrite_writes hlink hd3 hheld hfree), ?_⟩
  rw [hu]
  refine State.recordWritten ?_ ?_ (by rw [hring]; exact hclosing) (by rw [hring]; exact hops) _
  · rw [State.port_of_keeps hk hfs.2.2, State.port_of_keeps hw (by decide), hlink]
  · rw [State.ringFunc_of_keeps hk hfs.1, State.ringFunc_of_keeps hw (by decide), State.func_of_keeps hk hfs.2.1]
    exact State.complWritten_d3 hlink hd3

/-- Settles O12: the slot, the pair and the message by `complWritten`, then what waits in an engine, then the record. -/
theorem completionIsWrittenToTheFreedSlot : Obligations.CompletionIsWrittenToTheFreedSlot := by
  intro s q k slot rec c rest _ _ hheld hlink hd3 hclosing hops hslot hrec
  obtain ⟨w, hw⟩ : ∃ w, s.complWritten q k c rest = w := ⟨_, rfl⟩
  have hwkeeps := State.complWritten_keeps hlink hd3 (c := c) (rest := rest)
  have hwring := State.complWritten_ring hlink hd3 (c := c) (rest := rest)
  have hwrd := State.complWritten_rd hlink hd3 (c := c) (rest := rest)
  have hexec {u : State} {fs : List Field} (hfree) := exec_completionWrite (u := u) (fs := fs) hlink hd3 hclosing hops hheld hfree
  rw [hw] at hwkeeps
  simp only [hw, show s.slotKey q k = slot from hslot.symm] at hwring hwrd hexec
  have hself := (hwring k).trans (if_pos rfl)
  have hwentries : w.entries = s.entries := hwkeeps .entries (by decide)
  have hwrec : w.recordKeyOf q k = rec := by rw [hrec, State.recordKeyOf, State.addr_of_keeps hwkeeps (by decide)]
  refine ⟨fun hfree hnone => ?_, fun x st pick res hfree hroom hone hx => ?_, fun hfull => ?_⟩
  · obtain ⟨t, ht, hk, hmem⟩ := hexec hfree (State.unpark_of_none (hwentries ▸ hnone)) (w.keeps_refl []) (w.sameIndices_refl q k) (by decide)
    rw [hwrec] at hmem
    refine State.gives_of_finish ht ⟨fun hapart i hi => ?_, fun j hj hjr => ?_, ?_, fun hirq => ?_, fun k' _ hne => ?_,
      State.keeps_settled (State.keeps_step hwkeeps hk)⟩
    · rw [settle_rd, hmem _ (by omega), hwrd, if_pos (by omega), Nat.add_sub_cancel_left]
    · rw [settle_rd, hmem j hjr, hwrd, if_neg (by omega)]
    · exact (State.ring_of_keeps hk (by decide) q k).trans hself
    · exact (hk .out (by decide)).trans (hw ▸ State.complWritten_out hirq q k rest)
    · exact (State.ring_of_keeps hk (by decide) q k').trans ((hwring k').trans (if_neg hne))
  · have hhome : x.home = (q, k) ∧ x.parked.isSome = true := by
      have hmem := List.mem_filter.1 (hone ▸ List.mem_singleton_self x)
      simpa using hmem.2
    have hback : w.heldBack q k < 256 := by
      rw [State.heldBack, State.ringSize_of_keeps hwkeeps (by decide), hself]
      exact hroom
    have hleave := w.leave_keeps x st pick res
    obtain ⟨t, ht, hk, -⟩ := hexec hfree (State.unpark_of_one hback (hwentries ▸ hone) hx) hleave (w.leave_sameIndices x st pick res q k) (by decide)
    obtain ⟨h, hring⟩ := w.leave_ring x st pick res q k
    rw [hhome.1, if_pos rfl, hself] at hring
    refine State.gives_of_finish ht ⟨?_, ?_, State.keeps_settled (State.keeps_step (State.keeps_step (State.keeps_mono hwkeeps (by decide)) hleave) hk)⟩
    · exact (congrArg (List.find? _) (hk .entries (by decide))).trans (w.leave_entry x st pick res)
    · exact congrArg Ring.held ((State.ring_of_keeps hk (by decide) q k).trans hring)
  · exact State.gives_of_finish (congrArg (fun u : State => finish u.flrEnd) (completionWrite_full hlink hheld hfull)) (State.keeps_settled s.flrEnd_keeps)

end Sys2Proof.Machine
end

section
/-!
PROOFS. From the ring to the start (O10, O11) and QUERY (O37).
-/

namespace Sys2Proof.Machine

-- ## SUBMISSION_ENTRY_ACCEPT (R182, R183)

/-- The next entry of a ring pair has been taken in as `x`. -/
def State.takesIn (s : State) (q k : Nat) (x : Entry) : State :=
  { s.setRing q k { s.ring q k with
      sqHead := ((s.ring q k).sqHead + 1) % s.ringSize q k, inlined := (s.ring q k).inlined.filter (fun i => i.1 != (s.ring q k).sqHead) } with
    accepted := s.accepted + 1, entries := s.entries ++ [x] }

/-- The same with the ring record rewritten (log 175). -/
def State.accepts (s : State) (q k : Nat) (x : Entry) : State := (s.takesIn q k x).writeRingRecord q k

theorem State.takesIn_keeps (s : State) (q k : Nat) (x : Entry) : s.keeps (s.takesIn q k x) [.rings, .entries, .accepted] := by
  intro f hf
  cases f <;> simp_all [Field.same, State.takesIn, State.rd]

theorem State.takesIn_ring (s : State) (q k : Nat) (x : Entry) : (s.takesIn q k x).ring q k = { s.ring q k with
    sqHead := ((s.ring q k).sqHead + 1) % s.ringSize q k, inlined := (s.ring q k).inlined.filter (fun i => i.1 != (s.ring q k).sqHead) } :=
  s.setRing_ring_same q k _

theorem State.takesIn_history (s : State) (q k : Nat) (x : Entry) (q' k' : Nat) : ((s.takesIn q k x).ring q' k').history = (s.ring q' k').history := by
  show ((s.setRing q k _).ring q' k').history = _
  rw [State.setRing_ring]
  split
  · next h => rw [s.ring_of_key h]
  · rfl

theorem State.accepts_keeps (s : State) (q k : Nat) (x : Entry) : s.keeps (s.accepts q k x) [.mem, .ports, .rings, .entries, .accepted] :=
  State.keeps_step (State.keeps_mono (s.takesIn_keeps q k x) (by decide)) (State.writeRingRecord_keeps _ q k)

theorem State.accepts_takesIn (s : State) (q k : Nat) (x : Entry) : (s.takesIn q k x).keeps (s.accepts q k x) [.mem, .ports] :=
  State.writeRingRecord_keeps _ q k

theorem State.accepts_entries (s : State) (q k : Nat) (x : Entry) : (s.accepts q k x).entries = s.entries ++ [x] :=
  s.accepts_takesIn q k x .entries (by decide)

theorem submissionEntryAccept_takes {s : State} {q k : Nat} {x : Entry} (hact : (s.ring q k).active = true)
    (hnext : (s.ring q k).sqHead ≠ (s.ring q k).sqTail) (hheld : s.submitHeld q k = false) (hlink : (s.port q).linkUp = true)
    (hx : x = { acc := s.accepted + 1, port := q, ring := k, func := s.ringFunc q k, admin := s.isAdmin q (s.ringFunc q k),
                bytes := (match (s.ring q k).inlined.find? (fun i => i.1 == (s.ring q k).sqHead) with
                  | some i => i.2
                  | none => s.rdBytes (spaceKey (4 + q) (s.addr (.rqAddr q k 0) (.rqAddr q k 1) + 64 * (s.ring q k).sqHead)) 64),
                st := .ready, home := (q, k) }) :
    submissionEntryAccept s q k =
      if !x.formOk ∨ !s.entryAllowed x then (s.accepts q k x).invalid x.acc else (s.accepts q k x).startWait x := by
  have hgoes : ¬(!(s.ring q k).active ∨ (s.ring q k).sqHead = (s.ring q k).sqTail ∨ s.submitHeld q k ∨ !(s.port q).linkUp) := by
    simp [hact, hnext, hheld, hlink]
  subst hx
  exact if_neg hgoes

section
variable {s : State} {q k : Nat} {x : Entry} (hfresh : ∀ y ∈ s.entries, y.acc ≤ s.accepted) (hacc : x.acc = s.accepted + 1)
include hfresh hacc

theorem State.accepts_ne {y : Entry} (hy : y ∈ s.entries) : y.acc ≠ x.acc := by
  have := hfresh y hy
  omega

theorem State.accepts_entry : (s.accepts q k x).entry x.acc = some x := by
  have hnone : s.entries.find? (fun y => y.acc == x.acc) = none :=
    List.find?_eq_none.2 fun y hy => by simpa using State.accepts_ne hfresh hacc hy
  rw [State.entry, s.accepts_entries, List.find?_append, hnone]
  simp

theorem State.startWait_holds (hw : bitAt x.wait 63 = true) (h : ∃ y ∈ s.entries, (y.port, y.ring, y.tag) = x.waitsOn) :
    (s.accepts q k x).startWait x = (s.accepts q k x).setEntry x.acc (fun y => { y with st := .waiting }) := by
  obtain ⟨y, hy, hyw⟩ := h
  have hany : (s.accepts q k x).entries.any (fun y => y.acc != x.acc && y.port == x.waitsOn.1 && y.ring == x.waitsOn.2.1 && y.tag == x.waitsOn.2.2) = true := by
    rw [s.accepts_entries]
    refine List.any_eq_true.2 ⟨y, List.mem_append_left _ hy, ?_⟩
    simp [← hyw, State.accepts_ne hfresh hacc hy]
  simp only [State.startWait, hw, hany, Bool.not_true, Bool.false_eq_true, if_false, if_true]

theorem State.startWait_holds_entries :
    ((s.accepts q k x).setEntry x.acc (fun y => { y with st := .waiting })).entries = s.entries ++ [{ x with st := .waiting }] := by
  simp only [State.setEntry, s.accepts_entries, List.map_append, List.map_cons, List.map_nil, if_true]
  congr 1
  exact (List.map_congr_left fun y hy => if_neg (State.accepts_ne hfresh hacc hy)).trans (List.map_id _)

end

theorem State.startWait_free {s : State} {x : Entry} (hw : bitAt x.wait 63 = false) : s.startWait x = s := by simp [State.startWait, hw]

/-- A wait for a tag that no outstanding entry has, and that is not remembered, is over (R188). -/
theorem State.startWait_forgotten {s : State} {q k : Nat} {x : Entry} (hnone : ∀ y ∈ s.entries, (y.port, y.ring, y.tag) ≠ x.waitsOn)
    (hforgot : ∀ h ∈ (s.ring x.waitsOn.1 x.waitsOn.2.1).history, h.1 ≠ x.waitsOn.2.2) : (s.accepts q k x).startWait x = s.accepts q k x := by
  have hany : (s.accepts q k x).entries.any (fun y => y.acc != x.acc && y.port == x.waitsOn.1 && y.ring == x.waitsOn.2.1 && y.tag == x.waitsOn.2.2) = false := by
    rw [s.accepts_entries]
    refine List.any_eq_false.2 fun y hy => ?_
    rcases List.mem_append.1 hy with hy | hy
    · have hne := hnone y hy
      intro h
      simp only [Bool.and_eq_true, beq_iff_eq] at h
      exact hne (Prod.ext h.1.1.2 (Prod.ext h.1.2 h.2))
    · simp [List.mem_singleton.1 hy]
  have hfind : ((s.accepts q k x).ring x.waitsOn.1 x.waitsOn.2.1).history.find? (fun h => h.1 == x.waitsOn.2.2) = none := by
    rw [State.ring_of_keeps (s.accepts_takesIn q k x) (by decide), s.takesIn_history]
    exact List.find?_eq_none.2 fun h hh => by simpa using hforgot h hh
  simp only [State.startWait, hany, hfind, Bool.false_eq_true, if_false, ite_self]

theorem State.judgeWait_keeps (s : State) (x : Entry) (st : Nat) : s.keeps (s.judgeWait x st) [.entries, .rings] := by
  simp only [State.judgeWait]
  split
  · exact State.keeps_mono (s.setEntry_keeps _ _) (by decide)
  · exact s.endEntry_keeps _ _

theorem State.judgeWait_sameIndices (s : State) (x : Entry) (st q k : Nat) : s.sameIndices (s.judgeWait x st) q k := by
  simp only [State.judgeWait]
  split
  · exact State.sameIndices_of_keeps (s.setEntry_keeps _ _) (by decide) q k
  · exact s.endEntry_sameIndices _ _ q k

theorem State.startWait_keeps (s : State) (x : Entry) : s.keeps (s.startWait x) [.entries, .rings] := by
  simp only [State.startWait]
  split
  · exact s.keeps_refl _
  · split
    · exact State.keeps_mono (s.setEntry_keeps _ _) (by decide)
    · split
      · exact s.judgeWait_keeps _ _
      · exact s.keeps_refl _

theorem State.startWait_sameIndices (s : State) (x : Entry) (q k : Nat) : s.sameIndices (s.startWait x) q k := by
  simp only [State.startWait]
  split
  · exact s.sameIndices_refl q k
  · split
    · exact State.sameIndices_of_keeps (s.setEntry_keeps _ _) (by decide) q k
    · split
      · exact s.judgeWait_sameIndices _ _ q k
      · exact s.sameIndices_refl q k

/-- Settles O10: what acceptance does to the pair and the memory, then how the entry starts. -/
theorem acceptanceTakesTheNextEntry : Obligations.AcceptanceTakesTheNextEntry := by
  intro s q k x _ _ hact hnext hheld hlink hfresh hx
  have hacc : x.acc = s.accepted + 1 := congrArg Entry.acc hx
  have hparked : x.parked = none := congrArg Entry.parked hx
  have htakes := submissionEntryAccept_takes hact hnext hheld hlink hx
  obtain ⟨u, hu⟩ : ∃ u, submissionEntryAccept s q k = u := ⟨_, rfl⟩
  obtain ⟨hkeeps, hindices⟩ : (s.accepts q k x).keeps u [.entries, .rings] ∧ (s.accepts q k x).sameIndices u q k := by
    rw [← hu, htakes]
    split
    · exact ⟨State.endEntry_keeps _ _ _, State.endEntry_sameIndices _ _ _ q k⟩
    · exact ⟨State.startWait_keeps _ _, State.startWait_sameIndices _ _ q k⟩
  have hstarts (hform : x.formOk = true) (hallowed : s.entryAllowed x = true) : u = (s.accepts q k x).startWait x := by
    rw [← hu, htakes, if_neg (by simp [hform, hallowed])]
  obtain ⟨l, h, hring⟩ := hindices
  rw [State.ring_of_keeps (s.accepts_takesIn q k x) (by decide), s.takesIn_ring] at hring
  refine State.gives_of_finish (congrArg finish hu) ⟨?_, congrArg Ring.sqHead hring, (congrArg Ring.sqTail hring :), fun hform hallowed hw => ?_,
    fun hform hallowed hw hholds => ?_, fun hform hallowed hw hnone hforgot => ?_, fun hbad => ?_, fun j hj => ?_, State.keeps_settled ?_⟩
  · exact (hkeeps .accepted (by decide)).trans (s.accepts_takesIn q k x .accepted (by decide))
  · rw [hstarts hform hallowed, State.startWait_free hw]
    exact s.accepts_entries q k x
  · rw [hstarts hform hallowed, State.startWait_holds hfresh hacc hw hholds]
    exact State.startWait_holds_entries hfresh hacc
  · rw [hstarts hform hallowed, State.startWait_forgotten hnone hforgot]
    exact s.accepts_entries q k x
  · have hinvalid : u = (s.accepts q k x).invalid x.acc := by
      rw [← hu, htakes, if_pos]
      rw [Bool.and_eq_false_iff] at hbad
      simpa using hbad
    rw [hinvalid]
    exact State.completed_settle (State.endEntry_completed stInvalid (State.accepts_entry hfresh hacc) hparked)
  · have hrec : (s.takesIn q k x).recordKeyOf q k = spaceKey (4 + q) (s.addr (.rqAddr q k 4) (.rqAddr q k 5)) := rfl
    rw [settle_rd, hkeeps .mem (by decide) j]
    exact (State.writeRingRecord_keepsMem _ q k j (hrec ▸ hj)).trans (s.takesIn_keeps q k x .mem (by decide) j)
  · exact State.keeps_step (s.accepts_keeps q k x) hkeeps

-- ## Waits and fences (R188, R194)

theorem waitSatisfied_judges {s : State} {e st : Nat} {x : Entry} (hx : s.entry e = some x) (hst : x.st = .waiting) (hdone : x.waitDone = some st) :
    waitSatisfied s e = s.judgeWait x st := by simp [waitSatisfied, hx, hst, hdone]

theorem State.fenceOpen_of_done {s : State} {x : Entry}
    (he : ∀ y ∈ s.entries, y.acc < x.acc → ¬(if bitAt x.arg0 0 then y.part = x.part else (y.port, y.ring) = (x.port, x.ring)))
    (hr : ∀ r ∈ s.rings, ∀ c ∈ r.2.held, c.acc < x.acc → ¬(if bitAt x.arg0 0 then c.part = x.part else c.origin = (x.port, x.ring))) :
    s.fenceOpen x = true := by
  have hmine (acc part : Nat) (o : Nat × Nat) (h : acc < x.acc → ¬(if bitAt x.arg0 0 then part = x.part else o = (x.port, x.ring))) :
      (!(decide (acc < x.acc) && (if bitAt x.arg0 0 then part == x.part else o == (x.port, x.ring)))) = true := by
    by_cases hacc : acc < x.acc
    · have := h hacc
      cases hscope : bitAt x.arg0 0 <;> simp_all
    · simp [hacc]
  simp only [State.fenceOpen, Bool.and_eq_true, List.all_eq_true]
  exact ⟨fun y hy => hmine _ _ _ (he y hy), fun r hr' c hc => hmine _ _ _ (hr r hr' c hc)⟩

/-- Settles O11: a judged wait frees or cancels, and an open FENCE completes. -/
theorem waitsAndFencesDecide : Obligations.WaitsAndFencesDecide := by
  refine ⟨fun s e x st hx hst hparked hdone => ⟨fun hok => ?_, fun hany hfail => ?_⟩, fun s e x hstart => ⟨fun he hr => ?_, fun hshut => ?_⟩⟩
  · have hexec : exec (.waitSatisfied e) s = finish (s.setEntry x.acc (fun y => { y with st := .ready })) :=
      congrArg finish ((waitSatisfied_judges hx hst hdone).trans (if_pos hok))
    rw [State.entry_acc hx] at hexec
    exact State.gives_of_finish hexec ⟨State.setEntry_entry s e (fun y => { y with st := .ready }) (fun _ => rfl) x hx, State.keeps_settled (s.setEntry_keeps _ _)⟩
  · have hexec : exec (.waitSatisfied e) s = finish (s.endEntry x.acc stCancelled) :=
      congrArg finish ((waitSatisfied_judges hx hst hdone).trans (if_neg (by simp [hany, hfail])))
    rw [State.entry_acc hx] at hexec
    exact State.gives_of_finish hexec ⟨State.completed_settle (State.endEntry_completed _ hx hparked), State.keeps_settled (s.endEntry_keeps _ _)⟩
  · obtain ⟨hx, hparked⟩ := State.startable_some hstart
    have hexec : exec (.fence e) s = finish (s.complete e stOK 0) := by
      show finish (fence s e) = _
      simp only [fence, hstart, State.fenceOpen_of_done he hr, if_true]
    exact State.gives_of_finish hexec ⟨State.completed_settle (State.complete_completed s e stOK 0 x hx hparked), State.keeps_settled (s.complete_keeps _ _ _)⟩
  · show finish (fence s e) = _
    simp only [fence, hstart, hshut, Bool.false_eq_true, if_false]
    rfl

-- ## QUERY (R191, R192, R221)

theorem State.writeJobPage_keeps (s : State) (p : Nat) : s.keeps (s.writeJobPage p) [.mem, .ports, .parts] := by
  unfold State.writeJobPage
  split
  · exact s.keeps_refl _
  · exact State.keeps_step (State.keeps_mono (s.setPart_keeps p _) (by decide)) (State.putPage_keeps _ _ _ _ _)

theorem State.queryMgrPage_keeps (s : State) (p : Nat) : s.keeps (s.queryMgrPage p) [.manager, .mem, .ports] := by
  unfold State.queryMgrPage
  split
  · exact s.writeMgrPage_keeps _
  · exact s.keeps_refl _

theorem State.unstatedCode_keeps (s : State) : s.keeps s.unstatedCode.2 [.draws] := by
  intro f hf
  cases f <;> simp_all [Field.same, State.unstatedCode, State.draw, State.rd]

/-- A command that completes its entry once other parts of the state have changed. -/
theorem State.gives_of_answer {s u : State} {c : Instr} {x : Entry} {st res : Nat} {fs : List Field} (h : exec c s = finish (u.complete x.acc st res))
    (hk : s.keeps u fs) (hf : Field.entries ∉ fs) (hx : s.entry x.acc = some x) (hparked : x.parked = none) (gs : List Field)
    (hfg : ∀ f ∈ fs, f ∈ gs := by decide) (hgs : Field.entries ∈ gs ∧ Field.rings ∈ gs := by decide) :
    s.gives c (fun t => State.completed x st res t ∧ s.keeps t gs) := by
  have hentry : u.entry x.acc = some x := (congrArg (List.find? _) (hk .entries hf)).trans hx
  refine State.gives_of_finish h ⟨State.completed_settle (State.complete_completed u _ st res x hentry hparked),
    State.keeps_settled (State.keeps_step (State.keeps_mono hk hfg) (u.complete_keeps _ _ _) ?_)⟩
  intro f hf
  rcases List.mem_cons.1 hf with rfl | hf
  · exact hgs.1
  · exact List.mem_singleton.1 hf ▸ hgs.2

/-- Settles O37: each kind of QUERY writes its pages or draws its code, and completes its entry. -/
theorem queryAnswers : Obligations.QueryAnswers := by
  intro s e x hx hop hst hparked hfence
  obtain rfl := State.entry_acc hx
  have hquery : exec (.query x.acc) s = finish (query s x.acc) := rfl
  simp only [query, hx, hop, hst, hfence, ne_eq, not_true, false_and, or_self, if_false, Bool.false_eq_true] at hquery
  refine ⟨fun hk => ?_, fun hk => ?_, fun hk => ?_, fun hk => ?_⟩
  · rw [hk] at hquery
    have hpages := State.keeps_step (State.keeps_step (State.keeps_mono (s.writePartPage_keeps x.part) (by decide))
      (State.writeFabricPage_keeps _)) (State.writeRetirePage_keeps _) (fs := [.mem, .ports, .parts, .fabric, .genRetire])
    exact State.gives_of_answer hquery hpages (by decide) hx hparked _
  · rw [hk] at hquery
    have hpages := State.keeps_step (State.keeps_mono (s.writeJobPage_keeps x.part) (by decide)) (State.queryMgrPage_keeps _ x.part)
      (fs := [.mem, .ports, .parts, .manager])
    exact State.gives_of_answer hquery hpages (by decide) hx hparked _
  · rw [hk] at hquery
    have hrecord := State.keeps_step (State.keeps_mono s.unstatedCode_keeps (by decide)) (State.writeRingRecord_keeps _ x.port x.ring)
      (fs := [.mem, .ports, .draws])
    obtain ⟨t, ht, hdone, hkeeps⟩ := State.gives_of_answer hquery hrecord (by decide) hx hparked [.mem, .ports, .entries, .rings, .draws]
    exact ⟨t, ht, ⟨_, hdone⟩, hkeeps⟩
  · have hentry : exec (.query x.acc) s =
        finish (s.unstatedCode.2.complete x.acc (if s.enableHeld x then stRestartPending else stOK) s.unstatedCode.1) := by
      rw [hquery]
      split
      · omega
      · omega
      · omega
      · rfl
    obtain ⟨t, ht, hdone, hkeeps⟩ := State.gives_of_answer hentry s.unstatedCode_keeps (by decide) hx hparked [.entries, .rings, .draws]
    exact ⟨t, ht, ⟨_, hdone⟩, hkeeps⟩

end Sys2Proof.Machine
end

section
/-!
PROOFS. The host reads of HOST_WAIT nodes (O9): what a poll issues, and WAIT_KICK over the nodes of the function's partitions.
-/

namespace Sys2Proof.Machine

-- ## PCIe reads (R241)

/-- A node with `n` more missing acknowledgements. -/
def Node.awaits (n : Nat) (y : Node) : Node := { y with acks := y.acks + n }

theorem State.addAck_node (s : State) (d n : Nat) : s.addAck (.node d n) = s.setNode d n (Node.awaits 1) := by
  simp only [State.addAck, State.setNode, State.setDraft]
  congr 1
  refine List.map_congr_left fun x _ => ?_
  split
  · congr 1
    refine List.ext_getElem? fun i => ?_
    rw [List.getElem?_modify, List.getElem?_map, List.getElem?_zipIdx]
    cases x.nodes[i]? with
    | none => rfl
    | some y => by_cases hi : i = n <;> simp [hi, Node.awaits, eq_comm]
  · rfl

theorem Node.awaits_awaits (m n : Nat) (y : Node) : (y.awaits m).awaits n = y.awaits (m + n) := by rw [Node.awaits, Node.awaits, Node.awaits, Nat.add_assoc]

/-- The requests of a node have gone to the host: what has left, what is outstanding, and the node's missing acknowledgements. -/
def State.asked (s t : State) (d n q f : Nat) (y : Node) (rs : List (Nat × Nat)) : Prop :=
  t.out = s.out ++ rs.map (fun r => .hostRead q f r.1 r.2) ∧ t.hostReads = s.hostReads ++ rs.map (fun _ => (q, .node d n)) ∧
  t.node d n = some (y.awaits rs.length) ∧ s.keeps t [.out, .hostReads, .drafts]

/-- One request goes to the host. -/
def State.askOne (q f d n : Nat) (s : State) (r : Nat × Nat) : State :=
  (({ s with hostReads := s.hostReads ++ [(q, .node d n)] } : State).emit (.hostRead q f r.1 r.2)).addAck (.node d n)

theorem State.askOne_asks {s : State} {d n : Nat} {y : Node} (q f : Nat) (r : Nat × Nat) (hy : s.node d n = some y) :
    s.asked (State.askOne q f d n s r) d n q f y [r] := by
  rw [State.askOne, State.addAck_node]
  refine ⟨rfl, rfl, State.setNode_node_same _ hy, ?_⟩
  refine State.keeps_step (t := { s with hostReads := s.hostReads ++ [(q, .node d n)] }) ?_
    (State.keeps_step (State.keeps_mono (State.emit_keeps _ _) (by decide)) (State.setDraft_keeps _ _ _) (fs := [.out, .drafts]))
  intro g hg
  cases g <;> simp_all [Field.same, State.rd]

theorem State.foldl_askOne_asks (q f d n : Nat) (rs : List (Nat × Nat)) : ∀ {s : State} {y : Node}, s.node d n = some y →
    s.asked (rs.foldl (State.askOne q f d n) s) d n q f y rs := by
  induction rs with
  | nil => exact fun hy => ⟨by simp, by simp, hy, State.keeps_refl _ _⟩
  | cons r rs ih =>
    intro s y hy
    obtain ⟨hout, hreads, hnode, hkeeps⟩ := State.askOne_asks q f r hy
    obtain ⟨hout', hreads', hnode', hkeeps'⟩ := ih hnode
    refine ⟨?_, ?_, ?_, State.keeps_trans hkeeps hkeeps'⟩
    · rw [List.foldl_cons, hout', hout, List.append_assoc]
      rfl
    · rw [List.foldl_cons, hreads', hreads, List.append_assoc]
      rfl
    · rw [List.foldl_cons, hnode', Node.awaits_awaits, Nat.add_comm]
      rfl

theorem State.askReads_eq (s : State) (d n q f off len : Nat) :
    s.askReads (.node d n) q f off len = (s.hostRequests q off len).foldl (State.askOne q f d n) s := rfl

/-- What is brought from a host window is asked of the host at once. -/
theorem State.bring_host {s : State} {c : Ctx} {a n : Nat} (iss : Issuer) (hn : n ≠ 0) (hl : s.isLocal a = true) (hsp : gSpace a = 4 ∨ gSpace a = 5)
    (hr : s.readErr c a n = none) : s.bring c iss a n = (s.askReads iss (gSpace a - 4) (s.requester c) (gOffset a) n, none) := by
  have hpass : s.pass c a n false = s := if_pos (by simp [show 2 ≤ gSpace a by omega])
  simp [State.bring, State.mayRead, hr, hl, hpass, Try.andThen, hn, hsp]

-- ## A poll (R207)

/-- A running HOST_WAIT node of a partition that runs, whose semaphore lies in a host window that it may read. -/
structure State.PollsHost (s : State) (d n : Nat) (x : Draft) (y : Node) : Prop where
  draft : s.draft d = some x
  node : s.node d n = some y
  kind : y.kind = 0xA
  running : y.st = .running
  runs : s.runs x.part = true
  isLocal : s.isLocal (y.arg 104 8) = true
  window : gSpace (y.arg 104 8) = 4 ∨ gSpace (y.arg 104 8) = 5
  readable : s.readErr (nodeCtx x y) (y.arg 104 8) 8 = none

theorem State.PollsHost.asks {s : State} {d n : Nat} {x : Draft} {y : Node} (h : s.PollsHost d n x y) :
    s.asked (s.pollWait d n) d n (gSpace (y.arg 104 8) - 4) (s.requester (nodeCtx x y)) y
      (s.hostRequests (gSpace (y.arg 104 8) - 4) (gOffset (y.arg 104 8)) 8) := by
  have hpoll : s.pollWait d n = s.askReads (.node d n) (gSpace (y.arg 104 8) - 4) (s.requester (nodeCtx x y)) (gOffset (y.arg 104 8)) 8 := by
    simp only [State.pollWait, h.draft, h.node, h.kind, h.running, h.runs, and_self, if_true,
      State.bring_host (.node d n) (by decide) h.isLocal h.window h.readable]
  rw [hpoll, State.askReads_eq]
  exact State.foldl_askOne_asks _ _ d n _ h.node

/-- Eight bytes within one line take one aligned read of 64 bytes: a request's limit is a multiple of the line. -/
theorem State.hostRequests_line (s : State) (q o : Nat) (ho : o % 64 ≤ 56) : s.hostRequests q o 8 = [(o / 64 * 64, 64)] := by
  obtain ⟨e, he⟩ : ∃ e, 2 ^ min (s.func q 0).payload (s.func q 0).request = e := ⟨_, rfl⟩
  obtain ⟨k, hk⟩ : ∃ k, o / 64 * 64 / (128 * e) = k := ⟨_, rfl⟩
  obtain ⟨w, hw⟩ : ∃ w, k * (2 * e) = w := ⟨_, rfl⟩
  have hpos : 0 < 128 * e := Nat.mul_pos (by decide) (he ▸ Nat.two_pow_pos _)
  have hhi : (o + 8 + 63) / 64 * 64 = o / 64 * 64 + 64 := by omega
  have hstart : k * (128 * e) = 64 * w := by rw [← hw]; ring
  have hlimit (i : Nat) : 64 * (w + 2 * e) ≤ (k + (i + 1)) * (128 * e) := by rw [← hw]; nlinarith [Nat.zero_le (i * e)]
  have hfirst : (k + 0 + 1) * (128 * e) = 64 * (w + 2 * e) := by rw [← hw]; ring
  have hlow : 64 * w ≤ o / 64 * 64 := hstart ▸ hk ▸ Nat.div_mul_le_self _ _
  have hhigh : o / 64 * 64 < 64 * (w + 2 * e) := hfirst ▸ (Nat.div_lt_iff_lt_mul hpos).1 (by omega)
  obtain ⟨n, hn⟩ : ∃ n, (o / 64 * 64 + 64) / (128 * e) + 1 - k = n + 1 := by
    have : k ≤ (o / 64 * 64 + 64) / (128 * e) := hk ▸ Nat.div_le_div_right (by omega)
    exact ⟨(o / 64 * 64 + 64) / (128 * e) - k, by omega⟩
  simp only [State.hostRequests, he, hhi, hk, hn, List.range_succ_eq_map, List.filterMap_cons, List.filterMap_map, Nat.add_zero, hstart, hfirst]
  rw [Nat.max_eq_left hlow, Nat.min_eq_left (by omega), if_pos (by omega), List.filterMap_eq_nil_iff.2, Nat.add_sub_cancel_left]
  intro i _
  have := hlimit i
  exact if_neg (by simp only [Nat.succ_eq_add_one]; omega)

-- ## WAIT_KICK

/-- The running HOST_WAIT nodes of the partitions that a function owns, by draft. -/
def State.kicked (s : State) (q f : Nat) : List (Nat × Nat) :=
  s.drafts.flatMap (fun d => if s.owns q f d.part then
    (d.nodes.zipIdx.filter (fun ni => ni.1.kind == 0xA && ni.1.st == .running)).map (fun ni => (d.id, ni.2)) else [])

theorem waitKick_polls {s : State} {q f k v : Nat} (hd : s.doorbell q f k = true) (hv : bitAt v 0 = true) :
    waitKick s q f k v = (s.kicked q f).foldl (fun s dn => s.pollWait dn.1 dn.2) s := by
  simp only [waitKick, hd, hv, Bool.not_true, Bool.false_eq_true, or_self, if_false]
  rfl

theorem State.kicked_none {s : State} {q f : Nat}
    (h : ∀ x ∈ s.drafts, s.owns q f x.part = true → ∀ y ∈ x.nodes, ¬(y.kind = 0xA ∧ y.st = .running)) : s.kicked q f = [] := by
  refine List.flatMap_eq_nil_iff.2 fun x hx => ?_
  split
  · next ho =>
    rw [List.map_eq_nil_iff, List.filter_eq_nil_iff]
    intro ni hni
    simpa using h x hx ho ni.1 (List.fst_mem_of_mem_zipIdx hni)
  · rfl

theorem filter_zipIdx_one {α : Type} (p : α → Bool) (l : List α) : ∀ {k n : Nat} {y : α}, l[n]? = some y → p y = true →
    (∀ m z, l[m]? = some z → p z = true → m = n) → (l.zipIdx k).filter (fun i => p i.1) = [(y, k + n)] := by
  induction l with
  | nil => intro k n y hy; simp at hy
  | cons a l ih =>
    intro k n y hy hp hone
    rw [List.zipIdx_cons]
    cases n with
    | zero =>
      obtain rfl : a = y := by simpa using hy
      have hrest : (l.zipIdx (k + 1)).filter (fun i => p i.1) = [] := by
        refine List.filter_eq_nil_iff.2 fun i hi hpi => ?_
        obtain ⟨m, hm⟩ := List.mem_iff_getElem?.1 (List.fst_mem_of_mem_zipIdx hi)
        exact absurd (hone (m + 1) i.1 (by simpa using hm) hpi) (by omega)
      rw [List.filter_cons_of_pos (by simpa using hp), hrest, Nat.add_zero]
    | succ n =>
      have ha : ¬ p a = true := fun ha => absurd (hone 0 a rfl ha) (by omega)
      rw [List.filter_cons_of_neg (by simpa using ha), ih (by simpa using hy) hp (fun m z hm hz => Nat.succ.inj (hone (m + 1) z (by simpa using hm) hz)),
        show k + 1 + n = k + (n + 1) by omega]

theorem State.kicked_one {s : State} {q f n : Nat} {x : Draft} {y : Node} (hds : s.drafts = [x]) (ho : s.owns q f x.part = true)
    (hy : x.nodes[n]? = some y) (hkind : y.kind = 0xA) (hst : y.st = .running)
    (hone : ∀ m z, x.nodes[m]? = some z → z.kind = 0xA → z.st = .running → m = n) : s.kicked q f = [(x.id, n)] := by
  have hfilter := filter_zipIdx_one (fun y => y.kind == 0xA && y.st == .running) x.nodes (k := 0) hy (by simp [hkind, hst])
    (fun m z hm hz => by
      rw [Bool.and_eq_true, beq_iff_eq, beq_iff_eq] at hz
      exact hone m z hm hz.1 hz.2)
  rw [State.kicked, hds, List.flatMap_cons, List.flatMap_nil, List.append_nil, if_pos ho, hfilter, List.map_singleton, Nat.zero_add]

/-- Settles O9: one poll by `PollsHost.asks`, WAIT_KICK by the nodes it polls. -/
theorem hostWaitReadsAreIssued : Obligations.HostWaitReadsAreIssued := by
  refine ⟨fun s d n x y hx hy hkind hst hruns hl hsp hr => ?_, fun s q o ho => s.hostRequests_line q o ho,
    fun s q f k v hs harr hact hf hv hnone => ?_, fun s q f k v n x y hs harr hact hf hv hds ho hy hkind hst hone hruns hl hsp hr => ?_⟩
  · obtain ⟨hout, hreads, hnode, hkeeps⟩ := State.PollsHost.asks ⟨hx, hy, hkind, hst, hruns, hl, hsp, hr⟩
    exact State.gives_of_finish (u := s.pollWait d n) rfl ⟨hout, hreads, hnode, State.keeps_settled hkeeps⟩
  · have hkick : waitKick s q f k v = s := by
      rw [waitKick_polls (State.doorbell_of_owner harr hact hf) hv, State.kicked_none hnone, List.foldl_nil]
    exact congrArg finish (State.via_wake (g := fun s => waitKick s q f k v) harr hs hkick (s.keeps_refl []) (by decide))
  · have hdraft : s.draft x.id = some x := by simp [State.draft, hds]
    have hkick : waitKick s q f k v = s.pollWait x.id n := by
      rw [waitKick_polls (State.doorbell_of_owner harr hact hf) hv, State.kicked_one hds ho hy hkind hst hone, List.foldl_cons, List.foldl_nil]
    obtain ⟨hout, hreads, -, hkeeps⟩ := State.PollsHost.asks (n := n) ⟨hdraft, by simp [State.node, hdraft, hy], hkind, hst, hruns, hl, hsp, hr⟩
    exact State.gives_of_finish (congrArg finish (State.via_wake (g := fun s => waitKick s q f k v) harr hs hkick hkeeps (by decide)))
      ⟨hout, hreads, State.keeps_settled hkeeps⟩

end Sys2Proof.Machine
end

section
/-!
PROOFS. Step sizes and freezes (O40): the writes of a command in local HBM, one after the other.
-/

namespace Sys2Proof.Machine

-- ## What an accepted write says of its range (R64, R67)

theorem State.allowed_of_writeErr {s : State} {c : Ctx} {a n : Nat} (hl : s.isLocal a = true) (hn : n ≠ 0) (hw : s.writeErr c a n = none) :
    s.allowed c a n true = true := by
  by_contra h
  rw [Bool.not_eq_true] at h
  simp [State.writeErr, hn, hl, h] at hw

/-- The 4 KiB boundary at which a range would leave its space is among the checked places. -/
theorem State.end_of_allowed {s : State} {c : Ctx} {a n : Nat} {w : Bool} (h : s.allowed c a n w = true) : gOffset a + n ≤ 2 ^ 48 := by
  by_contra hend
  obtain ⟨b, hb⟩ : ∃ b, b = (a / 2 ^ 48 + 1) * 2 ^ 48 := ⟨_, rfl⟩
  have hoff : gOffset a = a % 2 ^ 48 := rfl
  have hmem : b ∈ checkPoints a n := by
    rw [checkPoints, if_neg (by omega)]
    refine List.mem_cons_of_mem _ (List.mem_cons_of_mem _ (List.mem_filter.2 ⟨List.mem_map.2 ⟨b / 4096 - a / 4096 - 1, ?_, ?_⟩, ?_⟩))
    · rw [List.mem_range]
      omega
    · omega
    · rw [decide_eq_true_eq]
      omega
  have hall := List.all_eq_true.1 h b hmem
  simp only [Bool.and_eq_true, beq_iff_eq, gSpace] at hall
  omega

theorem State.offset_of_allowed {s : State} {c : Ctx} {a n : Nat} {w : Bool} (hn : n ≠ 0) (h : s.allowed c a n w = true) :
    offsetValid (gSpace a) (gOffset a) = true := by
  have hall := List.all_eq_true.1 h a (by simp [checkPoints, hn])
  simp only [Bool.and_eq_true] at hall
  obtain ⟨⟨hbyte, -⟩, -⟩ := hall
  unfold State.byteAllowed at hbyte
  exact (Bool.and_eq_true _ _ ▸ hbyte).1

/-- What lies `k` bytes further in the same space lies in the same module. -/
theorem State.isLocal_add {s : State} {a k : Nat} (h : gOffset a + k < 2 ^ 48) : s.isLocal (a + k) = s.isLocal a := by
  have hmod : gModule (a + k) = gModule a := by
    simp only [gModule, gOffset] at *
    omega
  simp only [State.isLocal, hmod]

-- ## Writes that memory and the controllers take

/-- Only memory and the controllers' record differ; units lie where they lay, the same controllers serve, and clean lines are clean. -/
def State.stores (s t : State) : Prop :=
  t = { s with mem := t.mem, memCtl := t.memCtl } ∧ t.memCtl.gates = s.memCtl.gates ∧ (s.memCtl.clean → t.memCtl.clean)

theorem State.stores_refl (s : State) : s.stores s := ⟨rfl, rfl, id⟩

theorem State.stores_trans {s t u : State} (h1 : s.stores t) (h2 : t.stores u) : s.stores u :=
  ⟨h2.1.trans (by rw [h1.1]), h2.2.1.trans h1.2.1, h2.2.2 ∘ h1.2.2⟩

theorem State.stores_of_passes {s t : State} (h : s.passes t) : s.stores t := ⟨h.1.trans (by rw [h.1]), h.2⟩

theorem State.stores_flips {s t : State} (h : s.stores t) : t.flips = s.flips := by rw [h.1]; rfl

theorem State.stores_dataKey {s t : State} (h : s.stores t) (sp o : Nat) : t.dataKey sp o = s.dataKey sp o := State.dataKey_of_gates h.2.1 sp o

theorem State.stores_keeps {s t : State} (h : s.stores t) : s.keeps t [.mem, .memCtl] := by
  rw [h.1]
  intro f hf
  cases f <;> simp_all [Field.same]

/-- Whether a write may be made turns neither on memory nor, where every line is clean, on the controllers' record. -/
theorem State.writeErr_of_stores {s t : State} (h : s.stores t) (hs : s.memCtl.clean) (c : Ctx) (a n : Nat) : t.writeErr c a n = s.writeErr c a n := by
  have ht := h.2.2 hs
  have heq := h.1
  unfold State.writeErr
  rw [State.partialPoison_of_clean hs, State.partialPoison_of_clean ht, heq]
  rfl

theorem State.cure_stores (s : State) (c : Ctx) (a n : Nat) : s.stores (s.cure c a n) := by
  unfold State.cure
  split
  · exact s.stores_refl
  · exact ⟨rfl, rfl, fun hs => ⟨by simp [hs.1], hs.2.1, hs.2.2⟩⟩

theorem State.writeAt_stores (s : State) {c : Ctx} (hh : c.held = false) (a : Nat) (bs : List Byte) : s.stores (s.writeAt c a bs) := by
  have hwrs : ∀ (l : List (Nat × Byte)) (u : State), u.stores (l.foldl (fun u ib => u.wr (u.keyOf c (a + ib.1) true) ib.2) u) := by
    intro l
    induction l with
    | nil => exact fun u => u.stores_refl
    | cons p l ih => exact fun u => State.stores_trans ⟨rfl, rfl, id⟩ (ih _)
  simp only [State.writeAt, hh, Bool.false_eq_true, if_false]
  exact State.stores_trans (State.stores_of_passes (State.passes_trans (s.storeLines_passes _ _ _) (State.pass_passes _ _ _ _ _))) (hwrs _ _)

theorem State.put_taken {s : State} {c : Ctx} {iss : Issuer} {a : Nat} {bs : List Byte} (hl : s.isLocal a = true) (hsp : gSpace a ≤ 1) (hne : bs ≠ [])
    (hw : s.writeErr c a bs.length = none) : s.put c iss a bs = ((s.cure c a bs.length).writeAt c a bs, none) := by
  have h2 : gSpace a ≠ 2 := by omega
  have h8 : gSpace a ≠ 8 := by omega
  have h4 : ¬ 4 ≤ gSpace a := by omega
  unfold State.put
  rw [hw]
  simp [hl, hne, h2, h8, h4]

/-- An accepted local write in HBM or tier 2 leaves its bytes where their units lie, and no other byte differs. -/
theorem State.put_holdsData {s : State} {c : Ctx} (iss : Issuer) {a : Nat} {bs : List Byte} (hf : s.flips = []) (hh : c.held = false)
    (hl : s.isLocal a = true) (hsp : gSpace a ≤ 1) (hw : s.writeErr c a bs.length = none) :
    ∃ t, s.put c iss a bs = (t, none) ∧ s.stores t ∧ s.holdsData t (gSpace a) (gOffset a) bs := by
  by_cases hne : bs = []
  · subst hne
    exact ⟨s, s.put_nil c iss a, s.stores_refl, fun i h => absurd h (Nat.not_lt_zero i), fun _ _ => rfl⟩
  · have hcure := s.cure_stores c a bs.length
    have hmem : ∀ k, (s.cure c a bs.length).rd k = s.rd k := (s.cure_keeps c a bs.length) .mem (by decide)
    have hend := State.end_of_allowed (State.allowed_of_writeErr hl (by simpa using hne) hw)
    obtain ⟨hin, hout⟩ := State.writeAt_holdsData ((State.stores_flips hcure).trans hf) hh hsp hend
    refine ⟨_, State.put_taken hl hsp hne hw, State.stores_trans hcure (State.writeAt_stores _ hh _ _), fun i hi => ?_, fun k hk => ?_⟩
    · rw [← State.stores_dataKey hcure]
      exact hin i hi
    · rw [← hmem]
      exact hout k fun i hi => by rw [State.stores_dataKey hcure]; exact hk i hi

/-- Where no flip region stands, the byte that a write reaches is where its unit lies. -/
theorem State.keyOf_add {s : State} (c : Ctx) {a n i : Nat} (hf : s.flips = []) (hsp : gSpace a ≤ 1) (hend : gOffset a + n ≤ 2 ^ 48) (hi : i < n) :
    s.keyOf c (a + i) true = s.dataKey (gSpace a) (gOffset a + i) := by
  have hlt : gOffset a + i < 2 ^ 48 := by omega
  rw [State.keyOf_of_noFlips hf c (by rw [gSpace_add hlt]; exact hsp), gSpace_add hlt, gOffset_add hlt]

-- ## Commands that complete at their boundary

/-- A marked command that changes other parts of the state and then completes. -/
theorem State.marked_completes {s u : State} {x : Entry} {fs : List Field} (st res : Nat) (hx : s.entry x.acc = some x) (hp : x.parked = none)
    (hk : (s.mark x).keeps u fs) (hf : Field.entries ∉ fs) (gs : List Field) (hfg : ∀ f ∈ fs, f ∈ gs := by decide)
    (hgs : Field.entries ∈ gs ∧ Field.rings ∈ gs := by decide) :
    State.completed x st res (settle (u.complete x.acc st res)) ∧ s.keeps (settle (u.complete x.acc st res)) gs := by
  have hentry : u.entry x.acc = (s.mark x).entry x.acc := congrArg (List.find? _) (hk .entries hf)
  refine ⟨State.completed_settle (State.complete_marked st res hentry hx hp), State.keeps_settled ?_⟩
  refine State.keeps_step (State.keeps_step (State.keeps_mono (s.mark_keeps x) ?_) hk hfg) (u.complete_keeps _ _ _) ?_
  · simpa using hgs.1
  · simpa using hgs

theorem State.complete_rd (s : State) (e st res k : Nat) : (s.complete e st res).rd k = s.rd k := (s.complete_keeps e st res) .mem (by decide) k

-- ## STEP_SIZE_WRITE (R383, R384)

theorem stepSizeNow_invalid {s : State} {x y : Entry} (hy : s.entry x.acc = some y)
    (h : s.stepTable x.part = none ∨ 4096 ≤ x.arg0 ∨ s.privileged x.part x.arg0 = true) :
    stepSizeNow s x = s.complete x.acc stInvalid y.result0 := by
  rw [← State.invalid_of_entry hy]
  simp only [stepSizeNow]
  split
  · rfl
  · next a ht =>
    rw [ht] at h
    exact if_pos (h.resolve_left (Option.some_ne_none a))

theorem stepSizeNow_writes {s : State} {x y : Entry} {a : Nat} (hy : s.entry x.acc = some y) (ht : s.stepTable x.part = some a) (hg : x.arg0 < 4096)
    (hp : s.privileged x.part x.arg0 = false) : stepSizeNow s x = (s.setLr x.part a x.arg0 x.arg1 y.pick).complete x.acc stOK 0 := by
  simp [stepSizeNow, ht, hy, Nat.not_le.2 hg, hp]

theorem exec_stepSizeWrite {s : State} {e : Nat} {x : Entry} (hx : s.startable e 0x30 = some x) (hd : s.due x = true) (hb : s.behind x = false) :
    exec (.stepSizeWrite e) s = finish (stepSizeNow (s.mark x) x) :=
  congrArg finish (State.takeEffect_due _ hx hd hb)

-- ## FREEZE_SET (R390, R391)

theorem exec_freezeSet {s : State} {e : Nat} {x : Entry} (hx : s.startable e 0x31 = some x) (hd : s.due x = true) (hb : s.behind x = false) :
    exec (.freezeSet e) s = finishDeferred (freezeNow (s.mark x) x) :=
  congrArg finishDeferred (State.takeEffect_due _ hx hd hb)

section
variable {s : State} {x : Entry} {a : Nat} {bs : List Byte} {news : List (List Byte)} (ht : s.freezeTable x.part = some a) (harg : x.arg0 % 64 = 0)
  (hbs : s.fetch (s.entryCtx x) x.arg0 (64 * x.arg1) = some bs) (hnews : news = (List.range x.arg1).map (fun i => slice bs (64 * i) 64))
include ht harg hbs hnews

theorem freezeNow_invalid {y : Entry} (hy : s.entry x.acc = some y) (hbad : news.all freezeEntryOk = false) :
    freezeNow s x = s.complete x.acc stInvalid y.result0 := by
  rw [← State.invalid_of_entry hy]
  simp [freezeNow, ht, harg, State.need_of_fetch hbs, ← hnews, hbad]

theorem freezeNow_exhausted (hok : news.all freezeEntryOk = true)
    (happly : freezeApply (s.freezeEntries x.part) (le (s.valueAt (partCtx x.part) a 512) 0 512) news = none) :
    freezeNow s x = s.complete x.acc stPoolExhausted 0 := by
  simp [freezeNow, ht, harg, State.need_of_fetch hbs, ← hnews, hok, happly]

theorem freezeNow_writes (hok : news.all freezeEntryOk = true) {es : List (List Byte)} {bits : Nat}
    (happly : freezeApply (s.freezeEntries x.part) (le (s.valueAt (partCtx x.part) a 512) 0 512) news = some (es, bits)) {t : State}
    (hput : (s.put (partCtx x.part) .outside a (leBytes 512 bits)).1.put (partCtx x.part) .outside (a + 1024) es.flatten = (t, none)) :
    freezeNow s x = t.complete x.acc stOK 0 := by
  simp [freezeNow, ht, harg, State.need_of_fetch hbs, ← hnews, hok, happly, hput]

end

/-- Two writes of clean lines in one space, the second `k` bytes above the first: both stand, and no other byte differs. -/
theorem State.put_put_holdsData {s : State} {c : Ctx} (iss : Issuer) {a k : Nat} {bs bs' : List Byte} (hf : s.flips = []) (hs : s.memCtl.clean)
    (hh : c.held = false) (hl : s.isLocal a = true) (hsp : gSpace a ≤ 1) (hk : bs.length ≤ k) (hend : gOffset a + k < 2 ^ 48)
    (hw : s.writeErr c a bs.length = none) (hw' : s.writeErr c (a + k) bs'.length = none) :
    ∃ t, (s.put c iss a bs).1.put c iss (a + k) bs' = (t, none) ∧ s.stores t ∧
      (∀ i, i < bs.length → t.rd (s.dataKey (gSpace a) (gOffset a + i)) = bs.getD i 0) ∧
      (∀ i, i < bs'.length → t.rd (s.dataKey (gSpace a) (gOffset a + k + i)) = bs'.getD i 0) ∧
      ∀ j, (∀ i, i < bs.length → j ≠ s.dataKey (gSpace a) (gOffset a + i)) →
        (∀ i, i < bs'.length → j ≠ s.dataKey (gSpace a) (gOffset a + k + i)) → t.rd j = s.rd j := by
  have hsp' : gSpace (a + k) = gSpace a := gSpace_add hend
  have hoff' : gOffset (a + k) = gOffset a + k := gOffset_add hend
  have hl' : s.isLocal (a + k) = true := (State.isLocal_add hend).trans hl
  have hend' (hne : bs' ≠ []) : gOffset a + k + bs'.length ≤ 2 ^ 48 :=
    hoff' ▸ State.end_of_allowed (State.allowed_of_writeErr hl' (by simpa using hne) hw')
  obtain ⟨u, hput, hstores, hin, hout⟩ := State.put_holdsData iss hf hh hl hsp hw
  have hlu : u.isLocal (a + k) = true := by rw [hstores.1]; exact hl'
  obtain ⟨t, hput', hstores', hin', hout'⟩ := State.put_holdsData iss ((State.stores_flips hstores).trans hf) hh hlu (hsp' ▸ hsp)
    ((State.writeErr_of_stores hstores hs _ _ _).trans hw')
  simp only [hsp', hoff', State.stores_dataKey hstores] at hin' hout'
  refine ⟨t, by rw [hput]; exact hput', State.stores_trans hstores hstores', fun i hi => ?_, fun i hi => ?_, fun j hj hj' => ?_⟩
  · rw [hout' _ fun i' hi' hkey => ?_, hin i hi, List.getD_eq_getElem _ _ hi]
    have := hend' (List.ne_nil_of_length_pos (by omega))
    have := State.dataKey_inj (by omega) (by omega) hkey
    omega
  · rw [hin' i hi, List.getD_eq_getElem _ _ hi]
  · rw [hout' j hj', hout j hj]

/-- Settles O40: what each command does at its boundary, and what it writes. -/
theorem stepSizesAndFreezes : Obligations.StepSizesAndFreezes := by
  refine ⟨fun s e x hx hd hb => ?_, fun s e a x bs news hdef hx hd hb ht harg hbs hnews => ?_⟩
  · obtain ⟨hent, hpark⟩ := State.startable_some hx
    have hexec := exec_stepSizeWrite hx hd hb
    obtain rfl := State.startable_acc hx
    refine ⟨fun a b ht hg hp hbeq hl hsp hf hw => ?_, fun hbad => ?_⟩
    · rw [stepSizeNow_writes (s := s.mark x) (State.mark_entry hent) ht hg hp] at hexec
      obtain ⟨t, hput, hstores, hin, hout⟩ := State.put_holdsData (s := s.mark x) (c := partCtx x.part) (a := b) .outside hf rfl hl (by omega)
        (bs := leBytes 4 x.arg1 ++ leBytes 8 (s.marked x).pick) hw
      have hlr : (s.mark x).setLr x.part a x.arg0 x.arg1 (s.marked x).pick = t := by
        rw [State.setLr, ← hbeq, hput]
      rw [hlr] at hexec
      have hend := State.end_of_allowed (State.allowed_of_writeErr hl (by decide) hw)
      obtain ⟨hdone, hkeeps⟩ := State.marked_completes stOK 0 hent hpark (State.stores_keeps hstores) (by decide) [.mem, .memCtl, .entries, .rings]
      have hkey (i : Nat) (hi : i < 12) : s.keyOf (partCtx x.part) (b + i) true = s.dataKey (gSpace b) (gOffset b + i) :=
        State.keyOf_add _ hf (by omega) hend hi
      refine State.gives_of_finish hexec ⟨fun i hi => ?_, fun k hk => ?_, hdone, hkeeps⟩
      · rw [settle_rd, hkey i hi, State.complete_rd]
        exact (hin i hi).trans (List.getD_eq_getElem _ _ hi).symm
      · rw [settle_rd, State.complete_rd]
        exact hout k fun i hi => hkey i hi ▸ hk i hi
    · rw [stepSizeNow_invalid (s := s.mark x) (State.mark_entry hent) hbad] at hexec
      exact State.gives_of_finish hexec (State.marked_completes _ _ hent hpark (State.keeps_refl _ []) (by decide) _)
  · obtain ⟨hent, hpark⟩ := State.startable_some hx
    have hexec := exec_freezeSet hx hd hb
    obtain rfl := State.startable_acc hx
    have hdone (c : Nat) (res : Nat) := State.marked_completes c res hent hpark (State.keeps_refl (s.mark x) []) (by decide) [.entries, .rings]
    refine ⟨fun hok => ⟨fun es bits happly hl hsp hf hpoison hcorrupt harmed hw hw' => ?_, fun happly => ?_⟩, fun hbad => ?_⟩
    · have hoff := State.offset_of_allowed (by decide) (State.allowed_of_writeErr hl (by decide) hw)
      rw [hsp] at hoff
      have hend : gOffset a + 1024 < 2 ^ 48 := by
        have : gOffset a < 0x6000000000 := of_decide_eq_true hoff
        omega
      have hkey (i : Nat) (hi : i < 512) : s.keyOf (partCtx x.part) (a + i) true = s.dataKey (gSpace a) (gOffset a + i) :=
        State.keyOf_add (n := 512) _ hf (by omega) (by omega) hi
      have hkey' (i : Nat) (hi : i < es.flatten.length) :
          s.keyOf (partCtx x.part) (a + 1024 + i) true = s.dataKey (gSpace a) (gOffset a + 1024 + i) := by
        rw [← gSpace_add hend, ← gOffset_add hend]
        have hl' : s.isLocal (a + 1024) = true := (State.isLocal_add hend).trans hl
        exact State.keyOf_add _ hf (by rw [gSpace_add hend]; omega) (State.end_of_allowed (State.allowed_of_writeErr hl' (by omega) hw')) hi
      obtain ⟨t, hput, hstores, hin, hin', hout⟩ := State.put_put_holdsData (s := s.mark x) (c := partCtx x.part) (a := a) (k := 1024)
        (bs := leBytes 512 bits) (bs' := es.flatten) .outside hf ⟨hpoison, hcorrupt, harmed⟩ rfl hl (by omega) (by simp) hend
        (by rw [length_leBytes]; exact hw) hw'
      rw [length_leBytes] at hin hout
      rw [freezeNow_writes (s := s.mark x) ht harg hbs hnews hok happly hput] at hexec
      obtain ⟨hdone, hkeeps⟩ := State.marked_completes stOK 0 hent hpark (State.stores_keeps hstores) (by decide) [.mem, .memCtl, .entries, .rings]
      refine State.gives_of_finishDeferred hexec (State.deferred_of_keeps hkeeps (by decide) hdef :)
        ⟨fun i hi => ?_, fun i hi => ?_, fun k hk hk' => ?_, hdone, hkeeps⟩
      · rw [settle_rd, State.complete_rd, hkey i hi]
        exact hin i hi
      · rw [settle_rd, State.complete_rd, hkey' i hi]
        exact hin' i hi
      · rw [settle_rd, State.complete_rd]
        exact hout k (fun i hi => hkey i hi ▸ hk i hi) (fun i hi => hkey' i hi ▸ hk' i hi)
    · rw [freezeNow_exhausted (s := s.mark x) ht harg hbs hnews hok happly] at hexec
      exact State.gives_of_finishDeferred hexec (State.deferred_of_keeps (hdone stPoolExhausted 0).2 (by decide) hdef :) (hdone _ _)
    · rw [freezeNow_invalid (s := s.mark x) ht harg hbs hnews (State.mark_entry hent) hbad] at hexec
      exact State.gives_of_finishDeferred hexec (State.deferred_of_keeps (hdone stInvalid (s.marked x).result0).2 (by decide) hdef :) (hdone _ _)

end Sys2Proof.Machine
end

section
/-!
PROOFS. COPY and SIGNAL (O36): pieces of a copy one after another, the request alone at the first selvage shuttle, and one atomic update.
-/

namespace Sys2Proof.Machine

-- ## What the checks of an access read

/-- Registers, partitions, functions and whatever else the checks of an access read are as before; units lie where they lay, the same controllers serve,
and clean lines are clean. -/
def State.sameChecks (s t : State) : Prop :=
  t = { s with mem := t.mem, memCtl := t.memCtl, draws := t.draws, shuttles := t.shuttles, served := t.served } ∧
  t.memCtl.gates = s.memCtl.gates ∧ (s.memCtl.clean → t.memCtl.clean)

theorem State.sameChecks_refl (s : State) : s.sameChecks s := ⟨rfl, rfl, id⟩

theorem State.sameChecks_trans {s t u : State} (h1 : s.sameChecks t) (h2 : t.sameChecks u) : s.sameChecks u :=
  ⟨h2.1.trans (by rw [h1.1]), h2.2.1.trans h1.2.1, h2.2.2 ∘ h1.2.2⟩

theorem State.sameChecks_of_stores {s t : State} (h : s.stores t) : s.sameChecks t := ⟨h.1.trans (by rw [h.1]), h.2⟩

section
variable {s t : State} (h : s.sameChecks t)
include h

theorem State.sameChecks_keeps : s.keeps t [.mem, .memCtl, .draws, .shuttles, .served] := by
  rw [h.1]
  intro f hf
  cases f <;> simp_all [Field.same]

theorem State.sameChecks_flips : t.flips = s.flips := by rw [h.1]; rfl

theorem State.sameChecks_dataKey (sp o : Nat) : t.dataKey sp o = s.dataKey sp o := State.dataKey_of_gates h.2.1 sp o

theorem State.sameChecks_isLocal (a : Nat) : t.isLocal a = s.isLocal a := by rw [h.1]; rfl

theorem State.sameChecks_entryCtx (x : Entry) : t.entryCtx x = s.entryCtx x := by rw [h.1]; rfl

theorem State.sameChecks_runs (p : Nat) : t.runs p = s.runs p := by rw [h.1]; rfl

theorem State.sameChecks_byteAllowed (c : Ctx) (a : Nat) (w : Bool) : t.byteAllowed c a w = s.byteAllowed c a w := by rw [h.1]; rfl

theorem State.sameChecks_allowed (c : Ctx) (a n : Nat) (w : Bool) : t.allowed c a n w = s.allowed c a n w := by
  simp only [State.allowed, State.sameChecks_byteAllowed h]

theorem State.sameChecks_rangeOpen (a n : Nat) : t.rangeOpen a n = s.rangeOpen a n := by
  have hgates := h.2.1
  simp only [MemCtl.gates, Prod.mk.injEq] at hgates
  obtain ⟨-, hrelocating, hchanges, hresetting⟩ := hgates
  have hserves : ∀ sp o, t.serves sp o = s.serves sp o := fun sp o => by
    have hregs : t.regs = s.regs := by rw [h.1]
    simp only [State.serves, State.groupChanging, hrelocating, hchanges, hresetting, State.cachePolicy, State.groups, State.t2Groups, State.fld, State.reg,
      hregs]
  simp only [State.rangeOpen, hrelocating, hchanges, hresetting, hserves, State.sameChecks_isLocal h]

end

-- ## Accesses of clean lines

theorem State.readErr_of_allowed {s : State} (hs : s.memCtl.clean) {c : Ctx} {a n : Nat} (hl : s.isLocal a = true) (hsp : gSpace a ≤ 1)
    (ha : s.allowed c a n false = true) : s.readErr c a n = none := by
  simp [State.readErr, hl, hsp, ha, State.anyPoison, hs.1, hs.2.1]

theorem State.allowed_of_readErr {s : State} {c : Ctx} {a n : Nat} (hl : s.isLocal a = true) (hn : n ≠ 0) (hr : s.readErr c a n = none) :
    s.allowed c a n false = true := by
  by_contra h
  rw [Bool.not_eq_true] at h
  simp [State.readErr, hn, hl, h] at hr

theorem State.writeErr_of_allowed {s : State} (hs : s.memCtl.clean) {c : Ctx} {a n : Nat} (hl : s.isLocal a = true) (hsp : gSpace a ≤ 1)
    (ha : s.allowed c a n true = true) : s.writeErr c a n = none := by
  simp [State.writeErr, hl, hsp, ha, State.partialPoison_of_clean hs]

theorem mem_checkPoints {a n x : Nat} (h : x ∈ checkPoints a n) : a ≤ x ∧ x < a + n := by
  unfold checkPoints at h
  split at h
  · cases h
  · simp only [List.mem_cons, List.mem_filter, List.mem_map, decide_eq_true_eq] at h
    rcases h with rfl | rfl | ⟨⟨i, -, rfl⟩, hlt⟩
    · omega
    · omega
    · omega

/-- A range in one space, each byte of which is permitted, is permitted. -/
theorem State.allowed_of_bytes {s : State} {c : Ctx} {a n : Nat} {w : Bool} (hend : gOffset a + n ≤ 2 ^ 48)
    (hb : ∀ i, i < n → s.byteAllowed c (a + i) w = true) : s.allowed c a n w = true := by
  refine List.all_eq_true.2 fun x hx => ?_
  obtain ⟨hlo, hhi⟩ := mem_checkPoints hx
  obtain ⟨i, rfl⟩ := Nat.exists_eq_add_of_le hlo
  have hlt : gOffset a + i < 2 ^ 48 := by omega
  have hmod : gModule (a + i) = gModule a := by
    simp only [gModule, gOffset] at *
    omega
  simp [hb i (by omega), hmod, gSpace_add hlt]

/-- Bytes of HBM and tier 2 that differ in space or offset have different keys (R235). -/
theorem State.dataKey_ne {s : State} {sp sp' o o' : Nat} (hsp : sp ≤ 1) (hsp' : sp' ≤ 1) (ho : o < 2 ^ 48) (ho' : o' < 2 ^ 48) (h : sp ≠ sp' ∨ o ≠ o') :
    s.dataKey sp o ≠ s.dataKey sp' o' := by
  simp only [State.dataKey, spaceKey]
  split <;> split <;> omega

-- ## A copy in pieces (R191, R254)

/-- Steps in order, none of which stops, each of which leads from one stage of an invariant to the next. -/
theorem Try.each_stages {f : State → Nat → Try} {P : Nat → State → Prop} (m : Nat) (hstep : ∀ i u, i < m → P i u → ∃ t, f u i = (t, none) ∧ P (i + 1) t)
    {s : State} (h0 : P 0 s) : ∃ t, Try.each s f (List.range m) = (t, none) ∧ P m t := by
  have hfrom : ∀ k i u, i + k = m → P i u → ∃ t, Try.each u f (List.range' i k) = (t, none) ∧ P m t := by
    intro k
    induction k with
    | zero => rintro i u rfl hu; exact ⟨u, rfl, hu⟩
    | succ k ih =>
      intro i u hm hu
      obtain ⟨v, hv, hPv⟩ := hstep i u (by omega) hu
      obtain ⟨t, ht, hPt⟩ := ih (i + 1) v (by omega) hPv
      exact ⟨t, by rw [List.range'_succ, Try.each, hv]; exact ht, hPt⟩
  rw [List.range_eq_range']
  exact hfrom m 0 s (Nat.zero_add m) h0

/-- A COPY between two local ranges of HBM or tier 2 that do not overlap, may be read and written, and hold clean lines outside flip regions. -/
structure State.PlainRange (s : State) (c : Ctx) (src dst n : Nat) : Prop where
  held : c.held = false
  noFlips : s.flips = []
  clean : s.memCtl.clean
  srcLocal : s.isLocal src = true
  dstLocal : s.isLocal dst = true
  srcSpace : gSpace src ≤ 1
  dstSpace : gSpace dst ≤ 1
  srcEnd : gOffset src + n ≤ 2 ^ 48
  dstEnd : gOffset dst + n ≤ 2 ^ 48
  readable : n ≠ 0 → s.allowed c src n false = true
  writable : ∀ i, i < n → s.byteAllowed c (dst + i) true = true
  apart : gSpace src ≠ gSpace dst ∨ gOffset src + n ≤ gOffset dst ∨ gOffset dst + n ≤ gOffset src

section
variable {s : State} {c : Ctx} {src dst n : Nat} (h : s.PlainRange c src dst n)
include h

theorem State.PlainRange.of_sameChecks {t : State} (hc : s.sameChecks t) : t.PlainRange c src dst n where
  held := h.held
  noFlips := (State.sameChecks_flips hc).trans h.noFlips
  clean := hc.2.2 h.clean
  srcLocal := (State.sameChecks_isLocal hc _).trans h.srcLocal
  dstLocal := (State.sameChecks_isLocal hc _).trans h.dstLocal
  srcSpace := h.srcSpace
  dstSpace := h.dstSpace
  srcEnd := h.srcEnd
  dstEnd := h.dstEnd
  readable := fun hn => (State.sameChecks_allowed hc _ _ _ _).trans (h.readable hn)
  writable := fun i hi => (State.sameChecks_byteAllowed hc _ _ _).trans (h.writable i hi)
  apart := h.apart

theorem State.PlainRange.readErr_eq : s.readErr c src n = none := by
  by_cases hn : n = 0
  · simp [State.readErr, hn]
  · exact State.readErr_of_allowed h.clean h.srcLocal h.srcSpace (h.readable hn)

theorem State.PlainRange.writeErr_eq {lo len : Nat} (hlen : lo + len ≤ n) : s.writeErr c (dst + lo) len = none := by
  by_cases hn : len = 0
  · simp [State.writeErr, hn]
  · have hlt : gOffset dst + lo < 2 ^ 48 := by have := h.dstEnd; omega
    refine State.writeErr_of_allowed h.clean ((State.isLocal_add hlt).trans h.dstLocal) (by rw [gSpace_add hlt]; exact h.dstSpace)
      (State.allowed_of_bytes (by rw [gOffset_add hlt]; have := h.dstEnd; omega) fun i hi => ?_)
    rw [Nat.add_assoc]
    exact h.writable _ (by omega)

theorem State.PlainRange.keys_ne {i j : Nat} (hi : i < n) (hj : j < n) :
    s.dataKey (gSpace src) (gOffset src + i) ≠ s.dataKey (gSpace dst) (gOffset dst + j) := by
  have hsrc := h.srcEnd
  have hdst := h.dstEnd
  refine State.dataKey_ne h.srcSpace h.dstSpace (by omega) (by omega) ?_
  rcases h.apart with hs | hs | hs
  · exact Or.inl hs
  · exact Or.inr (by omega)
  · exact Or.inr (by omega)

/-- While a copy is under way its source reads as before. -/
theorem State.PlainRange.valueAt_eq {u : State} {m lo len : Nat} (hc : s.sameChecks u) (hm : m ≤ n) (hcopied : s.copied u src dst m) (hlen : lo + len ≤ n) :
    u.valueAt c (src + lo) len = (List.range len).map (fun i => s.rd (s.dataKey (gSpace src) (gOffset src + lo + i))) := by
  by_cases hn : len = 0
  · subst hn
    simp [State.valueAt, State.readAt, State.rdBytes]
  · have hlt : gOffset src + lo < 2 ^ 48 := by have := h.srcEnd; omega
    have hl : u.isLocal (src + lo) = true := (State.sameChecks_isLocal hc _).trans ((State.isLocal_add hlt).trans h.srcLocal)
    have h8 : gSpace (src + lo) ≠ 8 := by rw [gSpace_add hlt]; have := h.srcSpace; omega
    simp only [State.valueAt, hl, if_true, h8, if_false]
    rw [State.readAt_of_noFlips ((State.sameChecks_flips hc).trans h.noFlips) c (by rw [gSpace_add hlt]; exact h.srcSpace)
      (by rw [gOffset_add hlt]; have := h.srcEnd; omega), gSpace_add hlt, gOffset_add hlt]
    refine List.map_congr_left fun i hi => ?_
    have hi := List.mem_range.1 hi
    rw [State.sameChecks_dataKey hc, Nat.add_assoc]
    exact hcopied.2 _ fun j hj => h.keys_ne (by omega) (by omega)

/-- One piece of the copy. -/
theorem State.PlainRange.piece_copies {u : State} (iss : Issuer) {lo hi : Nat} (hc : s.sameChecks u) (hlo : lo ≤ hi) (hhi : hi ≤ n)
    (hcopied : s.copied u src dst lo) :
    ∃ t, u.put c iss (dst + lo) (mixRead s u c (src + lo) (hi - lo)) = (t, none) ∧ s.sameChecks t ∧ s.copied t src dst hi := by
  have hs0 : s.copied s src dst 0 := ⟨fun i hi => absurd hi (Nat.not_lt_zero i), fun _ _ => rfl⟩
  have hvalue := h.valueAt_eq hc (by omega) hcopied (lo := lo) (len := hi - lo) (by omega)
  have hmix : mixRead s u c (src + lo) (hi - lo) = (List.range (hi - lo)).map (fun i => s.rd (s.dataKey (gSpace src) (gOffset src + lo + i))) := by
    have hstart := h.valueAt_eq s.sameChecks_refl (Nat.zero_le n) hs0 (lo := lo) (len := hi - lo) (by omega)
    rw [mixRead_of_same (hvalue.trans hstart.symm), hstart]
    simp
  by_cases hn : hi = lo
  · subst hn
    rw [hmix, Nat.sub_self, List.range_zero, List.map_nil, State.put_nil]
    exact ⟨u, rfl, hc, hcopied⟩
  · have hu := h.of_sameChecks hc
    have hlt : gOffset dst + lo < 2 ^ 48 := by have := h.dstEnd; omega
    have hlen : (mixRead s u c (src + lo) (hi - lo)).length = hi - lo := by rw [hmix]; simp
    obtain ⟨t, hput, hstores, hin, hout⟩ := State.put_holdsData (s := u) (c := c) iss (a := dst + lo) (bs := mixRead s u c (src + lo) (hi - lo)) hu.noFlips
      hu.held ((State.isLocal_add hlt).trans hu.dstLocal) (by rw [gSpace_add hlt]; exact hu.dstSpace) (by rw [hlen]; exact hu.writeErr_eq (by omega))
    simp only [gSpace_add hlt, gOffset_add hlt, hlen, State.sameChecks_dataKey hc] at hin hout
    refine ⟨t, hput, State.sameChecks_trans hc (State.sameChecks_of_stores hstores), fun i hi' => ?_, fun k hk => ?_⟩
    · by_cases hilo : i < lo
      · rw [hout _ fun j hj => ?_]
        · exact hcopied.1 i hilo
        · have := h.dstEnd
          exact State.dataKey_ne h.dstSpace h.dstSpace (by omega) (by omega) (Or.inr (by omega))
      · obtain ⟨j, rfl⟩ := Nat.exists_eq_add_of_le (Nat.not_lt.1 hilo)
        have hj := hin j (by omega)
        simp only [hmix, List.getElem_map, List.getElem_range] at hj
        rw [← Nat.add_assoc, ← Nat.add_assoc]
        exact hj
    · rw [hout k fun j hj => ?_]
      · exact hcopied.2 k fun i hi' => hk i (by omega)
      · rw [Nat.add_assoc]
        exact hk _ (by omega)

/-- The copy of a whole range. -/
theorem State.PlainRange.copyRange_copies (iss : Issuer) :
    ∃ t, s.copyRange c iss src dst n = (t, none) ∧ s.sameChecks t ∧ s.copied t src dst n := by
  have hstep (i : Nat) (u : State) (hi : i < ceilDiv (n + dst % 64) 512)
      (hu : s.sameChecks u ∧ s.copied u src dst (min n (512 * i - dst % 64))) :
      ∃ t, u.put c iss (dst + (512 * i - dst % 64)) (mixRead s u c (src + (512 * i - dst % 64)) (min n (512 * (i + 1) - dst % 64) - (512 * i - dst % 64))) =
        (t, none) ∧ s.sameChecks t ∧ s.copied t src dst (min n (512 * (i + 1) - dst % 64)) := by
    have hlo : 512 * i - dst % 64 ≤ n := by
      unfold ceilDiv at hi
      omega
    rw [Nat.min_eq_right hlo] at hu
    exact h.piece_copies iss hu.1 (by omega) (by omega) hu.2
  have hstart : s.sameChecks { s with draws := s.draws + 1 } ∧ s.copied { s with draws := s.draws + 1 } src dst (min n (512 * 0 - dst % 64)) := by
    rw [Nat.mul_zero, Nat.zero_sub, Nat.min_zero]
    exact ⟨⟨rfl, rfl, id⟩, fun i hi => absurd hi (Nat.not_lt_zero i), fun _ _ => rfl⟩
  obtain ⟨t, ht, hc, hcopied⟩ := Try.each_stages (P := fun i u => s.sameChecks u ∧ s.copied u src dst (min n (512 * i - dst % 64))) _ hstep hstart
  have hall : min n (512 * ceilDiv (n + dst % 64) 512 - dst % 64) = n := by
    unfold ceilDiv
    omega
  rw [hall] at hcopied
  have hwrite := h.writeErr_eq (lo := 0) (len := n) (by omega)
  rw [Nat.add_zero] at hwrite
  refine ⟨t, ?_, hc, hcopied⟩
  simp only [State.copyRange, h.readErr_eq, hwrite]
  exact ht

end

-- ## A request alone at the first selvage shuttle (R213, R256)

/-- What the first selvage shuttle is asked for by an entry. -/
def Entry.copyPart (x : Entry) : ShPart :=
  { issuers := [.entry x.acc], part := x.part, copy := true, src := x.arg0, dst := x.arg1, len := field x.arg2 0 40 }

theorem State.keeps_joined (s : State) (q : List (Nat × List ShPart)) : s.keeps { s with shuttles := q } [.shuttles] := by
  intro f hf
  cases f <;> simp_all [Field.same, State.rd]

theorem State.joinQueue_alone {s : State} (hs : s.shuttles = []) (y : ShPart) : s.joinQueue 0 y = { s with shuttles := [(0, [y])] } := by
  simp [State.joinQueue, State.liveQueue, hs, tget, tset, terase, tinsert]

section
variable {s : State} {x : Entry} (hx : s.entry x.acc = some x) (hw : x.worked = false) (hs : s.shuttles = [(0, [x.copyPart])])
include hx hw hs

theorem State.nextAt_of_copyPart (r k : Nat) : s.nextAt r k = if r = x.part ∧ k = 0 then some (.entry x.acc) else none := by
  have hasks : s.asks (.entry x.acc) = true := by simp [State.asks, hx, hw]
  by_cases hk : k = 0
  · subst hk
    by_cases hr : r = x.part
    · simp [State.nextAt, State.liveQueue, hs, tget, Entry.copyPart, hasks, hr]
    · simp [State.nextAt, State.liveQueue, hs, tget, Entry.copyPart, hasks, hr, Ne.symm hr]
  · simp [State.nextAt, State.liveQueue, hs, tget, hk, Ne.symm hk]

omit hx hw in
theorem State.queuesOf_copyPart : s.queuesOf (.entry x.acc) = [0] := by simp [State.queuesOf, hs, Entry.copyPart]

theorem State.mayTake_of_copyPart (ht : s.takeable (.entry x.acc) = true) : s.mayTake x.part (.entry x.acc) = true := by
  have hnext := State.nextAt_of_copyPart hx hw hs
  have hwaits : ∀ r ∈ s.selvageWaits, r = x.part := by
    intro r hr
    obtain ⟨-, hany⟩ := List.mem_filter.1 hr
    obtain ⟨k, -, hk⟩ := List.any_eq_true.1 hany
    rw [hnext] at hk
    by_contra hne
    simp [hne] at hk
  have hturn : s.hasTurn 0 x.part s.selvageWaits = true := by
    rw [State.hasTurn, roundRobin, List.all_eq_true]
    intro r hr
    rw [hwaits r hr]
    exact decide_eq_true (le_refl _)
  simp [State.mayTake, State.nextRequest, State.queuesOf_copyPart hs, hnext, ht, hturn]

end

-- ## Work that is done (R192)

/-- Work without a missing acknowledgement and with nothing merged completes its entry. -/
theorem State.workDone_completes {s t : State} {y : Entry} (hy : t.entry y.acc = some y) (hacks : y.acks = 0) (hfailing : y.failing = none)
    (hm : t.mates = []) :
    s.workDone y.acc (t, none) = (t.setEntry y.acc (fun z => { z with worked := true })).complete y.acc stOK y.result := by
  have hworked : (t.setEntry y.acc (fun z => { z with worked := true })).entry y.acc = some { y with worked := true } :=
    State.setEntry_entry t y.acc (fun z => { z with worked := true }) (fun _ => rfl) y hy
  have hmates : (t.setEntry y.acc (fun z => { z with worked := true })).mates = [] := hm
  have hsettled : (t.setEntry y.acc (fun z => { z with worked := true })).matesSettled (.entry y.acc) = true := by
    simp [State.matesSettled, State.matesOf, hmates, State.settled, hworked, hacks]
  simp [State.workDone, hworked, hacks, hfailing, hsettled]

/-- An entry that has completed is not completed again by what was merged with it. -/
theorem State.finishMates_completed {s : State} {x : Entry} {st res : Nat} (hm : s.mates = []) (hdone : State.completed x st res s) :
    s.finishMates (.entry x.acc) = s := by
  have hmates : s.matesOf (.entry x.acc) = [.entry x.acc] := by simp [State.matesOf, hm]
  have hfinish : s.finishIssuer (.entry x.acc) = s := by
    rcases hdone with ⟨hgone, -⟩ | ⟨-, y, pick, hy, hparked, -⟩
    · simp [State.finishIssuer, hgone]
    · simp [State.finishIssuer, hy, State.complete, State.completeWith, hparked]
  simp [State.finishMates, hmates, hfinish]

-- ## COPY (R191)

theorem State.bring_local {s : State} {c : Ctx} {a n : Nat} (iss : Issuer) (hl : s.isLocal a = true) (hsp : gSpace a ≤ 1) (hr : s.readErr c a n = none) :
    s.bring c iss a n = (s.pass c a n false, none) := by
  have hpass := State.sameChecks_of_stores (State.stores_of_passes (s.pass_passes c a n false))
  have hl' : (s.pass c a n false).isLocal a = true := (State.sameChecks_isLocal hpass a).trans hl
  have h4 : gSpace a ≠ 4 := by omega
  have h5 : gSpace a ≠ 5 := by omega
  simp [State.bring, State.mayRead_of_ok hl hr, Try.andThen, hl', h4, h5]

theorem inAcc_of_space {a : Nat} (n : Nat) (hsp : gSpace a ≤ 1) : inAcc a n = false := by
  have : gSpace a ≠ 2 := by omega
  simp [inAcc, this]

section
variable {s : State} {x : Entry} (hx : s.entry x.acc = some x) (hop : x.opcode = 2) (hst : x.st = .running) (hworked : x.worked = false)
  (hacks : x.acks = 0) (hfailing : x.failing = none) (hm : s.mates = []) (hruns : s.runs x.part = true)
  (hopen : s.rangeOpen x.arg0 (field x.arg2 0 40) = true) (hopen' : s.rangeOpen x.arg1 (field x.arg2 0 40) = true)
  (h : s.PlainRange (s.entryCtx x) x.arg0 x.arg1 (field x.arg2 0 40))
include hx hop hst hworked hacks hfailing hm hruns hopen hopen' h

/-- The shuttle takes the one request there is: its bytes stand at the destination, and its entry completes. -/
theorem State.shuttleTake_copies (hs : s.shuttles = [(0, [x.copyPart])]) (hp : x.parked = none) :
    ∃ t, s.shuttleTake (.entry x.acc) = t ∧ s.copied t x.arg0 x.arg1 (field x.arg2 0 40) ∧ State.completed x stOK x.result t ∧
      s.keeps t [.mem, .memCtl, .entries, .rings, .draws, .shuttles, .served] := by
  have htake : s.takeable (.entry x.acc) = true := by simp [State.takeable, hx, hop, hst, hworked, hacks, hruns, hopen, hopen']
  have hturn := State.mayTake_of_copyPart hx hworked hs htake
  have hserve : s.sameChecks (s.serve 0 x.part) := ⟨rfl, rfl, id⟩
  obtain ⟨t, hcopy, hc, hcopied⟩ := (h.of_sameChecks hserve).copyRange_copies (.entry x.acc)
  have hentry : t.entry x.acc = some x := (congrArg (List.find? _) (State.sameChecks_keeps hc .entries (by decide))).trans hx
  have hmates : t.mates = [] := (State.sameChecks_keeps hc .mates (by decide)).trans hm
  obtain ⟨u, hu⟩ : ∃ u, (t.setEntry x.acc (fun z => { z with worked := true })).complete x.acc stOK x.result = u := ⟨_, rfl⟩
  have hdone : State.completed x stOK x.result u := by
    rw [← hu]
    exact State.completed_congr (y := { x with worked := true }) rfl rfl rfl rfl rfl (State.complete_completed _ x.acc stOK x.result _
      (State.setEntry_entry t x.acc (fun z => { z with worked := true }) (fun _ => rfl) x hentry) hp)
  have htu : t.keeps u [.entries, .rings] := by
    rw [← hu]
    exact State.keeps_step (State.keeps_mono (t.setEntry_keeps _ _) (by decide)) (State.complete_keeps _ _ _ _)
  have hrd : ∀ k, u.rd k = t.rd k := htu .mem (by decide)
  refine ⟨u, ?_, ⟨fun i hi => (hrd _).trans (hcopied.1 i hi), fun k hk => (hrd k).trans (hcopied.2 k hk)⟩, hdone,
    State.keeps_step (State.keeps_step (State.keeps_mono (s.serve_keeps 0 x.part) (by decide)) (State.sameChecks_keeps hc)) htu⟩
  have hgo : s.shuttleTake (.entry x.acc) = ((s.serve 0 x.part).workDone x.acc ((s.serve 0 x.part).copyRange (s.entryCtx x) (.entry x.acc) x.arg0 x.arg1
      (field x.arg2 0 40))).finishMates (.entry x.acc) := by
    simp only [State.shuttleTake, hx, hturn, State.queuesOf_copyPart hs]
    rfl
  rw [hgo, hcopy, State.workDone_completes hentry hacks hfailing hmates, hu]
  exact State.finishMates_completed ((htu .mates (by decide)).trans hmates) hdone

/-- A COPY that nothing delays is made at once. -/
theorem State.copyNow_copies (hs : s.shuttles = []) (hp : x.parked = none) :
    ∃ t, s.copyNow x = t ∧ s.copied t x.arg0 x.arg1 (field x.arg2 0 40) ∧ State.completed x stOK x.result t ∧
      s.keeps t [.mem, .memCtl, .entries, .rings, .draws, .shuttles, .served] := by
  have hpass := s.pass_passes (s.entryCtx x) x.arg0 (field x.arg2 0 40) false
  have hbring := State.bring_local (.entry x.acc) h.srcLocal h.srcSpace h.readErr_eq
  have hwrite := h.writeErr_eq (lo := 0) (len := field x.arg2 0 40) (by omega)
  rw [Nat.add_zero] at hwrite
  generalize s.pass (s.entryCtx x) x.arg0 (field x.arg2 0 40) false = u at hpass hbring
  have hu : s.sameChecks u := State.sameChecks_of_stores (State.stores_of_passes hpass)
  have hjoin : u.joinQueue 0 x.copyPart = { u with shuttles := [(0, [x.copyPart])] } :=
    State.joinQueue_alone ((congrArg State.shuttles hpass.1).trans hs) _
  obtain ⟨v, hv⟩ : ∃ v, v = ({ u with shuttles := [(0, [x.copyPart])] } : State) := ⟨_, rfl⟩
  have hqueue : v.shuttles = [(0, [x.copyPart])] := by rw [hv]
  have huv : u.sameChecks v := by rw [hv]; exact ⟨rfl, rfl, id⟩
  have hsv : s.sameChecks v := State.sameChecks_trans hu huv
  have hrd : ∀ k, v.rd k = s.rd k := fun k => by rw [hv]; exact State.passes_rd (t := u) hpass k
  have hkeeps : s.keeps v [.memCtl, .shuttles] := by
    rw [hv]
    exact State.keeps_step (State.keeps_mono (State.passes_keeps hpass) (by decide)) (u.keeps_joined _)
  have hplain := h.of_sameChecks hsv
  rw [← State.sameChecks_entryCtx hsv] at hplain
  obtain ⟨t, ht, ⟨hin, hout⟩, hdone, hvt⟩ := State.shuttleTake_copies (s := v) ((congrArg (List.find? _) (hkeeps .entries (by decide))).trans hx) hop hst
    hworked hacks hfailing ((hkeeps .mates (by decide)).trans hm) ((State.sameChecks_runs hsv _).trans hruns)
    ((State.sameChecks_rangeOpen hsv _ _).trans hopen) ((State.sameChecks_rangeOpen hsv _ _).trans hopen') hplain hqueue hp
  simp only [State.sameChecks_dataKey hsv, hrd] at hin hout
  refine ⟨t, ?_, ⟨hin, hout⟩, hdone, State.keeps_trans (State.keeps_mono hkeeps (by decide)) hvt⟩
  simp only [State.copyNow, inAcc_of_space _ h.srcSpace, inAcc_of_space _ h.dstSpace, h.readErr_eq, hwrite, hbring]
  rw [← ht, hv, ← hjoin]
  simp
  rfl

end

-- ## SIGNAL (R195)

/-- The eight bytes of an aligned word lie in one unit. -/
theorem State.dataKey_word (s : State) {sp o i : Nat} (ho : o % 8 = 0) (hi : i < 8) : s.dataKey sp (o + i) = s.dataKey sp o + i := by
  have hunit : unitOf sp (o + i) = unitOf sp o := by
    simp only [unitOf, hbmPc, hbmGroup, t2Channel, t2Group]
    split <;> omega
  simp only [State.dataKey, hunit, spaceKey]
  split <;> omega

section
variable {s : State} {c : Ctx} {a : Nat} (hf : s.flips = []) (hs : s.memCtl.clean) (hh : c.held = false) (hl : s.isLocal a = true) (hsp : gSpace a ≤ 1)
  (ha : a % 8 = 0)
include hf hl hsp ha

theorem State.valueAt_word : le (s.valueAt c a 8) 0 8 = s.rdN (s.dataKey (gSpace a) (gOffset a)) 8 := by
  have h8 : gSpace a ≠ 8 := by omega
  have hoff : gOffset a % 8 = 0 ∧ gOffset a + 8 ≤ 2 ^ 48 := by
    unfold gOffset
    omega
  have hbytes : s.valueAt c a 8 = s.rdBytes (s.dataKey (gSpace a) (gOffset a)) 8 := by
    simp only [State.valueAt, hl, if_true, h8, if_false, State.readAt_of_noFlips hf c hsp hoff.2, State.rdBytes]
    exact List.map_congr_left fun i hi => by rw [s.dataKey_word hoff.1 (List.mem_range.1 hi)]
  rw [hbytes, State.rdN, le, slice, List.drop_zero, List.take_of_length_le (by simp [State.rdBytes])]

include hs hh

/-- A local SIGNAL stores what its operation makes of the word, and no other byte differs. -/
theorem State.signal_stores (iss : Issuer) (v : Nat) {op : Nat} (hop : op < 3) (hr : s.readErr c a 8 = none) (hw : s.writeErr c a 8 = none) {k : Nat}
    (hk : k = s.dataKey (gSpace a) (gOffset a)) :
    ∃ t, s.signal c iss a v op = (t, none) ∧ s.stores t ∧ t.rdN k 8 = atomicOp op (s.rdN k 8) v % 2 ^ 64 ∧ s.keepsMem t k 8 := by
  have hoff : gOffset a % 8 = 0 := by
    unfold gOffset
    omega
  have hpass := s.pass_passes c a 8 false
  have hread := State.mayRead_of_ok hl hr
  generalize s.pass c a 8 false = u at hpass hread
  have hsu := State.stores_of_passes hpass
  have hfu := (State.stores_flips hsu).trans hf
  have hlu : u.isLocal a = true := by rw [hsu.1]; exact hl
  have hrd : ∀ j, u.rd j = s.rd j := State.passes_rd hpass
  have hword : le (u.valueAt c a 8) 0 8 = s.rdN k 8 := by
    rw [State.valueAt_word hfu hlu hsp ha, State.stores_dataKey hsu, ← hk]
    simp only [State.rdN, State.rdBytes, hrd]
  obtain ⟨t, hput, hut, hin, hout⟩ := State.put_holdsData (c := c) iss (bs := leBytes 8 (atomicOp op (s.rdN k 8) v)) hfu hh hlu hsp
    (by rw [length_leBytes]; exact (State.writeErr_of_passes hpass hs _ _ _).trans hw)
  simp only [length_leBytes, State.stores_dataKey hsu] at hin hout
  have hkey (i : Nat) (hi : i < 8) : s.dataKey (gSpace a) (gOffset a + i) = k + i := by rw [hk, s.dataKey_word hoff hi]
  refine ⟨t, ?_, State.stores_trans hsu hut, ?_, fun j hj => ?_⟩
  · have hgo : ¬ (3 ≤ op ∨ a % 8 ≠ 0) := by omega
    simp only [State.signal, if_neg hgo, hl, if_true, hread, Try.andThen, hword]
    exact hput
  · have hbytes : t.rdBytes k 8 = leBytes 8 (atomicOp op (s.rdN k 8) v) := by
      refine List.ext_getElem (by simp [State.rdBytes]) fun i h1 h2 => ?_
      have hi : i < 8 := by simpa [State.rdBytes] using h1
      rw [← hin i hi, hkey i hi]
      simp [State.rdBytes]
    rw [State.rdN, hbytes, ofLe_leBytes, show 256 ^ 8 = 2 ^ 64 by norm_num]
  · exact (hout j fun i hi => by rw [hkey i hi]; omega).trans (hrd j)

end

theorem State.rdN_lt (s : State) (k : Nat) : s.rdN k 8 < 2 ^ 64 := by
  have h := ofLe_lt (s.rdBytes k 8)
  simpa [State.rdN, State.rdBytes] using h

theorem State.runs_of_startable {s : State} {e op : Nat} {x : Entry} (h : s.startable e op = some x) : x.opcode = op ∧ s.runs x.part = true := by
  unfold State.startable at h
  split at h
  · split at h
    · next hc => cases h; exact ⟨hc.1, hc.2.2.2.2.1⟩
    · cases h
  · cases h

/-- Settles O36: a COPY is alone at its shuttle and copies piece by piece, and a SIGNAL updates its word. -/
theorem copyAndSignal : Obligations.CopyAndSignal := by
  refine ⟨fun s e n x c hx hd hb hn hc hdef hf hpoison hcorrupt harmed hshuttles hmates hworked hacks hfailing hres hopen hopen' hl hl' hsp hsp' hend hend'
    hread hwrite hall hapart => ?_, fun s e k x c hx hfirst hc hdef hf hpoison hcorrupt harmed hmates hacks hfailing hres hl hsp ha hop hread hwrite hk => ?_⟩
  · obtain ⟨hent, hpark⟩ := State.startable_some hx
    obtain ⟨hopcode, hruns⟩ := State.runs_of_startable hx
    have hexec : exec (.copy e) s = finishDeferred (State.copyNow (s.mark x) x) := congrArg finishDeferred (State.takeEffect_due _ hx hd hb)
    obtain rfl := State.startable_acc hx
    subst hn hc
    have hplain : (s.mark x).PlainRange ((s.mark x).entryCtx (s.marked x)) (s.marked x).arg0 (s.marked x).arg1 (field (s.marked x).arg2 0 40) :=
      ⟨rfl, hf, ⟨hpoison, hcorrupt, harmed⟩, hl, hl', hsp, hsp', hend, hend', fun hn => State.allowed_of_readErr hl hn hread, hall,
        hapart⟩
    obtain ⟨t, ht, ⟨hin, hout⟩, hdone, hkeeps⟩ := State.copyNow_copies (s := s.mark x) (x := s.marked x) (State.mark_entry hent) hopcode rfl hworked hacks
      hfailing hmates hruns hopen hopen' hplain hshuttles hpark
    have hst : s.keeps t [.mem, .memCtl, .entries, .rings, .draws, .shuttles, .served] :=
      State.keeps_trans (State.keeps_mono (s.mark_keeps x) (by decide)) hkeeps
    rw [show State.copyNow (s.mark x) x = t from ht] at hexec
    refine State.gives_of_finishDeferred hexec (State.deferred_of_keeps hst (by decide) hdef) ⟨fun i hi => ?_, fun k hk => ?_, ?_, State.keeps_settled hst⟩
    · exact (settle_rd _ _).trans (hin i hi)
    · exact (settle_rd _ _).trans (hout k hk)
    · refine State.completed_settle (State.completed_congr (y := s.marked x) rfl rfl rfl rfl rfl ?_)
      rw [← hres]
      exact hdone
  · obtain ⟨hent, hpark⟩ := State.startable_some hx
    obtain rfl := State.startable_acc hx
    subst hc
    obtain ⟨u, hu⟩ : ∃ u, u = s.setEntry x.acc (fun y => { y with st := .running }) := ⟨_, rfl⟩
    have hsu : s.keeps u [.entries] := by rw [hu]; exact s.setEntry_keeps _ _
    have huent : u.entry x.acc = some { x with st := .running } := by
      rw [hu]
      exact State.setEntry_entry s x.acc (fun y => { y with st := .running }) (fun _ => rfl) x hent
    obtain ⟨t, hsignal, hut, hval, hmem⟩ : ∃ t, u.signal (s.entryCtx x) (.entry x.acc) x.arg0 x.arg1 x.arg2 = (t, none) ∧ u.stores t ∧
        t.rdN k 8 = atomicOp x.arg2 (s.rdN k 8) x.arg1 % 2 ^ 64 ∧ u.keepsMem t k 8 := by
      rw [hu]
      exact State.signal_stores (s := s.setEntry x.acc (fun y => { y with st := .running })) hf ⟨hpoison, hcorrupt, harmed⟩ rfl hl hsp ha _ _ hop hread hwrite hk
    have hfree : s.entries.any (fun y => y.before x) = false := List.any_eq_false.2 fun y hy => by simp [hfirst y hy]
    have htent : t.entry x.acc = some { x with st := .running } := (congrArg (List.find? _) (State.stores_keeps hut .entries (by decide))).trans huent
    have hexec : exec (.signal x.acc) s = finishDeferred ((t.setEntry x.acc (fun z => { z with worked := true })).complete x.acc stOK x.result) := by
      have htm : t.mates = [] := (State.stores_keeps hut .mates (by decide)).trans ((hsu .mates (by decide)).trans hmates)
      rw [← State.workDone_completes (s := s) (y := { x with st := .running }) htent hacks hfailing htm, ← hsignal, hu]
      show finishDeferred (signalCmd s x.acc) = _
      simp only [signalCmd, hx, hfree, Bool.false_eq_true, if_false]
    have htk : t.keeps ((t.setEntry x.acc (fun z => { z with worked := true })).complete x.acc stOK x.result) [.entries, .rings] :=
      State.keeps_step (State.keeps_mono (t.setEntry_keeps _ _) (by decide)) (State.complete_keeps _ _ _ _)
    have hkeeps := State.keeps_step (State.keeps_step (State.keeps_mono hsu (by decide)) (State.stores_keeps hut)) htk (fs := [.mem, .memCtl, .entries, .rings])
    have hdone := State.complete_completed _ x.acc stOK x.result _
      (State.setEntry_entry t x.acc (fun z => { z with worked := true }) (fun _ => rfl) _ htent) hpark
    generalize (t.setEntry x.acc (fun z => { z with worked := true })).complete x.acc stOK x.result = v at *
    have hrd : ∀ j, (settle v).rd j = t.rd j := fun j => (settle_rd v j).trans (htk .mem (by decide) j)
    have hrdN : (settle v).rdN k 8 = t.rdN k 8 := by simp only [State.rdN, State.rdBytes, hrd]
    have hold := s.rdN_lt k
    have hnew : x.arg1 < 2 ^ 64 := le_lt _ _ 8
    rw [← hrdN] at hval
    refine State.gives_of_finishDeferred hexec (State.deferred_of_keeps hkeeps (by decide) hdef)
      ⟨fun h0 => ?_, fun h1 => ?_, fun h2 => ?_, fun j hj => ?_, ?_, State.keeps_settled hkeeps⟩
    · rw [hval, h0]
      exact Nat.mod_eq_of_lt hnew
    · rw [hval, h1]
      exact Nat.mod_mod _ _
    · rw [hval, h2]
      exact Nat.mod_eq_of_lt (max_lt hold hnew)
    · exact (hrd j).trans ((hmem j hj).trans (hsu .mem (by decide) j))
    · refine State.completed_settle (State.completed_congr (y := { x with st := .running, worked := true }) rfl rfl rfl rfl rfl ?_)
      rw [← hres]
      exact hdone

end Sys2Proof.Machine
end

section
/-!
PROOFS. Saves and restores (O15): what the banks take and give back, a partition that passes from one state to the next, and the entries that complete
with it.
-/

namespace Sys2Proof.Machine

-- ## What a bank takes (R223)

theorem State.zeroData_keeps (s : State) (sp o n : Nat) : s.keeps (s.zeroData sp o n) [.mem] := State.keeps_trans (s.zero_keeps _ _) (State.zero_keeps _ _ _)

theorem State.loomToHbm_keeps (s : State) (key o n : Nat) : s.keeps (s.loomToHbm key o n) [.mem] :=
  State.keeps_trans (s.zeroData_keeps _ _ _) (State.putCells_keeps _ _ _ _)

theorem State.hbmToLoom_keeps (s : State) (o key n : Nat) : s.keeps (s.hbmToLoom o key n) [.mem] :=
  State.keeps_trans (s.zero_keeps key n) (State.keeps_fold (fun u _ => u.wr_keeps _ _) _ _)

theorem State.saveLoom_keeps (s : State) (p base lg : Nat) : s.keeps (s.saveLoom p base lg) [.mem] :=
  State.keeps_trans (State.keeps_trans (s.loomToHbm_keeps _ _ _) (State.zeroData_keeps _ _ _ _)) (State.setHbm_keeps _ _ _)

theorem State.saveCluster_keeps (s : State) (p base c : Nat) (keep : Nat → Bool) : s.keeps (s.saveCluster p base c keep) [.mem] :=
  State.keeps_trans (State.keeps_trans (State.keeps_trans (State.keeps_fold (fun u lg => u.saveLoom_keeps p base lg) _ _) (State.zeroData_keeps _ _ _ _))
    (State.setHbm_keeps _ _ _)) (State.setHbm_keeps _ _ _)

theorem State.writeHeddle_keeps (s : State) (p base : Nat) : s.keeps (s.writeHeddle p base) [.mem] :=
  State.keeps_trans (State.keeps_trans (s.zeroData_keeps _ _ _) (State.keeps_fold (fun u _ => u.setHbm_keeps _ _) _ _)) (State.setHbm_keeps _ _ _)

theorem State.writeBank_keeps (s : State) (p base : Nat) (cs : List Nat) (code : Nat) : s.keeps (s.writeBank p base cs code) [.mem] :=
  State.keeps_trans (State.keeps_trans (State.keeps_trans (State.keeps_fold (fun u c => u.saveCluster_keeps p base c _) _ _) (State.writeHeddle_keeps _ _ _))
    (State.zeroData_keeps _ _ _ _)) (State.setHbm_keeps _ _ _)

-- ## What a bank gives back (R225)

theorem State.loadLoom_keeps (s : State) (p base lg : Nat) (x : Loom) : s.keeps (s.loadLoom p base lg x) [.mem, .looms] :=
  State.keeps_step (State.keeps_mono (s.hbmToLoom_keeps _ _ _) (by decide)) (State.setLoom_keeps _ _ _)

/-- A partition whose serving loops alone may differ. -/
def State.keepsButLoops (s t : State) (p : Nat) : Prop :=
  (∃ ls, t.part p = { s.part p with loops := ls }) ∧ (∀ k, k ≠ p → t.part k = s.part k) ∧ s.keeps t [.drafts, .parts]

theorem State.readHeddle_keepsButLoops (s : State) (p base : Nat) : s.keepsButLoops (s.readHeddle p base) p := by
  unfold State.readHeddle
  dsimp only
  generalize hu : List.foldl _ s _ = u
  have hdrafts : s.keeps u [.drafts] := by
    rw [← hu]
    exact State.keeps_fold (fun v _ => v.setDraft_keeps _ _) _ _
  have hpart (k : Nat) : u.part k = s.part k := State.part_of_keeps hdrafts (by decide) k
  refine ⟨⟨_, (u.setPart_part_same p _).trans (by rw [hpart])⟩, fun k hk => (u.setPart_part_ne _ hk).trans (hpart k),
    State.keeps_step (State.keeps_mono hdrafts (by decide)) (State.setPart_keeps _ _ _)⟩

-- ## A partition with its pages written

/-- A partition's record replaced, and its pages written. -/
def State.becomes (s : State) (p : Nat) (y : Part) : State := (s.setPart p y).writePages p

theorem State.becomes_part (s : State) (p : Nat) (y : Part) : ∃ g j, (s.becomes p y).part p = { y with genPage := g, genJob := j } := by
  obtain ⟨g, j, hpart⟩ := (s.setPart p y).writePages_part p
  exact ⟨g, j, hpart.trans (by rw [State.setPart_part_same])⟩

theorem State.becomes_part_ne (s : State) (y : Part) {p k : Nat} (h : k ≠ p) : (s.becomes p y).part k = s.part k :=
  (State.writePages_part_ne _ h).trans (s.setPart_part_ne _ h)

theorem State.becomes_keeps (s : State) (p : Nat) (y : Part) : s.keeps (s.becomes p y) [.mem, .ports, .parts] :=
  State.keeps_step (State.keeps_mono (s.setPart_keeps p _) (by decide)) (State.writePages_keeps _ p)

-- ## Completions that stay (R184)

/-- An entry's record when another entry is set. -/
theorem State.setEntry_entry_ne (s : State) {e a : Nat} (f : Entry → Entry) (hf : ∀ y, (f y).acc = y.acc) (ha : a ≠ e) :
    (s.setEntry e f).entry a = s.entry a := by
  have hacc : ((fun y : Entry => y.acc == a) ∘ fun y => if y.acc = e then f y else y) = fun y => y.acc == a := by
    funext y
    simp only [Function.comp]
    split <;> simp [hf]
  show (s.entries.map _).find? _ = s.entries.find? _
  rw [List.find?_map, hacc]
  cases hy : s.entries.find? (fun y => y.acc == a) with
  | none => rfl
  | some y => simp [show y.acc = a from State.entry_acc hy, ha]

/-- An entry that learns of a status where it waits for it (R188). -/
def Entry.hears (x : Entry) (st : Nat) (y : Entry) : Entry :=
  if y.st = .waiting ∧ y.port = x.port ∧ field y.wait 32 8 = x.ring ∧ field y.wait 0 32 = x.tag ∧ y.waitDone = none
  then { y with waitDone := some st } else y

theorem Entry.hears_eq (x : Entry) (st : Nat) (y : Entry) : ∃ w, x.hears st y = { y with waitDone := w } := by
  unfold Entry.hears
  split
  · exact ⟨some st, rfl⟩
  · exact ⟨y.waitDone, rfl⟩

theorem State.leave_entries_eq (s : State) (x : Entry) (st pick res : Nat) :
    (s.leave x st pick res).entries = (s.entries.filter (fun y => y.acc != x.acc)).map (x.hears st) := rfl

theorem State.leave_entry_ne (s : State) (x : Entry) (st pick res : Nat) {a : Nat} (ha : a ≠ x.acc) :
    (s.leave x st pick res).entry a = (s.entry a).map (x.hears st) := by
  have hacc : ((fun y : Entry => y.acc == a) ∘ x.hears st) = fun y => y.acc == a := by
    funext y
    obtain ⟨w, hw⟩ := x.hears_eq st y
    simp [hw]
  rw [State.entry, State.leave_entries_eq, List.find?_map, hacc, List.find?_filter, State.entry]
  congr 2
  funext y
  by_cases hy : y.acc = a
  · simp [hy, ha]
  · simp [hy]

/-- What an entry has left behind stays while others leave: entries that are gone stay gone, parked ones parked, and no held completion is lost. -/
def State.keepsDone (s t : State) : Prop :=
  (∀ q k, (∃ l, (t.ring q k).held = (s.ring q k).held ++ l) ∧ s.heldBack q k ≤ t.heldBack q k) ∧
  ∀ a, (s.entry a = none → t.entry a = none) ∧
    ∀ y, s.entry a = some y → y.parked.isSome = true → ∃ w, t.entry a = some { y with waitDone := w }

theorem State.keepsDone_refl (s : State) : s.keepsDone s :=
  ⟨fun _ _ => ⟨⟨[], (List.append_nil _).symm⟩, le_refl _⟩, fun _ => ⟨id, fun y hy _ => ⟨y.waitDone, hy⟩⟩⟩

theorem State.keepsDone_of_keeps {s t : State} {fs : List Field} (h : s.keeps t fs)
    (hf : Field.entries ∉ fs ∧ Field.rings ∉ fs ∧ Field.regs ∉ fs := by decide) : s.keepsDone t := by
  obtain ⟨hentries, hrings, hregs⟩ := hf
  have hentry (a : Nat) : t.entry a = s.entry a := congrArg (List.find? _) (h .entries hentries)
  refine ⟨fun q k => ?_, fun a => ?_⟩
  · simp only [State.heldBack, State.ring_of_keeps h hrings, State.ringSize_of_keeps h hregs, le_refl, and_true]
    exact ⟨[], (List.append_nil _).symm⟩
  · rw [hentry]
    exact ⟨id, fun y hy _ => ⟨y.waitDone, hy⟩⟩

theorem State.completed_of_keepsDone {s t : State} {x : Entry} {st res : Nat} (h : State.completed x st res s) (hd : s.keepsDone t) :
    State.completed x st res t := by
  obtain ⟨hrings, hentries⟩ := hd
  obtain ⟨⟨l, hheld⟩, hback⟩ := hrings x.home.1 x.home.2
  rcases h with ⟨hgone, c, hc, hfields⟩ | ⟨hfull, y, pick, hy, hparked, hfields⟩
  · exact Or.inl ⟨(hentries x.acc).1 hgone, c, hheld ▸ List.mem_append_left _ hc, hfields⟩
  · obtain ⟨w, hw⟩ := (hentries x.acc).2 y hy (by simp [hparked])
    exact Or.inr ⟨hfull.trans hback, _, pick, hw, hparked, hfields⟩

section
variable {s : State} {x : Entry} (hx : s.entry x.acc = some x) (hp : x.parked = none)
include hx hp

/-- Of an entry that is not parked nothing is asked. -/
theorem State.keepsDone_of_others {t : State}
    (hr : ∀ q k, (∃ l, (t.ring q k).held = (s.ring q k).held ++ l) ∧ s.heldBack q k ≤ t.heldBack q k) (g : Entry → Entry)
    (hg : ∀ y, ∃ w, g y = { y with waitDone := w }) (ho : ∀ a, a ≠ x.acc → t.entry a = (s.entry a).map g) : s.keepsDone t := by
  refine ⟨hr, fun a => ?_⟩
  by_cases ha : a = x.acc
  · subst ha
    rw [hx]
    refine ⟨fun h => by simp at h, fun y hy hpark => ?_⟩
    cases hy
    simp [hp] at hpark
  · refine ⟨fun h => by rw [ho a ha, h]; rfl, fun y hy _ => ?_⟩
    obtain ⟨w, hw⟩ := hg y
    exact ⟨w, by rw [ho a ha, hy, Option.map_some, hw]⟩

theorem State.setEntry_keepsDone (f : Entry → Entry) (hf : ∀ y, (f y).acc = y.acc) : s.keepsDone (s.setEntry x.acc f) :=
  State.keepsDone_of_others hx hp (fun _ _ => ⟨⟨[], (List.append_nil _).symm⟩, le_refl _⟩) id (fun y => ⟨y.waitDone, rfl⟩)
    (fun _ ha => (s.setEntry_entry_ne f hf ha).trans Option.map_id'.symm)

theorem State.leave_keepsDone (st pick res : Nat) : s.keepsDone (s.leave x st pick res) := by
  refine State.keepsDone_of_others hx hp (fun q k => ?_) (x.hears st) (x.hears_eq st) (fun a ha => s.leave_entry_ne x st pick res ha)
  obtain ⟨h, hring⟩ := s.leave_ring x st pick res q k
  have hsize := State.ringSize_of_keeps (s.leave_keeps x st pick res) (by decide) q k
  have hheld : (s.leave x st pick res).ring q k = { s.ring q k with
    held := (s.ring q k).held ++ (if 256 * q + k = 256 * x.home.1 + x.home.2 then [x.compl st pick res] else []), history := h } := by
    rw [hring]
    split
    · rfl
    · rw [List.append_nil]
  refine ⟨⟨_, congrArg Ring.held hheld⟩, ?_⟩
  simp only [State.heldBack, hsize, hheld, List.length_append]
  omega

end

theorem State.complete_keepsDone (s : State) (e st res : Nat) : s.keepsDone (s.complete e st res) := by
  unfold State.complete State.completeWith
  split
  · exact s.keepsDone_refl
  · next x hx =>
    obtain rfl := State.entry_acc hx
    dsimp only
    split
    · exact s.keepsDone_refl
    · next hparked =>
      have hp : x.parked = none := by simpa using hparked
      split
      · exact State.setEntry_keepsDone hx hp _ (fun _ => rfl)
      · exact State.leave_keepsDone hx hp _ _ _

theorem State.completed_settleEntries {s : State} {x : Entry} {st res : Nat} (h : State.completed x st res s) (p : Nat) :
    State.completed x st res (s.settleEntries p) := by
  unfold State.settleEntries
  generalize s.entries.filter _ = es
  induction es generalizing s with
  | nil => exact h
  | cons y es ih => exact ih (State.completed_of_keepsDone h (State.complete_keepsDone _ _ _ _))

theorem State.settleEntries_keeps (s : State) (p : Nat) : s.keeps (s.settleEntries p) [.entries, .rings] :=
  State.keeps_fold (fun u _ => u.complete_keeps _ _ _) _ _

-- ## PREEMPT (R222)

theorem preempt_runs {s : State} {e : Nat} {x : Entry} (hx : s.partEntry e 0x50 = some x) (hshed : (s.part x.part).shed = none)
    (hsave : bitAt x.arg0 0 = false) : preempt s e = (s.setEntry e (fun y => { y with st := .running })).preemptNow x.part e false := by
  simp only [preempt, hx, hshed, hsave, Option.isSome_none, Bool.false_eq_true, if_false]

/-- A partition whose save begins: what the header will say is kept. -/
def Part.startsSave (acc code n : Nat) (y : Part) : Part :=
  { y with st := .preempting, saving := [acc], savedJob := y.job.st, savedCode := code, savedN := n }

theorem State.preemptNow_starts {s : State} {p : Nat} (acc : Nat) (hst : (s.part p).st = .active) (hbase : (s.saveBase p).isSome = true) :
    s.preemptNow p acc false = (s.stopDrafts p).becomes p ((s.part p).startsSave acc (s.jobCode p) (s.clusterCount p)) := by
  simp only [State.preemptNow, hst, State.runPreempt, hbase, Bool.false_eq_true, if_false, if_true]
  rfl

theorem State.preemptNow_done {s : State} {p : Nat} (acc : Nat) (hst : (s.part p).st = .preempted) :
    s.preemptNow p acc false = s.complete acc stOK (s.saveUnits p) := by
  simp only [State.preemptNow, hst, State.runPreempt, Bool.false_eq_true, if_false]
  rfl

theorem State.stopDrafts_stops (s : State) (p : Nat) : ∀ d ∈ (s.stopDrafts p).drafts, d.part = p → ∀ n ∈ d.nodes, n.st ≠ .running := by
  intro d hd hp n hn
  obtain ⟨z, -, rfl⟩ := List.mem_map.1 hd
  split at hn
  · obtain ⟨m, -, rfl⟩ := List.mem_map.1 hn
    split
    · simp
    · next h => exact h
  · next h => simp [h] at hp

theorem State.stopDrafts_keeps (s : State) (p : Nat) : s.keeps (s.stopDrafts p) [.drafts] := s.keeps_drafts _

theorem State.partEntry_entry {s : State} {e op : Nat} {x : Entry} (h : s.partEntry e op = some x) : s.entry e = some x := by
  unfold State.partEntry at h
  split at h
  · next y hy =>
    split at h
    · cases h; exact hy
    · cases h
  · cases h

/-- An entry that runs and completes completes as itself. -/
theorem State.gives_of_running {s : State} {c : Instr} {x : Entry} {st res : Nat}
    (h : exec c s = finish ((s.setEntry x.acc (fun y => { y with st := .running })).complete x.acc st res)) (hx : s.entry x.acc = some x)
    (hp : x.parked = none) : s.gives c (fun t => State.completed x st res t ∧ s.keeps t [.entries, .rings]) := by
  have hrun := State.setEntry_entry s x.acc (fun y => { y with st := .running }) (fun _ => rfl) x hx
  refine State.gives_of_finish h ⟨State.completed_settle ?_, State.keeps_settled (State.keeps_step (State.keeps_mono (s.setEntry_keeps _ _) (by decide))
    (State.complete_keeps _ _ _ _))⟩
  exact State.completed_congr (y := { x with st := .running }) rfl rfl rfl rfl rfl (State.complete_completed _ x.acc st res _ hrun hp)

-- ## RESUME (R225)

theorem resume_runs {s : State} {e : Nat} {x : Entry} (hx : s.partEntry e 0x51 = some x) :
    resume s e = (s.setEntry e (fun y => { y with st := .running })).resumeNow x.part e := by simp only [resume, hx]

theorem State.resumeNow_refused {s : State} {p : Nat} (acc : Nat) (hpre : (s.part p).st ≠ .preempted) (hsaving : (s.part p).st ≠ .preempting) :
    s.resumeNow p acc = s.complete acc stInvalid 0 := by
  unfold State.resumeNow
  dsimp only
  split
  · next h => exact absurd h hsaving
  · rw [State.runResume, if_neg hpre]
    rfl

/-- Saved looms without a place of their own get one in a parking slot (R450). -/
def State.placesHomeless (s : State) (p : Nat) : State :=
  (s.homeless p).foldl (fun s lg => s.placeGuest p (s.physLoom p lg) false)
    { s with vacant := s.vacant.filter (fun v => !((s.homeless p).map (fun lg => 256 * p + lg)).contains v) }

theorem State.placesHomeless_keeps (s : State) (p : Nat) : s.keeps (s.placesHomeless p) [.mem, .ports, .genRetire, .guests, .vacant] :=
  State.keeps_trans (State.keeps_mono (s.keeps_guests s.guests _) (by decide)) (State.keeps_fold (fun u _ => u.placeGuest_keeps _ _ _) _ _)

/-- A partition whose restore begins. -/
def Part.startsRestore (acc : Nat) (y : Part) : Part := { y with st := .resuming, restoring := [acc] }

theorem State.resumeNow_starts {s : State} {p : Nat} (acc : Nat) (hst : (s.part p).st = .preempted) (hok : s.resumeStatus p = 0) :
    s.resumeNow p acc = (s.placesHomeless p).becomes p (((s.placesHomeless p).part p).startsRestore acc) := by
  simp only [State.resumeNow, hst, State.runResume, State.startRestore, hok, if_true]
  rfl

-- ## The save ends (R222, R223)

/-- Bank 0 is written, the nodes have stopped, and the save is counted. -/
def State.saves (s : State) (p base : Nat) : State :=
  ((s.writeBank p base (List.range (s.clusterCount p)) (s.part p).savedCode).stopNodes p).count p 7 1

theorem State.saves_keeps (s : State) (p base : Nat) : s.keeps (s.saves p base) [.mem, .drafts, .looms, .parts] :=
  State.keeps_step (State.keeps_step (State.keeps_mono (s.writeBank_keeps p base _ _) (by decide)) (State.stopNodes_keeps _ p)) (State.setPart_keeps _ p _)

theorem State.saves_part (s : State) (p base : Nat) : ∃ cs, (s.saves p base).part p = { s.part p with counters := cs } := by
  have hpart : ((s.writeBank p base (List.range (s.clusterCount p)) (s.part p).savedCode).stopNodes p).part p = s.part p :=
    (State.part_of_keeps (State.stopNodes_keeps _ p) (by decide) p).trans (State.part_of_keeps (s.writeBank_keeps p base _ _) (by decide) p)
  exact ⟨_, (State.setPart_part_same _ p _).trans (by rw [hpart])⟩

theorem State.saves_part_ne (s : State) (base : Nat) {p k : Nat} (h : k ≠ p) : (s.saves p base).part k = s.part k :=
  (State.setPart_part_ne _ _ h).trans ((State.part_of_keeps (State.stopNodes_keeps _ p) (by decide) k).trans
    (State.part_of_keeps (s.writeBank_keeps p base _ _) (by decide) k))

/-- The looms a save takes, by their logical ids. -/
def State.loomsKept (s : State) (p : Nat) : List (Nat × Loom) :=
  tcanon {} (((s.clusters p).zipIdx.flatMap (fun ci => (List.range 8).map (fun j => (8 * ci.2 + j, s.loom (8 * ci.1 + j))))).filter
    (fun x => !s.isVacant p x.1))

/-- A partition that has been saved. -/
def Part.preempts (ls : List (Nat × Loom)) (y : Part) : Part :=
  { y with st := .preempted, saving := [], savedLooms := ls, job := { y.job with st := if y.job.st = .none then .none else .preempted } }

theorem State.complete_part (s : State) (e st res k : Nat) : (s.complete e st res).part k = s.part k :=
  State.part_of_keeps (s.complete_keeps e st res) (by decide) k

theorem State.completeAll_one (s : State) (a st res : Nat) : s.completeAll [a] st res = s.complete a st res := rfl

/-- Nothing is kept for a partition, and no live activation holds. -/
theorem State.goesOn_of_noOps {s : State} {p : Nat} (hops : (s.part p).ops = []) (hphase : s.boot.phase ≠ .holding) : (s.partNext p).actHold = s := by
  rw [State.partNext_of_noOps hops, State.actHold_of_notHolding hphase]

theorem State.saveEnds_keeps (s : State) (p base a : Nat) (y : Part) (st res : Nat) :
    s.keeps (((s.saves p base).becomes p y).complete a st res) [.mem, .ports, .rings, .entries, .drafts, .parts, .looms] :=
  State.keeps_step (State.keeps_step (State.keeps_mono (s.saves_keeps p base) (by decide)) (State.becomes_keeps _ p y)) (State.complete_keeps _ a st res)

theorem State.saveEnd_eq {s : State} {p a base : Nat} (hst : (s.part p).st = .preempting) (hbase : s.saveBase p = some base)
    (hsaving : (s.part p).saving = [a]) (hretry : s.retrying p = false) (hops : (s.part p).ops = []) (hphase : s.boot.phase ≠ .holding) :
    s.saveEnd p = ((s.saves p base).becomes p (((s.saves p base).part p).preempts (s.loomsKept p))).complete a stOK (s.saveUnits p) := by
  have hend : s.saveEnd p = ((((s.saves p base).becomes p (((s.saves p base).part p).preempts (s.loomsKept p))).complete a stOK
      (s.saveUnits p)).partNext p).actHold := by
    have hgoes : ¬((s.part p).st ≠ .preempting ∨ s.retrying p = true) := by simp [hst, hretry]
    obtain ⟨u, hu⟩ : ∃ u, ((s.writeBank p base (List.range (s.clusterCount p)) (s.part p).savedCode).stopNodes p).count p 7 1 = u := ⟨_, rfl⟩
    rw [show s.saves p base = u from hu]
    simp only [State.saveEnd, hbase, if_neg hgoes, hsaving, State.completeAll_one, hu, State.becomes, Part.preempts, State.loomsKept]
  rw [hend]
  obtain ⟨cs, hpart⟩ := s.saves_part p base
  obtain ⟨g, j, hbecomes⟩ := (s.saves p base).becomes_part p (((s.saves p base).part p).preempts (s.loomsKept p))
  refine State.goesOn_of_noOps ?_ ?_
  · rw [State.complete_part, hbecomes, hpart]
    exact hops
  · rw [show _ = s.boot from s.saveEnds_keeps p base a _ stOK (s.saveUnits p) .boot (by decide)]
    exact hphase

-- ## The restore ends (R225)

/-- The looms and the Heddle hold what bank 0 holds. -/
def State.loads (s : State) (p base : Nat) : State :=
  State.readHeddle ((List.range (8 * (s.part p).savedN)).foldl (fun u lg => u.loadLoom p base lg (tget {} (s.part p).savedLooms lg)) s) p base

theorem State.loads_keeps (s : State) (p base : Nat) : s.keeps (s.loads p base) [.mem, .looms, .drafts, .parts] := by
  have hloaded := State.keeps_fold (fun (u : State) lg => u.loadLoom_keeps p base lg (tget {} (s.part p).savedLooms lg)) s (List.range (8 * (s.part p).savedN))
  obtain ⟨-, -, hkeeps⟩ := State.readHeddle_keepsButLoops
    ((List.range (8 * (s.part p).savedN)).foldl (fun u lg => u.loadLoom p base lg (tget {} (s.part p).savedLooms lg)) s) p base
  exact State.keeps_step (State.keeps_mono hloaded (by decide)) hkeeps

theorem State.loads_part (s : State) (p base : Nat) :
    (∃ ls, (s.loads p base).part p = { s.part p with loops := ls }) ∧ ∀ k, k ≠ p → (s.loads p base).part k = s.part k := by
  have hloaded := State.keeps_fold (fun (u : State) lg => u.loadLoom_keeps p base lg (tget {} (s.part p).savedLooms lg)) s (List.range (8 * (s.part p).savedN))
  obtain ⟨⟨ls, hpart⟩, hother, -⟩ := State.readHeddle_keepsButLoops
    ((List.range (8 * (s.part p).savedN)).foldl (fun u lg => u.loadLoom p base lg (tget {} (s.part p).savedLooms lg)) s) p base
  rw [State.part_of_keeps hloaded (by decide)] at hpart
  exact ⟨⟨ls, hpart⟩, fun k hk => (hother k hk).trans (State.part_of_keeps hloaded (by decide) k)⟩

/-- Nodes that the save has stopped run again, but bubble-fill work that lies in bank 1. -/
def State.restarts (s : State) (p : Nat) (bubble : List (Nat × Loom)) : State :=
  { s with drafts := s.drafts.map (fun d => if d.part = p then { d with nodes := d.nodes.map (fun n =>
      if n.st = .stopped ∧ !(n.bubble && bubble.any (fun b => n.loomSet.contains b.1)) then { n with st := .running } else n) } else d) }

theorem State.restarts_keeps (s : State) (p : Nat) (bubble : List (Nat × Loom)) : s.keeps (s.restarts p bubble) [.drafts] := s.keeps_drafts _

/-- A partition that has been restored. -/
def Part.resumes (job : JobState) (y : Part) : Part :=
  { y with st := .active, restoring := [], savedLooms := [], job := { y.job with st := job } }

theorem State.restoreEnd_good {s : State} {p a base : Nat} (hst : (s.part p).st = .resuming) (hbase : s.saveBase p = some base)
    (hrestoring : (s.part p).restoring = [a]) (htreadle : s.treadle.state = 0)
    (hread : s.anyPoison (partCtx p) (s.moduleNum * 2 ^ 52 + base) (bankBytes (s.part p).savedN) false = false) :
    s.restoreEnd p true = ((((((s.loads p base).restarts p (s.part p).savedBubble).becomes p
      ((((s.loads p base).restarts p (s.part p).savedBubble).part p).resumes (s.part p).savedJob)).complete a stOK 0).settleEntries p).partNext p).actHold := by
  have hgoes : ¬((s.part p).st ≠ .resuming ∨ s.treadle.state ≠ 0) := by simp [hst, htreadle]
  have hgood : ¬((!true) = true ∨ s.anyPoison (partCtx p) (s.moduleNum * 2 ^ 52 + base) (bankBytes (s.part p).savedN) false = true) := by
    rw [hread]
    simp
  obtain ⟨u, hu⟩ : ∃ u, s.loads p base = u := ⟨_, rfl⟩
  have hu' := hu
  simp only [State.loads] at hu'
  rw [hu]
  simp only [State.restoreEnd, hbase, if_neg hgoes, if_neg hgood, hrestoring, State.completeAll_one, hu', State.becomes, Part.resumes, State.restarts]

/-- A partition whose bank could not be read. -/
def Part.failsRestore (y : Part) : Part := { y with st := .preempted, restoring := [] }

theorem State.restoreEnd_bad {s : State} {p a base : Nat} (hst : (s.part p).st = .resuming) (hbase : s.saveBase p = some base)
    (hrestoring : (s.part p).restoring = [a]) (htreadle : s.treadle.state = 0) :
    ∃ u, s.keeps u [.mem, .looms] ∧ s.restoreEnd p false =
      (((u.setPart p (u.part p).failsRestore).complete a stRetryExhausted 0).writePages p).partNext p := by
  have hgoes : ¬((s.part p).st ≠ .resuming ∨ s.treadle.state ≠ 0) := by simp [hst, htreadle]
  refine ⟨(s.clusters p).foldl (fun s c => (List.range 8).foldl (fun s j => s.clearAcc (8 * c + j)) s) s,
    State.keeps_fold (fun u c => State.keeps_fold (fun u j => u.clearAcc_keeps _) _ _) _ _, ?_⟩
  simp only [State.restoreEnd, hbase, if_neg hgoes, hrestoring, State.completeAll_one, Part.failsRestore, Bool.not_false, true_or, if_true]

/-- The end of a good restore: the partition is ACTIVE with its saved job state, and its RESUME completes. -/
theorem State.restoreEnd_good_gives {s : State} {p : Nat} {base : Nat} {x : Entry} (hst : (s.part p).st = .resuming) (hbase : s.saveBase p = some base)
    (hrestoring : (s.part p).restoring = [x.acc]) (hx : s.entry x.acc = some x) (hparked : x.parked = none) (htreadle : s.treadle.state = 0)
    (hops : (s.part p).ops = []) (hphase : s.boot.phase ≠ .holding)
    (hread : s.anyPoison (partCtx p) (s.moduleNum * 2 ^ 52 + base) (bankBytes (s.part p).savedN) false = false) :
    s.gives (.resumeRestoreComplete p true) (fun t => (t.part p).st = .active ∧ (t.part p).restoring = [] ∧
      (t.part p).job.st = (s.part p).savedJob ∧ State.completed x stOK 0 t ∧ (∀ p', p' ≠ p → t.part p' = s.part p') ∧
      s.keeps t [.mem, .ports, .rings, .entries, .drafts, .parts, .looms]) := by
  have hend := State.restoreEnd_good hst hbase hrestoring htreadle hread
  obtain ⟨⟨ls, hpart⟩, hother⟩ := s.loads_part p base
  have hloads := State.keeps_step (State.keeps_mono (s.loads_keeps p base) (by decide)) (State.restarts_keeps _ p (s.part p).savedBubble)
    (fs := [.mem, .looms, .drafts, .parts])
  have hparts (k : Nat) : ((s.loads p base).restarts p (s.part p).savedBubble).part k = (s.loads p base).part k := rfl
  generalize (s.loads p base).restarts p (s.part p).savedBubble = u at *
  obtain ⟨g, j, hbecomes⟩ := u.becomes_part p ((u.part p).resumes (s.part p).savedJob)
  have hne (k : Nat) (hk : k ≠ p) := u.becomes_part_ne ((u.part p).resumes (s.part p).savedJob) hk
  have hkeeps := State.keeps_step (State.keeps_mono hloads (by decide)) (u.becomes_keeps p ((u.part p).resumes (s.part p).savedJob))
    (fs := [.mem, .ports, .drafts, .parts, .looms])
  generalize u.becomes p ((u.part p).resumes (s.part p).savedJob) = v at *
  have hentry : v.entry x.acc = some x := (congrArg (List.find? _) (hkeeps .entries (by decide))).trans hx
  have hdone := State.completed_settleEntries (State.complete_completed v x.acc stOK 0 x hentry hparked) p
  have hvt := State.keeps_step (v.complete_keeps x.acc stOK 0) (State.settleEntries_keeps _ p)
  generalize (v.complete x.acc stOK 0).settleEntries p = t at *
  have htp : t.part p = { (u.part p).resumes (s.part p).savedJob with genPage := g, genJob := j } := (State.part_of_keeps hvt (by decide) p).trans hbecomes
  have hall := State.keeps_step (State.keeps_mono hkeeps (by decide)) hvt (fs := [.mem, .ports, .rings, .entries, .drafts, .parts, .looms])
  have hsettled : (t.partNext p).actHold = t := by
    refine State.goesOn_of_noOps ?_ ?_
    · rw [htp, hparts, hpart]
      exact hops
    · rw [show t.boot = s.boot from hall .boot (by decide)]
      exact hphase
  rw [hsettled] at hend
  refine State.gives_of_finish (congrArg finish hend) ⟨?_, ?_, ?_, State.completed_settle hdone, fun k hk => ?_, State.keeps_settled hall⟩
  · rw [settle_part, htp]
    rfl
  · rw [settle_part, htp]
    rfl
  · rw [settle_part, htp]
    rfl
  · rw [settle_part, State.part_of_keeps hvt (by decide), hne k hk, hparts, hother k hk]

/-- A bank that cannot be read leaves the partition PREEMPTED, and its RESUME fails. -/
theorem State.restoreEnd_bad_gives {s : State} {p : Nat} {base : Nat} {x : Entry} (hst : (s.part p).st = .resuming) (hbase : s.saveBase p = some base)
    (hrestoring : (s.part p).restoring = [x.acc]) (hx : s.entry x.acc = some x) (hparked : x.parked = none) (htreadle : s.treadle.state = 0)
    (hops : (s.part p).ops = []) :
    s.gives (.resumeRestoreComplete p false) (fun t => (t.part p).st = .preempted ∧ (t.part p).restoring = [] ∧
      State.completed x stRetryExhausted 0 t ∧ (∀ p', p' ≠ p → t.part p' = s.part p') ∧ s.keeps t [.mem, .ports, .rings, .entries, .parts, .looms]) := by
  obtain ⟨u, hu, hend⟩ := State.restoreEnd_bad hst hbase hrestoring htreadle
  have hpart (k : Nat) : u.part k = s.part k := State.part_of_keeps hu (by decide) k
  have hentry : u.entry x.acc = some x := (congrArg (List.find? _) (hu .entries (by decide))).trans hx
  have hdone := State.complete_completed (u.setPart p (u.part p).failsRestore) x.acc stRetryExhausted 0 x hentry hparked
  have hkeeps := State.keeps_step (State.keeps_step (State.keeps_mono hu (by decide)) (u.setPart_keeps p (u.part p).failsRestore))
    (State.complete_keeps _ x.acc stRetryExhausted 0) (fs := [.mem, .ports, .rings, .entries, .parts, .looms])
  have hvpart (k : Nat) := State.complete_part (u.setPart p (u.part p).failsRestore) x.acc stRetryExhausted 0 k
  have hsame : ((u.setPart p (u.part p).failsRestore).part p) = (u.part p).failsRestore :=
    u.setPart_part_same p _
  have hne (k : Nat) (hk : k ≠ p) := u.setPart_part_ne (u.part p).failsRestore hk
  rw [← hvpart] at hsame
  generalize (u.setPart p (u.part p).failsRestore).complete x.acc stRetryExhausted 0 = v at *
  obtain ⟨g, j, hpages⟩ := v.writePages_part p
  rw [hsame] at hpages
  rw [State.partNext_of_noOps (by rw [hpages, hpart]; exact hops)] at hend
  refine State.gives_of_finish (congrArg finish hend) ⟨?_, ?_,
    State.completed_settle (State.completed_of_keepsDone hdone (State.keepsDone_of_keeps (v.writePages_keeps p))), fun k hk => ?_,
    State.keeps_settled (State.keeps_step hkeeps (v.writePages_keeps p))⟩
  · rw [settle_part, hpages]
    rfl
  · rw [settle_part, hpages]
    rfl
  · rw [settle_part, State.writePages_part_ne _ hk, hvpart, hne k hk, hpart]

/-- The end of a save: the partition is PREEMPTED, and its PREEMPT completes. -/
theorem State.saveEnd_gives {s : State} {p base : Nat} {x : Entry} (hst : (s.part p).st = .preempting) (hbase : s.saveBase p = some base)
    (hsaving : (s.part p).saving = [x.acc]) (hx : s.entry x.acc = some x) (hparked : x.parked = none) (hretry : s.retrying p = false)
    (hops : (s.part p).ops = []) (hphase : s.boot.phase ≠ .holding) :
    s.gives (.preemptSaveComplete p) (fun t => (t.part p).st = .preempted ∧ (t.part p).saving = [] ∧
      (t.part p).job.st = (if (s.part p).job.st = .none then .none else .preempted) ∧ State.completed x stOK (s.saveUnits p) t ∧
      (∀ p', p' ≠ p → t.part p' = s.part p') ∧ s.keeps t [.mem, .ports, .rings, .entries, .drafts, .parts, .looms]) := by
  have hend := State.saveEnd_eq hst hbase hsaving hretry hops hphase
  obtain ⟨cs, hpart⟩ := s.saves_part p base
  have hother (k : Nat) (hk : k ≠ p) := s.saves_part_ne base hk
  have hall := s.saveEnds_keeps p base x.acc (((s.saves p base).part p).preempts (s.loomsKept p)) stOK (s.saveUnits p)
  have hsaves := s.saves_keeps p base
  generalize s.saves p base = u at *
  obtain ⟨g, j, hbecomes⟩ := u.becomes_part p ((u.part p).preempts (s.loomsKept p))
  have hne (k : Nat) (hk : k ≠ p) := u.becomes_part_ne ((u.part p).preempts (s.loomsKept p)) hk
  have hkeeps := State.keeps_step (State.keeps_mono hsaves (by decide)) (u.becomes_keeps p ((u.part p).preempts (s.loomsKept p)))
    (fs := [.mem, .ports, .drafts, .parts, .looms])
  generalize u.becomes p ((u.part p).preempts (s.loomsKept p)) = v at *
  have hentry : v.entry x.acc = some x := (congrArg (List.find? _) (hkeeps .entries (by decide))).trans hx
  have hdone := State.complete_completed v x.acc stOK (s.saveUnits p) x hentry hparked
  have htpart (k : Nat) := v.complete_part x.acc stOK (s.saveUnits p) k
  generalize v.complete x.acc stOK (s.saveUnits p) = t at *
  have htp : t.part p = { (u.part p).preempts (s.loomsKept p) with genPage := g, genJob := j } := (htpart p).trans hbecomes
  refine State.gives_of_finish (congrArg finish hend) ⟨?_, ?_, ?_, State.completed_settle hdone, fun k hk => ?_, State.keeps_settled hall⟩
  · rw [settle_part, htp]
    rfl
  · rw [settle_part, htp]
    rfl
  · rw [settle_part, htp, hpart]
    rfl
  · rw [settle_part, htpart, hne k hk, hother k hk]

/-- A PREEMPT of an ACTIVE partition with a save area starts its save. -/
theorem preempt_starts {s : State} {e : Nat} {x : Entry} (hx : s.partEntry e 0x50 = some x) (hshed : (s.part x.part).shed = none)
    (hbit : bitAt x.arg0 0 = false) (hst : (s.part x.part).st = .active) (hbase : (s.saveBase x.part).isSome = true) :
    s.gives (.preempt e) (fun t => (t.part x.part).st = .preempting ∧ (t.part x.part).saving = [e] ∧
      (t.part x.part).savedJob = (s.part x.part).job.st ∧ (∀ d ∈ t.drafts, d.part = x.part → ∀ n ∈ d.nodes, n.st ≠ .running) ∧
      (∀ p', p' ≠ x.part → t.part p' = s.part p') ∧ s.keeps t [.mem, .ports, .entries, .drafts, .parts]) := by
  have hrun := preempt_runs hx hshed hbit
  have hsu : s.keeps (s.setEntry e (fun y => { y with st := .running })) [.entries] := s.setEntry_keeps _ _
  have hubase : (s.setEntry e (fun y => { y with st := .running })).saveBase x.part = s.saveBase x.part := rfl
  generalize s.setEntry e (fun y => { y with st := .running }) = u at *
  have hupart (k : Nat) : u.part k = s.part k := State.part_of_keeps hsu (by decide) k
  rw [State.preemptNow_starts e (by rw [hupart]; exact hst) (by rw [hubase]; exact hbase)] at hrun
  have hstops := u.stopDrafts_stops x.part
  have hsv := State.keeps_step (State.keeps_mono hsu (by decide)) (u.stopDrafts_keeps x.part) (fs := [.entries, .drafts])
  generalize u.stopDrafts x.part = v at *
  obtain ⟨g, j, hpart⟩ := v.becomes_part x.part ((u.part x.part).startsSave e (u.jobCode x.part) (u.clusterCount x.part))
  have hvt := v.becomes_keeps x.part ((u.part x.part).startsSave e (u.jobCode x.part) (u.clusterCount x.part))
  have hne (k : Nat) (hk : k ≠ x.part) := v.becomes_part_ne ((u.part x.part).startsSave e (u.jobCode x.part) (u.clusterCount x.part)) hk
  generalize v.becomes x.part _ = t at *
  refine State.gives_of_finish (congrArg finish hrun) ⟨?_, ?_, ?_, ?_, fun k hk => ?_,
    State.keeps_settled (State.keeps_step (State.keeps_mono hsv (by decide)) hvt)⟩
  · rw [settle_part, hpart]
    rfl
  · rw [settle_part, hpart]
    rfl
  · rw [settle_part, hpart, hupart]
    rfl
  · rw [settle_drafts, hvt .drafts (by decide)]
    exact hstops
  · rw [settle_part, hne k hk, State.part_of_keeps hsv (by decide)]

/-- A RESUME whose save passes its checks starts the restore. -/
theorem resume_starts {s : State} {e : Nat} {x : Entry} (hx : s.partEntry e 0x51 = some x) (hst : (s.part x.part).st = .preempted)
    (hok : s.resumeStatus x.part = 0) :
    s.gives (.resume e) (fun t => (t.part x.part).st = .resuming ∧ (t.part x.part).restoring = [e] ∧
      (∀ p', p' ≠ x.part → t.part p' = s.part p') ∧ s.keeps t [.mem, .ports, .entries, .parts, .guests, .vacant, .genRetire]) := by
  have hrun := resume_runs hx
  have hsu : s.keeps (s.setEntry e (fun y => { y with st := .running })) [.entries] := s.setEntry_keeps _ _
  have huok : (s.setEntry e (fun y => { y with st := .running })).resumeStatus x.part = s.resumeStatus x.part := rfl
  generalize s.setEntry e (fun y => { y with st := .running }) = u at *
  have hupart (k : Nat) : u.part k = s.part k := State.part_of_keeps hsu (by decide) k
  rw [State.resumeNow_starts e (by rw [hupart]; exact hst) (huok.trans hok)] at hrun
  have hsv := State.keeps_step (State.keeps_mono hsu (by decide)) (u.placesHomeless_keeps x.part)
    (fs := [.mem, .ports, .genRetire, .guests, .vacant, .entries])
  generalize u.placesHomeless x.part = v at *
  obtain ⟨g, j, hpart⟩ := v.becomes_part x.part ((v.part x.part).startsRestore e)
  have hvt := v.becomes_keeps x.part ((v.part x.part).startsRestore e)
  have hne (k : Nat) (hk : k ≠ x.part) := v.becomes_part_ne ((v.part x.part).startsRestore e) hk
  generalize v.becomes x.part _ = t at *
  refine State.gives_of_finish (congrArg finish hrun) ⟨?_, ?_, fun k hk => ?_, State.keeps_settled (State.keeps_step (State.keeps_mono hsv (by decide)) hvt)⟩
  · rw [settle_part, hpart]
    rfl
  · rw [settle_part, hpart]
    rfl
  · rw [settle_part, hne k hk, State.part_of_keeps hsv (by decide)]

/-- Settles O15: each command and each end of a save or restore, by the partition's state. -/
theorem preemptSavesAndResumeRestores : Obligations.PreemptSavesAndResumeRestores := by
  refine ⟨fun s e x hx hparked hshed hbit => ⟨fun hst hbase => ?_, fun hst => ?_⟩,
    fun s p a x hst hbase hsaving hx hparked hretry hops hphase => ?_, fun s e x hx hparked hpre hsaving => ?_, fun s e x hx hst hok => ?_,
    fun s p a x hst hbase hrestoring hx _ hparked htreadle hops hphase => ⟨fun base hb hread => ?_, ?_⟩⟩
  · exact preempt_starts hx hshed hbit hst hbase
  · have hrun := preempt_runs hx hshed hbit
    have hent := State.partEntry_entry hx
    obtain rfl := State.entry_acc hent
    exact State.gives_of_running (congrArg finish (hrun.trans (State.preemptNow_done (s := s.setEntry x.acc _) x.acc hst))) hent hparked
  · obtain ⟨base, hb⟩ := Option.isSome_iff_exists.1 hbase
    obtain rfl := State.entry_acc hx
    exact State.saveEnd_gives hst hb hsaving hx hparked hretry hops hphase
  · have hrun := resume_runs hx
    have hent := State.partEntry_entry hx
    obtain rfl := State.entry_acc hent
    exact State.gives_of_running (congrArg finish (hrun.trans (State.resumeNow_refused (s := s.setEntry x.acc _) x.acc hpre hsaving))) hent hparked
  · exact resume_starts hx hst hok
  · obtain rfl := State.entry_acc hx
    exact State.restoreEnd_good_gives hst hb hrestoring hx hparked htreadle hops hphase hread
  · obtain ⟨base, hb⟩ := Option.isSome_iff_exists.1 hbase
    obtain rfl := State.entry_acc hx
    exact State.restoreEnd_bad_gives hst hb hrestoring hx hparked htreadle hops

end Sys2Proof.Machine
end

section
/-!
PROOFS. The statement on ports, functions and windows (O59) says that the loss of a PCIe link leaves every register but the BAR4 windows under every
name as it was. It fails for the reason of O57, O58 and O60: the name `.id` of a BAR4 window's offset reads the window too.
-/

-- Proofs are elaborated one after another: side by side, the threads of the whole text outgrow the memory that the check allows.
set_option Elab.async false

namespace Sys2Proof.Machine

/-- The module with the BAR4 window of port 0's PF in tier 2, its link down. -/
def bar4Placed : State := { regs := [((Reg.fnBar4 0 0).offset, 1)] }

/-- The name beyond the ID block reads the window before PERST, and its reset value afterwards. -/
theorem bar4Placed_idTwin : bar4Placed.reg (Reg.idTwin (.fnBar4 0 0)) = 1 ∧ (perstAssert bar4Placed 0 true).reg (Reg.idTwin (.fnBar4 0 0)) = 0 := by
  decide +kernel

/-- Refutes O59: PERST of a port whose link is down resets the placed BAR4 window, and with it what the name `.id` of the window's offset reads. -/
theorem not_portsFunctionsAndWindows : ¬ Obligations.PortsFunctionsAndWindows := by
  intro h
  obtain ⟨hperst, -⟩ := h
  obtain ⟨hdown, -⟩ := hperst bar4Placed 0 true (by decide) (fun _ => nofun) (fun _ => nofun) (fun _ _ => rfl) _ rfl
  obtain ⟨t, ht, ⟨-, -, -, -, -, -, hregs⟩, -⟩ := hdown rfl
  have hexec : exec (.perstAssert 0 true) bar4Placed = finish (perstAssert bar4Placed 0 true) := rfl
  obtain ⟨hbefore, hafter⟩ := bar4Placed_idTwin
  generalize perstAssert bar4Placed 0 true = u at hexec hafter
  obtain rfl := Host.Outcome.next.inj (ht.symm.trans hexec)
  have hsame : u.reg (Reg.idTwin (.fnBar4 0 0)) = bar4Placed.reg (Reg.idTwin (.fnBar4 0 0)) := hregs (Reg.idTwin (.fnBar4 0 0)) (fun _ => nofun)
  exact absurd (hafter.symm.trans (hsame.trans hbefore)) (by decide)

end Sys2Proof.Machine
end

section
/-!
PROOFS. Changes of the memory-side cache and of shared regions (O16): what a write of a way mask, of a policy or of a region's control does at once, and
what the end of a write-back leaves (R237, R238, R240, R242, R243).
-/

-- Proofs are elaborated one after another: side by side, the threads of the whole text outgrow the memory that the check allows.
set_option Elab.async false

namespace Sys2Proof.Machine

/-- Where no scrub read waits, none is made. -/
theorem State.issueScrubs_of_none {s : State} (h : s.memCtl.scrubWait = []) : s.issueScrubs = s := by simp [State.issueScrubs, h]

-- ## A change arrives (R238, R240)

theorem regAt_partT2Ways {p : Nat} (hp : p < 16) : regAt (Reg.partT2Ways p).offset = some (.partT2Ways p) := by
  interval_cases p <;> rfl

theorem regAt_mscPolicy {i : Nat} (hi : i < 3) : regAt (Reg.mscPolicy i).offset = some (.mscPolicy i) := by
  interval_cases i <;> rfl

/-- The state with a change of a cache register as the newest that waits for its write-back. -/
def State.withChange (s : State) (r : Reg) (v : Nat) : State :=
  { s with memCtl := { s.memCtl with changes := s.memCtl.changes ++ [{ off := r.offset, value := v }] } }

theorem State.changeCache_grows {s : State} {p v : Nat} (hnone : s.changeOf (.partT2Ways p) = none) (hv : v ≠ s.reg (.partT2Ways p))
    (hkeep : field (s.reg (.partT2Ways p)) 16 16 &&& field v 16 16 = field (s.reg (.partT2Ways p)) 16 16) :
    s.changeCache (.partT2Ways p) v = s.setReg (.partT2Ways p) v := by
  simp [State.changeCache, hnone, hv, hkeep]

theorem State.changeCache_shrinks {s : State} {p v : Nat} (hnone : s.changeOf (.partT2Ways p) = none) (hv : v ≠ s.reg (.partT2Ways p))
    (hlose : field (s.reg (.partT2Ways p)) 16 16 &&& field v 16 16 ≠ field (s.reg (.partT2Ways p)) 16 16) :
    s.changeCache (.partT2Ways p) v = s.withChange (.partT2Ways p) v := by
  simp [State.changeCache, hnone, hv, hlose, State.withChange]

theorem State.changeCache_policy {s : State} {i v : Nat} (hnone : s.changeOf (.mscPolicy i) = none) (hv : v ≠ s.reg (.mscPolicy i)) :
    s.changeCache (.mscPolicy i) v = s.withChange (.mscPolicy i) v := by
  simp [State.changeCache, hnone, hv, State.withChange]

/-- A write of the way mask of a partition that is not in service, free of what others hold, is taken as a change. -/
theorem cacheWayChange_ways {s : State} {src : Src} {p v : Nat} (hp : p < 16) (hadmin : s.fromAdmin src = true) (hidle : (s.part p).st.idle = true)
    (hfree : s.resourceFree p (.partT2Ways p) (v % 2 ^ 32) = true) :
    cacheWayChange s src (Reg.partT2Ways p).offset v = s.changeCache (.partT2Ways p) (v % 2 ^ 32) := by
  simp only [cacheWayChange, regAt_partT2Ways hp, hadmin, hidle, hfree, Bool.not_true, Bool.false_eq_true, or_self, if_false]

theorem cacheWayChange_policy {s : State} {src : Src} {i v : Nat} (hi : i < 3) (hadmin : s.fromAdmin src = true)
    (hnone : s.changeOf (.mscPolicy i) = none) :
    cacheWayChange s src (Reg.mscPolicy i).offset v = s.changeCache (.mscPolicy i) (policyValue (s.reg (.mscPolicy i)) v) := by
  simp only [cacheWayChange, regAt_mscPolicy hi, hadmin, hnone, Bool.not_true, Bool.false_eq_true, if_false, Option.getD_none]

-- ## A line leaves the cache (R233, R237)

theorem State.storeLine_memCtl (s : State) (k : Nat) (whole : Bool) : ∃ armed corrupt,
    (s.storeLine k whole).memCtl = { s.memCtl with armed := armed, corrupt := corrupt } := by
  unfold State.storeLine
  dsimp only
  split
  · exact ⟨_, _, rfl⟩
  · split <;> exact ⟨_, _, rfl⟩

theorem State.dropLine_memCtl (s : State) (l : CacheLine) :
    (s.dropLine l).memCtl.cache = s.memCtl.cache.filter (fun x => x.key != l.key) ∧
    (s.dropLine l).memCtl.poison = (if l.dirty then s.memCtl.poison.filter (· != l.key) else s.memCtl.poison) ∧
    (s.dropLine l).memCtl.changes = s.memCtl.changes ∧ (s.dropLine l).memCtl.scrubWait = s.memCtl.scrubWait := by
  unfold State.dropLine
  dsimp only
  split
  · next hd =>
    generalize hs1 : ({ s with memCtl := { s.memCtl with cache := s.memCtl.cache.filter (fun x => x.key != l.key) } } : State) = s1
    obtain ⟨armed, corrupt, hstore⟩ := s1.storeLine_memCtl l.key true
    generalize s1.storeLine l.key true = s2 at hstore
    obtain ⟨buf, reads, writes, hline⟩ := State.lineAccess_memCtl
      { s2 with memCtl := { s2.memCtl with poison := s2.memCtl.poison.filter (· != l.key) } } l.key true false
    rw [hline, hstore, ← hs1]
    exact ⟨rfl, rfl, rfl, rfl⟩
  · exact ⟨rfl, rfl, rfl, rfl⟩

/-- Of lines that leave the cache in turn none stays, no key of a dirty one stays poisoned, and no change or waiting scrub read is touched. -/
theorem State.foldl_dropLine_memCtl (ls : List CacheLine) : ∀ s : State,
    (∀ x ∈ (ls.foldl State.dropLine s).memCtl.cache, x ∈ s.memCtl.cache ∧ ∀ l ∈ ls, x.key ≠ l.key) ∧
    (∀ k ∈ (ls.foldl State.dropLine s).memCtl.poison, k ∈ s.memCtl.poison ∧ ∀ l ∈ ls, l.dirty = true → k ≠ l.key) ∧
    (ls.foldl State.dropLine s).memCtl.changes = s.memCtl.changes ∧ (ls.foldl State.dropLine s).memCtl.scrubWait = s.memCtl.scrubWait := by
  induction ls with
  | nil => exact fun s => ⟨fun x hx => ⟨hx, nofun⟩, fun k hk => ⟨hk, nofun⟩, rfl, rfl⟩
  | cons l ls ih =>
    intro s
    obtain ⟨hcache, hpoison, hchanges, hwait⟩ := ih (s.dropLine l)
    obtain ⟨hcache1, hpoison1, hchanges1, hwait1⟩ := s.dropLine_memCtl l
    refine ⟨fun x hx => ?_, fun k hk => ?_, hchanges.trans hchanges1, hwait.trans hwait1⟩
    · obtain ⟨hmem, hrest⟩ := hcache x hx
      rw [hcache1, List.mem_filter, bne_iff_ne] at hmem
      exact ⟨hmem.1, List.forall_mem_cons.2 ⟨hmem.2, hrest⟩⟩
    · obtain ⟨hmem, hrest⟩ := hpoison k hk
      rw [hpoison1] at hmem
      split at hmem
      · rw [List.mem_filter, bne_iff_ne] at hmem
        exact ⟨hmem.1, List.forall_mem_cons.2 ⟨fun _ => hmem.2, hrest⟩⟩
      · next hclean => exact ⟨hmem, List.forall_mem_cons.2 ⟨fun hd => absurd hd hclean, hrest⟩⟩

-- ## The write-back ends (R238)

/-- The lines the oldest change concerns have left the cache, and it is no longer pending. -/
def State.writtenBack (s : State) (c : CacheChange) (rest : List CacheChange) : State :=
  (s.memCtl.cache.filter (s.leavesCache c)).foldl State.dropLine { s with memCtl := { s.memCtl with changes := rest } }

theorem State.writtenBack_keeps (s : State) (c : CacheChange) (rest : List CacheChange) : s.keeps (s.writtenBack c rest) [.memCtl] :=
  State.keeps_trans (s.keeps_memCtl _) (State.keeps_fold State.dropLine_keeps _ _)

theorem cacheWritten_reg {s : State} {c : CacheChange} {rest : List CacheChange} {r : Reg} (h : s.memCtl.changes = c :: rest)
    (hr : regAt c.off = some r) (hne : ∀ p, r ≠ .partCtl p) : cacheWritten s = (s.writtenBack c rest).setReg r c.value := by
  simp only [cacheWritten, h, hr]
  rfl

theorem cacheWritten_disable {s : State} {c : CacheChange} {rest : List CacheChange} {p : Nat} (h : s.memCtl.changes = c :: rest)
    (hr : regAt c.off = some (.partCtl p)) : cacheWritten s = s.writtenBack c rest := by
  simp only [cacheWritten, h, hr]
  rfl

/-- What a write-back leaves of the cache, of the poison table and of the changes. -/
theorem State.writtenBack_memCtl (s : State) (c : CacheChange) (rest : List CacheChange) :
    (s.writtenBack c rest).memCtl.changes = rest ∧ (s.writtenBack c rest).memCtl.scrubWait = s.memCtl.scrubWait ∧
    (∀ l ∈ (s.writtenBack c rest).memCtl.cache, l ∈ s.memCtl.cache ∧ s.leavesCache c l = false) ∧
    (∀ l ∈ s.memCtl.cache, s.leavesCache c l = true → l.dirty = true → (s.writtenBack c rest).memCtl.poison.contains l.key = false) := by
  obtain ⟨hcache, hpoison, hchanges, hwait⟩ := State.foldl_dropLine_memCtl (s.memCtl.cache.filter (s.leavesCache c))
    { s with memCtl := { s.memCtl with changes := rest } }
  refine ⟨hchanges, hwait, fun l hl => ?_, fun l hl hleaves hd => ?_⟩
  · obtain ⟨hmem, hgone⟩ := hcache l hl
    refine ⟨hmem, Bool.eq_false_iff.2 fun hleaves => ?_⟩
    exact hgone l (List.mem_filter.2 ⟨hmem, hleaves⟩) rfl
  · refine Bool.eq_false_iff.2 fun hin => ?_
    exact (hpoison l.key (List.contains_iff_mem.1 hin)).2 l (List.mem_filter.2 ⟨hl, hleaves⟩) hd rfl

-- ## Shared regions (R242, R243)

/-- CFG_REFUSED of a region as a write of its control register leaves it before the write is judged. -/
def State.ackShared (s : State) (i v : Nat) : State := if bitAt v 25 then { s with shrRefused := setField s.shrRefused i 1 0 } else s

theorem State.keeps_shrRefused (s : State) (n : Nat) : s.keeps { s with shrRefused := n } [.shrRefused] := by
  intro f hf
  cases f <;> simp_all [Field.same, State.rd]

theorem State.ackShared_keeps (s : State) (i v : Nat) : s.keeps (s.ackShared i v) [.shrRefused] := by
  unfold State.ackShared
  split
  · exact s.keeps_shrRefused _
  · exact s.keeps_refl _

/-- A reader of the region is in service. -/
theorem State.any_reader {s : State} {i : Nat} : (bitList 16 (field (s.reg (.shrCtl i)) 0 16)).any (fun p => (s.part p).st.live) = true ↔
    ∃ p, p < 16 ∧ bitAt (s.reg (.shrCtl i)) p = true ∧ (s.part p).st.live = true := by
  have hbit {p : Nat} (hp : p < 16) : bitAt (field (s.reg (.shrCtl i)) 0 16) p = bitAt (s.reg (.shrCtl i)) p := by
    rw [field, bitAt_eq_testBit, bitAt_eq_testBit, Nat.testBit_mod_two_pow, pow_zero, Nat.div_one, decide_eq_true hp, Bool.true_and]
  simp only [List.any_eq_true, mem_bitList]
  constructor
  · rintro ⟨p, ⟨hp, hb⟩, hlive⟩
    exact ⟨p, hp, hbit hp ▸ hb, hlive⟩
  · rintro ⟨p, hp, hb, hlive⟩
    exact ⟨p, ⟨hp, (hbit hp).trans hb⟩, hlive⟩

theorem sharedCtlWrite_taken {s : State} {src : Src} {i v : Nat} (hi : i < 4) (hadmin : s.fromAdmin src = true)
    (h : bitAt (s.reg (.shrCtl i)) 24 = false ∨ bitAt v 24 = true ∨
      ∀ p, p < 16 → bitAt (s.reg (.shrCtl i)) p = true → (s.part p).st.live = false) :
    sharedCtlWrite s src i v = (s.ackShared i v).setReg (.shrCtl i) (v % 2 ^ 32 &&& Reg.rw (.shrCtl i)) := by
  have hnot : ¬ (bitAt (s.reg (.shrCtl i)) 24 = true ∧ (!bitAt v 24) = true ∧
      (bitList 16 (field (s.reg (.shrCtl i)) 0 16)).any (fun p => (s.part p).st.live) = true) := by
    rw [State.any_reader]
    rintro ⟨hsealed, hunseal, p, hp, hb, hlive⟩
    rcases h with h | h | h
    · simp [h] at hsealed
    · simp [h] at hunseal
    · simp [h p hp hb] at hlive
  simp only [sharedCtlWrite, hadmin, Nat.not_le.2 hi, Bool.not_true, Bool.false_eq_true, or_self, if_false]
  exact if_neg hnot

theorem sharedCtlWrite_refused {s : State} {src : Src} {i v : Nat} (hi : i < 4) (hadmin : s.fromAdmin src = true)
    (hsealed : bitAt (s.reg (.shrCtl i)) 24 = true) (hunseal : bitAt v 24 = false)
    (hreader : ∃ p, p < 16 ∧ bitAt (s.reg (.shrCtl i)) p = true ∧ (s.part p).st.live = true) :
    sharedCtlWrite s src i v = (s.ackShared i v).refuseShared i := by
  simp only [sharedCtlWrite, hadmin, Nat.not_le.2 hi, Bool.not_true, Bool.false_eq_true, or_self, if_false]
  exact if_pos ⟨hsealed, by simp [hunseal], State.any_reader.2 hreader⟩

-- ## O16

theorem gives_cacheWayChange_at_once {s : State} {src : Src} {p v : Nat} (hp : p < 16) (harr : s.arrives src = true) (hadmin : s.fromAdmin src = true)
    (hidle : (s.part p).st.idle = true) (hfree : s.resourceFree p (.partT2Ways p) (v % 2 ^ 32) = true) (hnone : s.changeOf (.partT2Ways p) = none)
    (hv : v % 2 ^ 32 ≠ s.reg (.partT2Ways p))
    (hkeep : field (s.reg (.partT2Ways p)) 16 16 &&& field (v % 2 ^ 32) 16 16 = field (s.reg (.partT2Ways p)) 16 16) :
    s.gives (.cacheWayChange src (Reg.partT2Ways p).offset v) (fun t => t.reg (.partT2Ways p) = v % 2 ^ 32 ∧ s.keeps t [.regs]) := by
  have hexec : exec (.cacheWayChange src (Reg.partT2Ways p).offset v) s = finish (s.setReg (.partT2Ways p) (v % 2 ^ 32)) :=
    congrArg finish ((State.via_of_arrives _ harr).trans ((cacheWayChange_ways hp hadmin hidle hfree).trans (State.changeCache_grows hnone hv hkeep)))
  exact State.gives_of_finish hexec ⟨by rw [settle_reg, State.setReg_reg_same, Nat.mod_mod], State.keeps_settled (s.setReg_keeps _ _)⟩

/-- A command that makes a change of a cache register wait. -/
theorem State.gives_withChange {s : State} {c : Instr} {r : Reg} {v : Nat} (h : exec c s = finish (s.withChange r v)) :
    s.gives c (fun t => t.memCtl = { s.memCtl with changes := s.memCtl.changes ++ [{ off := r.offset, value := v }] } ∧ s.keeps t [.memCtl]) :=
  State.gives_of_finish h ⟨rfl, State.keeps_settled (s.keeps_memCtl _)⟩

/-- The end of the write-back of the oldest change. -/
theorem gives_cacheWritebackComplete {s : State} {r : Reg} {c : CacheChange} {rest : List CacheChange} (hc : s.memCtl.changes = c :: rest)
    (hr : regAt c.off = some r) (hwait : s.memCtl.scrubWait = []) :
    s.gives .cacheWritebackComplete (fun t => ((∀ p, r ≠ .partCtl p) → t.reg r = c.value % 2 ^ 32) ∧ (∀ p, r = .partCtl p → t.regs = s.regs) ∧
      t.memCtl.changes = rest ∧ (∀ l ∈ t.memCtl.cache, l ∈ s.memCtl.cache ∧ s.leavesCache c l = false) ∧
      (∀ l ∈ s.memCtl.cache, s.leavesCache c l = true → l.dirty = true → t.memCtl.poison.contains l.key = false) ∧
      (∀ q : Reg, q.offset ≠ r.offset → t.reg q = s.reg q) ∧ s.keeps t [.regs, .memCtl]) := by
  have hexec : exec .cacheWritebackComplete s = finish (cacheWritten s).issueScrubs := rfl
  obtain ⟨hchanges, hscrubs, hcache, hpoison⟩ := s.writtenBack_memCtl c rest
  have hkeeps := s.writtenBack_keeps c rest
  have hregs : (s.writtenBack c rest).regs = s.regs := hkeeps .regs (by decide)
  have hreg (q : Reg) : (s.writtenBack c rest).reg q = s.reg q := by simp only [State.reg, hregs]
  by_cases hp : ∃ p, r = .partCtl p
  · obtain ⟨p, rfl⟩ := hp
    rw [cacheWritten_disable hc hr, State.issueScrubs_of_none (hscrubs.trans hwait)] at hexec
    refine State.gives_of_finish hexec ⟨fun hne => absurd rfl (hne p), fun _ _ => hregs, hchanges, hcache, hpoison, fun q _ => hreg q, ?_⟩
    exact State.keeps_settled (State.keeps_mono hkeeps (by decide))
  · have hne (p : Nat) : r ≠ .partCtl p := fun h => hp ⟨p, h⟩
    rw [cacheWritten_reg hc hr hne, State.issueScrubs_of_none ((congrArg MemCtl.scrubWait (State.setReg_memCtl _ _ _)).trans (hscrubs.trans hwait))] at hexec
    refine State.gives_of_finish hexec ⟨fun _ => State.setReg_reg_same _ _ _, fun p h => absurd h (hne p), hchanges, hcache, hpoison,
      fun q hq => (State.setReg_reg_ne _ _ hq).trans (hreg q), ?_⟩
    exact State.keeps_settled (State.keeps_step (State.keeps_mono hkeeps (by decide)) (State.setReg_keeps _ _ _))

/-- Settles O16, write by write and at the end of a write-back. -/
theorem cacheWaysAndSharedRegionsChange : Obligations.CacheWaysAndSharedRegionsChange := by
  refine ⟨fun s src p v hp harr hadmin hidle hfree hnone hv => ⟨gives_cacheWayChange_at_once hp harr hadmin hidle hfree hnone hv, fun hlose => ?_⟩,
    fun s src i v hi harr hadmin hnone hv => ?_, fun s r c rest hc hr hwait => gives_cacheWritebackComplete hc hr hwait,
    fun s src i v hi harr hadmin => ⟨fun h => ?_, fun hsealed hunseal hreader => ?_⟩⟩
  · exact State.gives_withChange (congrArg finish ((State.via_of_arrives _ harr).trans
      ((cacheWayChange_ways hp hadmin hidle hfree).trans (State.changeCache_shrinks hnone hv hlose))))
  · exact State.gives_withChange (congrArg finish ((State.via_of_arrives _ harr).trans
      ((cacheWayChange_policy hi hadmin hnone).trans (State.changeCache_policy hnone hv))))
  · have hexec : exec (.sharedRegionSeal src i v) s = finish ((s.ackShared i v).setReg (.shrCtl i) (v % 2 ^ 32 &&& Reg.rw (.shrCtl i))) :=
      congrArg finish ((State.via_of_arrives _ harr).trans (sharedCtlWrite_taken hi hadmin h))
    have hack := s.ackShared_keeps i v
    have hregs : (s.ackShared i v).regs = s.regs := hack .regs (by decide)
    refine State.gives_of_finish hexec
      ⟨?_, fun q hq => ?_, State.keeps_settled (State.keeps_step (State.keeps_mono hack (by decide)) (State.setReg_keeps _ _ _))⟩
    · rw [settle_reg, State.setReg_reg_same]
      exact Nat.mod_eq_of_lt (lt_of_le_of_lt Nat.and_le_left (Nat.mod_lt _ (by decide)))
    · rw [settle_reg, State.setReg_reg_ne _ _ hq]
      simp only [State.reg, hregs]
  · have hexec : exec (.sharedRegionSeal src i v) s = finish ((s.ackShared i v).refuseShared i) :=
      congrArg finish ((State.via_of_arrives _ harr).trans (sharedCtlWrite_refused hi hadmin hsealed hunseal hreader))
    refine State.gives_of_finish hexec ⟨?_, State.keeps_settled (State.keeps_trans (s.ackShared_keeps i v) (State.keeps_shrRefused _ _))⟩
    rw [settle_shrRefused, State.refuseShared, bitAt_setField, if_pos (by omega), Nat.sub_self]
    rfl

end Sys2Proof.Machine
end

section
/-!
PROOFS. What the end of work changes, and what a reaction to a fault changes (R436): not the fuses, the knot, the classifier's units or the retired
ones, nor how many entries have been accepted.
-/

-- Proofs are elaborated one after another: side by side, the threads of the whole text outgrow the memory that the check allows.
set_option Elab.async false

namespace Sys2Proof.Machine

-- ## What the end of work changes

/-- The parts that hold work under way, and what its end writes. -/
def workFields : List Field :=
  [.mem, .ports, .rings, .entries, .drafts, .parts, .looms, .hostReads, .memCtl, .shuttles, .served, .links, .fabric, .guests, .vacant, .genRetire, .out]

/-- Only parts that hold work differ. -/
def State.onlyWork (s t : State) : Prop := s.keeps t workFields

theorem State.onlyWork_refl (s : State) : s.onlyWork s := s.keeps_refl _

theorem State.onlyWork_trans {s t u : State} (h1 : s.onlyWork t) (h2 : t.onlyWork u) : s.onlyWork u := State.keeps_trans h1 h2

theorem State.onlyWork_of_keeps {s t : State} {fs : List Field} (h : s.keeps t fs) (hs : ∀ f ∈ fs, f ∈ workFields := by decide) : s.onlyWork t :=
  State.keeps_mono h hs

/-- A further step that changes only parts which hold work. -/
theorem State.onlyWork_step {s t u : State} {fs : List Field} (h1 : s.onlyWork t) (h2 : t.keeps u fs) (hs : ∀ f ∈ fs, f ∈ workFields := by decide) :
    s.onlyWork u := State.onlyWork_trans h1 (State.onlyWork_of_keeps h2 hs)

theorem State.onlyWork_fold {β : Type} {f : State → β → State} (hf : ∀ (s : State) (b : β), s.onlyWork (f s b)) (s : State) (bs : List β) :
    s.onlyWork (bs.foldl f s) := State.keeps_fold hf s bs

-- ## Drafts and steps (R197, R324, R325, R343)

theorem State.completeDraft_onlyWork (s : State) (d : Draft) (st fn : Nat) : s.onlyWork (s.completeDraft d st fn) := by
  have hgone := State.onlyWork_step (State.onlyWork_step (State.onlyWork_of_keeps (s.freeDraft_keeps d)) (State.setPart_keeps _ d.part
    { (s.freeDraft d).part d.part with streams := ((s.freeDraft d).part d.part).streams.filter (fun x => x.draft != d.id) }))
    (State.keeps_drafts _ ((s.freeDraft d).drafts.filter (fun x => x.id != d.id)))
  unfold State.completeDraft
  dsimp only
  split
  · exact hgone
  · exact State.onlyWork_step hgone (State.complete_keeps _ _ _ _)

theorem State.finishDraft_onlyWork (s : State) (d : Draft) : s.onlyWork (s.finishDraft d) := by
  unfold State.finishDraft
  split
  · exact s.completeDraft_onlyWork _ _ _
  · exact s.completeDraft_onlyWork _ _ _

theorem State.noteTails_keeps (s : State) (p : Nat) (xs : List Stream) (took : Bool) : s.keeps (s.noteTails p xs took) [.parts] := by
  refine State.keeps_fold (fun s y => ?_) _ _
  split
  · split
    · exact s.setPart_keeps _ _
    · exact s.keeps_refl _
  · exact s.keeps_refl _

theorem State.commitPick_keeps (s : State) (p v : Nat) : s.keeps (s.commitPick p v) [.mem, .memCtl, .parts] := by
  unfold State.commitPick
  dsimp only
  refine State.keeps_step ?_ (State.setPart_keeps _ _ _)
  have habort : s.keeps (if v ≤ 1 then s else match (s.part p).job.step with | some d => s.abortBolts p d | none => s) [.mem, .memCtl, .parts] := by
    split
    · exact s.keeps_refl _
    · split
      · exact State.keeps_mono (s.abortBolts_keeps p _) (by decide)
      · exact s.keeps_refl _
  have htails := fun xs took => State.keeps_step (State.keeps_step habort (State.settleFlips_keeps _ p (decide (v = 0))))
    (State.noteTails_keeps _ p xs took)
  split
  · exact State.keeps_step (State.keeps_step (htails _ _) (State.keeps_fold (fun s y => s.commitHistory_keeps p y) _ _))
      (State.keeps_fold (fun s lr => s.commitLowRank_keeps p lr) _ _)
  · exact htails _ _

theorem State.publish_keeps (s : State) (p w : Nat) : s.keeps (s.publish p w).1 [.parts] := by
  unfold State.publish
  dsimp only
  split
  · exact s.keeps_refl _
  · split
    · exact s.keeps_refl _
    · exact s.setJob_keeps _ _

theorem State.publishDue_keeps (s : State) (p v : Nat) : s.keeps (s.publishDue p v) [.parts, .entries, .rings] :=
  State.keeps_fold (fun s (e : Entry) => State.keeps_step (State.keeps_mono (s.publish_keeps p (field e.arg0 0 32)) (by decide))
    (State.completeWith_keeps _ _ _ _ _)) _ _

theorem State.applyVerdict_onlyWork (s : State) (p v : Nat) : s.onlyWork (s.applyVerdict p v) := by
  unfold State.applyVerdict
  dsimp only
  refine State.onlyWork_step (State.onlyWork_step ?_ (State.publishDue_keeps _ p v)) (State.writePages_keeps _ p)
  have hjob := fun f => State.onlyWork_step (State.onlyWork_of_keeps (s.commitPick_keeps p v)) (State.setJob_keeps _ p f)
  split
  · exact hjob _
  · split
    · exact State.onlyWork_trans (hjob _) (State.completeDraft_onlyWork _ _ _ _)
    · exact State.onlyWork_trans (hjob _) (State.finishDraft_onlyWork _ _)
    · split
      · exact State.onlyWork_trans (hjob _) (State.completeDraft_onlyWork _ _ _ _)
      · exact State.onlyWork_trans (hjob _) (State.completeDraft_onlyWork _ _ _ _)

theorem State.reportStep_onlyWork (s : State) (p v : Nat) : s.onlyWork (s.reportStep p v) := by
  unfold State.reportStep
  split
  · exact s.applyVerdict_onlyWork p v
  · exact State.onlyWork_step (State.onlyWork_of_keeps (s.setJob_keeps p _)) (State.report_keeps _ _ _ _)

theorem State.settleStep_onlyWork (s : State) (p : Nat) : s.onlyWork (s.settleStep p) := by
  unfold State.settleStep
  dsimp only
  split
  · split
    · exact s.reportStep_onlyWork _ _
    · exact s.onlyWork_refl
  · split
    · split
      · exact s.reportStep_onlyWork _ _
      · exact s.onlyWork_refl
    · exact s.onlyWork_refl

theorem State.checkDraft_onlyWork (s : State) (d : Nat) : s.onlyWork (s.checkDraft d) := by
  unfold State.checkDraft
  split
  · exact s.onlyWork_refl
  · refine State.onlyWork_trans ?_ (State.settleStep_onlyWork _ _)
    split
    · exact s.finishDraft_onlyWork _
    · exact s.onlyWork_refl

-- ## Nodes and issuers (R192, R210, R260)

theorem State.closeNode_onlyWork (s : State) (d n st : Nat) : s.onlyWork (s.closeNode d n st) := by
  unfold State.closeNode
  split
  · next x y _ _ =>
    split
    · exact s.onlyWork_refl
    · have hpins : s.onlyWork (y.pins.foldl (fun s e => s.pin x.part e false) (s.freeLooms d n)) :=
        State.onlyWork_step (State.onlyWork_of_keeps (s.keeps_looms _)) (State.keeps_fold (fun s e => s.pin_keeps _ _ _) _ _)
      dsimp only
      refine State.onlyWork_trans ?_ (State.checkDraft_onlyWork _ _)
      refine State.onlyWork_step ?_ (State.settleGuests_keeps _)
      refine State.onlyWork_step ?_ (State.setPart_keeps _ _ _)
      refine State.onlyWork_step ?_ (State.freeStaged_keeps _ _ _)
      exact State.onlyWork_step hpins (State.setDraft_keeps _ _ _)
  · exact s.onlyWork_refl

theorem State.endNode_onlyWork (s : State) (d n st : Nat) : s.onlyWork (s.endNode d n st) := by
  unfold State.endNode
  split
  · split
    · exact State.onlyWork_of_keeps (s.setDraft_keeps _ _)
    · exact s.closeNode_onlyWork _ _ _
  · exact s.onlyWork_refl

theorem State.fetchEnd_onlyWork (s : State) (d i st : Nat) : s.onlyWork (s.fetchEnd d i st) := by
  unfold State.fetchEnd
  split
  · exact s.onlyWork_refl
  · split
    · exact s.onlyWork_refl
    · dsimp only
      split
      · exact State.onlyWork_of_keeps (s.setDraft_keeps _ _)
      · exact State.onlyWork_trans (State.onlyWork_of_keeps (s.setDraft_keeps _ _)) (State.endNode_onlyWork _ _ _ _)

theorem State.failIssuer_onlyWork (s : State) (iss : Issuer) (st : Nat) : s.onlyWork (s.failIssuer iss st) := by
  unfold State.failIssuer
  split
  · split
    · split
      · exact s.endNode_onlyWork _ _ _
      · exact s.onlyWork_refl
    · exact s.onlyWork_refl
  · exact State.onlyWork_of_keeps (s.complete_keeps _ _ _)
  · exact State.onlyWork_of_keeps (s.setShed_keeps _ _)
  · exact s.fetchEnd_onlyWork _ _ _
  · exact s.onlyWork_refl

theorem State.finishIssuer_onlyWork (s : State) (iss : Issuer) : s.onlyWork (s.finishIssuer iss) := by
  unfold State.finishIssuer
  split
  · split
    · split
      · split
        · split
          · exact s.closeNode_onlyWork _ _ _
          · exact s.onlyWork_refl
        · exact s.onlyWork_refl
      · exact s.onlyWork_refl
    · exact s.onlyWork_refl
  · split
    · split
      · exact State.onlyWork_of_keeps (s.complete_keeps _ _ _)
      · exact s.onlyWork_refl
    · exact s.onlyWork_refl
  · split
    · split
      · exact s.fetchEnd_onlyWork _ _ _
      · exact s.onlyWork_refl
    · exact s.onlyWork_refl
  · exact s.onlyWork_refl

theorem State.lessAck_onlyWork (s : State) (iss : Issuer) : s.onlyWork (s.lessAck iss) := by
  cases iss with
  | node d n => exact State.onlyWork_of_keeps (s.setDraft_keeps _ _)
  | entry e => exact State.onlyWork_of_keeps (s.setEntry_keeps _ _)
  | shed p i => exact State.onlyWork_of_keeps (s.setShed_keeps _ _)
  | fetch d i => exact State.onlyWork_of_keeps (s.setDraft_keeps _ _)
  | outside => exact s.onlyWork_refl

theorem State.nackIssuer_onlyWork (s : State) (iss : Issuer) (st : Nat) : s.onlyWork (s.nackIssuer iss st) := by
  unfold State.nackIssuer
  dsimp only
  split
  · exact State.onlyWork_trans (State.onlyWork_step (s.lessAck_onlyWork _) (State.setEntry_keeps _ _ _)) (State.finishIssuer_onlyWork _ _)
  · exact State.onlyWork_trans (s.lessAck_onlyWork _) (State.failIssuer_onlyWork _ _ _)

theorem State.failShuttles_onlyWork (s : State) (ks : List Nat) : s.onlyWork (s.failShuttles ks) := by
  have hqueues : s.keeps { s with shuttles := s.shuttles.filter (fun k => !ks.contains k.1) } [.shuttles] := by
    intro f hf
    cases f <;> simp_all [Field.same, State.rd]
  refine State.onlyWork_trans (State.onlyWork_of_keeps hqueues) (State.onlyWork_fold (fun s i => ?_) _ _)
  split
  · exact s.onlyWork_refl
  · exact s.failIssuer_onlyWork _ _

-- ## Links and packets (R267, R282, R285, R286)

theorem State.refuse_keeps (s : State) (p : Packet) (reason : Nat) : s.keeps (s.refuse p reason) [.fabric, .links, .out] :=
  State.keeps_step (s.post_keeps _) (State.keeps_fabric _ _)

theorem State.failReq_onlyWork (s : State) (dst tag st : Nat) : s.onlyWork (s.failReq dst tag st) := by
  unfold State.failReq
  split
  · exact State.onlyWork_trans (State.onlyWork_of_keeps (s.keeps_fabric _)) (State.nackIssuer_onlyWork _ _ _)
  · exact s.onlyWork_refl

theorem State.unreachable_onlyWork (s : State) (p : Packet) : s.onlyWork (s.unreachable p) := by
  unfold State.unreachable
  dsimp only
  split
  · split
    · exact s.failReq_onlyWork _ _ _
    · split
      · exact State.onlyWork_of_keeps (s.post_keeps _)
      · exact s.onlyWork_refl
  · exact State.onlyWork_step (State.onlyWork_of_keeps (s.post_keeps _)) (State.keeps_fabric _ _)

theorem State.tryOn_onlyWork (s : State) (origin : Nat) (p : Packet) : s.onlyWork (s.tryOn origin p).1 := by
  have hout : s.onlyWork (s.dispatchOut origin p).1 := State.onlyWork_of_keeps (s.dispatchOut_keeps origin p)
  unfold State.tryOn
  dsimp only
  split
  · exact State.onlyWork_trans hout (State.unreachable_onlyWork _ _)
  · exact hout

theorem State.forward_onlyWork (s : State) (origin : Nat) (p : Packet) : s.onlyWork (s.forward origin p).1 := by
  unfold State.forward State.creditsOut
  dsimp only
  split
  · exact s.tryOn_onlyWork _ _
  · split
    · exact s.tryOn_onlyWork _ _
    · exact State.onlyWork_step (s.tryOn_onlyWork _ _) (State.idleFlit_keeps _ _ _ _)

theorem State.pumpList_onlyWork (n : Nat) : ∀ (q : List (Nat × Packet)) (s : State), s.onlyWork (State.pumpList n q s) := by
  induction n with
  | zero => exact fun _ s => s.onlyWork_refl
  | succ n ih =>
    intro q s
    unfold State.pumpList
    split
    · exact s.onlyWork_refl
    · dsimp only
      refine State.onlyWork_trans ?_ (ih _ _)
      split
      · exact State.onlyWork_step (s.forward_onlyWork _ _) (State.serve_keeps _ _ _)
      · exact s.forward_onlyWork _ _

theorem State.pump_onlyWork (s : State) : s.onlyWork s.pump :=
  State.onlyWork_trans (State.onlyWork_of_keeps (s.keeps_fabric _)) (State.pumpList_onlyWork _ _ _)

theorem State.endForward_keeps (s : State) (l : Nat) : s.keeps (s.endForward l) [.links, .out] := by
  unfold State.endForward
  dsimp only
  split
  · exact s.keeps_refl _
  · have hfree := State.keeps_mono (s.setLink_keeps l { s.link l with fwd := none }) (gs := [.links, .out]) (by decide)
    refine State.keeps_step ?_ (State.setLink_keeps _ _ _)
    split
    · exact State.keeps_trans hfree (State.sendFlit_keeps _ _ _)
    · exact hfree

theorem State.loseForward_keeps (s : State) (l : Nat) : s.keeps (s.loseForward l) [.links] := by
  unfold State.loseForward
  dsimp only
  split
  · exact s.keeps_refl _
  · exact State.keeps_trans (s.setLink_keeps _ _) (State.setLink_keeps _ _ _)

theorem State.moveLink_onlyWork (s : State) (l st cause : Nat) : s.onlyWork (s.moveLink l st cause) := by
  have hleft : s.onlyWork (if st = 0 ∨ st = 8 ∨ st = 9 then (s.endForward l).loseForward l else s) := by
    split
    · exact State.onlyWork_step (State.onlyWork_of_keeps (s.endForward_keeps l)) (State.loseForward_keeps _ l)
    · exact s.onlyWork_refl
  have hset := fun x => State.onlyWork_step hleft (State.setLink_keeps _ l x)
  have hsent := fun x ps => State.onlyWork_step (State.onlyWork_trans (State.onlyWork_trans (hset x)
    (State.onlyWork_fold (fun s (op : Nat × Packet) => s.tryOn_onlyWork op.1 op.2) _ ps)) (State.pump_onlyWork _)) (State.writeFabricPage_keeps _)
  unfold State.moveLink
  dsimp only
  split
  · exact hsent _ _
  · split
    · exact hsent _ _
    · exact State.onlyWork_step (hset _) (State.writeFabricPage_keeps _)

theorem State.resetFabricPort_onlyWork (s : State) (port : Nat) : s.onlyWork (s.resetFabricPort port) := by
  refine State.onlyWork_fold (fun s i => ?_) _ _
  dsimp only
  split
  · exact s.onlyWork_refl
  · exact s.moveLink_onlyWork _ _ _

-- ## What a reaction changes (R436)

/-- The parts a reaction may change: all but the knot, the fuses, the classifier's units, the retired units, and what only counts up. -/
def reactionFields : List Field :=
  [.mem, .regs, .straps, .islands, .channels, .ports, .adopted, .adoptRefused, .shrRefused, .funcs, .rings, .entries, .drafts, .parts, .looms, .hostReads,
    .shuttles, .mates, .served, .memCtl, .links, .fabric, .manager, .guests, .vacant, .genRetire, .treadle, .boot, .trust, .out]

/-- Only parts that a reaction may change differ. -/
def State.onlyReaction (s t : State) : Prop := s.keeps t reactionFields

theorem State.onlyReaction_refl (s : State) : s.onlyReaction s := s.keeps_refl _

theorem State.onlyReaction_trans {s t u : State} (h1 : s.onlyReaction t) (h2 : t.onlyReaction u) : s.onlyReaction u := State.keeps_trans h1 h2

theorem State.onlyReaction_of_keeps {s t : State} {fs : List Field} (h : s.keeps t fs) (hs : ∀ f ∈ fs, f ∈ reactionFields := by decide) :
    s.onlyReaction t := State.keeps_mono h hs

theorem State.onlyReaction_of_work {s t : State} (h : s.onlyWork t) : s.onlyReaction t := State.onlyReaction_of_keeps h

/-- A further step that changes only parts which a reaction may change. -/
theorem State.onlyReaction_step {s t u : State} {fs : List Field} (h1 : s.onlyReaction t) (h2 : t.keeps u fs)
    (hs : ∀ f ∈ fs, f ∈ reactionFields := by decide) : s.onlyReaction u := State.onlyReaction_trans h1 (State.onlyReaction_of_keeps h2 hs)

theorem State.onlyReaction_fold {β : Type} {f : State → β → State} (hf : ∀ (s : State) (b : β), s.onlyReaction (f s b)) (s : State) (bs : List β) :
    s.onlyReaction (bs.foldl f s) := State.keeps_fold hf s bs

-- ## A port goes down (R504)

theorem State.ringRun_keeps (q k fuel : Nat) : ∀ s : State, s.keeps (s.ringRun q k fuel) [.rings] := by
  induction fuel with
  | zero => exact fun s => s.keeps_refl _
  | succ fuel ih =>
    intro s
    unfold State.ringRun
    dsimp only
    split
    · split
      · exact State.keeps_trans (s.setRing_keeps _ _ _) (ih _)
      · exact s.keeps_refl _
    · split
      · exact s.keeps_refl _
      · exact State.keeps_trans (s.setRing_keeps _ _ _) (ih _)
      · exact State.keeps_trans (s.setRing_keeps _ _ _) (ih _)

theorem State.ringOp_keeps (s : State) (q k : Nat) (en : Bool) : s.keeps (s.ringOp q k en) [.rings] := by
  unfold State.ringOp
  dsimp only
  split
  · exact s.keeps_refl _
  · exact State.keeps_trans (s.setRing_keeps _ _ _) (State.ringRun_keeps _ _ _ _)

theorem State.endHostAccesses_onlyWork (s : State) (q : Nat) : s.onlyWork (s.endHostAccesses q) := by
  have hgone : s.keeps { s with
      hostReads := s.hostReads.filter (fun h => h.1 != q)
      fabric := { s.fabric with hostWaits := s.fabric.hostWaits.filter (fun h => h.1 != q) } } [.hostReads, .fabric] := by
    intro f hf
    cases f <;> simp_all [Field.same, State.rd]
  exact State.onlyWork_step (State.onlyWork_trans (State.onlyWork_of_keeps hgone) (State.onlyWork_fold (fun s h => s.nackIssuer_onlyWork _ _) _ _))
    (State.keeps_fold (fun s h => s.refuse_keeps _ _) _ _)

theorem State.keeps_funcs (s : State) (fs : List (Nat × Func)) : s.keeps { s with funcs := fs } [.funcs] := by
  intro f hf
  cases f <;> simp_all [Field.same, State.rd]

theorem State.portDown_onlyReaction (s : State) (q : Nat) : s.onlyReaction (s.portDown q) := by
  unfold State.portDown
  refine State.onlyReaction_step ?_ (State.keeps_fold (fs := [.rings]) (fun s k => ?_) _ _)
  · exact State.onlyReaction_step (State.onlyReaction_step (State.onlyReaction_step (State.onlyReaction_of_work (s.endHostAccesses_onlyWork q))
      (State.setPort_keeps _ _ _)) (State.keeps_funcs _ _)) (State.keeps_fold (fun s f => s.setReg_keeps _ _) _ _)
  · split
    · exact s.ringOp_keeps _ _ _
    · exact s.keeps_refl _

-- ## Resets (R436)

theorem State.resetCluster_onlyWork (s : State) (c : Nat) : s.onlyWork (s.resetCluster c) := by
  have hnodes : s.onlyWork (((List.range 8).map (8 * c + ·)).foldl (fun s l => match (s.loom l).node with
      | some (d, n) => s.endNode d n stRetryExhausted
      | none => s) s) := by
    refine State.onlyWork_fold (fun s l => ?_) _ _
    split
    · exact s.endNode_onlyWork _ _ _
    · exact s.onlyWork_refl
  unfold State.resetCluster
  dsimp only
  refine State.onlyWork_trans ?_ (State.onlyWork_fold (fun s l => ?_) _ _)
  · split
    · exact State.onlyWork_trans hnodes (State.failShuttles_onlyWork _ _)
    · exact hnodes
  · exact State.onlyWork_step (State.onlyWork_of_keeps (s.zero_keeps _ _)) (State.setLoom_keeps _ _ _)

theorem State.resetBlock_onlyReaction (s : State) (source : Nat) : s.onlyReaction (s.resetBlock source) := by
  unfold State.resetBlock
  split
  · exact State.onlyReaction_of_work (s.resetCluster_onlyWork _)
  · split
    · exact State.onlyReaction_of_keeps (s.keeps_memCtl _)
    · split
      · exact State.onlyReaction_of_work (s.resetFabricPort_onlyWork _)
      · split
        · exact s.portDown_onlyReaction _
        · split
          · exact State.onlyReaction_of_work (s.failShuttles_onlyWork _)
          · exact s.onlyReaction_refl

/-- Switching domains off and on (R458, R461). -/
theorem State.setDomains_onlyReaction (s : State) (on : List Nat) : s.onlyReaction (s.setDomains on) := by
  have hoff : ∀ is : List Nat, s.onlyReaction (is.foldl State.islandOff s) := fun is =>
    State.onlyReaction_of_keeps (State.keeps_fold (fun s i => s.islandOff_keeps i) s is)
  have hports : ∀ (u : State) (c : Bool), u.onlyReaction (if c = true then (u.portDown 0).portDown 1 else u) := by
    intro u c
    split
    · exact State.onlyReaction_trans (u.portDown_onlyReaction 0) (State.portDown_onlyReaction _ 1)
    · exact u.onlyReaction_refl
  unfold State.setDomains
  dsimp only
  refine State.onlyReaction_step ?_ (State.keeps_fold (fun s i => s.islandUp_keeps i) _ _)
  refine State.onlyReaction_trans ?_ (hports _ _)
  refine State.onlyReaction_step ?_ (State.keeps_treadle _ _)
  refine State.onlyReaction_step ?_ (State.zeroTwo_keeps _ _ _ _ _)
  refine State.onlyReaction_step ?_ (State.zeroTwo_keeps _ _ _ _ _)
  exact State.onlyReaction_step (hoff _) (State.zeroLooms_keeps _ _ _ _ _)

theorem State.chipReset_onlyReaction (s : State) : s.onlyReaction s.chipReset := by
  refine State.onlyReaction_trans (s.setDomains_onlyReaction [0]) ?_
  intro f hf
  unfold State.chipReset
  cases f <;> first | rfl | exact fun _ => rfl | exact absurd (by decide) hf

theorem State.trap_onlyReaction (s : State) (record : List Byte) (p : Nat) : s.onlyReaction (s.trap record p) := by
  have hhalted := fun x => State.onlyReaction_step (State.onlyReaction_of_keeps (s.stopNodes_keeps p)) (State.setPart_keeps _ p x)
  unfold State.trap
  dsimp only
  split
  · exact hhalted _
  · refine State.onlyReaction_step (State.onlyReaction_step ?_ (State.writePages_keeps _ p)) (State.msix_keeps _ _ _ _)
    split
    · exact State.onlyReaction_step (hhalted _) (State.hostPut_keeps _ _ _ _ _)
    · exact hhalted _

end Sys2Proof.Machine
end

section
/-!
PROOFS. A fault event, a forced one and an injected one: the knot and the handling window afterwards, whatever the reaction does (R435, R438, R441).
-/

-- Proofs are elaborated one after another: side by side, the threads of the whole text outgrow the memory that the check allows.
set_option Elab.async false

namespace Sys2Proof.Machine

-- ## The knot after an event (R435, R438)

/-- The handling window after an event whose source has REACT `r`: merged into an open one, or a window opens, or with REACT 0 none does. -/
def Knot.windowed (r : Nat) (ev : FaultEv) (k : Knot) : Knot :=
  if decide (1 ≤ r) && k.windowOpen then
    { k with mergedBit := true, merged := setField k.merged ev.source 1 1, mergeCount := satInc 32 k.mergeCount 1 }
  else if 1 ≤ r then { k with windowOpen := true, firstSource := ev.source, firstClass := ev.cls }
  else k

/-- The knot of `k`, but for where the fault log stands and what it has dropped. -/
def Knot.logged (k k' : Knot) : Prop := ∃ tail dropped, k' = { k with tail := tail, dropped := dropped }

theorem State.logRecord_logged (s : State) (record : List Byte) : s.knot.logged (s.logRecord record).knot := by
  unfold State.logRecord
  dsimp only
  split
  · exact ⟨_, _, rfl⟩
  · split
    · exact ⟨_, _, by rw [State.hostPut_knot]⟩
    · exact ⟨_, _, by dsimp only; rw [State.hostPut_knot]⟩

theorem State.knotIrqMsg_keeps (s : State) : s.keeps s.knotIrqMsg [.ports, .funcs, .out] :=
  State.keeps_fold (fun s q => s.msix_keeps q 0 _) _ _

/-- The record of an event, and the message that asks for it to be handled. -/
theorem State.notice_frame (s : State) (record : List Byte) (c : Prop) [Decidable c] :
    s.knot.logged (if c then (s.logRecord record).knotIrqMsg else s.logRecord record).knot ∧
      s.keeps (if c then (s.logRecord record).knotIrqMsg else s.logRecord record) [.mem, .ports, .knot, .funcs, .out] := by
  have hlogged := s.logRecord_logged record
  have hkeeps : s.keeps (s.logRecord record) [.mem, .ports, .knot, .funcs, .out] := State.keeps_mono (s.logRecord_records record).1 (by decide)
  split
  · have hmsg := State.knotIrqMsg_keeps (s.logRecord record)
    refine ⟨?_, State.keeps_step hkeeps hmsg⟩
    rw [show (s.logRecord record).knotIrqMsg.knot = (s.logRecord record).knot from hmsg .knot (by decide)]
    exact hlogged
  · exact ⟨hlogged, hkeeps⟩

/-- What `raiseWith` does after the knot: the record `record`, the message, and the reaction `r` on the partitions `hit`. -/
def State.reacts (s : State) (r source : Nat) (record : List Byte) (hit : List Nat) (calls : Prop) [Decidable calls] : State :=
  let s3 := if calls then (s.logRecord record).knotIrqMsg else s.logRecord record
  if r = 2 then hit.foldl (fun s p => s.trap record p) s3
  else if r = 3 then s3.resetBlock source
  else if r = 4 then s3.chipReset
  else s3

theorem State.raiseWith_reacts (s : State) (ev : FaultEv) (injected : Bool) : ∃ record hit,
    s.raiseWith ev injected = State.reacts { s with knot := (s.knot.noted ev).windowed (s.react ev.source) ev } (s.react ev.source) ev.source record hit
      (1 ≤ s.react ev.source ∧ s.react ev.source ≤ 3 ∧ !(decide (1 ≤ s.react ev.source) && s.knot.windowOpen)) := ⟨_, _, rfl⟩

/-- The reaction leaves the knot as it is, but for the log. -/
theorem State.reacts_frame (s : State) (r source : Nat) (record : List Byte) (hit : List Nat) (calls : Prop) [Decidable calls] :
    s.knot.logged (s.reacts r source record hit calls).knot ∧ s.keeps (s.reacts r source record hit calls) (.knot :: reactionFields) := by
  obtain ⟨hlogged, hkeeps⟩ := s.notice_frame record calls
  have hafter : ∀ t : State, State.onlyReaction (if calls then (s.logRecord record).knotIrqMsg else s.logRecord record) t →
      s.knot.logged t.knot ∧ s.keeps t (.knot :: reactionFields) := by
    intro t ht
    refine ⟨?_, State.keeps_trans (State.keeps_mono hkeeps (by decide)) (State.keeps_mono ht (by decide))⟩
    rw [show t.knot = _ from ht .knot (by decide)]
    exact hlogged
  unfold State.reacts
  dsimp only
  split
  · exact hafter _ (State.onlyReaction_fold (fun s p => s.trap_onlyReaction record p) _ _)
  · split
    · exact hafter _ (State.resetBlock_onlyReaction _ _)
    · split
      · exact hafter _ (State.chipReset_onlyReaction _)
      · exact hafter _ (State.onlyReaction_refl _)

theorem State.trap_keeps (s : State) (record : List Byte) (p : Nat) : s.keeps (s.trap record p) [.mem, .ports, .drafts, .looms, .parts, .funcs, .out] := by
  have hhalted := fun x => State.keeps_step (State.keeps_mono (s.stopNodes_keeps p) (by decide)) (State.setPart_keeps _ p x)
    (fs := [.mem, .ports, .drafts, .looms, .parts, .funcs, .out])
  unfold State.trap
  dsimp only
  split
  · exact hhalted _
  · refine State.keeps_step (State.keeps_step ?_ (State.writePages_keeps _ p)) (State.msix_keeps _ _ _ _)
    split
    · exact State.keeps_step (hhalted _) (State.hostPut_keeps _ _ _ _ _)
    · exact hhalted _

/-- No reaction below a reset touches the outstanding entries. -/
theorem State.reacts_entries (s : State) {r : Nat} (source : Nat) (record : List Byte) (hit : List Nat) (calls : Prop) [Decidable calls] (hr : r ≤ 2) :
    (s.reacts r source record hit calls).entries = s.entries := by
  obtain ⟨-, hkeeps⟩ := s.notice_frame record calls
  have hnotice := hkeeps .entries (by decide)
  unfold State.reacts
  dsimp only
  rw [if_neg (show ¬ r = 3 by omega), if_neg (show ¬ r = 4 by omega)]
  split
  · exact (State.keeps_fold (fun s p => s.trap_keeps record p) _ hit .entries (by decide)).trans hnotice
  · exact hnotice

-- ## What an event leaves

/-- The knot notes an event of a source and class, and its handling window opens, merges or stays by the source's reaction. -/
def State.notesEvent (s t : State) (source cls : Nat) : Prop :=
  t.knot.word = setField s.knot.word source 1 1 ∧ t.knot.seq = s.knot.seq + 1 ∧ tget 0 t.knot.lastClass source = cls ∧
  tget 0 t.knot.events source = satInc 16 (tget 0 s.knot.events source) 1 ∧
  (s.react source = 0 → t.knot.windowOpen = s.knot.windowOpen ∧ t.knot.merged = s.knot.merged ∧ t.knot.mergeCount = s.knot.mergeCount) ∧
  (s.react source ≠ 0 → s.knot.windowOpen = false → t.knot.windowOpen = true ∧ t.knot.firstSource = source ∧ t.knot.firstClass = cls ∧
    t.knot.mergeCount = s.knot.mergeCount) ∧
  (s.react source ≠ 0 → s.knot.windowOpen = true → t.knot.windowOpen = true ∧ t.knot.firstSource = s.knot.firstSource ∧ t.knot.mergedBit = true ∧
    t.knot.merged = setField s.knot.merged source 1 1 ∧ t.knot.mergeCount = satInc 32 s.knot.mergeCount 1)

/-- A knot that is noted, windowed and logged says what the event was. -/
theorem State.notesEvent_of_logged {s t : State} {ev : FaultEv} (h : ((s.knot.noted ev).windowed (s.react ev.source) ev).logged t.knot) :
    s.notesEvent t ev.source ev.cls := by
  obtain ⟨tail, dropped, hknot⟩ := h
  unfold State.notesEvent
  rw [hknot]
  have hclass := tget_tset_same 0 ev.cls s.knot.lastClass ev.source
  have hevents := tget_tset_same 0 (satInc 16 (tget 0 s.knot.events ev.source) 1) s.knot.events ev.source
  rcases Nat.eq_zero_or_pos (s.react ev.source) with hr | hr
  · simp [Knot.windowed, Knot.noted, hr, hclass, hevents]
  · have hne : s.react ev.source ≠ 0 := by omega
    have hone : 1 ≤ s.react ev.source := hr
    cases hopen : s.knot.windowOpen <;> simp [Knot.windowed, Knot.noted, hone, hne, hopen, hclass, hevents]

/-- Whatever the reaction does, the event is noted, and only the knot and what a reaction may change differ. -/
theorem State.raiseWith_notes (s : State) (ev : FaultEv) (injected : Bool) :
    s.notesEvent (s.raiseWith ev injected) ev.source ev.cls ∧ s.keeps (s.raiseWith ev injected) (.knot :: reactionFields) := by
  obtain ⟨record, hit, hraise⟩ := s.raiseWith_reacts ev injected
  rw [hraise]
  obtain ⟨hlogged, hkeeps⟩ := State.reacts_frame { s with knot := (s.knot.noted ev).windowed (s.react ev.source) ev } (s.react ev.source) ev.source
    record hit (1 ≤ s.react ev.source ∧ s.react ev.source ≤ 3 ∧ !(decide (1 ≤ s.react ev.source) && s.knot.windowOpen))
  exact ⟨State.notesEvent_of_logged hlogged, State.keeps_trans (State.keeps_mono (s.keeps_knot _) (by decide)) hkeeps⟩

theorem State.raiseWith_entries {s : State} {ev : FaultEv} (injected : Bool) (hr : s.react ev.source ≤ 2) :
    (s.raiseWith ev injected).entries = s.entries := by
  obtain ⟨record, hit, hraise⟩ := s.raiseWith_reacts ev injected
  rw [hraise, State.reacts_entries _ _ _ _ _ hr]

/-- The event is noted the same after a step that leaves the knot and the registers. -/
theorem State.notesEvent_after {s t u : State} {fs : List Field} {source cls : Nat} (h : s.keeps t fs) (hf : Field.knot ∉ fs ∧ Field.regs ∉ fs)
    (hn : t.notesEvent u source cls) : s.notesEvent u source cls := by
  unfold State.notesEvent at hn ⊢
  rwa [State.react_of_keeps h hf.2, show t.knot = s.knot from h .knot hf.1] at hn

theorem State.notesEvent_before {s t u : State} {fs : List Field} {source cls : Nat} (h : t.keeps u fs) (hf : Field.knot ∉ fs)
    (hn : s.notesEvent t source cls) : s.notesEvent u source cls := by
  unfold State.notesEvent at hn ⊢
  rwa [show u.knot = t.knot from h .knot hf]

/-- Besides what `raiseWith` does, an event counts for its unit of the classifier, where it has one (R443). -/
theorem State.raise_counted (s : State) (ev : FaultEv) : ∃ u : State, s.keeps u [.units] ∧ s.raise ev = u.raiseWith ev false := by
  unfold State.raise
  split
  · exact ⟨_, s.hardEvent_keeps _ _, rfl⟩
  · exact ⟨_, s.keeps_refl _, rfl⟩

theorem State.raise_notes (s : State) (ev : FaultEv) :
    s.notesEvent (s.raise ev) ev.source ev.cls ∧ s.keeps (s.raise ev) (.knot :: .units :: reactionFields) := by
  obtain ⟨u, hhard, hraise⟩ := s.raise_counted ev
  obtain ⟨hnoted, hkeeps⟩ := u.raiseWith_notes ev false
  rw [hraise]
  exact ⟨State.notesEvent_after hhard (by decide) hnoted, State.keeps_trans (State.keeps_mono hhard (by decide)) (State.keeps_mono hkeeps (by decide))⟩

-- ## The commands (R239, R435, R441)

/-- What an event stands for besides its record: the end of a node, or an entry to link recovery. -/
theorem State.parityEnd_onlyWork (s : State) (ev : FaultEv) : s.onlyWork (s.parityEnd ev) := by
  unfold State.parityEnd
  split
  · exact s.endNode_onlyWork _ _ _
  · exact s.onlyWork_refl

theorem knotEvent_notes (s : State) {ev : FaultEv} (hbelongs : classBelongs ev.source ev.cls = true) (hforce : ev.cls ≠ 0x3E) (hretire : ev.cls ≠ 0x40)
    (hcache : ev.cls ≠ 0x14) :
    s.notesEvent (knotEvent s ev) ev.source ev.cls ∧ s.keeps (knotEvent s ev) (.knot :: .units :: reactionFields) := by
  have hprep : s.keeps (if ev.cls = 0x31 then s.parityEnd ev else if ev.cls = 0x28 then s.hardEvent 4 ev.unit else s) (.units :: workFields) := by
    split
    · exact State.keeps_mono (s.parityEnd_onlyWork ev) (by decide)
    · split
      · exact State.keeps_mono (s.hardEvent_keeps _ _) (by decide)
      · exact s.keeps_refl _
  unfold knotEvent
  rw [if_neg (by simp [hbelongs, hforce, hretire])]
  dsimp only
  rw [if_neg hcache]
  obtain ⟨hnoted, hkeeps⟩ := State.raise_notes (if ev.cls = 0x31 then s.parityEnd ev else if ev.cls = 0x28 then s.hardEvent 4 ev.unit else s) ev
  exact ⟨State.notesEvent_after hprep (by decide) hnoted, State.keeps_trans (State.keeps_mono hprep (by decide)) hkeeps⟩

/-- An uncorrectable word of the cache is what becomes of its line. -/
theorem knotEvent_cacheWord (s : State) {ev : FaultEv} (hbelongs : classBelongs ev.source ev.cls = true) (hcls : ev.cls = 0x14) :
    knotEvent s ev = s.cacheWord ev := by
  unfold knotEvent
  have hbelongs' : classBelongs ev.source 0x14 = true := hcls ▸ hbelongs
  rw [if_neg (by simp [hbelongs', hcls])]
  exact if_pos hcls

theorem State.loseLine_keeps (s : State) (l : CacheLine) : s.keeps (s.loseLine l) [.memCtl] := s.keeps_memCtl _

theorem State.loseLine_clean {s : State} {l : CacheLine} (h : l.dirty = false) :
    (s.loseLine l).memCtl = { s.memCtl with cache := s.memCtl.cache.filter (fun x => x.key != l.key) } := by
  simp [State.loseLine, h]

theorem State.entry_of_entries {s t : State} {e : Nat} (h : t.entries = s.entries) : t.entry e = s.entry e := by
  unfold State.entry
  rw [h]

/-- A running entry that completes, said of the record it had before it ran. -/
theorem State.completed_of_running {s : State} {x : Entry} {st res : Nat} (hentry : s.entry x.acc = some { x with st := .running })
    (hparked : x.parked = none) : State.completed x st res (s.complete x.acc st res) :=
  State.completed_congr (y := { x with st := .running }) rfl rfl rfl rfl rfl (State.complete_completed _ x.acc st res _ hentry hparked)

/-- An injection without effect is the event, counted for its unit where the entry asks for it, and the completion. -/
theorem faultInject_raises (s : State) {x : Entry} (hhigh : x.arg1 < 2 ^ 40) (hzero : field x.arg1 10 6 = 0)
    (hbelongs : classBelongs x.arg0 (field x.arg1 0 8) = true) (heffect : bitAt x.arg1 8 = false) :
    ∃ u : State, s.keeps u [.units] ∧
      faultInject s x = (u.raiseWith (injectedEvent x.arg0 (field x.arg1 0 8) (field x.arg1 16 16)) true).complete x.acc stOK 0 := by
  have hupper : field x.arg1 40 24 = 0 := by rw [field, Nat.div_eq_of_lt hhigh, Nat.zero_mod]
  unfold faultInject
  dsimp only
  rw [if_neg (by simp [hzero, hupper, hbelongs, heffect]), if_neg (by simp [heffect])]
  split
  · split
    · exact ⟨_, s.hardEvent_keeps _ _, rfl⟩
    · exact ⟨_, s.keeps_refl _, rfl⟩
  · exact ⟨_, s.keeps_refl _, rfl⟩

/-- An injected event is noted, and its command completes when the reaction is no reset. -/
theorem faultInject_notes {s : State} {x : Entry} (hentry : s.entry x.acc = some { x with st := .running }) (hparked : x.parked = none)
    (hhigh : x.arg1 < 2 ^ 40) (hzero : field x.arg1 10 6 = 0) (hbelongs : classBelongs x.arg0 (field x.arg1 0 8) = true)
    (heffect : bitAt x.arg1 8 = false) (hr : s.react x.arg0 ≤ 2) :
    s.notesEvent (faultInject s x) x.arg0 (field x.arg1 0 8) ∧ State.completed x stOK 0 (faultInject s x) ∧
      s.keeps (faultInject s x) (.knot :: .units :: reactionFields) := by
  obtain ⟨u, hhard, heq⟩ := faultInject_raises s hhigh hzero hbelongs heffect
  rw [heq]
  generalize hev : injectedEvent x.arg0 (field x.arg1 0 8) (field x.arg1 16 16) = ev
  have hsource : ev.source = x.arg0 := by rw [← hev]; rfl
  have hcls : ev.cls = field x.arg1 0 8 := by rw [← hev]; rfl
  obtain ⟨hnoted, hkeeps⟩ := u.raiseWith_notes ev true
  have hentries : (u.raiseWith ev true).entries = u.entries :=
    State.raiseWith_entries true ((State.react_of_keeps hhard (by decide) _).le.trans (hsource ▸ hr))
  have hcompletes := State.complete_keeps (u.raiseWith ev true) x.acc stOK 0
  rw [hsource, hcls] at hnoted
  refine ⟨State.notesEvent_before hcompletes (by decide) (State.notesEvent_after hhard (by decide) hnoted), ?_,
    State.keeps_step (State.keeps_trans (State.keeps_mono hhard (by decide)) (State.keeps_mono hkeeps (by decide))) hcompletes⟩
  refine State.completed_of_running ?_ hparked
  rw [State.entry_of_entries hentries, State.entry_of_entries (hhard .entries (by decide)), hentry]

/-- A fault armed on a pseudo-channel of HBM: the larger count stands (R442). -/
theorem State.armFault_hbm (s : State) (unit count : Nat) (classify : Bool) :
    tget 0 (s.armFault 0x10 unit count classify).memCtl.armed (65536 + unit) = max count (tget 0 s.memCtl.armed (65536 + unit)) := by
  show tget 0 (tset 0 (tset 0 s.memCtl.armed (65536 * 1 + unit) (max count (tget 0 s.memCtl.armed (65536 * 1 + unit)))) (2 ^ 32 + (65536 * 1 + unit))
    (b2n classify)) (65536 + unit) = _
  rw [tget_tset_ne _ _ _ (by omega), Nat.mul_one, tget_tset_same]

theorem State.armFault_hbm_keeps (s : State) (unit count : Nat) (classify : Bool) : s.keeps (s.armFault 0x10 unit count classify) [.memCtl] :=
  s.keeps_memCtl _

/-- An injection with an effect on a pseudo-channel of HBM arms it and completes. -/
theorem faultInject_arms (s : State) {x : Entry} (hhigh : x.arg1 < 2 ^ 40) (hzero : field x.arg1 10 6 = 0)
    (hbelongs : classBelongs x.arg0 (field x.arg1 0 8) = true) (heffect : bitAt x.arg1 8 = true) (hcls : field x.arg1 0 8 = 0x10)
    (hunit : field x.arg1 16 16 < 256) :
    faultInject s x = (s.armFault 0x10 (field x.arg1 16 16) (max 1 (field x.arg1 32 8)) (bitAt x.arg1 9)).complete x.acc stOK 0 := by
  have hupper : field x.arg1 40 24 = 0 := by rw [field, Nat.div_eq_of_lt hhigh, Nat.zero_mod]
  unfold faultInject
  dsimp only
  rw [hcls] at hbelongs ⊢
  have hlegal : ¬ (256 ≤ field x.arg1 16 16) := by omega
  rw [if_neg (by simp [hzero, hupper, hbelongs, armable, hlegal]), if_pos heffect]

/-- The entry that runs is the startable one. -/
theorem execFaultInject_runs {s : State} {e : Nat} {x : Entry} (h : s.startable e 0x70 = some x) :
    exec (.faultInject e) s = finish (faultInject (s.setEntry x.acc (fun y => { y with st := .running })) x) := by
  obtain rfl := State.startable_acc h
  show finish (s.startNow x.acc 0x70 faultInject) = _
  rw [State.startNow, h]

/-- Settles O17: the knot, the window, and what the command itself answers; the reaction is a frame over the parts it may change. -/
theorem faultEventsSetTheKnot : Obligations.FaultEventsSetTheKnot := by
  unfold Obligations.FaultEventsSetTheKnot
  refine ⟨fun s ev hbelongs hforce hretire hcache => ?_, fun s ev hbelongs hcls => ⟨fun l hl hdirty => ?_, fun l hl hclean => ?_, fun hl => ?_⟩,
    fun s src source harr hadm hsource => ?_, fun s e x hx hhigh hzero hbelongs => ⟨fun heffect hr => ?_, fun heffect hcls hunit => ?_⟩⟩
  · obtain ⟨hnoted, hkeeps⟩ := knotEvent_notes s hbelongs hforce hretire hcache
    exact State.gives_of_finish rfl ⟨hnoted, hkeeps .retired (by decide), hkeeps .fuses (by decide), hkeeps .accepted (by decide)⟩
  · have hword : knotEvent s ev = (s.loseLine l).raise ev := by simp [knotEvent_cacheWord s hbelongs hcls, State.cacheWord, hl, hdirty]
    have hlost := s.loseLine_keeps l
    obtain ⟨hnoted, hkeeps⟩ := State.raise_notes (s.loseLine l) ev
    have hall := State.keeps_trans (State.keeps_mono hlost (by decide)) hkeeps
    exact State.gives_of_finish (congrArg finish hword) ⟨State.notesEvent_after hlost (by decide) hnoted, hall .retired (by decide), hall .fuses (by decide),
      hall .accepted (by decide)⟩
  · have hword : knotEvent s ev = s.loseLine l := by simp [knotEvent_cacheWord s hbelongs hcls, State.cacheWord, hl, hclean]
    exact State.gives_of_finish (congrArg finish hword) ⟨State.loseLine_clean hclean, State.keeps_settled (s.loseLine_keeps l)⟩
  · have hword : knotEvent s ev = s := by simp [knotEvent_cacheWord s hbelongs hcls, State.cacheWord, hl]
    exact congrArg finish hword
  · have hforced : forceEvent s src source = s.raiseWith (injectedEvent source 0x3E 0) true := if_neg (by simp [hadm, hsource])
    have hexec : exec (.force src source) s = finish (s.raiseWith (injectedEvent source 0x3E 0) true) :=
      congrArg finish ((State.via_of_arrives _ harr).trans hforced)
    obtain ⟨hnoted, hkeeps⟩ := s.raiseWith_notes (injectedEvent source 0x3E 0) true
    exact State.gives_of_finish hexec ⟨hnoted, hkeeps .retired (by decide), hkeeps .fuses (by decide), hkeeps .units (by decide)⟩
  · obtain ⟨hentry, hparked⟩ := State.startable_some hx
    have hacc := State.startable_acc hx
    have hruns := s.setEntry_keeps x.acc (fun y => { y with st := .running })
    have hrun := State.setEntry_entry s x.acc (fun y => { y with st := .running }) (fun _ => rfl) x (hacc ▸ hentry)
    obtain ⟨hnoted, hdone, hkeeps⟩ := faultInject_notes hrun hparked hhigh hzero hbelongs heffect
      ((State.react_of_keeps hruns (by decide) _).le.trans hr)
    have hall := State.keeps_trans (State.keeps_mono hruns (by decide)) hkeeps
    exact State.gives_of_finish (execFaultInject_runs hx) ⟨State.notesEvent_after hruns (by decide) hnoted, State.completed_settle hdone,
      hall .retired (by decide), hall .fuses (by decide)⟩
  · obtain ⟨hentry, hparked⟩ := State.startable_some hx
    have hacc := State.startable_acc hx
    have hruns := s.setEntry_keeps x.acc (fun y => { y with st := .running })
    have hrun := State.setEntry_entry s x.acc (fun y => { y with st := .running }) (fun _ => rfl) x (hacc ▸ hentry)
    generalize hu : s.setEntry x.acc (fun y => { y with st := .running }) = u at hruns hrun
    have hexec := execFaultInject_runs hx
    rw [hu, faultInject_arms u hhigh hzero hbelongs heffect hcls hunit] at hexec
    have harmed := u.armFault_hbm_keeps (field x.arg1 16 16) (max 1 (field x.arg1 32 8)) (bitAt x.arg1 9)
    have hcompletes := State.complete_keeps (u.armFault 0x10 (field x.arg1 16 16) (max 1 (field x.arg1 32 8)) (bitAt x.arg1 9)) x.acc stOK 0
    refine State.gives_of_finish hexec ⟨?_, ?_, ?_⟩
    · rw [settle_memCtl, show (State.complete _ x.acc stOK 0).memCtl = _ from hcompletes .memCtl (by decide), State.armFault_hbm,
        show u.memCtl = s.memCtl from hruns .memCtl (by decide)]
    · refine State.completed_settle (State.completed_of_running ?_ hparked)
      rw [State.entry_of_entries (harmed .entries (by decide)), hrun]
    · exact State.keeps_settled (State.keeps_step (State.keeps_step (State.keeps_mono hruns (by decide)) harmed) hcompletes)

end Sys2Proof.Machine
end

section
/-!
PROOFS. The end of a classifier window, retirement of a pseudo-channel, the clearing of the map, and the return of a block (R436, R444, R446, R453).
-/

-- Proofs are elaborated one after another: side by side, the threads of the whole text outgrow the memory that the check allows.
set_option Elab.async false

namespace Sys2Proof.Machine

-- ## The end of a window (R444)

/-- The score at the end of a unit's window. -/
def State.newScore (s : State) (cls u : Nat) : Nat := (s.unit cls u).score / 2 + 16 * (s.unit cls u).hard + (s.unit cls u).soft

/-- The unit starts its next window. -/
def State.scored (s : State) (cls u : Nat) : State := s.setUnit cls u { score := s.newScore cls u }

theorem State.scored_keeps (s : State) (cls u : Nat) : s.keeps (s.scored cls u) [.units] := s.setUnit_keeps _ _ _

theorem windowEnd_below {s : State} {cls u : Nat} (hu : u < unitCount cls) (hbar : (s.scored cls u).permanentAt cls > s.newScore cls u) :
    windowEnd s cls u = s.scored cls u :=
  (if_neg (Nat.not_le.2 hu)).trans (if_neg (fun h => absurd h.1 (Nat.not_le.2 hbar)))

theorem windowEnd_permanent {s : State} {cls u : Nat} (hu : u < unitCount cls) (hbar : (s.scored cls u).permanentAt cls ≤ s.newScore cls u)
    (hlive : ((s.scored cls u).liveUnits cls).contains u = true) : windowEnd s cls u = (s.scored cls u).retireUnit cls u :=
  (if_neg (Nat.not_le.2 hu)).trans (if_pos ⟨hbar, hlive⟩)

-- ## A pseudo-channel of HBM becomes retired (R446, R452)

/-- The record of a pseudo-channel's retirement (R440). -/
def hbmRetireEvent (u : Nat) : FaultEv :=
  { source := 32 + u / 32, cls := 0x40, unit := u, unit2 := 1, address := 0, detail := 0x60000000, island := 0x22 + u / 32, part := none }

/-- A pseudo-channel stands last in the retirement map, and the relocation of its group is under way. -/
def State.hbmGone (s : State) (u : Nat) : State :=
  { s with
    retired := s.retired ++ [65536 + u]
    memCtl := { s.memCtl with relocating := s.memCtl.relocating.filter (· != u / 8) ++ [u / 8] } }

theorem State.hbmGone_keeps (s : State) (u : Nat) : s.keeps (s.hbmGone u) [.retired, .memCtl] := by
  intro f hf
  cases f <;> first | rfl | exact fun _ => rfl | exact absurd (by decide) hf

theorem State.retireUnit_hbm {s : State} {u : Nat} (hu : u < 256) (hlive : s.isRetired 1 u = false) :
    s.retireUnit 1 u = ((s.hbmGone u).raise (hbmRetireEvent u)).writeRetirePage := by
  unfold State.retireUnit
  rw [if_neg (by simp [unitCount, hlive, hu])]
  simp only [hlive]
  rfl

/-- The pseudo-channel is the last one of the map and its stack's knot bit is set, whatever the reaction does. -/
theorem State.retireUnit_hbm_frame {s : State} {u : Nat} (hu : u < 256) (hlive : s.isRetired 1 u = false) :
    (s.retireUnit 1 u).retired = s.retired ++ [65536 + u] ∧ bitAt (s.retireUnit 1 u).knot.word (32 + u / 32) = true ∧
      s.keeps (s.retireUnit 1 u) (.retired :: .knot :: .units :: reactionFields) := by
  obtain ⟨⟨hword, -⟩, hraised⟩ := State.raise_notes (s.hbmGone u) (hbmRetireEvent u)
  have hpage := ((s.hbmGone u).raise (hbmRetireEvent u)).writeRetirePage_keeps
  rw [State.retireUnit_hbm hu hlive]
  refine ⟨?_, ?_, State.keeps_step (State.keeps_trans (State.keeps_mono (s.hbmGone_keeps u) (by decide)) (State.keeps_mono hraised (by decide))) hpage⟩
  · rw [show State.retired _ = _ from hpage .retired (by decide), show State.retired _ = _ from hraised .retired (by decide)]
    rfl
  · rw [show State.knot _ = _ from hpage .knot (by decide), hword, bitAt_setField, show (hbmRetireEvent u).source = 32 + u / 32 from rfl]
    simp [show bitAt 1 0 = true from rfl]

-- ## The map is cleared (R453)

theorem State.clearRetired_refused {s : State} (h : ∃ p, p < 16 ∧ (s.part p).st ≠ .unconfigured) : s.clearRetired = s := by
  obtain ⟨p, hp, hst⟩ := h
  refine if_neg fun hall => hst ?_
  simpa using List.all_eq_true.1 hall p (List.mem_range.2 hp)

theorem State.clearRetired_clears {s : State} (h : ∀ p, p < 16 → (s.part p).st = .unconfigured) :
    (s.clearRetired.retired = [] ∧ s.clearRetired.guests = [] ∧ s.clearRetired.vacant = [] ∧ s.clearRetired.memCtl.relocated = []) ∧
      s.keeps s.clearRetired [.mem, .ports, .units, .retired, .guests, .vacant, .memCtl, .genRetire] := by
  have hall : (List.range 16).all (fun p => (s.part p).st == .unconfigured) = true :=
    List.all_eq_true.2 fun p hp => by simp [h p (List.mem_range.1 hp)]
  have hunits : s.keeps (s.retired.foldl (fun s k => s.setUnit (k / 65536) (k % 65536) {}) s) [.units] :=
    State.keeps_fold (fun s k => s.setUnit_keeps _ _ _) _ _
  unfold State.clearRetired
  rw [if_pos hall]
  dsimp only
  generalize s.retired.foldl (fun s k => s.setUnit (k / 65536) (k % 65536) {}) s = u at hunits ⊢
  have hpage (v : State) := v.writeRetirePage_keeps
  refine ⟨⟨hpage _ .retired (by decide), hpage _ .guests (by decide), hpage _ .vacant (by decide),
    congrArg MemCtl.relocated (hpage _ .memCtl (by decide))⟩, State.keeps_step ?_ (hpage _)⟩
  refine State.keeps_trans (State.keeps_mono hunits (by decide)) fun f hf => ?_
  cases f <;> first | rfl | exact fun _ => rfl | exact absurd (by decide) hf

-- ## A block returns from its reset (R436)

/-- A memory controller serves again. -/
theorem blockReturn_controller {s : State} {source : Nat} (h : 32 ≤ source ∧ source < 44) :
    blockReturn s source = { s with memCtl := { s.memCtl with resetting := s.memCtl.resetting.filter (· != source - 32) } } := if_pos h

/-- A PCIe link with a width left comes up. -/
theorem blockReturn_port {s : State} {q : Nat} (hq : q < 2) (hperst : (s.port q).perst = false) (hwidth : (s.port q).maxWidth ≠ 0) :
    blockReturn s (50 + q) = s.setPort q { s.port q with linkUp := true } := by
  unfold blockReturn
  rw [if_neg (by omega), if_neg (by omega), if_pos (by omega), Nat.add_sub_cancel_left]
  exact if_neg (by simp [hperst, hwidth])

-- ## O20

/-- Settles O20: each command by what it does to the map, whatever the reaction of a retirement is. -/
theorem retirementByScore : Obligations.RetirementByScore := by
  unfold Obligations.RetirementByScore
  refine ⟨fun s cls u hu hbar => ?_, fun s u hu hlive hbar => ?_, fun s src v harr hadm hv => ⟨fun hall => ?_, fun hsome => ?_⟩,
    fun s source hlo hhi hwait => ?_, fun s q hq hperst hwidth hwait => ?_⟩
  · have hexec : exec (.classifierWindowEnd cls u) s = finish (s.scored cls u) := congrArg finish (windowEnd_below hu hbar)
    exact State.gives_of_finish hexec ⟨s.setUnit_unit_same cls u _, State.keeps_settled (s.scored_keeps cls u)⟩
  · have hserves : ((s.scored 1 u).liveUnits 1).contains u = true := by
      have hlive' : (s.scored 1 u).isRetired 1 u = false := hlive
      simp [State.liveUnits, unitCount, hu, hlive']
    have hexec : exec (.classifierWindowEnd 1 u) s = finish ((s.scored 1 u).retireUnit 1 u) := congrArg finish (windowEnd_permanent hu hbar hserves)
    obtain ⟨hretired, hbit, hkeeps⟩ := State.retireUnit_hbm_frame (s := s.scored 1 u) hu hlive
    exact State.gives_of_finish hexec ⟨hretired, hbit, hkeeps .fuses (by decide), hkeeps .accepted (by decide)⟩
  · have hexec : exec (.retirementClear src v) s = finish s.clearRetired :=
      congrArg finish ((State.via_of_arrives _ harr).trans (if_pos (by simp [hadm, hv])))
    obtain ⟨⟨hretired, hguests, hvacant, hmap⟩, hkeeps⟩ := State.clearRetired_clears hall
    exact State.gives_of_finish hexec ⟨hretired, hguests, hvacant, hmap, State.keeps_settled hkeeps⟩
  · exact congrArg finish ((State.via_of_arrives _ harr).trans ((if_pos (by simp [hadm, hv])).trans (State.clearRetired_refused hsome)))
  · have hexec : exec (.blockResetReturn source) s =
        finish { s with memCtl := { s.memCtl with resetting := s.memCtl.resetting.filter (· != source - 32) } } :=
      congrArg finish ((congrArg State.issueScrubs (blockReturn_controller ⟨hlo, hhi⟩)).trans (State.issueScrubs_of_none hwait))
    exact State.gives_of_finish hexec ⟨rfl, State.keeps_settled (s.keeps_memCtl _)⟩
  · have hexec : exec (.blockResetReturn (50 + q)) s = finish (s.setPort q { s.port q with linkUp := true }) :=
      congrArg finish ((congrArg State.issueScrubs (blockReturn_port hq hperst hwidth)).trans (State.issueScrubs_of_none hwait))
    exact State.gives_of_finish hexec ⟨s.setPort_port_same q { s.port q with linkUp := true },
      State.keeps_settled (s.setPort_keeps q _)⟩

end Sys2Proof.Machine
end

section
/-!
PROOFS. The partition pool: a directory entry written and read again, the lowest free run, one allocation, and the pool-age temple (R245 to R251).
-/

-- Proofs are elaborated one after another: side by side, the threads of the whole text outgrow the memory that the check allows.
set_option Elab.async false

namespace Sys2Proof.Machine

-- ## A directory entry's bytes (R245)

/-- The 32 bytes of a directory entry. -/
def PEnt.bytes (x : PEnt) : List Byte :=
  leBytes 4 x.first ++ leBytes 4 x.blocks ++ leBytes 1 x.cls ++ leBytes 1 (b2n x.ownerPin + 2 * b2n x.freePending) ++
    leBytes 2 x.pins ++ leBytes 4 x.refs ++ leBytes 8 x.lastUse ++ leBytes 1 x.counter ++ leBytes 3 0 ++ leBytes 4 x.key

/-- The directory entry that 32 bytes say. -/
def PEnt.ofBytes (b : List Byte) : PEnt :=
  { first := le b 0 4, blocks := le b 4 4, cls := field (le b 8 1) 0 3, ownerPin := bitAt (le b 9 1) 0, freePending := bitAt (le b 9 1) 1,
    pins := le b 10 2, refs := le b 12 4, lastUse := le b 16 8, counter := le b 24 1, key := le b 28 4 }

theorem State.pent_eq (s : State) (p e : Nat) : s.pent p e = PEnt.ofBytes (s.hbm (s.poolBase p + 32 * e) 32) := rfl

theorem State.setPent_eq (s : State) (p e : Nat) (x : PEnt) : s.setPent p e x = s.setHbm (s.poolBase p + 32 * e) x.bytes := rfl

theorem PEnt.bytes_length (x : PEnt) : x.bytes.length = 32 := by simp [PEnt.bytes]

/-- Every number of the entry fits its field. -/
structure PEnt.Fits (x : PEnt) : Prop where
  first : x.first < 256 ^ 4
  blocks : x.blocks < 256 ^ 4
  cls : x.cls < 8
  pins : x.pins < 256 ^ 2
  refs : x.refs < 256 ^ 4
  lastUse : x.lastUse < 256 ^ 8
  counter : x.counter < 256 ^ 1
  key : x.key < 256 ^ 4

theorem le_leBytes_append_of_lt {n v : Nat} (h : v < 256 ^ n) (b : List Byte) : le (leBytes n v ++ b) 0 n = v := by
  rw [le_leBytes_append, Nat.mod_eq_of_lt h]

theorem le_leBytes_of_lt {n v : Nat} (h : v < 256 ^ n) : le (leBytes n v) 0 n = v := by
  have := le_leBytes_append_of_lt h []
  rwa [List.append_nil] at this

theorem PEnt.ofBytes_bytes {x : PEnt} (h : x.Fits) : PEnt.ofBytes x.bytes = x := by
  obtain ⟨hfirst, hblocks, hcls, hpins, hrefs, hlast, hcounter, hkey⟩ := h
  have hflags : ∀ a b : Bool, bitAt (b2n a + 2 * b2n b) 0 = a ∧ bitAt (b2n a + 2 * b2n b) 1 = b ∧ b2n a + 2 * b2n b < 256 ^ 1 := by decide
  obtain ⟨hown, hpending, hsmall⟩ := hflags x.ownerPin x.freePending
  have hbyte : x.cls < 256 ^ 1 := by omega
  have hfield : field x.cls 0 3 = x.cls := by simpa [field] using Nat.mod_eq_of_lt hcls
  simp only [PEnt.ofBytes, PEnt.bytes, List.append_assoc]
  simp [le_leBytes_append_of_lt hfirst, le_leBytes_append_of_lt hblocks, le_leBytes_append_of_lt hbyte, le_leBytes_append_of_lt hsmall,
    le_leBytes_append_of_lt hpins, le_leBytes_append_of_lt hrefs, le_leBytes_append_of_lt hlast, le_leBytes_append_of_lt hcounter,
    le_leBytes_of_lt hkey, le_leBytes_append_of_le, hown, hpending, hfield]

-- ## Bytes in HBM

/-- Bytes written to HBM stand where the units lie at the start. -/
theorem State.setHbm_holdsData {s : State} {o : Nat} {bs : List Byte} (hend : o + bs.length ≤ 2 ^ 48) : s.holdsData (s.setHbm o bs) 0 o bs := by
  have hkeys : ∀ (l : List (Nat × Byte)) (u : State), u.memCtl = s.memCtl →
      l.foldl (fun v ib => v.wr (v.dataKey 0 (o + ib.1)) ib.2) u = l.foldl (fun v ib => v.wr (s.dataKey 0 (o + ib.1)) ib.2) u := by
    intro l
    induction l with
    | nil => exact fun _ _ => rfl
    | cons ib l ih =>
      intro u hu
      have hkey : u.dataKey 0 (o + ib.1) = s.dataKey 0 (o + ib.1) := by rw [State.dataKey, hu, State.dataKey]
      rw [List.foldl_cons, List.foldl_cons, hkey]
      exact ih _ hu
  rw [State.setHbm, hkeys _ s rfl]
  exact State.foldl_wr_holdsData hend

theorem State.hbm_of_holdsData {s t : State} {o : Nat} {bs : List Byte} (h : s.holdsData t 0 o bs) (hkeys : t.memCtl = s.memCtl) : t.hbm o bs.length = bs := by
  refine List.ext_getElem (by simp [State.hbm]) fun i hi hi' => ?_
  have hkey : t.dataKey 0 (o + i) = s.dataKey 0 (o + i) := by rw [State.dataKey, hkeys, State.dataKey]
  simp [State.hbm, hkey, h.1 i hi']

-- ## What the directory turns on

theorem State.poolBase_of_keeps {s t : State} {fs : List Field} (h : s.keeps t fs) (hf : Field.regs ∉ fs) (p : Nat) : t.poolBase p = s.poolBase p := by
  rw [State.poolBase, State.fld, State.reg_of_keeps h hf, State.poolBase, State.fld]

theorem State.poolBlocks_of_keeps {s t : State} {fs : List Field} (h : s.keeps t fs) (hf : Field.regs ∉ fs) (p : Nat) :
    t.poolBlocks p = s.poolBlocks p := by
  rw [State.poolBlocks, State.fld, State.reg_of_keeps h hf, State.poolBlocks, State.fld]

theorem State.poolBase_lt (s : State) (p : Nat) : s.poolBase p < 2 ^ 39 := by
  have : s.fld (.poolBase p) 0 18 < 2 ^ 18 := Nat.mod_lt _ (by decide)
  rw [State.poolBase]
  omega

theorem State.poolBlocks_lt (s : State) (p : Nat) : s.poolBlocks p < 2 ^ 23 := by
  have : s.fld (.poolSize p) 0 18 < 2 ^ 18 := Nat.mod_lt _ (by decide)
  rw [State.poolBlocks]
  omega

/-- A directory reads the same after a step that leaves the memory, the registers and the places of units. -/
theorem State.pent_of_keeps {s t : State} {fs : List Field} (h : s.keeps t fs) (hf : Field.mem ∉ fs ∧ Field.regs ∉ fs ∧ Field.memCtl ∉ fs) (p e : Nat) :
    t.pent p e = s.pent p e := by
  obtain ⟨hmem, hregs, hctl⟩ := hf
  have hbytes : ∀ o, t.hbm o 32 = s.hbm o 32 := fun o => by
    refine List.map_congr_left fun i _ => ?_
    rw [State.dataKey, (h .memCtl hctl : t.memCtl = s.memCtl), State.dataKey]
    exact h .mem hmem _
  rw [State.pent_eq, State.poolBase_of_keeps h hregs, hbytes, State.pent_eq]

theorem State.place_of_keeps {s t : State} {fs : List Field} (h : s.keeps t fs) (hf : Field.mem ∉ fs ∧ Field.regs ∉ fs ∧ Field.memCtl ∉ fs) (p n : Nat) :
    t.place p n = s.place p n := by
  have hpent : t.pent p = s.pent p := funext fun e => State.pent_of_keeps h hf p e
  have hblocks := State.poolBlocks_of_keeps h hf.2.1 p
  simp only [State.place, State.unusedEntry, State.pents, hpent, hblocks]

/-- An entry written reads back. -/
theorem State.setPent_pent (s : State) (p : Nat) {e : Nat} {x : PEnt} (he : e < 65536) (hx : x.Fits) : (s.setPent p e x).pent p e = x := by
  have hbase := s.poolBase_lt p
  have hholds : s.holdsData (s.setPent p e x) 0 (s.poolBase p + 32 * e) x.bytes := by
    rw [State.setPent_eq]
    exact State.setHbm_holdsData (by rw [x.bytes_length]; omega)
  have hkeeps := s.setPent_keeps p e x
  have hread := State.hbm_of_holdsData hholds (hkeeps .memCtl (by decide))
  rw [x.bytes_length] at hread
  rw [State.pent_eq, State.poolBase_of_keeps hkeeps (by decide), hread, PEnt.ofBytes_bytes hx]

/-- Only the 32 bytes of the entry change. -/
theorem State.setPent_rd (s : State) (p : Nat) {e k : Nat} (x : PEnt) (he : e < 65536) (hk : ∀ i, i < 32 → k ≠ s.dataKey 0 (s.poolBase p + 32 * e + i)) :
    (s.setPent p e x).rd k = s.rd k := by
  have hbase := s.poolBase_lt p
  rw [State.setPent_eq]
  refine (State.setHbm_holdsData (by rw [x.bytes_length]; omega)).2 k ?_
  rwa [x.bytes_length]

-- ## The lowest free run (R247)

/-- A run of `n` blocks from block `b` lies behind the directory, in the pool, and meets no entry in use. -/
def freeAt (total n : Nat) (used : List PEnt) (b : Nat) : Prop :=
  32 ≤ b ∧ b + n ≤ total ∧ ∀ x ∈ used, b + n ≤ x.first ∨ x.first + x.blocks ≤ b

/-- A fold that keeps the lesser of two is the least of the list. -/
theorem foldl_least {f : Option Nat → Nat → Option Nat} (hnone : ∀ b, f none b = some b) (hsome : ∀ m b, f (some m) b = some (min m b)) (l : List Nat) :
    l.foldl f none = l.min? := by
  have hfrom : ∀ (l : List Nat) (m : Nat), l.foldl f (some m) = some (l.foldl min m) := by
    intro l
    induction l with
    | nil => exact fun _ => rfl
    | cons b l ih => exact fun m => by rw [List.foldl_cons, List.foldl_cons, hsome, ih]
  cases l with
  | nil => rfl
  | cons b l => rw [List.foldl_cons, hnone, hfrom, List.min?_cons']

/-- Where a free run can begin: behind the directory, and where an entry in use ends. -/
def runStarts (used : List PEnt) : List Nat := 32 :: used.map (fun x => x.first + x.blocks)

theorem freeRun_eq (total n : Nat) (used : List PEnt) :
    ∃ l : List Nat, freeRun total n used = l.min? ∧ ∀ b, b ∈ l ↔ b ∈ runStarts used ∧ freeAt total n used b := by
  refine ⟨_, foldl_least (fun _ => rfl) (fun _ _ => rfl) _, fun b => ?_⟩
  simp [runStarts, freeAt, and_assoc]

/-- Below every free run there is one that begins where a run can. -/
theorem exists_runStart_le {total n c : Nat} {used : List PEnt} (h : freeAt total n used c) : ∃ b ∈ runStarts used, freeAt total n used b ∧ b ≤ c := by
  obtain ⟨hdir, hend, hfree⟩ := h
  obtain ⟨b, hmax⟩ : ∃ b, ((runStarts used).filter (fun b => decide (b ≤ c))).max? = some b :=
    Option.isSome_iff_exists.1 (by simp [runStarts, hdir])
  obtain ⟨hb, hgreatest⟩ := List.max?_eq_some_iff.1 hmax
  obtain ⟨hstart, hle⟩ := List.mem_filter.1 hb
  have hbc : b ≤ c := of_decide_eq_true hle
  refine ⟨b, hstart, ⟨hgreatest 32 (by simp [runStarts, hdir]), by omega, fun x hx => ?_⟩, hbc⟩
  rcases hfree x hx with hbefore | hbehind
  · exact Or.inl (by omega)
  · exact Or.inr (hgreatest _ (List.mem_filter.2 ⟨List.mem_cons_of_mem _ (List.mem_map.2 ⟨x, hx, rfl⟩), by simpa using hbehind⟩))

theorem freeRun_lowest {total n : Nat} {used : List PEnt} (h : ∃ c, freeAt total n used c) :
    ∃ b, freeRun total n used = some b ∧ freeAt total n used b ∧ ∀ c, freeAt total n used c → b ≤ c := by
  obtain ⟨l, hrun, hl⟩ := freeRun_eq total n used
  obtain ⟨c, hc⟩ := h
  obtain ⟨d, hd, hfree, -⟩ := exists_runStart_le hc
  obtain ⟨b, hmin⟩ : ∃ b, l.min? = some b := Option.isSome_iff_exists.1 (List.isSome_min?_of_mem ((hl d).2 ⟨hd, hfree⟩))
  obtain ⟨hb, hleast⟩ := List.min?_eq_some_iff.1 hmin
  refine ⟨b, hrun.trans hmin, ((hl b).1 hb).2, fun c hc => ?_⟩
  obtain ⟨d, hd, hfree, hdc⟩ := exists_runStart_le hc
  exact (hleast d ((hl d).2 ⟨hd, hfree⟩)).trans hdc

theorem freeRun_none {total n : Nat} {used : List PEnt} (h : ∀ c, ¬ freeAt total n used c) : freeRun total n used = none := by
  obtain ⟨l, hrun, hl⟩ := freeRun_eq total n used
  rw [hrun, List.min?_eq_none_iff, List.eq_nil_iff_forall_not_mem]
  exact fun b hb => h b ((hl b).1 hb).2

/-- A run of `n` blocks from `b` is free in a partition's pool. -/
def State.freeAt (s : State) (p n b : Nat) : Prop :=
  32 ≤ b ∧ b + n ≤ s.poolBlocks p ∧ ∀ y ∈ s.pents p, b + n ≤ y.2.first ∨ y.2.first + y.2.blocks ≤ b

theorem State.freeAt_iff (s : State) (p n b : Nat) : Machine.freeAt (s.poolBlocks p) n ((s.pents p).map (·.2)) b ↔ s.freeAt p n b := by
  simp only [Machine.freeAt, State.freeAt, List.forall_mem_map]

theorem State.unusedEntry_some {s : State} {p : Nat} (h : ∃ e, e < 65536 ∧ (s.pent p e).blocks = 0) :
    ∃ e, s.unusedEntry p = some e ∧ e < 65536 ∧ (s.pent p e).blocks = 0 := by
  obtain ⟨c, hc, hblocks⟩ := h
  cases he : s.unusedEntry p with
  | none =>
    rw [State.unusedEntry, firstIdx, List.find?_eq_none] at he
    exact absurd (he c (List.mem_range.2 hc)) (by simpa using hblocks)
  | some e =>
    rw [State.unusedEntry, firstIdx, List.find?_range_eq_some] at he
    exact ⟨e, rfl, List.mem_range.1 he.2.1, by simpa using he.1⟩

/-- The lowest unused entry and the lowest free run (R247). -/
theorem State.place_lowest {s : State} {p n : Nat} (hpool : 0 < s.poolBlocks p) (hn : 0 < n) (hentry : ∃ e, e < 65536 ∧ (s.pent p e).blocks = 0)
    (hrun : ∃ b, s.freeAt p n b) :
    ∃ e b, s.place p n = some (e, b) ∧ e < 65536 ∧ (s.pent p e).blocks = 0 ∧ s.freeAt p n b ∧ ∀ c, s.freeAt p n c → b ≤ c := by
  obtain ⟨b, hb, hfree, hlow⟩ := freeRun_lowest (hrun.imp fun c hc => (s.freeAt_iff p n c).2 hc)
  obtain ⟨e, he, hlt, hunused⟩ := State.unusedEntry_some hentry
  refine ⟨e, b, ?_, hlt, hunused, (s.freeAt_iff p n b).1 hfree, fun c hc => hlow c ((s.freeAt_iff p n c).2 hc)⟩
  rw [State.place, if_neg (by omega), he, hb]

theorem State.place_none {s : State} {p n : Nat} (hrun : ∀ b, ¬ s.freeAt p n b) : s.place p n = none := by
  have hb := freeRun_none (total := s.poolBlocks p) (n := n) (used := (s.pents p).map (·.2)) fun c hc => hrun c ((s.freeAt_iff p n c).1 hc)
  rw [State.place, hb]
  split
  · rfl
  · split
    · next h => exact absurd h (by simp)
    · rfl

-- ## One allocation (R247, R248)

/-- The entry an allocation writes. -/
def newPEnt (b n cls pick counter key : Nat) : PEnt := ⟨b, n, cls, ownerPinned cls, false, 0, if cls = 0 then 1 else 0, pick, counter, key % 2 ^ 32⟩

theorem ownerPinned_eq (cls : Nat) : ownerPinned cls = decide (cls ≠ 1 ∧ cls ≠ 2) := by
  have : (cls = 0 ∨ 3 ≤ cls) ↔ (cls ≠ 1 ∧ cls ≠ 2) := by omega
  rw [← decide_eq_decide.2 this, ownerPinned, Bool.decide_or]
  rfl

theorem State.noteRefault_part_ne (s : State) {p k : Nat} (cls key pick : Nat) (hk : k ≠ p) : (s.noteRefault p cls key pick).part k = s.part k := by
  unfold State.noteRefault
  dsimp only
  split
  · rfl
  · exact s.setPart_part_ne _ hk

/-- Where there is a place, an allocation writes one entry there; besides it only the pool's own counts change. -/
theorem State.alloc_placed {s : State} {p cls key n counter e b : Nat} (h : s.place p n = some (e, b)) :
    ∃ u x, s.keeps u [.parts] ∧ (∀ k, k ≠ p → u.part k = s.part k) ∧
      (s.alloc p cls key n counter).1 = (u.setPent p e (newPEnt b n cls (s.counterPick p counter) counter key)).setPart p x := by
  have hkeeps : s.keeps (if cls = 1 ∨ cls = 2 then s.noteRefault p cls key (s.counterPick p counter) else s) [.parts] := by
    split
    · exact s.noteRefault_keeps _ _ _ _
    · exact s.keeps_refl _
  have hother : ∀ k, k ≠ p → (if cls = 1 ∨ cls = 2 then s.noteRefault p cls key (s.counterPick p counter) else s).part k = s.part k := by
    intro k hk
    split
    · exact s.noteRefault_part_ne _ _ _ hk
    · rfl
  unfold State.alloc
  dsimp only
  generalize (if cls = 1 ∨ cls = 2 then s.noteRefault p cls key (s.counterPick p counter) else s) = u at hkeeps hother ⊢
  have hroom : u.makeRoom p cls n 65536 = (u, some (e, b)) := by rw [State.makeRoom, State.place_of_keeps hkeeps (by decide), h]
  rw [hroom]
  exact ⟨u, _, hkeeps, hother, rfl⟩

/-- Where there is no place and nothing may be evicted, an allocation only counts. -/
theorem State.alloc_exhausted {s : State} {p cls key n counter : Nat} (hplace : s.place p n = none) (hvictim : s.victimEntry p = none)
    (h1 : cls ≠ 1) (h2 : cls ≠ 2) :
    ∃ y : Part, (s.alloc p cls key n counter).1 = s.setPart p y ∧ y.job = (s.part p).job ∧
      y.pool.exhausted = satInc 64 (s.part p).pool.exhausted 1 := by
  have hroom : s.makeRoom p cls n 65536 = (s, none) := by rw [State.makeRoom, hplace, hvictim]
  unfold State.alloc
  dsimp only
  rw [if_neg (by omega), hroom]
  exact ⟨_, rfl, rfl, rfl⟩

/-- The entry, the bytes and the other partitions after an allocation that has a place. -/
theorem State.alloc_frame {s : State} {p cls key n e b : Nat} (h : s.place p n = some (e, b)) (he : e < 65536)
    (hfits : (newPEnt b n cls (s.pickOf p) 0 key).Fits) :
    (s.alloc p cls key n 0).1.pent p e = newPEnt b n cls (s.pickOf p) 0 key ∧
      (∀ k, (∀ i, i < 32 → k ≠ s.dataKey 0 (s.poolBase p + 32 * e + i)) → (s.alloc p cls key n 0).1.rd k = s.rd k) ∧
      ∀ k, k ≠ p → (s.alloc p cls key n 0).1.part k = s.part k := by
  obtain ⟨u, x, hu, hother, halloc⟩ := State.alloc_placed (cls := cls) (key := key) (counter := 0) h
  rw [show s.counterPick p 0 = s.pickOf p from if_neg (by decide)] at halloc
  rw [halloc]
  refine ⟨?_, fun k hk => ?_, fun k hk => ?_⟩
  · rw [State.pent_of_keeps (State.setPart_keeps _ p x) (by decide), u.setPent_pent p he hfits]
  · have hkey : ∀ i, u.dataKey 0 (u.poolBase p + 32 * e + i) = s.dataKey 0 (s.poolBase p + 32 * e + i) := fun i => by
      rw [State.poolBase_of_keeps hu (by decide), State.dataKey_of_gates (congrArg MemCtl.gates (hu .memCtl (by decide)))]
    have hbytes : (u.setPent p e (newPEnt b n cls (s.pickOf p) 0 key)).rd k = u.rd k :=
      u.setPent_rd p _ he fun i hi => by rw [hkey]; exact hk i hi
    rw [State.setPart_rd, hbytes]
    exact hu .mem (by decide) k
  · rw [State.setPart_part_ne _ _ hk, State.part_of_keeps (u.setPent_keeps _ _ _) (by decide), hother k hk]

theorem newPEnt_fits {b n cls pick : Nat} (key : Nat) (hb : b < 2 ^ 32) (hn : n < 2 ^ 32) (hcls : cls < 8) (hpick : pick < 2 ^ 64) :
    (newPEnt b n cls pick 0 key).Fits := by
  refine ⟨hb, hn, hcls, show 0 < 256 ^ 2 by decide, ?_, hpick, show 0 < 256 ^ 1 by decide, Nat.mod_lt _ (by decide)⟩
  show (if cls = 0 then 1 else 0) < 256 ^ 4
  split <;> decide

-- ## The pool-age temple (R251)

/-- The threshold at the end of an interval. -/
def State.nextAge (s : State) (p : Nat) : Nat :=
  if s.bit (.tmpPool p) 0 then s.poolAge p
  else if (s.part p).pool.failure then max (s.ageMin p) ((s.part p).pool.age / 2)
  else if (s.part p).pool.refault then min (s.ageMax p) ((s.part p).pool.age + max 1 ((s.part p).pool.age / 4))
  else (s.part p).pool.age

/-- A partition whose pool begins an interval with a threshold. -/
def Part.aged (a : Nat) (y : Part) : Part := { y with pool := { y.pool with age := a, failure := false, refault := false, picks := 0 } }

theorem poolAgeUpdate_eq (s : State) (p : Nat) : poolAgeUpdate s p = s.setPart p ((s.part p).aged (s.nextAge p)) := rfl

theorem State.nextAge_eq {s : State} {p a : Nat} (hpin : s.bit (.tmpPool p) 0 = true → a = s.fld (.tmpPool p) 16 16)
    (hfail : s.bit (.tmpPool p) 0 = false → (s.part p).pool.failure = true → a = max (s.ageMin p) ((s.part p).pool.age / 2))
    (hrefault : s.bit (.tmpPool p) 0 = false → (s.part p).pool.failure = false → (s.part p).pool.refault = true →
      a = min (s.ageMax p) ((s.part p).pool.age + max 1 ((s.part p).pool.age / 4)))
    (hsame : s.bit (.tmpPool p) 0 = false → (s.part p).pool.failure = false → (s.part p).pool.refault = false → a = (s.part p).pool.age) :
    s.nextAge p = a := by
  unfold State.nextAge State.poolAge
  cases hp : s.bit (.tmpPool p) 0 with
  | true => simp [hpin hp]
  | false =>
    cases hf : (s.part p).pool.failure with
    | true => simp [hfail hp hf]
    | false =>
      cases hr : (s.part p).pool.refault with
      | true => simp [hrefault hp hf hr]
      | false => simp [hsame hp hf hr]

-- ## O48

/-- Settles O48: the entry by its bytes, the run as the least of where one can begin, the age by the cases of the temple. -/
theorem poolAllocationIsFirstFit : Obligations.PoolAllocationIsFirstFit := by
  unfold Obligations.PoolAllocationIsFirstFit
  refine ⟨fun s p cls key n hp hcls hn hn32 hpick hpool => ⟨fun hentry hrun => ?_, fun hrun hvictim h1 h2 => ?_⟩,
    fun s p a x hx hpin hfail hrefault hsame => ?_⟩
  · have hexec : exec (.poolAllocate p cls key n) s = finish (s.alloc p cls key n 0).1 := congrArg finish (if_pos ⟨hp, hcls⟩)
    obtain ⟨e, b, hplace, he, hunused, ⟨h32, hend, hfree⟩, hlow⟩ := State.place_lowest hpool hn hentry hrun
    have hbound := s.poolBlocks_lt p
    obtain ⟨hpent, hbytes, hother⟩ := State.alloc_frame hplace he (newPEnt_fits key (by omega) hn32 hcls hpick)
    refine State.gives_of_finish hexec ⟨e, b, he, hunused, h32, hend, hfree, fun c h32 hend hc => hlow c ⟨h32, hend, hc⟩, ?_,
      fun k hk => (settle_rd _ k).trans (hbytes k hk), hother, State.keeps_settled (s.alloc_keeps p cls key n 0)⟩
    rw [State.pent_of_keeps (State.keeps_settle _ []) (by decide), hpent, newPEnt, ownerPinned_eq]
  · have hnone : s.place p n = none := State.place_none fun b hb => by
      obtain ⟨y, hy, hmeets⟩ := hrun b hb.1 hb.2.1
      exact hmeets (hb.2.2 y hy)
    obtain ⟨y, halloc, hjob, hexhausted⟩ := State.alloc_exhausted (key := key) (counter := 0) hnone hvictim h1 h2
    have hexec : exec (.poolAllocate p cls key n) s = finish (s.setPart p y) := (congrArg finish (if_pos ⟨hp, hcls⟩)).trans (congrArg finish halloc)
    have hpart : (settle (s.setPart p y)).part p = y := s.setPart_part_same p y
    refine State.gives_of_finish hexec ⟨?_, ?_, fun k hk => s.setPart_part_ne y hk, State.keeps_settled (s.setPart_keeps p y)⟩
    · rw [hpart, hexhausted]
    · rw [hpart, hjob]
  · subst hx
    have hexec : exec (.poolAgeTempleUpdate p) s = finish (poolAgeUpdate s p) := rfl
    rw [poolAgeUpdate_eq, State.nextAge_eq hpin hfail hrefault hsame] at hexec
    have hpart : (settle (s.setPart p ((s.part p).aged a))).part p = (s.part p).aged a := s.setPart_part_same p _
    refine State.gives_of_finish hexec ⟨?_, fun k hk => s.setPart_part_ne _ hk, State.keeps_settled (s.setPart_keeps p _)⟩
    rw [hpart]
    rfl

end Sys2Proof.Machine
end

section
/-!
PROOFS. The relocation of a group ends: where its units lie afterwards, what their bytes read, and which lines are poisoned (R233, R235, R435).
-/

-- Proofs are elaborated one after another: side by side, the threads of the whole text outgrow the memory that the check allows.
set_option Elab.async false

namespace Sys2Proof.Machine

-- ## Tables in their canonical form

theorem lt_of_risingFrom {α : Type} {l : List (Nat × α)} {c : Nat × α} (hc : c ∈ l) : ∀ {a : Nat}, risingFrom (some a) l = true → a < c.1 := by
  induction l with
  | nil => exact absurd hc List.not_mem_nil
  | cons p l ih =>
    obtain ⟨k, v⟩ := p
    intro a h
    obtain ⟨ha, hl⟩ := (risingFrom_cons _ _ _ _).1 h
    rcases List.mem_cons.1 hc with rfl | hc
    · exact ha a rfl
    · exact (ha a rfl).trans (ih hc hl)

theorem tget_of_mem_rising {α : Type} (d : α) {l : List (Nat × α)} {c : Nat × α} (hc : c ∈ l) : ∀ {lo : Option Nat}, risingFrom lo l = true →
    tget d l c.1 = c.2 := by
  induction l with
  | nil => exact absurd hc List.not_mem_nil
  | cons p l ih =>
    obtain ⟨k, v⟩ := p
    intro lo h
    obtain ⟨-, hl⟩ := (risingFrom_cons _ _ _ _).1 h
    rcases List.mem_cons.1 hc with rfl | hc
    · exact if_pos rfl
    · rw [tget, if_neg (lt_of_risingFrom hc hl).ne, ih hc hl]

/-- What a canonical memory lists is what it reads as. -/
theorem Memory.wf_tget {m : List Host.Cell} (h : Memory.wf m) {c : Host.Cell} (hc : c ∈ m) : tget 0 m c.1 = c.2 :=
  tget_of_mem_rising 0 hc (Bool.and_eq_true_iff.1 h).1

theorem tget_filter_key {α : Type} (d : α) (q : Nat → Bool) (l : List (Nat × α)) (k : Nat) :
    tget d (l.filter (fun c => q c.1)) k = if q k = true then tget d l k else d := by
  induction l with
  | nil => simp [tget]
  | cons p l ih =>
    obtain ⟨j, v⟩ := p
    by_cases hq : q j = true
    · rw [List.filter_cons_of_pos (by exact hq), tget, tget, ih]
      by_cases hj : j = k
      · subst hj; simp [hq]
      · simp [hj]
    · rw [List.filter_cons_of_neg (by exact hq), ih, tget]
      by_cases hj : j = k
      · subst hj; simp [hq]
      · simp [hj]

theorem tget_foldl_filter_key {α β : Type} (d : α) (q : β → Nat → Bool) (bs : List β) (k : Nat) : ∀ l : List (Nat × α),
    tget d (bs.foldl (fun m b => m.filter (fun c => !(q b c.1))) l) k = if bs.any (fun b => q b k) = true then d else tget d l k := by
  induction bs with
  | nil => exact fun l => by simp
  | cons b bs ih =>
    intro l
    rw [List.foldl_cons, ih, tget_filter_key d (fun j => !(q b j))]
    cases hb : q b k <;> simp [hb]

/-- Writes at a key that all bring one value leave that value there. -/
theorem State.foldl_wr_rd_const (K : Nat → Nat) (k : Nat) (v : Byte) (l : List (Nat × Byte)) (hval : ∀ p ∈ l, K p.1 = k → p.2 = v) :
    ∀ s : State, ((∃ p ∈ l, K p.1 = k) ∨ s.rd k = v) → (l.foldl (fun s p => s.wr (K p.1) p.2) s).rd k = v := by
  induction l with
  | nil => exact fun s h => h.resolve_left (by simp)
  | cons p l ih =>
    intro s h
    rw [List.foldl_cons]
    refine ih (fun r hr => hval r (List.mem_cons_of_mem _ hr)) _ ?_
    by_cases hp : K p.1 = k
    · exact Or.inr (by rw [State.wr_rd, if_pos hp.symm, hval p (List.mem_cons_self ..) hp])
    · rw [State.wr_rd, if_neg (Ne.symm hp)]
      refine h.imp (fun ⟨r, hr, hk⟩ => ?_) id
      rcases List.mem_cons.1 hr with rfl | hr
      · exact absurd hk hp
      · exact ⟨r, hr, hk⟩

-- ## Groups and units (R229, R230)

theorem groupOf_eq {sp : Nat} (hsp : sp ≤ 1) (o : Nat) : groupOf sp o = o / groupBytes sp := by
  interval_cases sp <;> rfl

theorem unitOf_eq {sp : Nat} (hsp : sp ≤ 1) (o : Nat) : unitOf sp o = groupUnits sp * groupOf sp o + o % groupBytes sp / 256 % groupUnits sp := by
  interval_cases sp <;> rfl

theorem unitOf_line {sp : Nat} (hsp : sp ≤ 1) (o : Nat) : unitOf sp (o / 64 * 64) = unitOf sp o := by
  interval_cases sp
  · show 8 * (o / 64 * 64 / 0x300000000) + o / 64 * 64 % 0x300000000 / 256 % 8 = 8 * (o / 0x300000000) + o % 0x300000000 / 256 % 8
    omega
  · show 4 * (o / 64 * 64 / 0xF00000000) + o / 64 * 64 % 0xF00000000 / 256 % 4 = 4 * (o / 0xF00000000) + o % 0xF00000000 / 256 % 4
    omega

/-- An offset lies in group `g` of its space, which the space has. -/
structure InGroup (sp g o : Nat) : Prop where
  space : sp ≤ 1
  group : g < if sp = 0 then 32 else 16
  lower : g * groupBytes sp ≤ o
  upper : o < (g + 1) * groupBytes sp

theorem InGroup.groupOf {sp g o : Nat} (h : InGroup sp g o) : Machine.groupOf sp o = g := by
  obtain ⟨hsp, -, hlo, hhi⟩ := h
  rw [groupOf_eq hsp]
  exact Nat.div_eq_of_lt_le hlo hhi

theorem InGroup.lt {sp g o : Nat} (h : InGroup sp g o) : o < 2 ^ 48 := by
  obtain ⟨hsp, hg, -, hhi⟩ := h
  interval_cases sp
  · simp only [groupBytes, if_true] at hg hhi
    omega
  · simp only [groupBytes, one_ne_zero, if_false] at hg hhi
    omega

-- ## The units that move (R235)

/-- The retired units of a group that still lie at their first place. -/
def State.newlyRetired (s : State) (sp g : Nat) : List Nat :=
  ((List.range (groupUnits sp)).map (groupUnits sp * g + ·)).filter (fun u =>
    s.isRetired (unitClass sp) u && !s.memCtl.relocated.contains (65536 * unitClass sp + u))

/-- A line of the group lies in a unit that moves when that unit is retired and has not moved. -/
theorem State.mem_newlyRetired {s : State} {sp g o : Nat} (hsp : sp ≤ 1) (hg : groupOf sp o = g) :
    unitOf sp o ∈ s.newlyRetired sp g ↔
      s.isRetired (unitClass sp) (unitOf sp o) = true ∧ s.memCtl.relocated.contains (65536 * unitClass sp + unitOf sp o) = false := by
  have hin : unitOf sp o ∈ (List.range (groupUnits sp)).map (groupUnits sp * g + ·) := by
    have hpos : 0 < groupUnits sp := by interval_cases sp <;> decide
    rw [unitOf_eq hsp, hg]
    exact List.mem_map_of_mem (List.mem_range.2 (Nat.mod_lt _ hpos))
  simp [State.newlyRetired, List.mem_filter, hin]

theorem State.newlyRetired_fresh {s : State} {sp g u : Nat} (h : u ∈ s.newlyRetired sp g) :
    s.memCtl.relocated.contains (65536 * unitClass sp + u) = false := by
  have := (List.mem_filter.1 h).2
  simpa using (Bool.and_eq_true_iff.1 this).2

/-- The knot sources of a group's units are stacks and packages. -/
theorem State.newlyRetired_source {s : State} {sp g u : Nat} (hsp : sp ≤ 1) (hg : g < if sp = 0 then 32 else 16) (h : u ∈ s.newlyRetired sp g) :
    32 ≤ (unitSource (unitClass sp) u).1 ∧ (unitSource (unitClass sp) u).1 < 44 := by
  obtain ⟨j, hj, rfl⟩ := List.mem_map.1 (List.mem_filter.1 h).1
  have hj := List.mem_range.1 hj
  interval_cases sp
  · simp only [groupUnits, if_true] at hg hj
    show 32 ≤ 32 + (8 * g + j) / 32 ∧ 32 + (8 * g + j) / 32 < 44
    omega
  · simp only [groupUnits, one_ne_zero, if_false] at hg hj
    show 32 ≤ 40 + (4 * g + j) / 16 ∧ 40 + (4 * g + j) / 16 < 44
    omega

-- ## The bytes move (R235)

/-- The new place of a key of a space's first place. -/
def newPlace (sp k : Nat) : Nat := k - spaceKey sp 0 + spaceKey (0x20 + sp) 0

/-- A key lies in the new place of unit `u` of a group. -/
def placedIn (sp g u k : Nat) : Bool :=
  decide (spaceKey (0x20 + sp) (g * groupBytes sp) ≤ k ∧ k < spaceKey (0x20 + sp) ((g + 1) * groupBytes sp)) &&
    unitOf sp (k - spaceKey (0x20 + sp) 0) == u

/-- The bytes of units `us` of a group stand at their new place. -/
def State.movesBytes (s : State) (sp g : Nat) (us : List Nat) : State :=
  (us.flatMap (s.unitCells sp g)).foldl (fun s c => s.wr (newPlace sp c.1) c.2)
    { s with mem := us.foldl (fun m u => m.filter (fun c => !(placedIn sp g u c.1))) s.mem }

theorem State.movesBytes_keeps (s : State) (sp g : Nat) (us : List Nat) : s.keeps (s.movesBytes sp g us) [.mem] :=
  State.keeps_trans (s.keeps_mem _) (State.keeps_fold (fun u _ => u.wr_keeps _ _) _ _)

theorem State.mem_unitCells {s : State} {sp g u : Nat} {c : Host.Cell} :
    c ∈ s.unitCells sp g u ↔ c ∈ s.mem ∧ spaceKey sp (g * groupBytes sp) ≤ c.1 ∧ c.1 < spaceKey sp ((g + 1) * groupBytes sp) ∧
      unitOf sp (c.1 - spaceKey sp 0) = u := by
  simp only [State.unitCells, tslice, List.mem_filter, decide_eq_true_eq, beq_iff_eq, and_assoc]

/-- A byte of a unit that moves reads at its new place as it read at the first one. -/
theorem State.movesBytes_rd_new {s : State} {sp g o : Nat} {us : List Nat} (hwf : Memory.wf s.mem) (ho : InGroup sp g o) (hu : unitOf sp o ∈ us) :
    (s.movesBytes sp g us).rd (spaceKey (0x20 + sp) o) = s.rd (spaceKey sp o) := by
  have hlt := ho.lt
  obtain ⟨hsp, -, hlo, hhi⟩ := ho
  have hoff : spaceKey sp o - spaceKey sp 0 = o := by simp only [spaceKey]; omega
  have hoff' : spaceKey (0x20 + sp) o - spaceKey (0x20 + sp) 0 = o := by simp only [spaceKey]; omega
  refine State.foldl_wr_rd_const (newPlace sp) _ _ _ (fun c hc hkey => ?_) _ ?_
  · obtain ⟨u, -, hcell⟩ := List.mem_flatMap.1 hc
    obtain ⟨hmem, hlower, -, -⟩ := State.mem_unitCells.1 hcell
    have hck : c.1 = spaceKey sp o := by
      simp only [newPlace, spaceKey] at hkey hlower ⊢
      omega
    rw [State.rd, ← hck, Memory.wf_tget hwf hmem]
  · by_cases hlisted : ∃ c ∈ s.mem, c.1 = spaceKey sp o
    · obtain ⟨c, hc, hck⟩ := hlisted
      refine Or.inl ⟨c, List.mem_flatMap.2 ⟨unitOf sp o, hu, State.mem_unitCells.2 ⟨hc, ?_, ?_, ?_⟩⟩, ?_⟩
      · rw [hck]; exact Nat.add_le_add_left hlo _
      · rw [hck]; exact Nat.add_lt_add_left hhi _
      · rw [hck, hoff]
      · rw [hck, newPlace, hoff, spaceKey, spaceKey]; omega
    · refine Or.inr ?_
      have hzero : s.rd (spaceKey sp o) = 0 := tget_of_absent 0 s.mem _ fun c hc hck => hlisted ⟨c, hc, hck⟩
      have hplaced : us.any (fun u => placedIn sp g u (spaceKey (0x20 + sp) o)) = true := by
        refine List.any_eq_true.2 ⟨_, hu, ?_⟩
        have hrange : spaceKey (0x20 + sp) (g * groupBytes sp) ≤ spaceKey (0x20 + sp) o ∧
            spaceKey (0x20 + sp) o < spaceKey (0x20 + sp) ((g + 1) * groupBytes sp) :=
          ⟨Nat.add_le_add_left hlo _, Nat.add_lt_add_left hhi _⟩
        simp [placedIn, hrange, hoff']
      rw [hzero, State.rd]
      exact (tget_foldl_filter_key 0 (placedIn sp g) us _ _).trans (if_pos hplaced)

/-- A key at no unit's new place reads as before. -/
theorem State.movesBytes_rd_other {s : State} {sp g k : Nat} {us : List Nat}
    (hk : spaceKey (0x20 + sp) 0 ≤ k → unitOf sp (k - spaceKey (0x20 + sp) 0) ∉ us) : (s.movesBytes sp g us).rd k = s.rd k := by
  have hwritten : ∀ c ∈ us.flatMap (s.unitCells sp g), newPlace sp c.1 ≠ k := by
    intro c hc hkey
    obtain ⟨u, hu, hcell⟩ := List.mem_flatMap.1 hc
    obtain ⟨-, -, -, hunit⟩ := State.mem_unitCells.1 hcell
    have hoff : k - spaceKey (0x20 + sp) 0 = c.1 - spaceKey sp 0 := by rw [← hkey, newPlace, Nat.add_sub_cancel]
    exact hk (by rw [← hkey, newPlace]; omega) (by rw [hoff, hunit]; exact hu)
  have herased : us.any (fun u => placedIn sp g u k) = false := by
    refine List.any_eq_false.2 fun u hu hplaced => ?_
    obtain ⟨hrange, hunit⟩ := Bool.and_eq_true_iff.1 hplaced
    obtain ⟨hlower, -⟩ := of_decide_eq_true hrange
    refine hk (le_trans (Nat.add_le_add_left (Nat.zero_le _) _) hlower) ?_
    rw [eq_of_beq hunit]
    exact hu
  rw [State.movesBytes, State.foldl_wr_rd_other (newPlace sp) k _ hwritten, State.rd]
  exact (tget_foldl_filter_key 0 (placedIn sp g) us _ _).trans (if_neg (by simp [herased]))

-- ## The controllers' tables follow (R233, R235)

/-- The key of a line after its unit has moved. -/
def movedKey (sp : Nat) (us : List Nat) (k : Nat) : Nat :=
  if k / 2 ^ 48 = sp ∧ us.contains (unitOf sp (k % 2 ^ 48)) then k + 0x20 * 2 ^ 48 else k

/-- The units `us` of a group have moved, and the tables of the memory controllers name their lines at the new place. -/
def State.movesUnits (s : State) (sp g : Nat) (us : List Nat) : State :=
  { s.movesBytes sp g us with
    memCtl := { (s.movesBytes sp g us).memCtl with
      relocating := (s.movesBytes sp g us).memCtl.relocating.erase (256 * sp + g)
      relocated := (s.movesBytes sp g us).memCtl.relocated ++ us.map (65536 * unitClass sp + ·)
      poison := (s.movesBytes sp g us).memCtl.poison.map (movedKey sp us)
      corrupt := (s.movesBytes sp g us).memCtl.corrupt.map (movedKey sp us)
      cache := (s.movesBytes sp g us).memCtl.cache.map (fun l => { l with key := movedKey sp us l.key }) } }

/-- The lines found bad in the units that move, each once. -/
def foundBad (sp : Nat) (us badLines : List Nat) : List Nat := ((badLines.map (fun o => o / 64 * 64)).filter (fun o => us.contains (unitOf sp o))).dedup

/-- Lines that are entered in a poison table where it does not hold them. -/
def State.poisons (s : State) (sp : Nat) (os : List Nat) : State :=
  os.foldl (fun s o => if s.memCtl.poison.contains (s.dataKey sp o) then s else s.poisonLine sp o false none) s

theorem relocationDone_eq {s : State} {sp g : Nat} (badLines : List Nat) (hrel : s.memCtl.relocating.contains (256 * sp + g) = true)
    (hcorrupt : s.memCtl.corrupt = []) :
    relocationDone s sp g badLines = (s.movesUnits sp g (s.newlyRetired sp g)).poisons sp (foundBad sp (s.newlyRetired sp g) badLines) := by
  unfold relocationDone
  rw [if_neg (by simp only [hrel]; decide)]
  dsimp only
  rw [hcorrupt, List.filter_nil, List.map_nil, List.append_nil]
  rfl

section
variable {s : State} {sp g : Nat} {us : List Nat}

theorem State.movesUnits_keeps (s : State) (sp g : Nat) (us : List Nat) : s.keeps (s.movesUnits sp g us) [.mem, .memCtl] :=
  State.keeps_step (State.keeps_mono (s.movesBytes_keeps sp g us) (by decide)) (State.keeps_memCtl _ _)

theorem State.movesUnits_rd (k : Nat) : (s.movesUnits sp g us).rd k = (s.movesBytes sp g us).rd k := rfl

theorem State.movesUnits_memCtl : (s.movesUnits sp g us).memCtl.relocated = s.memCtl.relocated ++ us.map (65536 * unitClass sp + ·) ∧
    (s.movesUnits sp g us).memCtl.poison = s.memCtl.poison.map (movedKey sp us) ∧
    (s.movesUnits sp g us).memCtl.corrupt = s.memCtl.corrupt.map (movedKey sp us) := by
  have hctl : (s.movesBytes sp g us).memCtl = s.memCtl := s.movesBytes_keeps sp g us .memCtl (by decide)
  simp only [State.movesUnits, hctl, and_self]

theorem State.movesUnits_relocated (u : Nat) : (s.movesUnits sp g us).memCtl.relocated.contains (65536 * unitClass sp + u) =
    (s.memCtl.relocated.contains (65536 * unitClass sp + u) || us.contains u) := by
  rw [State.movesUnits_memCtl.1, Bool.eq_iff_iff]
  simp

/-- A unit that moves lies at the new place. -/
theorem State.movesUnits_dataKey_new {o : Nat} (hu : unitOf sp o ∈ us) : (s.movesUnits sp g us).dataKey sp o = spaceKey (0x20 + sp) o := by
  rw [State.dataKey, State.movesUnits_relocated, if_pos (by simp [hu])]

/-- Any other unit lies where it lay. -/
theorem State.movesUnits_dataKey_other {o : Nat} (hu : unitOf sp o ∉ us) : (s.movesUnits sp g us).dataKey sp o = s.dataKey sp o := by
  rw [State.dataKey, State.movesUnits_relocated, State.dataKey]
  simp [hu]

theorem State.dataKey_home {s : State} {sp o : Nat} (h : s.memCtl.relocated.contains (65536 * unitClass sp + unitOf sp o) = false) :
    s.dataKey sp o = spaceKey sp o := by
  rw [State.dataKey, h]
  rfl

/-- Every byte of the group reads as before, where its unit now lies. -/
theorem State.movesUnits_rd_dataKey {o : Nat} (hwf : Memory.wf s.mem) (ho : InGroup sp g o)
    (hfresh : ∀ u ∈ us, s.memCtl.relocated.contains (65536 * unitClass sp + u) = false) :
    (s.movesUnits sp g us).rd ((s.movesUnits sp g us).dataKey sp o) = s.rd (s.dataKey sp o) := by
  rw [State.movesUnits_rd]
  by_cases hu : unitOf sp o ∈ us
  · have hhome := State.dataKey_home (hfresh _ hu)
    rw [State.movesUnits_dataKey_new hu, State.movesBytes_rd_new hwf ho hu, hhome]
  · rw [State.movesUnits_dataKey_other hu]
    refine State.movesBytes_rd_other fun hlower => ?_
    have hlt := ho.lt
    have hoff : s.dataKey sp o - spaceKey (0x20 + sp) 0 = o := by
      have hsp := ho.space
      unfold State.dataKey spaceKey at hlower ⊢
      split at hlower
      · next h => rw [if_pos h]; omega
      · omega
    rwa [hoff]

/-- A line of the group is poisoned at its new place exactly when it was poisoned before. -/
theorem State.movesUnits_poison {o : Nat} (hsp : sp ≤ 1) (ho : o < 2 ^ 48)
    (hfresh : ∀ u ∈ us, s.memCtl.relocated.contains (65536 * unitClass sp + u) = false)
    (hunused : s.memCtl.relocated.contains (65536 * unitClass sp + unitOf sp o) = false → spaceKey (0x20 + sp) o ∉ s.memCtl.poison) :
    (s.movesUnits sp g us).dataKey sp o ∈ (s.movesUnits sp g us).memCtl.poison ↔ s.dataKey sp o ∈ s.memCtl.poison := by
  rw [State.movesUnits_memCtl.2.1, List.mem_map]
  by_cases hu : unitOf sp o ∈ us
  · have hhome := State.dataKey_home (hfresh _ hu)
    have hmoved : movedKey sp us (spaceKey sp o) = spaceKey (0x20 + sp) o := by
      have hdiv : spaceKey sp o / 2 ^ 48 = sp := by simp only [spaceKey]; omega
      have hmod : spaceKey sp o % 2 ^ 48 = o := by simp only [spaceKey]; omega
      rw [movedKey, if_pos ⟨hdiv, by rw [hmod]; simpa using hu⟩, spaceKey, spaceKey]
      omega
    rw [State.movesUnits_dataKey_new hu, hhome]
    refine ⟨fun ⟨k, hk, hkey⟩ => ?_, fun h => ⟨_, h, hmoved⟩⟩
    unfold movedKey at hkey
    split at hkey
    · rwa [show spaceKey sp o = k by simp only [spaceKey] at hkey ⊢; omega]
    · exact absurd (hkey ▸ hk) (hunused (hfresh _ hu))
  · rw [State.movesUnits_dataKey_other hu]
    obtain ⟨hspace, hoffset⟩ := State.dataKey_splits (s := s) hsp ho
    have hstays : movedKey sp us (s.dataKey sp o) = s.dataKey sp o := if_neg fun h => hu (List.contains_iff_mem.1 (hoffset ▸ h.2))
    refine ⟨fun ⟨k, hk, hkey⟩ => ?_, fun h => ⟨_, h, hstays⟩⟩
    unfold movedKey at hkey
    split at hkey
    · next h =>
      have hunit : k % 2 ^ 48 = o := by omega
      exact absurd (List.contains_iff_mem.1 (hunit ▸ h.2)) hu
    · exact hkey ▸ hk

end

-- ## Lines found bad (R233, R435)

/-- Without the fault log an event of REACT 0 changes the knot alone. -/
theorem State.raiseWith_unlogged {s : State} {ev : FaultEv} (h : s.react ev.source = 0) (hlog : s.bit .knotLogCtl 4 = false) :
    s.keeps (s.raiseWith ev false) [.knot] := by
  obtain ⟨record, hraise⟩ := State.raiseWith_of_noReaction false h
  have hoff : State.bit { s with knot := s.knot.noted ev } .knotLogCtl 4 = false := hlog
  rw [hraise, State.logRecord]
  dsimp only
  rw [if_pos (by simp [hoff])]
  exact State.keeps_trans (s.keeps_knot _) (State.keeps_knot _ _)

theorem State.bit_of_keeps {s t : State} {fs : List Field} (h : s.keeps t fs) (hf : Field.regs ∉ fs) (r : Reg) (i : Nat) : t.bit r i = s.bit r i := by
  rw [State.bit, State.reg_of_keeps h hf, State.bit]

/-- One line is entered in a table with room, without the fault log. -/
theorem State.poisonLine_unlogged {s : State} {sp o : Nat} (hroom : s.tableFull sp (unitOf sp o) = false)
    (hreact : s.react (unitSource (unitClass sp) (unitOf sp o)).1 = 0) (hlog : s.bit .knotLogCtl 4 = false) :
    (s.poisonLine sp o false none).memCtl = { s.memCtl with poison := s.memCtl.poison ++ [s.dataKey sp (o / 64 * 64)] } ∧
      (∀ i, bitAt (s.poisonLine sp o false none).knot.word i = (bitAt s.knot.word i || i == (unitSource (unitClass sp) (unitOf sp o)).1)) ∧
      s.keeps (s.poisonLine sp o false none) [.memCtl, .units, .knot] := by
  obtain ⟨ev, hsource, hpoison⟩ := State.poisonLine_enters (part := none) hroom
  have hentered := s.keeps_memCtl { s.memCtl with poison := s.memCtl.poison ++ [s.dataKey sp (o / 64 * 64)] }
  have hcounted := State.keeps_step (State.keeps_mono hentered (gs := [.memCtl, .units]) (by decide)) (State.hardEvent_keeps _ (unitClass sp) (unitOf sp o))
  have hreact' := hsource ▸ (State.react_of_keeps hcounted (by decide) _).trans hreact
  have hraise := State.raiseWith_unlogged (ev := ev) hreact' ((State.bit_of_keeps hcounted (by decide) _ _).trans hlog)
  obtain ⟨-, hbits, -⟩ := State.raiseWith_noted (ev := ev) false hreact'
  rw [hpoison]
  refine ⟨hraise .memCtl (by decide), fun i => ?_, State.keeps_trans (State.keeps_mono hcounted (by decide)) (State.keeps_mono hraise (by decide))⟩
  rw [hbits i, hsource]
  rfl

/-- What poisoning some lines needs: an account with room for them, the record alone, and lines that begin on their border. -/
structure State.MayPoison (s : State) (sp : Nat) (os : List Nat) : Prop where
  room : s.memCtl.poison.length + os.length ≤ 4096
  lines : ∀ o ∈ os, o / 64 * 64 = o
  react : ∀ o ∈ os, s.react (unitSource (unitClass sp) (unitOf sp o)).1 = 0
  log : os = [] ∨ s.bit .knotLogCtl 4 = false
  keys : os.Pairwise (fun a b => s.dataKey sp a ≠ s.dataKey sp b)

/-- What poisoning some lines leaves: the tables hold them besides, the knot bits of those they did not hold are set, and none is cleared. -/
structure State.Poisoned (s t : State) (sp : Nat) (os : List Nat) : Prop where
  memCtl : ∃ poison, t.memCtl = { s.memCtl with poison := poison }
  mem_poison : ∀ k, k ∈ t.memCtl.poison ↔ k ∈ s.memCtl.poison ∨ ∃ o ∈ os, k = s.dataKey sp o
  sets : ∀ o ∈ os, s.dataKey sp o ∉ s.memCtl.poison → bitAt t.knot.word (unitSource (unitClass sp) (unitOf sp o)).1 = true
  holds : ∀ i, bitAt s.knot.word i = true → bitAt t.knot.word i = true
  keeps : s.keeps t [.memCtl, .units, .knot]

theorem State.Poisoned.dataKey {s t : State} {sp : Nat} {os : List Nat} (h : s.Poisoned t sp os) (o : Nat) : t.dataKey sp o = s.dataKey sp o := by
  obtain ⟨poison, hctl⟩ := h.memCtl
  rw [State.dataKey, hctl, State.dataKey]

theorem State.Poisoned.nil (s : State) (sp : Nat) : s.Poisoned s sp [] :=
  ⟨⟨_, rfl⟩, by simp, by simp, fun _ h => h, s.keeps_refl _⟩

/-- One line is entered, or is there already. -/
theorem State.poisoned_one {s : State} {sp o : Nat} {os : List Nat} (h : s.MayPoison sp (o :: os)) :
    s.Poisoned (if s.memCtl.poison.contains (s.dataKey sp o) then s else s.poisonLine sp o false none) sp [o] ∧
      State.MayPoison (if s.memCtl.poison.contains (s.dataKey sp o) then s else s.poisonLine sp o false none) sp os := by
  obtain ⟨hroom, hlines, hreact, hlog, hkeys⟩ := h
  have hrest : ∀ t : State, s.Poisoned t sp [o] → t.memCtl.poison.length ≤ s.memCtl.poison.length + 1 → t.MayPoison sp os := by
    intro t ht hlen
    refine ⟨?_, fun r hr => hlines r (List.mem_cons_of_mem _ hr), fun r hr => ?_, ?_, ?_⟩
    · rw [List.length_cons] at hroom
      omega
    · exact (State.react_of_keeps ht.keeps (by decide) _).trans (hreact r (List.mem_cons_of_mem _ hr))
    · exact Or.inr ((State.bit_of_keeps ht.keeps (by decide) _ _).trans (hlog.resolve_left (by simp)))
    · exact (List.pairwise_cons.1 hkeys).2.imp fun hab => by rwa [ht.dataKey, ht.dataKey]
  by_cases hin : s.memCtl.poison.contains (s.dataKey sp o) = true
  · rw [if_pos hin]
    have hmem : s.dataKey sp o ∈ s.memCtl.poison := by simpa using hin
    have hsame : s.Poisoned s sp [o] := by
      refine ⟨⟨_, rfl⟩, fun k => ⟨Or.inl, ?_⟩, fun r hr hnot => ?_, fun _ hi => hi, s.keeps_refl _⟩
      · rintro (hk | ⟨r, hr, rfl⟩)
        · exact hk
        · rwa [List.mem_singleton.1 hr]
      · rw [List.mem_singleton.1 hr] at hnot
        exact absurd hmem hnot
    exact ⟨hsame, hrest s hsame (Nat.le_succ _)⟩
  · rw [if_neg hin]
    have hfull : s.tableFull sp (unitOf sp o) = false := State.tableFull_of_room (by
      rw [List.length_cons] at hroom
      have : 4096 ≤ tableSize sp := by unfold tableSize; split <;> omega
      omega)
    obtain ⟨hctl, hbits, hkeeps⟩ := State.poisonLine_unlogged hfull (hreact o (List.mem_cons_self ..)) (hlog.resolve_left (by simp))
    rw [hlines o (List.mem_cons_self ..)] at hctl
    have hentered : s.Poisoned (s.poisonLine sp o false none) sp [o] := by
      refine ⟨⟨_, hctl⟩, fun k => ?_, fun r hr _ => ?_, fun i hi => ?_, hkeeps⟩
      · rw [hctl]
        simp
      · rw [hbits, List.mem_singleton.1 hr]
        simp
      · rw [hbits, hi, Bool.true_or]
    exact ⟨hentered, hrest _ hentered (by rw [hctl]; simp)⟩

theorem State.poisons_poisoned {sp : Nat} {os : List Nat} : ∀ {s : State}, s.MayPoison sp os → s.Poisoned (s.poisons sp os) sp os := by
  induction os with
  | nil => exact fun {s} _ => State.Poisoned.nil s sp
  | cons o os ih =>
    intro s h
    obtain ⟨hone, hmay⟩ := State.poisoned_one h
    have hrest := ih hmay
    rw [State.poisons, List.foldl_cons]
    change State.Poisoned s (State.poisons (if s.memCtl.poison.contains (s.dataKey sp o) then s else s.poisonLine sp o false none) sp os) sp (o :: os)
    generalize (if s.memCtl.poison.contains (s.dataKey sp o) then s else s.poisonLine sp o false none) = u at hone hrest ⊢
    obtain ⟨poison, hctl⟩ := hone.memCtl
    obtain ⟨poison', hctl'⟩ := hrest.memCtl
    refine ⟨⟨poison', by rw [hctl', hctl]⟩, fun k => ?_, fun r hr hnot => ?_, fun i hi => hrest.holds i (hone.holds i hi),
      State.keeps_trans hone.keeps hrest.keeps⟩
    · rw [hrest.mem_poison, hone.mem_poison]
      simp [hone.dataKey, or_assoc]
    · rcases List.mem_cons.1 hr with rfl | hr'
      · exact hrest.holds _ (hone.sets _ (List.mem_singleton.2 rfl) hnot)
      · refine hrest.sets r hr' fun hmem => ?_
        rw [hone.dataKey, hone.mem_poison] at hmem
        obtain ⟨q, hq, hkey⟩ := hmem.resolve_left hnot
        rw [List.mem_singleton.1 hq] at hkey
        exact (List.pairwise_cons.1 h.keys).1 r hr' hkey.symm

-- ## Scrub reads that waited (log 178)

/-- With nothing stored uncorrectable they leave the places of units and the poison tables as they are. -/
theorem State.issueScrubs_idle {s : State} (hcorrupt : s.memCtl.corrupt = []) :
    s.keeps s.issueScrubs [.memCtl, .draws] ∧ s.issueScrubs.memCtl.relocated = s.memCtl.relocated ∧
      s.issueScrubs.memCtl.poison = s.memCtl.poison := by
  have hfold : ∀ (keys : List Nat) (u : State), u.memCtl.corrupt = [] →
      let t := keys.foldl (fun s key => if s.serves (key / 256) (channelLine (key / 256) (key % 256) 0) then
        s.scrubRead (key / 256) (key % 256) .clean .clean else s) u
      u.keeps t [.memCtl, .draws] ∧ t.memCtl.relocated = u.memCtl.relocated ∧ t.memCtl.poison = u.memCtl.poison := by
    intro keys
    induction keys with
    | nil => exact fun u _ => ⟨u.keeps_refl _, rfl, rfl⟩
    | cons key keys ih =>
      intro u hu
      dsimp only
      rw [List.foldl_cons]
      split
      · obtain ⟨draws, buf, reads, writes, hread⟩ := State.scrubRead_clean (s := u) (key / 256) (key % 256) hu
        rw [hread]
        obtain ⟨hkeeps, hrelocated, hpoison⟩ := ih { u.scrubMoved (key / 256) (key % 256) with
          draws := draws
          memCtl := { (u.scrubMoved (key / 256) (key % 256)).memCtl with checkBuf := buf, checkReads := reads, checkWrites := writes } } hu
        refine ⟨State.keeps_trans ?_ hkeeps, hrelocated, hpoison⟩
        exact State.keeps_step (State.keeps_mono (u.keeps_memCtl { (u.scrubMoved (key / 256) (key % 256)).memCtl with
          checkBuf := buf, checkReads := reads, checkWrites := writes }) (by decide)) (State.keeps_draws _ draws)
      · exact ih u hu
  exact hfold s.memCtl.scrubWait s hcorrupt

-- ## The lines of a relocation that were found bad

theorem mem_foundBad {sp o : Nat} {us bad : List Nat} : o ∈ foundBad sp us bad ↔ (∃ b ∈ bad, b / 64 * 64 = o) ∧ unitOf sp o ∈ us := by
  simp [foundBad]

theorem foundBad_length_le (sp : Nat) (us bad : List Nat) : (foundBad sp us bad).length ≤ bad.length :=
  ((List.dedup_sublist _).length_le).trans ((List.length_filter_le _ _).trans (List.length_map _).le)

section
variable {s : State} {sp g : Nat} {us : List Nat}

/-- No other offset has the key of a line that moved. -/
theorem State.movesUnits_dataKey_inj {o o' : Nat} (ho : o < 2 ^ 48) (hu : unitOf sp o' ∈ us)
    (h : (s.movesUnits sp g us).dataKey sp o = (s.movesUnits sp g us).dataKey sp o') : o = o' := by
  rw [State.movesUnits_dataKey_new hu] at h
  unfold State.dataKey spaceKey at h
  split at h <;> omega

theorem State.movesUnits_mayPoison {bad : List Nat} (hroom : s.memCtl.poison.length + bad.length < 4096)
    (hreact : ∀ u ∈ us, bad = [] ∨ s.react (unitSource (unitClass sp) u).1 = 0) (hlog : bad = [] ∨ s.bit .knotLogCtl 4 = false) :
    (s.movesUnits sp g us).MayPoison sp (foundBad sp us bad) := by
  have hkeeps := s.movesUnits_keeps sp g us
  refine ⟨?_, fun o ho => ?_, fun o ho => ?_, ?_, ?_⟩
  · have hlen := foundBad_length_le sp us bad
    rw [State.movesUnits_memCtl.2.1, List.length_map]
    omega
  · obtain ⟨⟨b, -, rfl⟩, -⟩ := mem_foundBad.1 ho
    omega
  · obtain ⟨⟨b, hb, -⟩, hu⟩ := mem_foundBad.1 ho
    exact (State.react_of_keeps hkeeps (by decide) _).trans ((hreact _ hu).resolve_left (List.ne_nil_of_mem hb))
  · exact hlog.imp (fun h => by rw [h]; rfl) fun h => (State.bit_of_keeps hkeeps (by decide) _ _).trans h
  · have hnodup : (foundBad sp us bad).Nodup := List.nodup_dedup _
    refine (List.Pairwise.and_mem.1 hnodup).imp ?_
    rintro a b ⟨ha, hb, hne⟩ hkey
    rw [State.movesUnits_dataKey_new (mem_foundBad.1 ha).2, State.movesUnits_dataKey_new (mem_foundBad.1 hb).2] at hkey
    exact hne (Nat.add_left_cancel hkey)

end

-- ## O19

/-- What a relocation leaves behind the units' new place: the lines found bad entered, and waiting scrub reads made. -/
structure State.Relocated (u t : State) (sp : Nat) (os : List Nat) : Prop where
  rd : ∀ k, t.rd k = u.rd k
  dataKey : ∀ o, t.dataKey sp o = u.dataKey sp o
  mem_poison : ∀ k, k ∈ t.memCtl.poison ↔ k ∈ u.memCtl.poison ∨ ∃ o ∈ os, k = u.dataKey sp o
  sets : ∀ o ∈ os, u.dataKey sp o ∉ u.memCtl.poison → bitAt t.knot.word (unitSource (unitClass sp) (unitOf sp o)).1 = true
  keeps : u.keeps t [.memCtl, .units, .knot, .draws]
  keeps_nil : os = [] → u.keeps t [.memCtl, .draws]

theorem State.poisons_relocated {u : State} {sp : Nat} {os : List Nat} (h : u.MayPoison sp os) (hcorrupt : u.memCtl.corrupt = []) :
    u.Relocated (settle (u.poisons sp os).issueScrubs) sp os := by
  have hpoisoned := State.poisons_poisoned h
  obtain ⟨poison, hctl⟩ := hpoisoned.memCtl
  obtain ⟨hscrubs, hrelocated, htable⟩ := State.issueScrubs_idle (s := u.poisons sp os) (by rw [hctl]; exact hcorrupt)
  have hkeeps : u.keeps (u.poisons sp os).issueScrubs [.memCtl, .units, .knot, .draws] :=
    State.keeps_trans (State.keeps_mono hpoisoned.keeps (by decide)) (State.keeps_mono hscrubs (by decide))
  have hknot : (u.poisons sp os).issueScrubs.knot = (u.poisons sp os).knot := hscrubs .knot (by decide)
  refine ⟨fun k => (settle_rd _ k).trans (hkeeps .mem (by decide) k), fun o => ?_, fun k => ?_, fun o ho hnot => ?_, State.keeps_settled hkeeps, ?_⟩
  · rw [← hpoisoned.dataKey, State.dataKey, settle_memCtl, hrelocated, State.dataKey]
  · rw [settle_memCtl, htable]
    exact hpoisoned.mem_poison k
  · rw [settle_knot, hknot]
    exact hpoisoned.sets o ho hnot
  · rintro rfl
    exact State.keeps_settled hscrubs

/-- Settles O19: the bytes and the tables after the move, then the lines found bad one by one, then the scrub reads that waited. -/
theorem relocationKeepsEveryByte : Obligations.RelocationKeepsEveryByte := by
  unfold Obligations.RelocationKeepsEveryByte
  intro s tier2 g sp bad hsp hg hwf hrel hcorrupt hroom hquiet hunused
  have hsp1 : sp ≤ 1 := by cases tier2 <;> subst hsp <;> decide
  have hgroup : g < if sp = 0 then 32 else 16 := by cases tier2 <;> subst hsp <;> exact hg
  have hin : ∀ o, g * groupBytes sp ≤ o → o < (g + 1) * groupBytes sp → InGroup sp g o := fun o => InGroup.mk hsp1 hgroup
  have hfresh : ∀ u ∈ s.newlyRetired sp g, s.memCtl.relocated.contains (65536 * unitClass sp + u) = false := fun u => State.newlyRetired_fresh
  have hpoison : ∀ o, o < 2 ^ 48 → ((s.movesUnits sp g (s.newlyRetired sp g)).dataKey sp o ∈ (s.movesUnits sp g (s.newlyRetired sp g)).memCtl.poison ↔
      s.dataKey sp o ∈ s.memCtl.poison) := fun o ho =>
    State.movesUnits_poison hsp1 ho hfresh fun h => by simpa using hunused o ho h
  have hmoves := s.movesUnits_keeps sp g (s.newlyRetired sp g)
  have hmay := State.movesUnits_mayPoison (s := s) (sp := sp) (g := g) (us := s.newlyRetired sp g) (bad := bad) hroom
    (fun u hu => hquiet.imp id fun h => by
      obtain ⟨hlo, hhi⟩ := State.newlyRetired_source hsp1 hgroup hu
      exact h.1 _ hlo hhi)
    (hquiet.imp id And.right)
  have hdone := State.poisons_relocated hmay (by rw [State.movesUnits_memCtl.2.2, hcorrupt]; rfl)
  have hexec : exec (.relocationComplete tier2 g bad) s =
      finish ((s.movesUnits sp g (s.newlyRetired sp g)).poisons sp (foundBad sp (s.newlyRetired sp g) bad)).issueScrubs := by
    rw [← relocationDone_eq bad hrel hcorrupt, hsp]
    rfl
  refine State.gives_of_finish hexec ⟨fun o hlo hhi => ?_, fun o hlo hhi hline => ?_, fun b hb hlt hgb hretired hnot hclean => ?_, fun hnil => ?_, ?_⟩
  · rw [hdone.rd, hdone.dataKey, State.movesUnits_rd_dataKey hwf (hin o hlo hhi) hfresh]
  · have hlt := (hin o hlo hhi).lt
    have hunit := State.mem_newlyRetired (s := s) hsp1 (hin o hlo hhi).groupOf
    have hbad : (∃ r ∈ foundBad sp (s.newlyRetired sp g) bad, (s.movesUnits sp g (s.newlyRetired sp g)).dataKey sp o =
        (s.movesUnits sp g (s.newlyRetired sp g)).dataKey sp r) ↔ o ∈ foundBad sp (s.newlyRetired sp g) bad :=
      ⟨fun ⟨r, hr, hkey⟩ => State.movesUnits_dataKey_inj hlt (mem_foundBad.1 hr).2 hkey ▸ hr, fun h => ⟨o, h, rfl⟩⟩
    rw [Bool.eq_iff_iff, List.contains_iff_mem, hdone.dataKey, hdone.mem_poison, hpoison o hlt, hbad, mem_foundBad, hunit]
    simp only [Bool.or_eq_true, Bool.and_eq_true, List.contains_iff_mem, List.any_eq_true, beq_iff_eq, Bool.not_eq_true']
    exact or_congr_right and_comm
  · have hunit := unitOf_line hsp1 b
    have hmember : b / 64 * 64 ∈ foundBad sp (s.newlyRetired sp g) bad := by
      refine mem_foundBad.2 ⟨⟨b, hb, rfl⟩, ?_⟩
      rw [hunit]
      exact (State.mem_newlyRetired hsp1 hgb).2 ⟨hretired, hnot⟩
    have hset := hdone.sets _ hmember fun hmem => by
      have := (hpoison (b / 64 * 64) (by omega)).1 hmem
      simp [this] at hclean
    rwa [hunit] at hset
  · subst hnil
    have htables := hdone.keeps_nil rfl
    exact State.keeps_trans (State.keeps_mono hmoves (by decide)) (State.keeps_mono htables (by decide))
  · have htables := hdone.keeps
    exact State.keeps_trans (State.keeps_mono hmoves (by decide)) (State.keeps_mono htables (by decide))

end Sys2Proof.Machine
end
